-- ==== Sys2Proof/Word.lean ====
section
/-!
DEFINITION. Sys2Proof/Word.lean: the word types of the KV4096 model.
Bit vectors hold what the manual numbers as bits (R10); counts, lengths and indexes are natural numbers.
-/
namespace Sys2Proof

/-- A byte of host memory, applet SRAM or a gathered buffer. -/
abbrev Byte := BitVec 8

/-- A 32-bit register, a Rink-core general register or an internal address. -/
abbrev Word := BitVec 32

/-- A 64-bit field: a cookie, a counter, a host address. -/
abbrev DWord := BitVec 64

/-- A byte string, first byte first. -/
abbrev Bytes := List Byte

/-- A table by number: keys strictly rising, no entry equal to the table's default (see `Tbl.wf`). -/
abbrev Tbl (α : Type) := List (Nat × α)

/-- A length of time, or a moment of the time base of R41, in picoseconds: every figure of R76 is a whole number of
them, and a division by a link rate is rounded up to the next one (log entry 8). -/
abbrev Pico := Nat

end Sys2Proof
end

