-- ==== Sys2Proof/Syntax.lean ====
section
/-!
DEFINITION. Sys2Proof/Syntax.lean: the commands and events of spec/opcode_table.json, one constructor per row, and the
shapes of their operands.  What an operand carries comes from outside the part: the host's link, the card, the pins,
the silicon's own timing (which unit finishes when) and what a physical sensor reads.
-/
namespace Sys2Proof

/-- A ring: host ring 0 to 63 (R103) or internal ring I0 to I31 (R347). -/
inductive RingId where
  | host (n : Nat)
  | internal (n : Nat)
  deriving DecidableEq, Repr

/-- The kinds of unit that R22 numbers and the Gate places work on. -/
inductive UnitKind where
  | edge | blade | lift | hash | groomer
  deriving DecidableEq, Repr

/-- One unit of R22. -/
structure UnitRef where
  kind : UnitKind
  num : Nat
  deriving DecidableEq, Repr

/-- A 64-byte descriptor as fetched (R113), byte i in bits 8i+7..8i. -/
abbrev Descriptor := BitVec 512

/-- A 128-byte command block as gathered (R152), byte i in bits 8i+7..8i. -/
abbrev CmdBlock := BitVec 1024

/-- A descriptor arriving in staging (R113, R117).  `pick` is the job tag the part happens to take when it is free
(R124 fixes none); on an internal ring the descriptor is read from applet SRAM and `desc` is not used (R347). -/
structure Arrival where
  ring : RingId
  index : Nat
  desc : Descriptor
  pick : Nat
  deriving DecidableEq, Repr

/-- What a critical command gathers (R154 stage 2): its command block and its source buffer, which is empty where the
command names none. -/
structure CritData where
  block : CmdBlock
  source : Bytes
  deriving DecidableEq, Repr

/-- The items a job reads from memory (R119, R137, R439). -/
inductive GatherItem where
  | srcList | dstList | source | block | readback
  deriving DecidableEq, Repr

/-- How a read request failed (R87), in the KIND encoding of R93. -/
inductive ReadFault where
  | ur | ca | timeout | poisoned
  deriving DecidableEq, Repr

/-- What a flush reads of a descriptor (R136): its COOKIE and its NO_IRQ (R130), or a failed read. -/
inductive FlushRead where
  | cookie (c : BitVec 64) (noIrq : Bool)
  | failed (kind : ReadFault)
  deriving DecidableEq, Repr

/-- The two register spaces of a register write: BAR0 (R91) and the peripheral registers of the internal map (R35). -/
inductive RegSpace where
  | bar0 | peripheral
  | config   -- configuration space: registers of R80 and R81 without a row of their own (log entry 77)
  deriving DecidableEq, Repr

/-- A register whose read latches its upper half (R174 has a row of its own). -/
inductive HiLo where
  | trkHead | trkRel | trkExportLast | hutTime | almWoTime | ptlLockSeq
  deriving DecidableEq, Repr

/-- A write of the MSI-X controls that R90 acts on: those that let a pending message go, and their counterparts. -/
inductive MsixOp where
  | unmaskVector (v : Nat)
  | clearFunctionMask
  | setEnable
  | setFunctionMask
  | clearEnable
  deriving DecidableEq, Repr

/-- A main rail of R495. -/
inductive Rail where
  | vcore | vmem | vnvm | vio | vcio | vpe | vpeh
  deriving DecidableEq, Repr

/-- The condition of one stored word as a port finds it (R377, R378, R380). -/
inductive WordCond where
  | clear          -- SRAM valid 0, or MRAM EMPTY
  | good
  | correctable
  | writing        -- MRAM WRITING: a torn word
  | uncorrectable  -- more errors than the code corrects, or a flag at distance 2 from every codeword
  | poisoned       -- the settled form of R388
  deriving DecidableEq, Repr

/-- A health failure of one cell (R296, R297). -/
inductive HealthTest where
  | startup | repetition | proportion
  deriving DecidableEq, Repr

/-- A Vault slot: V0 to V31 or K0 to K255 (R190, R191). -/
inductive SlotRef where
  | root (n : Nat)
  | priv (n : Nat)
  deriving DecidableEq, Repr

/-- What the card bus brings (R473, R483, R487): the fields of a response or a block that the port acts on. -/
inductive CardResp where
  /-- a correct response to the command in progress: the R1 state, READY_FOR_DATA, the R1 error bit, and the 32
  argument bits of an R3 or R7 response -/
  | response (state : Nat) (ready : Bool) (error : Bool) (arg : Word)
  /-- a response whose CRC is wrong -/
  | badCrc
  /-- the registers that identification step 3 collects (CMD2, CMD3, CMD9) -/
  | ident (cid : BitVec 128) (rca : BitVec 16) (csd : BitVec 128) (blocks : Nat)
  /-- SCR of step 6, and whether it offers 4 bits -/
  | scr (scr : DWord) (wide : Bool)
  /-- switch status of step 8: does it offer and report function 1 -/
  | switchStatus (offered : Bool) (switched : Bool)
  /-- a 512-byte data block with a correct CRC -/
  | block (data : Bytes)
  /-- a data block, or a CRC status token, that reports an error -/
  | dataError
  /-- the count of well-written blocks (ACMD22) -/
  | wellWritten (n : Nat)
  deriving DecidableEq, Repr

/-- The outcome of the work of RESET_DEASSERT that physical silicon decides (R394, R446, R453, R501 to R503). -/
structure StartInputs where
  hutAnswers : Bool                    -- step 1: the Hut domain answers the handover
  splitLatches : List Nat              -- R446: latches without a majority: 0 LOCKED, 1 PURGED, 2 Raze-pending, 3 Whiteout
  tornWords : List (Nat × Nat)         -- R394: (bank, word) found WRITING
  badWords : List (Nat × Nat)          -- R394: (bank, word) found uncorrectable
  recordLost : Bool                    -- R394: both copies of an authority or life-cycle record
  mapsDisagree : Bool                  -- R386: no two copies of a retirement map agree
  razeReadBackFails : Bool             -- code 0x31
  tornEntries : Nat                    -- R432: torn Tracks entries beyond the head
  damagedHut : List Nat                -- R453: 4 × index + word of Hut-buffer words that read uncorrectable
  detectorsFailing : List Nat          -- R407: sources whose stimulus fails
  katFails : List UnitRef              -- R230, R262, R303, R502: units that fail their vectors
  conditionerFails : Bool              -- R303
  healthFailures : List (Nat × HealthTest)  -- R312: health failures within steps 6 and 7, in order
  blocks : List Bytes                  -- R301: released blocks, 32 bytes each, in order
  provisioningKey : Bytes              -- R509: the scalar drawn for K255 in FACTORY
  romMatches : Bool                    -- step 9: the runtime's ROM digest
  tenMicros : Nat                      -- R513: LC_START_TIME
  interrupted : Option Nat             -- R501: the last step completed before a reset abandons the start-up
  deriving DecidableEq, Repr

/-- One command or event: a row of spec/opcode_table.json. -/
inductive Instr where
  -- host accesses and descriptor fetch (R41, R44, R89, R109, R137)
  | doorbell (ring : Nat) (value : Word)
  | bar2BadAccess (write : Bool)
  | bar0BadAccess
  | registerWrite (space : RegSpace) (offset : Nat) (value : Word)
  | fetchAllowanceFreed
  | descriptorReadFault (ring : RingId) (index : Nat) (kind : ReadFault) (addr : DWord) (pick : Nat)
  -- job descriptors (R115)
  | sesEncrypt (a : Arrival)
  | sesDecrypt (a : Arrival)
  | sesMacGen (a : Arrival)
  | sesMacVerify (a : Arrival)
  | hash (a : Arrival)
  | rngOut (a : Arrival)
  | ecdsaSign (a : Arrival)
  | ecdsaVerify (a : Arrival)
  | ecKeygen (a : Arrival)
  | ecdh (a : Arrival)
  | eddsaSign (a : Arrival)
  | eddsaVerify (a : Arrival)
  | xdh (a : Arrival)
  | rsaVerify (a : Arrival)
  | rsaSign (a : Arrival)
  | cardRead (a : Arrival)
  | cardWrite (a : Arrival)
  | cardMailbox (a : Arrival)
  | cardInfo (a : Arrival)
  | trkExport (a : Arrival)
  -- critical commands (R165); `g` carries what stage 2 gathers when the command runs whole in this step
  | whiteoutEnter (a : Arrival) (g : Option CritData)
  | evacuate (a : Arrival) (g : Option CritData)
  | alert (a : Arrival) (g : Option CritData)
  | whiteoutExit (a : Arrival) (g : Option CritData)
  | unlock (a : Arrival) (g : Option CritData)
  | authSet (a : Arrival) (g : Option CritData)
  | authDisable (a : Arrival) (g : Option CritData)
  | rootImport (a : Arrival) (g : Option CritData)
  | rootErase (a : Arrival) (g : Option CritData)
  | privImport (a : Arrival) (g : Option CritData)
  | privErase (a : Arrival) (g : Option CritData)
  | curveLoad (a : Arrival) (g : Option CritData)
  | appletLoad (a : Arrival) (g : Option CritData)
  | appletRemove (a : Arrival) (g : Option CritData)
  | levelRaise (a : Arrival) (g : Option CritData)
  | razeEnable (a : Arrival) (g : Option CritData)
  | alarmConfig (a : Arrival) (g : Option CritData)
  | ctrAssign (a : Arrival) (g : Option CritData)
  | debugUnlock (a : Arrival) (g : Option CritData)
  | lcAdvance (a : Arrival) (g : Option CritData)
  | trkReceipt (a : Arrival) (g : Option CritData)
  | sesSet (a : Arrival) (g : Option CritData)
  | sesClear (a : Arrival) (g : Option CritData)
  -- the course of a job
  | criticalBarrierRelease (tag : Nat)
  | gatherDataArrival (tag : Nat) (item : GatherItem) (data : Bytes)
  | readCompletionTimeout (tag : Nat) (req : Nat) (addr : DWord)
  | readFailed (tag : Nat) (kind : ReadFault) (addr : DWord)
  | pcieCompletionTimeout (req : Nat)
  | writeCreditTimeout (tag : Nat) (addr : DWord)
  | liftDerivationDone (tag : Nat)
  | vaultArbiterGrant (tag : Nat)
  | preemptionPoint (u : UnitRef)
  | bladeJobDone (tag : Nat)
  | edgeJobDone (tag : Nat)
  | hashJobDone (tag : Nat)
  | groomerDrawDone (groomer : Nat)
  | completionEntryWrite (tag : Nat)
  -- units, faults and takeover
  | unitWatchdogStall (u : UnitRef) (place : Nat) (operand : Bool) (badSlots : List Nat)
  | paceSlip (edge : Nat) (badSlots : List Nat)
  | edgeSlotCopyDone (edge : Nat)
  | unitVectorsDone (u : UnitRef) (pass : Bool)
  | vaultRetiringErase (slot : SlotRef) (gen : Nat)
  -- temperature, speed and envelope
  | tjEvaluation (tj : Int) (slew : Nat)
  | bandDownHoldExpiry
  | slewReopenExpiry
  | hoursExceeded
  | splitMonitorMeasurement (si : List Nat)
  | derateHoldExpiry
  -- register commands with rows of their own
  | lcSeal (value : Word)
  | ringEnable (ring : Nat)
  | ringDisable (ring : Nat)
  | ringRearm (ring : Nat)
  | ringRearmFlush (ring : Nat) (reads : List FlushRead)
  | ringPortDb (applet : Nat) (value : Word)
  | ringPortEnable (applet : Nat)
  | ringPortDisable (applet : Nat)
  | ringPortRearm (applet : Nat)
  | ringPortRearmFlush (applet : Nat)
  | bladeEnable (num : Nat)
  | bladeDisable (num : Nat)
  | edgeEnable (num : Nat)
  | edgeDisable (num : Nat)
  | slotLenWrite (value : Nat)
  | cardEnable
  | cardDisable
  | pwdTestWrite (value : Word)
  | pwdTestDataWrite (value : Word)
  | pwdRawRead (sample : Word)
  | ctrValueRead
  | sesSumRead
  | vltStatRead
  | edgeSelRead
  | edgeCurveStatRead
  | ptlSrcSelRead
  | hiHalfLatchRead (which : HiLo)
  | rsfSelRead (weak : Bool)
  | lcProvStatRead
  | evtRingHeadWrite (value : Word)
  | telHeadWrite (value : Word)
  | evtRingEnable (depthLog2 : Nat)
  | telRingEnable (depthLog2 : Nat)
  -- the link
  | msixUnmask (op : MsixOp)
  | bmeClear
  | d3hotEntry
  | d3hotToD0
  | functionLevelReset
  | hotReset (linkDown : Bool)
  | linkUp (gen width : Nat)
  | linkChange (gen width : Nat)
  -- resets and the test port
  | porstNAssert (micros : Nat)
  | perstNAssert (micros : Nat)
  | resetDeassert (inputs : StartInputs)
  | lcInit (value : Byte)
  | debugAccess (write : Bool) (addr : Word) (data : Word)
  | debugAccessTimeout
  | debugUnlockExpiry
  | puDbgArmWrite (value : Word)
  | puDbgResumeWrite (value : Word)
  | protectionEntryWrite (core : Nat) (grant : Bool) (set entry : Nat) (word0 word1 : Word) (inFlight : Bool)
  | puTagCountWrite (core : Nat) (count : Word) (inFlight : Bool)
  | ruleChangeDrainComplete (ticks : Nat)
  -- the Rink cores (R328); `core` is the core that executes the instruction at its PC
  | add (core : Nat) (rd rs1 rs2 : Fin 16)
  | sub (core : Nat) (rd rs1 rs2 : Fin 16)
  | and (core : Nat) (rd rs1 rs2 : Fin 16)
  | or (core : Nat) (rd rs1 rs2 : Fin 16)
  | xor (core : Nat) (rd rs1 rs2 : Fin 16)
  | sll (core : Nat) (rd rs1 rs2 : Fin 16)
  | srl (core : Nat) (rd rs1 rs2 : Fin 16)
  | sra (core : Nat) (rd rs1 rs2 : Fin 16)
  | mul (core : Nat) (rd rs1 rs2 : Fin 16)
  | mulhu (core : Nat) (rd rs1 rs2 : Fin 16)
  | divu (core : Nat) (rd rs1 rs2 : Fin 16)
  | remu (core : Nat) (rd rs1 rs2 : Fin 16)
  | slt (core : Nat) (rd rs1 rs2 : Fin 16)
  | sltu (core : Nat) (rd rs1 rs2 : Fin 16)
  | csel (core : Nat) (rd rs1 rs2 rs3 : Fin 16)
  | mask (core : Nat) (rd rs1 : Fin 16)
  | addi (core : Nat) (rd rs1 : Fin 16) (imm : BitVec 16)
  | andi (core : Nat) (rd rs1 : Fin 16) (imm : BitVec 16)
  | ori (core : Nat) (rd rs1 : Fin 16) (imm : BitVec 16)
  | xori (core : Nat) (rd rs1 : Fin 16) (imm : BitVec 16)
  | slli (core : Nat) (rd rs1 : Fin 16) (imm : BitVec 16)
  | srli (core : Nat) (rd rs1 : Fin 16) (imm : BitVec 16)
  | srai (core : Nat) (rd rs1 : Fin 16) (imm : BitVec 16)
  | slti (core : Nat) (rd rs1 : Fin 16) (imm : BitVec 16)
  | sltiu (core : Nat) (rd rs1 : Fin 16) (imm : BitVec 16)
  | lui (core : Nat) (rd : Fin 16) (imm : BitVec 16)
  | lb (core : Nat) (rd rs1 : Fin 16) (imm : BitVec 16)
  | lbu (core : Nat) (rd rs1 : Fin 16) (imm : BitVec 16)
  | lh (core : Nat) (rd rs1 : Fin 16) (imm : BitVec 16)
  | lhu (core : Nat) (rd rs1 : Fin 16) (imm : BitVec 16)
  | lw (core : Nat) (rd rs1 : Fin 16) (imm : BitVec 16)
  | ldd (core : Nat) (rd rs1 : Fin 16) (imm : BitVec 16)
  | sb (core : Nat) (rt rs1 : Fin 16) (imm : BitVec 16)
  | sh (core : Nat) (rt rs1 : Fin 16) (imm : BitVec 16)
  | sw (core : Nat) (rt rs1 : Fin 16) (imm : BitVec 16)
  | sdd (core : Nat) (rt rs1 : Fin 16) (imm : BitVec 16)
  | beq (core : Nat) (rs1 rs2 : Fin 16) (off : BitVec 18)
  | bne (core : Nat) (rs1 rs2 : Fin 16) (off : BitVec 18)
  | blt (core : Nat) (rs1 rs2 : Fin 16) (off : BitVec 18)
  | bge (core : Nat) (rs1 rs2 : Fin 16) (off : BitVec 18)
  | bltu (core : Nat) (rs1 rs2 : Fin 16) (off : BitVec 18)
  | bgeu (core : Nat) (rs1 rs2 : Fin 16) (off : BitVec 18)
  | wait (core : Nat)
  | jal (core : Nat) (off : BitVec 26)
  | jalr (core : Nat) (rd rs1 : Fin 16) (imm : BitVec 16)
  | brk (core : Nat) (imm : BitVec 16)
  | mfs (core : Nat) (rd : Fin 16) (imm : BitVec 16)
  | mts (core : Nat) (rs1 : Fin 16) (imm : BitVec 16)
  | fence (core : Nat)
  | eret (core : Nat)
  | illegalInstruction (core : Nat) (word : Word)
  -- service calls (R344)
  | svcUnknown (core : Nat) (number : BitVec 16)
  | waitEvent (core : Nat)
  | yield (core : Nat)
  | ringConfig (core : Nat)
  | ctrRead (core : Nat)
  | ctrIncrement (core : Nat)
  | eventSignal (core : Nat)
  | trkAppend (core : Nat)
  | timerSet (core : Nat)
  -- applets and scheduling
  | appletTimerExpiry (applet : Nat)
  | sliceEnd (core : Nat)
  | coreDispatch (core : Nat)
  | appletStartComplete (applet : Nat) (imageReadable : Bool)
  | appletRingDisabled (applet : Nat)
  | randomRefillArrival (core : Nat)
  -- Patrol
  | detectorTrip (source : Nat) (detA detB : Bool)
  | razeComplete
  | sourceClearExpiry (source : Nat)
  | disagreement (source : Nat) (detA detB : Bool)
  | detectorStimulus (failing : List Nat)
  | railEnvelopeChange (rail : Rail) (inRange : Bool)
  -- the Hut and the alarm lines
  | hutTrip (source : Nat) (detA detB : Bool) (tj : Int) (vbat1 vbat2 : Nat)
  | hutSupplySwitch (vio : Bool) (vbat1 vbat2 : Nat)
  | alarmInputStateChange (input : Nat)
  -- Powder and the Groomers
  | powderStartupPass
  | healthFailure (cell : Nat) (test : HealthTest)
  | aptWindowComplete (ones : List Nat) (maxRun : List Nat)
  | conditioningDone (raw : Bytes)
  | groomerInstantiated (groomer : Nat)
  | reseedDue (groomer : Nat)
  | forcedReseed (groomer : Nat)
  | reseedDone (groomer : Nat)
  | maskingRefresh (generator : Nat)
  | trimServoStep (cell : Nat) (ones : Nat)
  | trimLimit (cell : Nat)
  -- stored data
  | scrubWord (bank word : Nat) (found : WordCond)
  | correctionWriteBack (bank word : Nat)
  | retirementComplete (bank row : Nat)
  | clearQueueOverwrite (bank : Nat)
  -- the card port
  | cardRemoval
  | cardInsertion
  | cardOffTimeEnd
  | cardPowerRampEnd
  | cardCommandResponse (r : CardResp)
  | cardResponseTimeout
  | cardBusyRelease
  | cardAllowanceExpiry
  | mailboxPoll
  | cardUnlockFlow
  | cardPortFault
  -- events and telemetry
  | eventRecordWrite
  | eventHoldExpiry (source : Nat)
  | coalesceIntervalEnd (vector : Nat)
  | telemetryRecord (busy : List Nat)
  | opcodeAbsentDescriptor (a : Arrival)
  | deviceControlWrite (mps mrrs : Nat) (extendedTag relaxedOrdering : Bool)
  | alarmInputSample (levels : List Nat) (vrefMillivolts : Nat)
  | backupTemperatureRead (tj : Int)
  -- rows without operands stand last: compiled code holds at most 244 constructors that carry operands
  | postedWriteCreditReturn
  | acmd41RepeatInterval
  | longCreditRefill
  | shortCreditRefill
  | unlockHalfExpiry
  | crystalStop
  | crystalResume
  | restartConfirmed
  | wearCountSave
  | retentionAgeTick
  | retentionAgeHourly
  | tracksAppend
  | busMasterEnableSet
  deriving DecidableEq, Repr

end Sys2Proof
end

