-- ==== Sys2Proof/Machine/Bits.lean ====
section
/-!
DEFINITION. Sys2Proof/Machine/Bits.lean: bytes, integers and tables: the helpers every chapter uses.
-/
namespace Sys2Proof.Machine

/-- Division rounded up; a division by 0 answers 0. -/
def ceilDiv (a b : Nat) : Nat := (a + b - 1) / b

/-- A count that saturates at `top`. -/
def satAdd (top a b : Nat) : Nat := min top (a + b)

/-- The 32-bit saturating counters of the register tables. -/
def sat32 (a : Nat) : Nat := satAdd 0xFFFFFFFF a 1

/-- The 16-bit saturating counters of the register tables. -/
def sat16 (a : Nat) : Nat := satAdd 0xFFFF a 1

/-- 1 for true (R13). -/
def bitNat (b : Bool) : Nat := if b then 1 else 0

/-- Bits hi..lo of a number. -/
def bitsOf (v hi lo : Nat) : Nat := v / 2 ^ lo % 2 ^ (hi + 1 - lo)

/-! ### Byte order (R10, R11) -/

/-- The low n bytes of v, least significant first (R10). -/
def bytesLE : Nat → Nat → Bytes
  | 0, _ => []
  | n + 1, v => BitVec.ofNat 8 v :: bytesLE n (v / 256)

/-- The low n bytes of v, most significant first (R11). -/
def bytesBE (n v : Nat) : Bytes := (bytesLE n v).reverse

/-- The number whose bytes these are, least significant first. -/
def natLE : Bytes → Nat
  | [] => 0
  | b :: t => b.toNat + 256 * natLE t

/-- The number whose bytes these are, most significant first. -/
def natBE (bs : Bytes) : Nat := natLE bs.reverse

/-- n bytes from offset o on; bytes beyond the end read as zero. -/
def slice (bs : Bytes) (o n : Nat) : Bytes :=
  let t := (bs.drop o).take n
  t ++ List.replicate (n - t.length) 0

/-- Exclusive-or of two byte strings, as long as the shorter. -/
def xorBytes (a b : Bytes) : Bytes := List.zipWith (· ^^^ ·) a b

/-- The bytes of a bit vector, byte i in bits 8i+7..8i. -/
def vecBytes (w : Nat) (v : BitVec w) : Bytes := bytesLE (w / 8) v.toNat

/-- Fixed-length pieces of n bytes, the last one as long as what is left; `fuel` bounds their number. -/
def chunksFuel : Nat → Nat → Bytes → List Bytes
  | 0, _, _ => []
  | f + 1, n, bs => if bs.isEmpty then [] else bs.take n :: chunksFuel f n (bs.drop n)

def chunks (n : Nat) (bs : Bytes) : List Bytes := chunksFuel bs.length n bs

/-- bs with zeros appended up to a multiple of 16. -/
def pad16 (bs : Bytes) : Bytes := bs ++ List.replicate ((16 - bs.length % 16) % 16) 0

/-! ### Tables by number -/

/-- The entry at key k; an unlisted one is the default. -/
def tblGet {α : Type} (d : α) : Tbl α → Nat → α
  | [], _ => d
  | (k', v) :: t, k => if k = k' then v else tblGet d t k

/-- The table with v listed at key k, in the place that the order of keys gives it. -/
def tblPut {α : Type} : Tbl α → Nat → α → Tbl α
  | [], k, v => [(k, v)]
  | (k', v') :: t, k, v =>
    if k < k' then (k, v) :: (k', v') :: t
    else if k = k' then (k, v) :: t
    else (k', v') :: tblPut t k v

/-- The table with v at key k; the default is not listed. -/
def tblSet {α : Type} [DecidableEq α] (d : α) (t : Tbl α) (k : Nat) (v : α) : Tbl α :=
  if v = d then t.filter (fun p => p.1 != k) else tblPut t k v

/-- The table with the entry at key k changed by f. -/
def tblMod {α : Type} [DecidableEq α] (d : α) (t : Tbl α) (k : Nat) (f : α → α) : Tbl α :=
  tblSet d t k (f (tblGet d t k))

/-- Every listed entry changed by f; `keys` adds keys whose default entry must change too. -/
def tblModAll {α : Type} [DecidableEq α] (d : α) (keys : List Nat) (t : Tbl α) (f : Nat → α → α) : Tbl α :=
  keys.foldl (fun u k => tblMod d u k (f k)) t

/-- Canonical form: every key is above lo, keys strictly rise and no entry is the default. -/
def tblWfFrom {α : Type} [DecidableEq α] (d : α) : Nat → Tbl α → Bool
  | _, [] => true
  | lo, (k, v) :: t => decide (lo ≤ k) && decide (v ≠ d) && tblWfFrom d (k + 1) t

def tblWf {α : Type} [DecidableEq α] (d : α) (t : Tbl α) : Bool := tblWfFrom d 0 t

/-! ### Addressed memory: a table of bytes whose unlisted bytes read as zero (R380: EMPTY reads as zero) -/

/-- One byte. -/
def memRead (m : Tbl Byte) (a : Nat) : Byte := tblGet 0 m a

def memWrite (m : Tbl Byte) (a : Nat) (b : Byte) : Tbl Byte := tblSet 0 m a b

def memReadBytes (m : Tbl Byte) (a : Nat) : Nat → Bytes
  | 0 => []
  | n + 1 => memRead m a :: memReadBytes m (a + 1) n

def memWriteBytes (m : Tbl Byte) (a : Nat) : Bytes → Tbl Byte
  | [] => m
  | b :: t => memWriteBytes (memWrite m a b) (a + 1) t

/-- A little-endian value of n bytes (R10). -/
def memReadLE (m : Tbl Byte) (a n : Nat) : Nat := natLE (memReadBytes m a n)

/-- The memory with n bytes from a on erased to the reading of EMPTY, in one pass. -/
def memErase (m : Tbl Byte) (a n : Nat) : Tbl Byte := m.filter (fun c => decide (c.1 < a ∨ a + n ≤ c.1))

def Memory.wf (m : Tbl Byte) : Bool := tblWf 0 m

/-! ### Lists -/

/-- The first element that satisfies p, changed by f. -/
def modFirst {α : Type} (p : α → Bool) (f : α → α) : List α → List α
  | [] => []
  | a :: t => if p a then f a :: t else a :: modFirst p f t

/-- The largest of a list of numbers, 0 for none. -/
def maxOf (l : List Nat) : Nat := l.foldl max 0

/-- The smallest natural number below n that satisfies p. -/
def firstBelow (n : Nat) (p : Nat → Bool) : Option Nat := (List.range n).find? p

/-- The largest natural number below n that satisfies p. -/
def lastBelow (n : Nat) (p : Nat → Bool) : Option Nat := (List.range n).reverse.find? p

/-- Insertion into a list sorted by le. -/
def insertBy {α : Type} (le : α → α → Bool) (a : α) : List α → List α
  | [] => [a]
  | b :: t => if le a b then a :: b :: t else b :: insertBy le a t

/-- Insertion sort, stable. -/
def sortBy {α : Type} (le : α → α → Bool) : List α → List α
  | [] => []
  | a :: t => insertBy le a (sortBy le t)

/-- A bit vector with one bit set. -/
def bvSet {w : Nat} (v : BitVec w) (i : Nat) : BitVec w := v ||| BitVec.ofNat w (2 ^ i)

/-- A bit vector with one bit cleared. -/
def bvClear {w : Nat} (v : BitVec w) (i : Nat) : BitVec w := v &&& ~~~ BitVec.ofNat w (2 ^ i)

/-- Write-one-to-clear (R12). -/
def w1c {w : Nat} (v : BitVec w) (value : Nat) : BitVec w := v &&& ~~~ BitVec.ofNat w value

end Sys2Proof.Machine
end

