-- ==== Sys2Proof/Machine/Aes.lean ====
section
/-!
DEFINITION. Sys2Proof/Machine/Aes.lean: AES and its modes as the standards that R205, R201 and R231 name lay them down
(FIPS 197, SP 800-38A, B, C, D and F, SP 800-108).  The manual names the standards and does not repeat them (log entry 10).
-/
namespace Sys2Proof.Machine

/-! ### The block cipher (FIPS 197) -/

/-- Multiplication by x in GF(2⁸). -/
def xtime (b : Byte) : Byte := (b <<< 1) ^^^ (if b.msb then 0x1B else 0)

/-- The S-box of FIPS 197, entry i in bits 8i+7..8i. -/
def sboxTable : Nat :=
  0x16bb54b00f2d99416842e6bf0d89a18cdf2855cee9871e9b948ed9691198f8e19e1dc186b95735610ef6034866b53e708a8bbd4b1f74dde8c6b4a61c2e2578ba08ae7a65eaf4566ca94ed58d6d37c8e779e4959162acd3c25c2406490a3a32e0db0b5ede14b8ee4688902a22dc4f816073195d643d7ea7c41744975fec130ccdd2f3ff1021dab6bcf5389d928f40a351a89f3c507f02f94585334d43fbaaefd0cf584c4a39becb6a5bb1fc20ed00d153842fe329b3d63b52a05a6e1b1a2c830975b227ebe28012079a059618c323c7041531d871f1e5a534ccf73f362693fdb7c072a49cafa2d4adf04759fa7dc982ca76abd7fe2b670130c56f6bf27b777c63

/-- The inverse S-box of FIPS 197, entry i in bits 8i+7..8i. -/
def invSboxTable : Nat :=
  0x7d0c2155631469e126d677ba7e042b17619953833cbbebc8b0f52aae4d3be0a0ef9cc9939f7ae52d0d4ab519a97f51605fec8027591012b131c7078833a8dd1ff45acd78fec0db9a2079d2c64b3e56fc1bbe18aa0e62b76f89c5291d711af1476edf751ce837f9e28535ade72274ac9673e6b4f0cecff297eadc674f4111913a6b8a130103bdafc1020f3fca8f1e2cd00645b3b80558e4f70ad3bc8c00abd890849d8da75746155edab9edfd5048706c92b6655dcc5ca4d41698688664f6f87225d18b6d49a25b76b224d92866a12e084ec3fa420b954cee3d23c2a632947b54cbe9dec444438e3487ff2f9b8239e37cfbd7f3819ea340bf38a53630d56a0952

def sub8 (b : Byte) : Byte := BitVec.ofNat 8 (sboxTable >>> (8 * b.toNat))
def invSub8 (b : Byte) : Byte := BitVec.ofNat 8 (invSboxTable >>> (8 * b.toNat))

/-- Key expansion: the words in reverse order, newest first; `i` is the number of the next word. -/
def expandFuel : Nat → Nat → Nat → Byte → List Bytes → List Bytes
  | 0, _, _, _, ws => ws
  | f + 1, nk, i, rcon, ws =>
    let prev := ws.headD []
    let back := ws.getD (nk - 1) []
    if i % nk = 0 then
      let t := (prev.drop 1 ++ prev.take 1).map sub8
      let t := xorBytes t [rcon, 0, 0, 0]
      expandFuel f nk (i + 1) (xtime rcon) (xorBytes back t :: ws)
    else
      let t := if 6 < nk ∧ i % nk = 4 then prev.map sub8 else prev
      expandFuel f nk (i + 1) rcon (xorBytes back t :: ws)

/-- The round keys of a 16-, 24- or 32-byte key, first round first. -/
def roundKeys (key : Bytes) : List Bytes :=
  let nk := key.length / 4
  let ws := expandFuel (4 * (nk + 7) - nk) nk nk 1 (chunks 4 key).reverse
  chunks 16 ws.reverse.flatten

/-- Byte i of the state after ShiftRows. -/
def shiftRows (s : Bytes) : Bytes := (List.range 16).map (fun i => s.getD ((i + 4 * (i % 4)) % 16) 0)
def invShiftRows (s : Bytes) : Bytes := (List.range 16).map (fun i => s.getD ((i + 12 * (i % 4)) % 16) 0)

/-- MixColumns, a column at a time: 2a + 3b + c + d is a + (a + b + c + d) + 2(a + b) in GF(2⁸). -/
def mixColumns : Bytes → Bytes
  | a :: b :: c :: d :: t =>
    let x := a ^^^ b ^^^ c ^^^ d
    (a ^^^ x ^^^ xtime (a ^^^ b)) :: (b ^^^ x ^^^ xtime (b ^^^ c)) :: (c ^^^ x ^^^ xtime (c ^^^ d)) ::
      (d ^^^ x ^^^ xtime (d ^^^ a)) :: mixColumns t
  | _ => []

/-- InvMixColumns: MixColumns of the column with 4(a + c) added to a and c, and 4(b + d) to b and d. -/
def invMixPrepare : Bytes → Bytes
  | a :: b :: c :: d :: t =>
    let u := xtime (xtime (a ^^^ c))
    let v := xtime (xtime (b ^^^ d))
    (a ^^^ u) :: (b ^^^ v) :: (c ^^^ u) :: (d ^^^ v) :: invMixPrepare t
  | _ => []

def invMixColumns (s : Bytes) : Bytes := mixColumns (invMixPrepare s)

def aesEncFuel : List Bytes → Bytes → Bytes
  | [], s => s
  | [k], s => xorBytes (shiftRows (s.map sub8)) k
  | k :: ks, s => aesEncFuel ks (xorBytes (mixColumns (shiftRows (s.map sub8))) k)

/-- AES encryption of one block under expanded keys. -/
def aesEncWith (rk : List Bytes) (b : Bytes) : Bytes :=
  match rk with
  | [] => b
  | k :: ks => aesEncFuel ks (xorBytes b k)

def aesDecFuel : List Bytes → Bytes → Bytes
  | [], s => s
  | [k], s => xorBytes ((invShiftRows s).map invSub8) k
  | k :: ks, s => aesDecFuel ks (invMixColumns (xorBytes ((invShiftRows s).map invSub8) k))

/-- AES decryption of one block under expanded keys. -/
def aesDecWith (rk : List Bytes) (b : Bytes) : Bytes :=
  match rk.reverse with
  | [] => b
  | k :: ks => aesDecFuel ks (xorBytes b k)

def aesEnc (key b : Bytes) : Bytes := aesEncWith (roundKeys key) b

/-! ### CTR (SP 800-38A, R211) -/

/-- The counter block with its low 32 bits incremented by n. -/
def ctrAdd (blk : Bytes) (n : Nat) : Bytes := blk.take 12 ++ bytesBE 4 (natBE (blk.drop 12) + n)

def ctrFuel (rk : List Bytes) : List Bytes → Bytes → Bytes
  | [], _ => []
  | c :: t, blk => xorBytes c (aesEncWith rk blk) ++ ctrFuel rk t (ctrAdd blk 1)

/-- CTR encryption or decryption from a first counter block on. -/
def ctrCrypt (rk : List Bytes) (blk data : Bytes) : Bytes := ctrFuel rk (chunks 16 data) blk

/-! ### CBC (R212) -/

def cbcEncFuel (rk : List Bytes) : List Bytes → Bytes → List Bytes
  | [], _ => []
  | c :: t, iv => let o := aesEncWith rk (xorBytes c iv); o :: cbcEncFuel rk t o

def cbcDecFuel (rk : List Bytes) : List Bytes → Bytes → List Bytes
  | [], _ => []
  | c :: t, iv => xorBytes (aesDecWith rk c) iv :: cbcDecFuel rk t c

def cbcEncrypt (rk : List Bytes) (iv data : Bytes) : Bytes := (cbcEncFuel rk (chunks 16 data) iv).flatten
def cbcDecrypt (rk : List Bytes) (iv data : Bytes) : Bytes := (cbcDecFuel rk (chunks 16 data) iv).flatten

/-- PKCS #7 padding. -/
def pkcs7 (data : Bytes) : Bytes :=
  let n := 16 - data.length % 16
  data ++ List.replicate n (BitVec.ofNat 8 n)

/-- The bytes of padding of a decrypted text, if it is well formed. -/
def pkcs7Len (data : Bytes) : Option Nat :=
  let n := (data.getLastD 0).toNat
  if 1 ≤ n ∧ n ≤ 16 ∧ n ≤ data.length ∧ (data.drop (data.length - n)).all (fun b => b.toNat == n) then some n else none

/-! ### CMAC (SP 800-38B) -/

/-- Doubling in GF(2¹²⁸). -/
def cmacDouble (b : Bytes) : Bytes :=
  let v := natBE b
  bytesBE 16 ((v * 2) ^^^ (if 2 ^ 127 ≤ v then 0x87 else 0))

/-- The CBC-MAC chain over whole blocks. -/
def macChain (rk : List Bytes) (x : Bytes) : List Bytes → Bytes
  | [] => x
  | c :: t => macChain rk (aesEncWith rk (xorBytes c x)) t

/-- The last block of CMAC, masked with its subkey. -/
def cmacFinal (rk : List Bytes) (x last : Bytes) : Bytes :=
  let k1 := cmacDouble (aesEncWith rk (List.replicate 16 0))
  let m := if last.length = 16 then xorBytes last k1
    else xorBytes (pad16 (last ++ [0x80])) (cmacDouble k1)
  aesEncWith rk (xorBytes m x)

/-- CMAC of what remains of a message, from a running value on. -/
def cmacFrom (rk : List Bytes) (x msg : Bytes) : Bytes :=
  let whole := (msg.length - 1) / 16 * 16
  cmacFinal rk (macChain rk x (chunks 16 (msg.take whole))) (msg.drop whole)

def cmac (key msg : Bytes) : Bytes := cmacFrom (roundKeys key) (List.replicate 16 0) msg

/-- R201: the counter-mode key derivation of SP 800-108 with AES-256-CMAC; `fixed` is bytes 1 to 45 of M_i. -/
def kdf (root fixed : Bytes) (bits : Nat) : Bytes :=
  ((cmac root (1 :: fixed)) ++ (if 128 < bits then cmac root (2 :: fixed) else [])).take (bits / 8)

/-! ### GCM and GMAC (SP 800-38D, R209) -/

/-- One step of the bit-serial multiplication of GHASH: x's bits from the most significant on. -/
def ghashMulFuel : Nat → Nat → Nat → Nat → Nat
  | 0, _, _, z => z
  | i + 1, x, v, z =>
    ghashMulFuel i x ((v / 2) ^^^ (if v % 2 = 1 then 0xE1 * 2 ^ 120 else 0)) (if x.testBit i then z ^^^ v else z)

def ghashMul (x h : Nat) : Nat := ghashMulFuel 128 x h 0

/-- GHASH over whole blocks, from an accumulator on. -/
def ghash (h : Nat) (y : Nat) : List Bytes → Nat
  | [] => y
  | c :: t => ghash h (ghashMul (y ^^^ natBE c) h) t

def ghashKey (rk : List Bytes) : Nat := natBE (aesEncWith rk (List.replicate 16 0))

/-- GHASH over bytes zero-padded to whole blocks. -/
def ghashBytes (rk : List Bytes) (acc data : Bytes) : Bytes :=
  bytesBE 16 (ghash (ghashKey rk) (natBE acc) (chunks 16 (pad16 data)))

/-- The tag from the accumulator, the byte counts and J0. -/
def gcmTag (rk : List Bytes) (acc : Bytes) (aLen pLen : Nat) (j0 : Bytes) : Bytes :=
  xorBytes (ghashBytes rk acc (bytesBE 8 (8 * aLen) ++ bytesBE 8 (8 * pLen))) (aesEncWith rk j0)

/-! ### CCM (SP 800-38C, R210) -/

/-- The blocks of B0, A and P that CBC-MAC runs over. -/
def ccmBlocks (nonce a p : Bytes) : Bytes :=
  let flags : Byte := if a.isEmpty then 0x3A else 0x7A
  let alen := if a.isEmpty then [] else
    (if a.length < 0xFF00 then bytesBE 2 a.length else [0xFF, 0xFE] ++ bytesBE 4 a.length)
  [flags] ++ nonce ++ bytesBE 3 p.length ++ pad16 (alen ++ a) ++ pad16 p

/-- The counter block Ctr_0; CTR runs on its low 24 bits, which no message overruns. -/
def ccmCtr (nonce : Bytes) (i : Nat) : Bytes := [0x02] ++ nonce ++ bytesBE 3 i

def ccmTag (rk : List Bytes) (nonce a p : Bytes) : Bytes :=
  xorBytes (macChain rk (List.replicate 16 0) (chunks 16 (ccmBlocks nonce a p))) (aesEncWith rk (ccmCtr nonce 0))

/-! ### Key unwrap (SP 800-38F, R191, R231) -/

/-- One reverse step of W⁻¹ on A and the semiblocks R1..Rn, last one first. -/
def unwrapStep (rk : List Bytes) (st : Bytes × List Bytes) (t i : Nat) : Bytes × List Bytes :=
  let r := st.2.getD (i - 1) []
  let b := aesDecWith rk (xorBytes st.1 (bytesBE 8 t) ++ r)
  (b.take 8, st.2.set (i - 1) (b.drop 8))

/-- W⁻¹: the first semiblock and the others. -/
def unwrapCore (rk : List Bytes) (c : Bytes) : Bytes × Bytes :=
  let n := c.length / 8 - 1
  let st := (List.range (6 * n)).reverse.foldl (fun s k => unwrapStep rk s (k + 1) (k % n + 1))
    (c.take 8, chunks 8 (c.drop 8))
  (st.1, st.2.flatten)

/-- KW unwrap: none on an integrity failure. -/
def kwUnwrap (kek c : Bytes) : Option Bytes :=
  let r := unwrapCore (roundKeys kek) c
  if c.length % 8 = 0 ∧ 24 ≤ c.length ∧ r.1 = List.replicate 8 0xA6 then some r.2 else none

/-- KWP unwrap: none on an integrity failure. -/
def kwpUnwrap (kek c : Bytes) : Option Bytes :=
  let rk := roundKeys kek
  let r := if c.length = 16 then let b := aesDecWith rk c; (b.take 8, b.drop 8) else unwrapCore rk c
  let n := natBE (r.1.drop 4)
  if c.length % 8 = 0 ∧ 16 ≤ c.length ∧ r.1.take 4 = [0xA6, 0x59, 0x59, 0xA6] ∧ n ≤ r.2.length ∧
      r.2.length < n + 8 ∧ (r.2.drop n).all (fun b => b == 0) then some (r.2.take n) else none

end Sys2Proof.Machine
end

