-- ==== Sys2Proof/Config.lean ====
section
/-!
DEFINITION. Sys2Proof/Config.lean: the values that the manual leaves to each die, to ROM or to nobody.
Every constant here is opaque: nothing in Lean can evaluate it, so a statement about it holds for every value.
-/
namespace Sys2Proof.Config

/-- R92: the die-unique serial number LC_SERIAL_HI:LC_SERIAL_LO (log entry 3). -/
opaque dieSerial : BitVec 64

/-- R92: LC_REV.RUNTIME, read from ROM (log entry 3). -/
opaque runtimeVersion : BitVec 16

/-- R35: the byte at an address of mask ROM, whose contents the manual does not give (log entry 4). -/
opaque romByte : Nat → BitVec 8

/-- R36: a byte of the MRAM rows whose layout the manual does not give: the authority and life-cycle records, and the
runtime data and self-test vectors (log entry 4). -/
opaque ownedRowByte : Nat → BitVec 8

/-- R333: the address at which supervisor mode is entered, by cause; the manual names none (log entry 5). -/
opaque exceptionEntry : Nat → BitVec 32

/-- R328: what an MTS leaves in a system register whose write the manual does not describe (TIME, SLICES, DEADLINE),
drawn per use (log entry 6). -/
opaque freeWord : Nat → BitVec 32

/-- R108: the output bytes of a job whose destination overlaps what it reads, drawn per use (log entry 7). -/
opaque overlapOutput : Nat → List (BitVec 8)

/-- R108: the status such a job carries, drawn per use, as an index into the admitted statuses (log entry 7). -/
opaque overlapStatus : Nat → Nat

/-- R255: word i that a masking generator gives after a seed; the manual does not say how it draws them (log entry 70). -/
opaque maskWord : List (BitVec 8) → Nat → BitVec 64

/-- R242: the steps of an Edge program other than the one whose count the manual gives, by opcode and length row (log
entry 71). -/
opaque programSteps : Nat → Nat → Nat

/-- R136: the COOKIE of a descriptor that a flush reads and that the command brings no data for, drawn per use (log entry
72). -/
opaque flushCookie : Nat → BitVec 64

/-- R294: a higher trim code gives more ones (log entry 15). -/
opaque trimRaises : Bool

end Sys2Proof.Config
end

