-- ==== Sys2Proof/Machine/State.lean ====
section
/-!
DEFINITION. Sys2Proof/Machine/State.lean: the state of the KV4096, chapter by chapter, as plain data, and the state
right after reset.  Every register of the manual is a field here or a view of fields (Machine/Registers.lean).
-/
namespace Sys2Proof.Machine

/-! ### Reasons a step can stop -/

/-- A fault of the model.  No meaning raises one: the manual gives every row of the table an effect, and every fault of
the silicon (a unit fault, a bus fault of a Rink core, a host fault) is a next state. -/
inductive Fault where
  /-- Raised by nobody; safe. -/
  | unused
  deriving DecidableEq, Repr

/-- A refusal of the model. -/
inductive Refusal where
  /-- Raised by an arm of Dispatch.lean that has no meaning yet; safe. -/
  | notModelled (mnemonic : String)
  deriving DecidableEq, Repr

/-! ### Names the chapters share -/

/-- Life-cycle states (R8, R507), in the order of R8. -/
inductive LcState where
  | blank | factory | provisioned | deployed | retired
  deriving DecidableEq, Repr

/-- Deadline classes (R38). -/
inductive Cls where
  | L | P | R | B
  deriving DecidableEq, Repr

/-- Speed bands (R46). -/
inductive Band where
  | s0 | s1 | s2
  deriving DecidableEq, Repr

/-- Response levels (R408); as a standing level, `note` is "none" (R426). -/
inductive Level where
  | note | guard | lock | purge | raze
  deriving DecidableEq, Repr

/-- Completion status codes (R16). -/
inductive Status where
  | ok | okRetried | okUnverifiedReleased
  | refusedCapacity | refusedClass | notReady | refusedEnvelope | refusedLocked
  | authFail | counterStale | keyRevoked | keyEmpty | hostReadFault | hostWriteFault
  | inputInvalid | tagMismatch | replay | verifyFail | rngFault
  | cancelled | unknownOutcome | late | memUncorrectable
  deriving DecidableEq, Repr

/-- Critical command codes (R165). -/
inductive CmdCode where
  | whiteoutEnter | evacuate | alert | whiteoutExit | unlock | authSet | authDisable | rootImport | rootErase
  | privImport | privErase | curveLoad | appletLoad | appletRemove | levelRaise | razeEnable | alarmConfig | ctrAssign
  | debugUnlock | lcAdvance | trkReceipt | sesSet | sesClear
  deriving DecidableEq, Repr

/-- Operations a descriptor can ask for (R115, R165, R476). -/
inductive Op where
  | sesEncrypt | sesDecrypt | sesMacGen | sesMacVerify
  | hash | rngOut
  | ecdsaSign | ecdsaVerify | ecKeygen | ecdh | eddsaSign | eddsaVerify | xdh | rsaVerify | rsaSign
  | critical (c : CmdCode)
  | cardRead | cardWrite | cardMailbox | cardInfo
  | trkExport
  deriving DecidableEq, Repr

/-! ### Life cycle, start-up and seal (chapters 3 and 18) -/

/-- LC_ registers (R92, R513) and the reset pins (R498). -/
structure LifeCycle where
  state : LcState
  serial : BitVec 64
  isSealed : Bool
  startDone : Bool
  startFail : Bool
  startStep : Nat
  startCode : Nat
  aborted : Bool
  cause : Nat
  startTime : Nat
  evt : BitVec 3
  provValid : Bool
  provPub : Bytes
  provLatch : Bytes
  porst : Bool            -- PORST_N is asserted
  perst : Bool            -- PERST_N is asserted
  porstSeen : Bool        -- PORST_N asserted since the previous start-up began (R513)
  starting : Bool         -- the start-up begun last has not reached step 10 (R501)
  prior : Nat             -- LC_START.STEP before the reset (R433)
  deriving DecidableEq, Repr

/-! ### PCI Express side (chapter 3) -/

/-- What the part posts on the link, in order (R86, R90, R126, R517, R522).  Output data alone can carry Relaxed Ordering;
everything else carries 0, and nothing carries No Snoop (R86). -/
inductive Posted where
  | data (addr : DWord) (bytes : Bytes) (relaxed : Bool)   -- one write of R83, with its Relaxed Ordering attribute
  | entry (ring : Nat) (index : Nat) (raw : BitVec 256)
  | event (slot : Nat) (raw : BitVec 256)
  | telemetry (slot : Nat) (raw : Bytes)
  | msix (vector : Nat) (addr : DWord) (data : Word)
  deriving DecidableEq, Repr

/-- A read request as the part issues it (R83), in the order of issue: Relaxed Ordering 0 and No Snoop 0 (R86). -/
structure ReadReq where
  addr : DWord
  bytes : Nat
  deriving DecidableEq, Repr

/-- One MSI-X table entry (R81, R90). -/
structure MsixEntry where
  addr : DWord
  data : Word
  control : Word
  deriving DecidableEq, Repr

/-- The fault capture at 0x010C to 0x0114 (R93, R94). -/
structure PcieFault where
  valid : Bool
  write : Bool
  ring : Nat
  tag : Nat
  kind : Nat
  addr : DWord
  deriving DecidableEq, Repr

/-- Link, configuration space and RING_PCIE_ registers (R79 to R94), and the posted stream the part has issued. -/
structure Link where
  up : Bool
  gen : Nat
  width : Nat
  mps : Nat
  mrrs : Nat
  extendedTag : Bool
  relaxedOrdering : Bool
  bme : Bool
  msixEnable : Bool
  functionMask : Bool
  d3hot : Bool
  err : BitVec 8
  fault : PcieFault
  dataRo : Bool
  msix : Tbl MsixEntry
  pba : Tbl Bool
  heldTags : List (Nat × Nat)  -- requests that timed out under R43, and the job tag of each (R87)
  expired : List Nat       -- job tags of such requests whose PCI Express timeout has expired: data for one is unexpected (R87)
  aer : BitVec 32          -- Uncorrectable Error Status of Advanced Error Reporting (R81, R87)
  mse : Bool               -- Memory Space Enable (R80, R102)
  bar0 : DWord             -- base addresses of the function (R80)
  bar2 : DWord
  devctl2 : BitVec 5       -- Device Control 2: [4] completion timeout disable, [3:0] its value (R81, R87, R102)
  creditStalled : Bool     -- no posted-write credit (R138)
  heldEntries : List (Nat × Nat × BitVec 256)  -- refusal entries that wait for credit: ring, index, entry (R138)
  posted : List Posted
  requests : List ReadReq
  readData : Word          -- what the latest register read returned to the link
  deriving DecidableEq, Repr

/-! ### The Gate (chapter 2) -/

/-- A resource the Gate plans on (R56, R57, R480, R440). -/
inductive Res where
  | unit (u : UnitRef)
  | linkRead
  | linkWrite
  | cardPort
  | tracks
  | keyAdmin
  deriving DecidableEq, Repr

/-- One job's planned piece of work on a resource (R54 to R57). -/
structure Placement where
  res : Res
  release : Pico
  deadline : Pico          -- engine deadline on this resource
  time : Pico              -- c of R55
  redo : Pico              -- takeover plus rerun
  piece : Pico             -- longest interval that cannot be pre-empted
  deriving DecidableEq, Repr

/-- Gate registers and evaluation state (R41 to R78). -/
structure Gate where
  isOpen : Bool
  band : Band
  tj : Int                 -- 1/16 °C
  slew : Nat               -- 1/16 K/s
  downSince : Option Nat   -- first evaluation of the unbroken hold of R46, in ticks
  slewClosed : Bool        -- the slew condition of R69 holds or has not yet reopened
  slewLowSince : Option Nat
  railsOut : List Rail     -- main rails outside their operating range (R403)
  envClosed : Bool         -- a condition of R69 has held and no evaluation has yet found it clear
  hoursExceeded : Bool
  derate : Nat
  siMin : Nat
  siMinMon : Nat
  siWindow : List (Nat × Nat)      -- (lowest reading, monitor) of the evaluations of the last 64 ms, newest first
  siLatest : Tbl Nat
  siLow : Tbl Nat
  siSeen : Bool            -- the monitors have been read since power-on: siLow holds readings
  derateHold : Option (Nat × Nat)  -- start of the unbroken hold of R50, in ticks, and the largest target in it
  rdLat : Nat
  charges : List (Nat × Nat)       -- (tick, descriptors charged) of the fetch window of R44
  overrun : Bool           -- the fetch made last left descriptors deferred (R44)
  refused : Tbl Nat
  lateCnt : Nat
  retryCnt : Nat
  evt : BitVec 7
  deriving DecidableEq, Repr

/-! ### Rings and jobs (chapter 4) -/

/-- Ring states (R143). -/
inductive RingState where
  | disabled | enabled | draining | halted
  deriving DecidableEq, Repr

/-- A fetched descriptor's slot from the completion prefix on, until the prefix passes it (R105, R125). -/
structure Slot where
  index : Nat
  phase : Bool
  t0 : Nat                 -- bridge stamp of its doorbell, in ticks (R112)
  arrived : Bool           -- its read has ended
  tag : Option Nat         -- the job that will write its entry
  written : Bool
  doomed : Bool            -- it comes later than a failed descriptor of a HALTED ring (R133)
  quiet : Bool             -- NO_IRQ (R130)
  deriving DecidableEq, Repr

/-- One host or internal ring (R103 to R147, R347 to R349). -/
structure Ring where
  sqBase : DWord
  cqBase : DWord
  haltMode : Bool
  cls : Cls
  depthLog2 : Nat
  state : RingState
  haltIndex : Nat
  enableIgnored : Bool
  dbOverflow : Bool
  dbIgnored : Bool
  rearmPending : Bool
  rearmFlush : Option (List FlushRead)   -- the pending REARM flushes, with what its reads bring
  rearmAt : Nat            -- bridge stamp of the REARM write, in ticks (R112)
  restartPending : Bool
  tail : Nat
  fetch : Nat
  done : Nat               -- the completion prefix
  fetchPhase : Bool
  visible : List (Option Nat)   -- t0 of each descriptor from FETCH to TAIL, in ticks; none: made visible while HALTED
  slots : List Slot        -- fetched descriptors from the prefix on, in submission order
  heldDb : Option Word     -- a doorbell stored before the Gate opens (R348)
  deriving DecidableEq, Repr

/-- What a session job carries from admission (R182, R187, R215). -/
structure SessionCopy where
  session : Nat
  label : BitVec 256
  rootSlot : Nat
  mode : BitVec 8
  flags : BitVec 8
  salt : Word
  epoch : Word
  gen : Nat
  counter : DWord          -- frame counter taken, or XPARAM for a receiving job
  took : Bool              -- RESULT reports the counter (R213)
  passed : Bool            -- R187
  cont : BitVec 384        -- CONT the piece started from (R217)
  contOut : BitVec 384     -- CONT the piece leaves (R218)
  started : Bool           -- it has started on its Blade and `cont` is what it found there (R215)
  chainBad : Bool          -- it failed at its start (R216)
  deriving DecidableEq, Repr

/-- A reference to a generation of a Vault slot (R193). -/
structure VaultHold where
  slot : SlotRef
  gen : Nat
  deriving DecidableEq, Repr

/-- What the Gate reads at admission of the state a job names, kept by the job (R546, R182). -/
structure Facts where
  mode : BitVec 8          -- session MODE
  w : Nat                  -- length row of the curve
  lp : Nat                 -- bytes of p
  ln : Nat                 -- bytes of n
  nBits : Nat
  k : Nat                  -- RSA modulus bytes
  deriving DecidableEq, Repr

/-- Where a job stands on its way through the part. -/
inductive Stage where
  | gathering              -- waiting for its reads
  | ready                  -- inputs in the unit, not started
  | waitingKey             -- its LDV waits at the Vault arbiter (R250)
  | running
  | suspended              -- R249, R228
  | copying                -- slots in transit to the reserve (R259)
  | barrier                -- a critical command before stage 4 (R158)
  | prepared               -- a critical command past stage 10, before its commit (R154)
  | finished               -- off its unit, its entry not yet built
  | built                  -- entry built and held (R127)
  deriving DecidableEq, Repr

/-- One job in flight: a descriptor that holds a tag (R124), until its entry has been written. -/
structure Job where
  tag : Nat
  ring : RingId
  index : Nat
  phase : Bool
  desc : Descriptor
  op : Op
  cls : Cls
  t0 : Nat
  admitted : Bool
  planBand : Band
  deadline : Pico
  places : List Placement
  stage : Stage
  unit : Option UnitRef
  reserve : Option UnitRef
  retried : Bool           -- RETRIED of the entry
  rerun : Bool             -- success is OK_RETRIED (R229, R258)
  blinded : Bool
  large : Bool
  slots : List Nat
  steps : Nat              -- pre-emption points passed, that is 16 KiB segments or ladder steps
  sess : Option SessionCopy
  facts : Facts
  holds : List VaultHold
  keyLoaded : Bool
  key : Bytes
  srcList : Option Bytes
  dstList : Option Bytes
  source : Option Bytes
  block : Option CmdBlock
  digest : Option Bytes
  draw : Option Bytes
  drawBytes : Nat          -- bytes still to be drawn from a Groomer (R281, R308)
  edl : Pico               -- engine deadline of its plan (R54)
  sideOn : Bool            -- its derivation or message hash is in progress on its Lift or hash unit (R60)
  again : Bool             -- its run is a re-execution after a fault (R64, R67)
  digest2 : Option Bytes   -- the challenge hash of an EDDSA_SIGN whose message is hashed twice (R276)
  blinds : List DWord      -- blinding words of the run (R254), drawn from the Edge's masking generator
  saved : Option (BitVec 384)  -- mode state in the Blade's suspension store (R228)
  segment : Option Nat     -- segment of the Blade's staging that it holds (R220)
  out : Bytes              -- output not yet issued
  bytes : Nat              -- BYTES: issued by this run
  result : DWord
  status : Option Status   -- fixed
  noOutput : Bool          -- no further output write (R134, R137)
  secondPass : Bool        -- the first pass of R221 has verified and released the second
  counterSpent : Bool      -- past stage 9 (R154)
  entry : BitVec 256       -- once built
  deriving DecidableEq, Repr

/-- Rings, tags and jobs (R103 to R148). -/
structure RingBlock where
  host : Tbl Ring
  internal : Tbl Ring
  jobs : List Job          -- in order of admission
  noTagCnt : Nat
  cancelCnt : Nat
  deriving DecidableEq, Repr

/-! ### Units (chapters 7, 8, 10) -/

/-- States of an Edge, Blade, Lift, hash unit or Groomer (R232, R264, R319). -/
inductive UnitState where
  | off | inService | draining | disabled | spare | standby | faulted | testing
  deriving DecidableEq, Repr

structure UnitRec where
  state : UnitState
  faultCode : Nat
  restartPending : Bool
  afterEnable : Bool       -- its TESTING was entered from DISABLED
  deriving DecidableEq, Repr

/-- A unit's fault capture (R235, R267). -/
structure UnitFault where
  valid : Bool
  num : Nat
  tag : Nat
  place : Nat
  deriving DecidableEq, Repr

/-- A masking generator (R226, R255): Blades B0 to B17 are 0 to 17, Edges E0 to E67 are 18 to 85. -/
structure MaskGen where
  seeded : Bool
  seed : Bytes
  drawn : Nat              -- words drawn since its last seed
  at_ : Nat                -- tick of its last seed
  deriving DecidableEq, Repr

/-- The engines' unit registers. -/
structure Units where
  edges : Tbl UnitRec
  blades : Tbl UnitRec
  lifts : Tbl UnitRec
  hashes : Tbl UnitRec
  groomers : Tbl UnitRec
  mask : Tbl MaskGen
  slotLen : Nat
  edgeEvt : BitVec 5
  edgeFault : UnitFault
  edgeSel : Nat
  slotsLatch : DWord
  arbMax : Nat
  arbSince : Tbl Nat       -- tick of the LDV request of the job with that tag
  paddedCnt : Nat
  slipCnt : Nat
  invalidCnt : Nat
  vfailCnt : Nat
  rngfailCnt : Nat
  bladeEvt : BitVec 4
  bladeFault : UnitFault
  tagfailCnt : Nat
  unverCnt : Nat
  liftEvt : Bool
  deriveCnt : Nat
  deriving DecidableEq, Repr

/-! ### Curves (chapter 9) -/

/-- Contents of a curve-table entry: the 440-byte image (R287) and its digest. -/
structure Curve where
  loaded : Bool
  image : Bytes
  digest : Bytes
  deriving DecidableEq, Repr

structure Curves where
  table : Tbl Curve                -- entries 8 to 31
  sel : Nat
  digLatch : Bytes
  lastValid : Bool
  lastEntry : Nat
  lastFirst : Nat
  lastFailed : BitVec 9
  deriving DecidableEq, Repr

/-! ### Sessions and the Vault (chapter 6) -/

/-- A session context (R175). -/
structure Session where
  label : BitVec 256
  rootSlot : BitVec 8
  mode : BitVec 8
  flags : BitVec 8
  colour : BitVec 4
  chainOpen : Bool
  isSet : Bool
  salt : Word
  gen : Word
  epoch : Word
  txCtr : DWord
  rxHigh : DWord
  rxMap : DWord
  chainGen : Word
  cont : BitVec 384
  deriving DecidableEq, Repr

structure Sessions where
  table : Tbl Session
  sel : Nat
  latch : Session
  latchSum : Word
  replayCnt : Nat
  deriving DecidableEq, Repr

/-- The key material of one generation. -/
structure KeyMat where
  gen : Nat
  key : Bytes
  kek : Bool
  kind : BitVec 16
  digest : Bytes           -- PARAM_DIGEST of the curve entry at import (R191)
  deriving DecidableEq, Repr

/-- A retiring or revoked generation that still has a cell (R192). -/
structure Retiring where
  mat : KeyMat
  revoked : Bool
  deriving DecidableEq, Repr

/-- One Vault slot (R190 to R196). -/
structure VSlot where
  number : Nat             -- generation number: current or last
  cur : Option KeyMat
  old : List Retiring      -- newest first
  reserved : Bool          -- R284
  deriving DecidableEq, Repr

structure Vault where
  root : Tbl VSlot
  priv : Tbl VSlot
  selPriv : Bool
  selSlot : Nat
  statLatch : Word
  genLatch : Word
  retLatch : Word
  holdLatch : Word
  evt : BitVec 3
  deriving DecidableEq, Repr

/-! ### Counters and critical commands (chapter 5) -/

/-- One monotonic counter (R171 to R173). -/
structure Counter where
  value : DWord
  head : Nat
  words : Tbl DWord        -- the 160 words of R172
  owner : Nat              -- 0x00-0x07 authority, 0x08 runtime, 0x20-0x3F applet, 0xFF unassigned
  short : Nat
  long : Nat
  deriving DecidableEq, Repr

structure Counters where
  table : Tbl Counter
  sel : Nat
  valueLatch : Word
  enabled : BitVec 8
  grant : Tbl Word         -- GRANT of A5 to A7 (R150)
  lastCode : Nat
  lastAuth : Nat
  lastStatus : Nat
  half : Option (Nat × Nat)   -- pending unlock half: authority, Hut time (R168)
  refuseCnt : Nat
  authFailCnt : Nat
  evt : BitVec 3
  incs : Nat               -- increments, for telemetry
  deriving DecidableEq, Repr

/-! ### Powder and the Groomers (chapter 10) -/

inductive PowderState where
  | off | startup | seeding | running | failed
  deriving DecidableEq, Repr

structure Cell where
  ones : Nat
  maxRun : Nat
  trim : Nat
  run : Nat                -- host samples under PATTERN: identical ones up to the last (R296, R317)
  last : Bool
  seen : Nat               -- and of the window in progress: samples, the first of them, its occurrences, the ones
  first : Bool
  same : Nat
  tally : Nat
  deriving DecidableEq, Repr

/-- A Groomer's CTR_DRBG (R302 to R305). -/
structure Groomer where
  instantiated : Bool
  k : Bytes
  v : Bytes
  count : Nat
  due : Bool
  hardStall : Bool
  seedAt : Nat             -- tick of the last reseed or instantiation
  everSeeded : Bool
  insts : Nat              -- instantiations since power-on
  deriving DecidableEq, Repr

structure Powder where
  state : PowderState
  seeded : Bool
  confirming : Bool
  failedRestarts : Nat
  seedAt : Nat
  pattern : Bool
  raw : Bool
  patternBits : List Word
  rawLatch : Word
  cellFail : BitVec 24
  cellSel : Nat
  cells : Tbl Cell
  pending : List Bytes
  ready : List Bytes
  blocks : Nat
  failCnt : Nat
  evt : BitVec 5
  grm : Tbl Groomer
  reseedCnt : Nat
  rngFaultCnt : Nat
  grmEvt : BitVec 4
  portFaultCnt : Nat
  reserve : Bytes          -- the masking reserve of R311, in MRAM
  maskTurn : Nat           -- the masking generator whose turn it is to be refreshed (R311)
  deriving DecidableEq, Repr

/-! ### The applet machine (chapter 11) -/

inductive AppState where
  | empty | starting | ready | running | waiting | stopping | removing | faulted
  deriving DecidableEq, Repr

/-- A posted mailbox record (R342). -/
structure MailRecord where
  slot : Nat
  kind : Nat
  seq : Nat
  lost : Nat
  time : Nat
  arg0 : Word
  arg1 : Word
  trkSeq : DWord
  auth : Nat
  data : Bytes
  deriving DecidableEq, Repr

structure Applet where
  state : AppState
  cls : Cls
  image : Bytes            -- in the applet store
  sha : Bytes
  restart : Bool           -- the STARTING in progress is a restart
  forced : Bool            -- a restart of R418: whatever RESTART is, and not counted
  restarts : Nat
  cause : Nat              -- ECAUSE of the fault, for the restart record
  epc : Word
  mail : List MailRecord   -- unconsumed, oldest first
  taken : Bool             -- the oldest has been returned by WAIT_EVENT and is consumed at the next one
  mailSlot : Nat
  mailSeq : Nat
  mailLost : Nat
  timer : Option Nat       -- tick at which it expires
  deadline : Nat           -- activation deadline, in ticks
  slices : Nat
  pc : Word
  regs : Tbl Word
  waitPending : Bool       -- WAIT_EVENT has no record yet: w1 and w2 are due
  held : Bool              -- R375
  deriving DecidableEq, Repr

/-- One Rink core (R324, R325). -/
structure Rink where
  applet : Option Nat
  idle : Bool              -- executes nothing: after WAIT, or stopped by a reset
  regs : Tbl Word
  pc : Word
  supervisor : Bool
  epc : Word
  estat : Word
  ecause : Word
  eaddr : Word
  timeHi : Word
  deadlineHi : Word
  sliceAt : Nat            -- tick at which the slice began
  buffer : Bytes           -- the random buffer of R309
  arriving : Bytes         -- a refill that a Groomer has drawn and that has not reached the buffer
  refill : Option Placement  -- a refill that the Gate has placed on a Groomer and that is not yet drawn (R309)
  stalled : Option (Fin 16 × Nat × Bool × Word)  -- a random-port load: rd, bytes, sign-extended, address (R309)
  deriving DecidableEq, Repr

structure Merya where
  apps : Tbl Applet
  cores : Tbl Rink
  deriving DecidableEq, Repr

/-! ### Protection (chapter 12) -/

structure PuEntry where
  w0 : Word
  w1 : Word
  deriving DecidableEq, Repr

structure PuFault where
  valid : Bool
  write : Bool
  exec : Bool
  user : Bool
  applet : Nat
  reason : Nat
  entry : Nat
  tag : Nat
  colour : Nat
  addr : Word
  deriving DecidableEq, Repr

/-- A debug access and what the next capture returns (R371). -/
structure DebugReg where
  pending : Bool
  write : Bool
  error : Bool
  addr : Word
  data : Word
  deriving DecidableEq, Repr

structure Protection where
  units : Tbl PuEntry      -- 16u + e
  grants : Tbl PuEntry     -- 8n + e
  tags : Tbl Nat           -- granule number: address divided by 256
  faults : Tbl PuFault
  evt : BitVec 18
  gsel : Nat
  puTag : Word
  draining : List Nat      -- tick at which each rule change under drain was written (R367)
  isOpen : Bool            -- the debug port
  openUntil : Option Nat   -- Hut time at which DEBUG_UNLOCK runs out
  denyCnt : Nat
  faultCnt : Nat
  drainMax : Nat
  arm : BitVec 32
  dbg : DebugReg
  deriving DecidableEq, Repr

/-! ### Stored data (chapter 13) -/

/-- A word corrected since the last clear of the weak-word rule (R383). -/
structure Corrected where
  bank : Nat
  word : Nat
  count : Nat
  written : Bool           -- written since its last correction
  deriving DecidableEq, Repr

structure RsfFault where
  valid : Bool
  part : Bool
  dup : Bool
  bank : Nat
  word : Nat
  deriving DecidableEq, Repr

structure Stored where
  marks : Tbl WordCond     -- bank × 2^18 + word: words that are not in the default condition (good)
  corrected : List Corrected
  weak : List Corrected    -- the weak-word table, at most 64
  writeBacks : List (Nat × Nat)
  retiring : List (Nat × Nat)
  retired : List (Nat × Nat)
  ce : Tbl Nat             -- corrections per bank
  ceCnt : Nat
  ueCnt : Nat
  retireCnt : Nat
  tornCnt : Nat
  passOk : Bool
  passMs : Nat
  passBegun : Tbl Nat      -- per SRAM bank: when the Resurfacer's pass began
  passTook : Tbl Nat       -- per SRAM bank: milliseconds of the last completed pass
  fault : RsfFault
  evt : BitVec 8
  bsel : Nat
  wsel : Nat
  bankLatch : Word
  weakLatch : Word
  retAge : Nat             -- accumulated age in thousandths of an equivalent minute
  retAgeReg : Nat
  rowWrites : Tbl Nat      -- MRAM bank × 2^16 + row
  saved : Tbl Nat          -- the counts of rowWrites last saved to MRAM (R397)
  ctrWrites : Tbl Nat      -- writes of each counter word: counter × 160 + word
  clears : Tbl (List (Nat × Nat))   -- per SRAM bank: (first byte, bytes) ranges of R392
  deriving DecidableEq, Repr

/-! ### Patrol (chapter 14) -/

structure PSource where
  detA : Bool
  detB : Bool
  active : Bool
  disagree : Bool
  seen : Bool
  trips : Nat
  deriving DecidableEq, Repr

structure Patrol where
  sources : Tbl PSource
  levels : Tbl Level       -- configured levels above the floor (R409), held in the Hut and MRAM
  razeEnabled : Bool
  standing : Level
  firstValid : Bool
  firstLevel : Level
  firstSource : Nat
  evt : BitVec 6
  lockSeq : DWord
  lockSeqHi : Word
  sel : Nat
  selLatch : Word
  zeroTime : Nat
  erasing : Bool           -- the Vault erasure of R417 is running
  unitFaults : List Nat    -- ticks of recent unit faults (source 238)
  deriving DecidableEq, Repr

/-! ### Tracks (chapter 15) -/

/-- A stored entry (R429). -/
structure TrkEntry where
  seq : Nat
  time : Nat
  kind : Nat
  origin : Nat
  units : Nat
  flags : Nat
  payload : Bytes
  chain : Bytes
  deriving DecidableEq, Repr

/-- An append that has reached the writer's queue; `hold` is the Hut time before which further occurrences join it. -/
structure TrkReq where
  kind : Nat
  origin : Nat
  payload : Bytes
  reserve : Bool           -- of a reserve kind (R434)
  aggregated : Bool
  hold : Nat
  raise : Bool             -- copy its SEQ to PTL_LOCK_SEQ (R414)
  deriving DecidableEq, Repr

/-- The pending export (R439). -/
structure Export where
  id : Nat
  first : Nat
  last : Nat
  chain : Bytes
  deriving DecidableEq, Repr

structure Tracks where
  ready : Bool
  entries : List TrkEntry  -- unreleased, oldest first
  headSeq : Nat
  headUnit : Nat           -- next unit to be used
  headChain : Bytes
  relSeq : Nat             -- oldest unreleased SEQ
  relChain : Bytes         -- CHAIN of the entry before it
  queue : List TrkReq
  lostGeneral : Nat
  lostReserve : Nat
  exportId : Nat           -- EXPORT_ID of the export started last (R437)
  pending : Option Export
  damagedCnt : Nat
  evt : BitVec 5
  headHi : Word
  relHi : Word
  lastHi : Word
  timeRestart : Bool
  deriving DecidableEq, Repr

/-! ### The Hut and the alarm lines (chapter 16) -/

/-- A Hut entry (R451). -/
structure HutEntry where
  seq : Nat
  kind : Nat
  source : Nat             -- source − 128
  level : Level
  detA : Bool
  detB : Bool
  lockSet : Bool
  razeSet : Bool
  whiteout : Bool
  damaged : Bool
  time : Nat
  count : Nat
  tj : Int
  vbat1 : Nat
  vbat2 : Nat
  lastTime : Nat
  deriving DecidableEq, Repr

/-- Cell or rail that carries the Hut (R444). -/
inductive HutSupply where
  | vio | cell1 | cell2 | none
  deriving DecidableEq, Repr

structure Hut where
  time : Nat               -- 1/32,768 s ticks
  frac : Nat               -- fraction of a tick, in 1/390,625
  locked : Bool
  purged : Bool
  purgedMram : Bool
  razePending : Bool
  razeMram : Bool
  whiteout : Bool
  hotMin : Nat
  hotRem : Nat             -- milliseconds below a whole minute
  hotMram : Nat            -- the MRAM copy, a multiple of 60
  cause : Nat
  input : Nat
  zones : Word
  reason : Word
  woTime : Nat
  buffer : List HutEntry
  seq : Nat
  evt : BitVec 5
  xtalStop : Bool
  hutLost : Bool
  overflow : Bool
  appended : Nat
  appendedSeq : Nat        -- HUT_SEQ of the latest 0x0800 entry in Tracks (R453)
  vbat1 : Nat
  vbat2 : Nat
  supply : HutSupply
  timeHi : Word
  deriving DecidableEq, Repr

/-- Alarm-input states (R455). -/
inductive AlmState where
  | normal | active | opened | short
  deriving DecidableEq, Repr

structure AlmInput where
  func : Nat
  state : AlmState
  changing : Bool
  level : Nat
  cand : AlmState          -- band of the running count
  count : Nat
  settled : Bool           -- a state has been accepted since the reset
  wasActive : Bool         -- active since it was last normal
  deriving DecidableEq, Repr

structure Alarm where
  inputs : Tbl AlmInput
  resetSeen : Bool
  evt : BitVec 6
  lineFaultCnt : Nat
  woTimeHi : Word
  deriving DecidableEq, Repr

/-! ### The card port (chapter 17) -/

inductive PortState where
  | disabled | enabled | draining
  deriving DecidableEq, Repr

inductive CardState where
  | none | powerUp | ident | ready | transfer | offWait | rejected
  deriving DecidableEq, Repr

/-- What the port is waiting for on the card bus (R473, R483, R487 to R491). -/
inductive CardPhase where
  | idle
  | ident (step : Nat) (sub : Nat)      -- R473: the step, and the command within it
  | probe (sub : Nat)                   -- R473 step 9: CMD17 response, then the identity block
  | readCmd | readData | readStop       -- CMD17 or CMD18, its blocks, CMD12
  | writeCmd (sub : Nat)                -- CMD55, ACMD23, CMD25
  | writeBusy                           -- a block is programming
  | writeStop                           -- CMD12 after the last block or a failure
  | finalBusy                           -- busy after CMD12
  | confirm (sub : Nat)                 -- CMD13, CMD55, ACMD22, its data block
  | mbxIdent (sub : Nat)                -- CMD17 of the identity block, then the block
  | mbxWrite (sub : Nat)                -- CMD24, busy, CMD13
  | mbxWait                             -- until the next poll of the response block
  | mbxResp (sub : Nat)                 -- CMD17 of the response block, then the block
  | readBackCmd | readBackData | readBackStop  -- R493
  deriving DecidableEq, Repr

/-- A mailbox transaction (R489). -/
structure Mbx where
  isOpen : Bool
  token : DWord
  seq : Word
  sha : Bytes
  deriving DecidableEq, Repr

/-- The unlock flow of R491. -/
inductive UnlockStage where
  | idle | request | answer
  deriving DecidableEq, Repr

/-- The settings of CARD_CFG and CARD_TMO in use: a write while a card is identified waits for the next identification (R494). -/
structure CardUse where
  unlockEn : Bool
  readAcc : Nat
  busyBlk : Nat
  final : Nat
  mbxTmo : Nat
  deriving DecidableEq, Repr

structure Card where
  port : PortState
  state : CardState
  present : Bool
  power : Bool
  terja : Bool
  hs : Bool
  wide : Bool
  hc : Bool
  restartPending : Bool
  fault : Bool
  reason : Nat
  unlockEn : Bool
  hsEn : Bool
  wideEn : Bool
  readAcc : Nat
  busyBlk : Nat
  final : Nat
  mbxTmo : Nat
  use : CardUse
  capacity : Nat
  cid : BitVec 128
  csd : BitVec 128
  scr : DWord
  ocr : Word
  rca : BitVec 16
  token : DWord
  authMap : BitVec 8
  identSeq : Word          -- LAST_SEQ of the identity block last read
  identSerial : DWord
  mbx : Mbx
  offSince : Nat           -- tick of the latest deassertion of CD_PWR_EN
  offRunning : Bool
  phase : CardPhase
  retriedCmd : Bool        -- the command in progress has been retried once
  acmdSince : Nat          -- tick at which step 2 began
  job : Option Nat         -- tag of the job on the port
  blocks : Nat             -- blocks received or sent
  total : Nat
  started : Bool           -- the first data block of a write has begun
  data : Bytes             -- bytes received, or the bytes to send
  respState : Nat          -- CURRENT_STATE of the latest R1 response, 0xFF when none
  failReason : Nat         -- first failure met
  mbxStatus : Nat
  mbxLen : Nat
  flow : UnlockStage
  flowReq : Bytes          -- payload of the flow's request
  flowOut : Option (Nat × Nat × Nat)  -- authority, status and reason of the flow's command
  flowSince : Nat          -- tick at which the flow began
  served : Bool            -- the seated card has had its flow
  mbxFlow : Bool           -- the open transaction is an UNLOCK_REQ
  jobSeq : Nat             -- SEQ of the exchange on the port
  unlockValid : Bool
  unlockAuth : Nat
  unlockStatus : Nat
  unlockReason : Nat
  last : Word
  evt : BitVec 6
  unknownCnt : Nat
  crcCnt : Nat
  deriving DecidableEq, Repr

/-! ### Events and telemetry (chapter 19) -/

/-- A queued event record (R516). -/
structure EvRec where
  time : Nat
  source : Nat
  count : Nat
  detail0 : Word
  detail1 : DWord
  seq : Nat
  held : Bool              -- held by the 1 ms rule of R517
  msg : Option Nat         -- vector of the message that leaves behind the record (R519)
  told : Bool              -- its message left at the raise
  deriving DecidableEq, Repr

/-- A coalescing interval open on a vector (R520). -/
structure Coal where
  isOpen : Bool
  withheld : Bool
  deriving DecidableEq, Repr

structure Events where
  map : Tbl (BitVec 16)    -- written entries; an unlisted source has its reset entry (R515)
  mask : Tbl Bool
  pend : Tbl Bool
  queue : List EvRec
  lost : Nat
  lostDue : Bool           -- source 364 is due when the queue next has room (R517)
  seq : Nat
  base : DWord
  enabled : Bool
  depthLog2 : Nat
  head : Nat
  tail : Nat
  phase : Bool
  coalLow : Nat
  coalHigh : Nat
  intervals : Tbl Coal
  lastWrite : Tbl Nat      -- tick + 1 of the last written record of sources 640 to 1023
  deriving DecidableEq, Repr

/-- Totals of which the telemetry record reports the growth since the previous record (R521). -/
structure Totals where
  admitted : Tbl Nat
  refused : Tbl Nat
  retried : Nat
  late : Nat
  ce : Nat
  ue : Nat
  incs : Nat
  blocks : Nat
  fails : Nat
  reseeds : Nat
  deriving DecidableEq, Repr

structure Telemetry where
  base : DWord
  enabled : Bool
  depthLog2 : Nat
  head : Nat
  tail : Nat
  phase : Bool
  lost : Nat
  seq : Nat
  admitted : Tbl Nat       -- jobs admitted per class since power-on
  inflightMax : Nat
  siLowSec : Tbl Nat
  prev : Totals
  deriving DecidableEq, Repr

/-! ### The whole part -/

/-- The KV4096 and the queue of the commands that wait for it. -/
structure State where
  now : Nat                -- the time-base counter of R41, in 10 ns
  free : Nat               -- the model's own counter of free values drawn so far (log entry 6)
  life : LifeCycle
  link : Link
  gate : Gate
  rings : RingBlock
  units : Units
  curves : Curves
  sess : Sessions
  vault : Vault
  ctrs : Counters
  powder : Powder
  merya : Merya
  prot : Protection
  mem : List Host.Cell     -- applet SRAM, applet store and site configuration; an unlisted byte reads as zero
  stored : Stored
  patrol : Patrol
  trk : Tracks
  hut : Hut
  alarm : Alarm
  card : Card
  evts : Events
  tel : Telemetry
  pending : List Instr
  deriving DecidableEq, Repr

/-! ### Reset values -/

namespace LifeCycle
/-- PORST_N is asserted; a new part is BLANK (log entry 9). -/
def reset : LifeCycle :=
  { state := .blank, serial := Config.dieSerial, isSealed := false, startDone := false, startFail := false,
    startStep := 0, startCode := 0, aborted := false, cause := 0, startTime := 0, evt := 0, provValid := false,
    provPub := [], provLatch := [], porst := true, perst := true, porstSeen := true, starting := false,
    prior := 0 }
end LifeCycle

namespace MsixEntry
/-- R90: as the Base Specification, every vector masked. -/
def reset : MsixEntry := { addr := 0, data := 0, control := 1 }
end MsixEntry

namespace PcieFault
def reset : PcieFault := { valid := false, write := false, ring := 0, tag := 0, kind := 0, addr := 0 }
end PcieFault

namespace Link
def reset : Link :=
  { up := false, gen := 0, width := 0, mps := 0, mrrs := 2, extendedTag := true, relaxedOrdering := true,
    bme := false, msixEnable := false, functionMask := false, d3hot := false, err := 0, fault := PcieFault.reset,
    dataRo := false, msix := [], pba := [], heldTags := [], expired := [], aer := 0, mse := false, bar0 := 0, bar2 := 0, devctl2 := 0,
    creditStalled := false, heldEntries := [], posted := [], requests := [],
    readData := 0 }
end Link

namespace Gate
/-- R77; siLatest and siLow hold 0x80 by default. -/
def reset : Gate :=
  { isOpen := false, band := .s0, tj := 0, slew := 0, downSince := none, slewClosed := false, slewLowSince := none,
    railsOut := [], envClosed := false, hoursExceeded := false, derate := 64, siMin := 128, siMinMon := 0,
    siWindow := [], siLatest := [], siLow := [], siSeen := false, derateHold := none, rdLat := 12, charges := [], overrun := false,
    refused := [], lateCnt := 0, retryCnt := 0, evt := 0 }
end Gate

namespace Ring
/-- R146. -/
def reset : Ring :=
  { sqBase := 0, cqBase := 0, haltMode := false, cls := .L, depthLog2 := 6, state := .disabled, haltIndex := 0,
    enableIgnored := false, dbOverflow := false, dbIgnored := false, rearmPending := false, rearmFlush := none,
    rearmAt := 0, restartPending := false,
    tail := 0, fetch := 0, done := 0, fetchPhase := true, visible := [], slots := [], heldDb := none }
/-- R349: an internal ring's registers are zero until RING_CONFIG. -/
def resetInternal : Ring := { reset with depthLog2 := 0 }
end Ring

namespace RingBlock
def reset : RingBlock := { host := [], internal := [], jobs := [], noTagCnt := 0, cancelCnt := 0 }
end RingBlock

namespace UnitRec
def reset : UnitRec := { state := .off, faultCode := 0, restartPending := false, afterEnable := false }
end UnitRec

namespace UnitFault
def reset : UnitFault := { valid := false, num := 0, tag := 0, place := 0 }
end UnitFault

namespace MaskGen
def reset : MaskGen := { seeded := false, seed := [], drawn := 0, at_ := 0 }
end MaskGen

namespace Units
def reset : Units :=
  { edges := [], blades := [], lifts := [], hashes := [], groomers := [], mask := [], slotLen := 3, edgeEvt := 0,
    edgeFault := UnitFault.reset, edgeSel := 0, slotsLatch := 0, arbMax := 0, arbSince := [], paddedCnt := 0,
    slipCnt := 0, invalidCnt := 0, vfailCnt := 0, rngfailCnt := 0, bladeEvt := 0, bladeFault := UnitFault.reset,
    tagfailCnt := 0, unverCnt := 0, liftEvt := false, deriveCnt := 0 }
end Units

namespace Curve
def reset : Curve := { loaded := false, image := [], digest := [] }
end Curve

namespace Curves
def reset : Curves :=
  { table := [], sel := 0, digLatch := [], lastValid := false, lastEntry := 0, lastFirst := 0,
    lastFailed := 0 }
end Curves

namespace Session
def reset : Session :=
  { label := 0, rootSlot := 0, mode := 0, flags := 0, colour := 0, chainOpen := false, isSet := false, salt := 0,
    gen := 0, epoch := 0, txCtr := 0, rxHigh := 0, rxMap := 0, chainGen := 0, cont := 0 }
end Session

namespace Sessions
def reset : Sessions := { table := [], sel := 0, latch := Session.reset, latchSum := 0, replayCnt := 0 }
end Sessions

namespace VSlot
/-- R192: a never-written slot shows generation 0. -/
def reset : VSlot := { number := 0, cur := none, old := [], reserved := false }
end VSlot

namespace Vault
def reset : Vault :=
  { root := [], priv := [], selPriv := false, selSlot := 0, statLatch := 0, genLatch := 0, retLatch := 0,
    holdLatch := 0, evt := 0 }
end Vault

namespace Counter
/-- R171, R173: unassigned, zero before its first increment, both credits full (log entry 9). -/
def reset : Counter := { value := 0, head := 0, words := [], owner := 0xFF, short := 1000, long := 691200 }
end Counter

namespace Counters
def reset : Counters :=
  { table := [], sel := 0, valueLatch := 0, enabled := 0, grant := [], lastCode := 0, lastAuth := 0, lastStatus := 0,
    half := none, refuseCnt := 0, authFailCnt := 0, evt := 0, incs := 0 }
end Counters

namespace Cell
def reset : Cell := { ones := 0, maxRun := 0, trim := 0x20, run := 0, last := false, seen := 0, first := false, same := 0, tally := 0 }
end Cell

namespace Groomer
def reset : Groomer :=
  { instantiated := false, k := [], v := [], count := 0, due := false, hardStall := false, seedAt := 0,
    everSeeded := false, insts := 0 }
end Groomer

namespace Powder
def reset : Powder :=
  { state := .off, seeded := false, confirming := false, failedRestarts := 0, seedAt := 0, pattern := false,
    raw := false, patternBits := [], rawLatch := 0, cellFail := 0, cellSel := 0, cells := [], pending := [],
    ready := [], blocks := 0, failCnt := 0, evt := 0, grm := [], reseedCnt := 0, rngFaultCnt := 0, grmEvt := 0,
    portFaultCnt := 0, reserve := [], maskTurn := 0 }
end Powder

namespace Applet
def reset : Applet :=
  { state := .empty, cls := .L, image := [], sha := [], restart := false, forced := false, restarts := 0, cause := 0,
    epc := 0, mail := [], taken := false, mailSlot := 0, mailSeq := 0, mailLost := 0, timer := none, deadline := 0,
    slices := 0, pc := 0, regs := [], waitPending := false, held := false }
end Applet

namespace Rink
/-- R325: STAT resets to 0x0000_0001, that is supervisor mode; R499 stops every core. -/
def reset : Rink :=
  { applet := none, idle := true, regs := [], pc := 0, supervisor := true, epc := 0, estat := 0, ecause := 0,
    eaddr := 0, timeHi := 0, deadlineHi := 0, sliceAt := 0, buffer := [], arriving := [], refill := none, stalled := none }
end Rink

namespace Merya
def reset : Merya := { apps := [], cores := [] }
end Merya

namespace PuEntry
def reset : PuEntry := { w0 := 0, w1 := 0 }
end PuEntry

namespace PuFault
def reset : PuFault :=
  { valid := false, write := false, exec := false, user := false, applet := 0, reason := 0, entry := 0, tag := 0,
    colour := 0, addr := 0 }
end PuFault

namespace Protection
def reset : Protection :=
  { units := [], grants := [], tags := [], faults := [], evt := 0, gsel := 0, puTag := 0, draining := [],
    isOpen := false, openUntil := none, denyCnt := 0, faultCnt := 0, drainMax := 0, arm := 0,
    dbg := { pending := false, write := false, error := false, addr := 0, data := 0 } }
end Protection

namespace Stored
def reset : Stored :=
  { marks := [], corrected := [], weak := [], writeBacks := [], retiring := [], retired := [], ce := [], ceCnt := 0,
    ueCnt := 0, retireCnt := 0, tornCnt := 0, passOk := false, passMs := 0, passBegun := [], passTook := [],
    fault := { valid := false, part := false, dup := false, bank := 0, word := 0 }, evt := 0, bsel := 0, wsel := 0,
    bankLatch := 0x80000000, weakLatch := 0, retAge := 0, retAgeReg := 0, rowWrites := [], saved := [], ctrWrites := [], clears := [] }
end Stored

namespace PSource
def reset : PSource :=
  { detA := false, detB := false, active := false, disagree := false, seen := false, trips := 0 }
end PSource

namespace Patrol
def reset : Patrol :=
  { sources := [], levels := [], razeEnabled := false, standing := .note, firstValid := false, firstLevel := .note,
    firstSource := 0, evt := 0, lockSeq := 0, lockSeqHi := 0, sel := 0, selLatch := 0x6C000000, zeroTime := 0,
    erasing := false, unitFaults := [] }
end Patrol

namespace Tracks
/-- R430: the first entry ever written has SEQ 1; `headChain` empty stands for the genesis value. -/
def reset : Tracks :=
  { ready := false, entries := [], headSeq := 0, headUnit := 0, headChain := [], relSeq := 1, relChain := [],
    queue := [], lostGeneral := 0, lostReserve := 0, exportId := 0, pending := none, damagedCnt := 0, evt := 0,
    headHi := 0, relHi := 0, lastHi := 0, timeRestart := false }
end Tracks

namespace Hut
/-- The Hut of a new part with both cells fitted at 3.0 V (log entry 9). -/
def reset : Hut :=
  { time := 0, frac := 0, locked := false, purged := false, purgedMram := false, razePending := false,
    razeMram := false, whiteout := false, hotMin := 0, hotRem := 0, hotMram := 0, cause := 0, input := 0, zones := 0,
    reason := 0, woTime := 0, buffer := [], seq := 0, evt := 0, xtalStop := false, hutLost := false,
    overflow := false, appended := 0, appendedSeq := 0, vbat1 := 3000, vbat2 := 3000, supply := .cell1, timeHi := 0 }
end Hut

namespace AlmInput
/-- R456, R467: normal with CHANGING set, function unused. -/
def reset : AlmInput :=
  { func := 0, state := .normal, changing := true, level := 0, cand := .normal, count := 0, settled := false, wasActive := false }
end AlmInput

namespace Alarm
def reset : Alarm := { inputs := [], resetSeen := false, evt := 0, lineFaultCnt := 0, woTimeHi := 0 }
end Alarm

namespace Card
/-- R494. -/
def reset : Card :=
  { port := .disabled, state := .none, present := false, power := false, terja := false, hs := false, wide := false,
    hc := false, restartPending := false, fault := false, reason := 0, unlockEn := true, hsEn := true, wideEn := true,
    readAcc := 0x0A, busyBlk := 0x05, final := 0x19, mbxTmo := 0x14,
    use := { unlockEn := true, readAcc := 0x0A, busyBlk := 0x05, final := 0x19, mbxTmo := 0x14 }, capacity := 0, cid := 0, csd := 0, scr := 0,
    ocr := 0, rca := 0, token := 0, authMap := 0, identSeq := 0, identSerial := 0,
    mbx := { isOpen := false, token := 0, seq := 0, sha := [] }, offSince := 0, offRunning := false, phase := .idle,
    retriedCmd := false, acmdSince := 0, job := none, blocks := 0, total := 0, started := false, data := [],
    respState := 0xFF, failReason := 0, mbxStatus := 0xFF, mbxLen := 0, flow := .idle, flowReq := [],
    flowOut := none, flowSince := 0, served := false, mbxFlow := false, jobSeq := 0,
    unlockValid := false, unlockAuth := 0, unlockStatus := 0, unlockReason := 0, last := 0, evt := 0,
    unknownCnt := 0, crcCnt := 0 }
end Card

namespace Events
/-- R515, R523. -/
def reset : Events :=
  { map := [], mask := [], pend := [], queue := [], lost := 0, lostDue := false, seq := 0, base := 0, enabled := false, depthLog2 := 6,
    head := 0, tail := 0, phase := true, coalLow := 0, coalHigh := 0, intervals := [], lastWrite := [] }
end Events

namespace Totals
def reset : Totals :=
  { admitted := [], refused := [], retried := 0, late := 0, ce := 0, ue := 0, incs := 0, blocks := 0, fails := 0,
    reseeds := 0 }
end Totals

namespace Telemetry
def reset : Telemetry :=
  { base := 0, enabled := false, depthLog2 := 3, head := 0, tail := 0, phase := true, lost := 0, seq := 0,
    admitted := [], inflightMax := 0, siLowSec := [], prev := Totals.reset }
end Telemetry

/-- The part with PORST_N asserted, before its first start-up: every register at its reset value, every MRAM word EMPTY. -/
def State.reset : State :=
  { now := 0, free := 0, life := LifeCycle.reset, link := Link.reset, gate := Gate.reset, rings := RingBlock.reset,
    units := Units.reset, curves := Curves.reset, sess := Sessions.reset, vault := Vault.reset,
    ctrs := Counters.reset, powder := Powder.reset, merya := Merya.reset, prot := Protection.reset, mem := [],
    stored := Stored.reset, patrol := Patrol.reset, trk := Tracks.reset, hut := Hut.reset, alarm := Alarm.reset,
    card := Card.reset, evts := Events.reset, tel := Telemetry.reset, pending := [] }

end Sys2Proof.Machine
end

