-- ==== Sys2Proof/Machine/Operands.lean ====
section
/-!
DEFINITION. Sys2Proof/Machine/Operands.lean: the fields of a descriptor (R113, R114), of a command block (R152) and of a
session's MODE and FLAGS (R177, R178), and what a descriptor's fields say without any state of the part (R116, R151,
R207, R269, R272, R308, R436, R476).
-/
namespace Sys2Proof.Machine

/-! ### Descriptor fields (R113) -/

/-- `len` bits from bit `lo` of the field at byte `off` of a descriptor. -/
def dBits (d : Descriptor) (off lo len : Nat) : Nat := (d.extractLsb' (8 * off + lo) len).toNat

def dOpcode (d : Descriptor) : Nat := dBits d 0x00 0 8
def dClass (d : Descriptor) : Nat := dBits d 0x00 8 2
def dSrcList (d : Descriptor) : Bool := dBits d 0x00 16 1 = 1
def dDstList (d : Descriptor) : Bool := dBits d 0x00 17 1 = 1
def dStreamed (d : Descriptor) : Bool := dBits d 0x00 18 1 = 1
def dNoIrq (d : Descriptor) : Bool := dBits d 0x00 19 1 = 1
def dChain (d : Descriptor) : Nat := dBits d 0x00 20 2
def dPad (d : Descriptor) : Bool := dBits d 0x00 22 1 = 1
def dSlot (d : Descriptor) : Nat := dBits d 0x04 0 16
def dAux (d : Descriptor) : Nat := dBits d 0x04 16 16
def dSrcAddr (d : Descriptor) : Nat := dBits d 0x08 0 64
def dSrcLen (d : Descriptor) : Nat := dBits d 0x10 0 32
def dAadLen (d : Descriptor) : Nat := dBits d 0x14 0 32
def dDstAddr (d : Descriptor) : Nat := dBits d 0x18 0 64
def dDstLen (d : Descriptor) : Nat := dBits d 0x20 0 32
def dSrcNent (d : Descriptor) : Nat := dBits d 0x24 0 8
def dDstNent (d : Descriptor) : Nat := dBits d 0x24 8 8
def dCmdAddr (d : Descriptor) : Nat := dBits d 0x28 0 64
def dXparam (d : Descriptor) : DWord := d.extractLsb' (8 * 0x30) 64
def dCookie (d : Descriptor) : DWord := d.extractLsb' (8 * 0x38) 64

/-- AUX[11:0] and AUX[14:12] of OPCODE 0x40 (R151). -/
def dCmdCode (d : Descriptor) : Nat := dAux d % 0x1000
def dCmdAuth (d : Descriptor) : Nat := dAux d / 0x1000 % 8

/-- AUX[11:8] of R269: the HASH field. -/
def dHash (d : Descriptor) : Nat := dAux d / 0x100 % 16
/-- AUX[4:0] of R269: the curve entry. -/
def dEntry (d : Descriptor) : Nat := dAux d % 32
/-- AUX[13] and AUX[12] of the RSA opcodes (R269), and SLEN. -/
def dPss (d : Descriptor) : Bool := dAux d / 0x2000 % 2 = 1
def dPrehashed (d : Descriptor) : Bool := dAux d / 0x1000 % 2 = 1
def dSlen (d : Descriptor) : Nat := dAux d % 256

/-- R39: the payload, the larger of what the source and the destination name. -/
def payload (d : Descriptor) : Nat := max (dSrcLen d) (dDstLen d)

/-! ### Command codes (R165) -/

def cmdOfCode (code : Nat) : Option CmdCode :=
  match code with
  | 0x001 => some .whiteoutEnter | 0x002 => some .evacuate | 0x003 => some .alert | 0x010 => some .whiteoutExit
  | 0x020 => some .unlock | 0x030 => some .authSet | 0x031 => some .authDisable | 0x040 => some .rootImport
  | 0x041 => some .rootErase | 0x042 => some .privImport | 0x043 => some .privErase | 0x050 => some .curveLoad
  | 0x060 => some .appletLoad | 0x061 => some .appletRemove | 0x070 => some .levelRaise | 0x071 => some .razeEnable
  | 0x072 => some .alarmConfig | 0x073 => some .ctrAssign | 0x080 => some .debugUnlock | 0x090 => some .lcAdvance
  | 0x0A0 => some .trkReceipt | 0x0B0 => some .sesSet | 0x0B1 => some .sesClear
  | _ => none

/-- The groups of R165. -/
inductive CmdGroup where
  | alarm | unlock | key | policy | session | log
  deriving DecidableEq, Repr

def cmdGroup (c : CmdCode) : CmdGroup :=
  match c with
  | .whiteoutEnter | .evacuate | .alert | .whiteoutExit => .alarm
  | .unlock => .unlock
  | .authSet | .authDisable | .rootImport | .rootErase | .privImport | .privErase => .key
  | .curveLoad | .appletLoad | .appletRemove | .levelRaise | .razeEnable | .alarmConfig | .ctrAssign | .debugUnlock
  | .lcAdvance => .policy
  | .trkReceipt => .log
  | .sesSet | .sesClear => .session

/-- R150, R165: the authorities that may seal a code; `grant` is the GRANT field of the authority's AUTH_SET. -/
def authPermits (c : CmdCode) (auth : Nat) (grant : Word) : Bool :=
  match c with
  | .whiteoutEnter | .whiteoutExit => auth == 1
  | .evacuate | .alert => auth == 1 || (decide (5 ≤ auth) && grant.getLsbD 0)
  | .unlock => auth == 4 || auth == 0
  | .authSet | .authDisable | .curveLoad | .appletLoad | .appletRemove | .levelRaise | .razeEnable | .alarmConfig
  | .ctrAssign | .debugUnlock | .lcAdvance => auth == 0
  | .rootImport | .rootErase | .privImport | .privErase => auth == 2
  | .trkReceipt => auth == 3
  | .sesSet | .sesClear => auth == 2 || (decide (5 ≤ auth) && grant.getLsbD 1)

/-- R165: BODY_LEN of a code lies between these. -/
def bodyLens (c : CmdCode) : Nat × Nat :=
  match c with
  | .whiteoutEnter | .unlock => (8, 8)
  | .evacuate | .alert => (8, 88)
  | .authSet | .rootImport | .trkReceipt | .sesSet => (48, 48)
  | .privImport | .curveLoad | .appletLoad => (40, 40)
  | _ => (4, 4)

/-! ### The row of a descriptor (R115) -/

/-- The operation that OPCODE and, for 0x40 and 0x50, AUX name; none when no row of R115, R165 or R476 is named. -/
def opOf (d : Descriptor) : Option Op :=
  match dOpcode d with
  | 0x10 => some .sesEncrypt | 0x11 => some .sesDecrypt | 0x12 => some .sesMacGen | 0x13 => some .sesMacVerify
  | 0x20 => some .hash | 0x28 => some .rngOut
  | 0x30 => some .ecdsaSign | 0x31 => some .ecdsaVerify | 0x32 => some .ecKeygen | 0x33 => some .ecdh
  | 0x34 => some .eddsaSign | 0x35 => some .eddsaVerify | 0x36 => some .xdh
  | 0x38 => some .rsaVerify | 0x39 => some .rsaSign
  | 0x40 => (cmdOfCode (dCmdCode d)).map Op.critical
  | 0x50 => match dAux d % 16 with
    | 0 => some .cardRead | 1 => some .cardWrite | 2 => some .cardMailbox | 3 => some .cardInfo | _ => none
  | 0x51 => some .trkExport
  | _ => none

/-! ### Kinds of work -/

def isSession (o : Op) : Bool :=
  match o with
  | .sesEncrypt | .sesDecrypt | .sesMacGen | .sesMacVerify => true
  | _ => false

def isSending (o : Op) : Bool := o == .sesEncrypt || o == .sesMacGen

def isCritical (o : Op) : Bool :=
  match o with
  | .critical _ => true
  | _ => false

def isCard (o : Op) : Bool :=
  match o with
  | .cardRead | .cardWrite | .cardMailbox | .cardInfo => true
  | _ => false

/-- Operations that run on an Edge. -/
def isEdge (o : Op) : Bool :=
  match o with
  | .ecdsaSign | .ecdsaVerify | .ecKeygen | .ecdh | .eddsaSign | .eddsaVerify | .xdh | .rsaVerify | .rsaSign => true
  | _ => false

/-- Operations that read a private-key slot (R193, R274). -/
def isPrivate (o : Op) : Bool :=
  match o with
  | .ecdsaSign | .ecdh | .eddsaSign | .xdh | .rsaSign => true
  | _ => false

/-- R52, R281: the job needs random numbers. -/
def needsRandom (o : Op) (d : Descriptor) : Bool :=
  match o with
  | .rngOut | .ecdsaSign | .ecKeygen | .critical .curveLoad => true
  | .rsaSign => dPss d
  | _ => false

/-- R52: the job signs or generates a key. -/
def signsOrGenerates (o : Op) : Bool :=
  match o with
  | .ecdsaSign | .eddsaSign | .rsaSign | .ecKeygen => true
  | _ => false

/-! ### Session MODE and FLAGS (R177, R178) -/

inductive Alg where
  | gcm | gmac | ccm | ctr | cbc | cmac
  deriving DecidableEq, Repr

def modeAlg (m : BitVec 8) : Option Alg :=
  match m.toNat % 8 with
  | 0 => some .gcm | 1 => some .gmac | 2 => some .ccm | 3 => some .ctr | 4 => some .cbc | 5 => some .cmac
  | _ => none

/-- Key bits, 0 for the reserved encoding. -/
def modeKeyBits (m : BitVec 8) : Nat :=
  match m.toNat / 8 % 4 with
  | 0 => 128 | 1 => 192 | 2 => 256 | _ => 0

/-- Dummy rounds, 0 for the reserved encoding. -/
def modeDummy (m : BitVec 8) : Nat :=
  match m.toNat / 32 % 4 with
  | 0 => 2 | 1 => 4 | 2 => 8 | _ => 0

/-- R177: no reserved encoding. -/
def modeOk (m : BitVec 8) : Bool :=
  (modeAlg m).isSome && modeKeyBits m != 0 && modeDummy m != 0 && decide (m.toNat < 128)

/-- The counter-nonce modes. -/
def nonceMode (a : Alg) : Bool := a == .gcm || a == .gmac || a == .ccm

def flagLifeSafety (f : BitVec 8) : Bool := f.getLsbD 0
def flagResponder (f : BitVec 8) : Bool := f.getLsbD 1
def flagFollow (f : BitVec 8) : Bool := f.getLsbD 2

/-- R184: the direction byte a job derives with. -/
def direction (o : Op) (f : BitVec 8) : Nat := if isSending o == flagResponder f then 2 else 1

/-- R205: the opcodes a session accepts. -/
def algAccepts (a : Alg) (o : Op) : Bool :=
  match a with
  | .gcm | .ccm | .ctr | .cbc => o == .sesEncrypt || o == .sesDecrypt
  | .gmac | .cmac => o == .sesMacGen || o == .sesMacVerify

/-! ### Output lengths (R206, R271) -/

/-- The piece carries a tag: a whole message or a last piece (R214). -/
def lastPiece (d : Descriptor) : Bool := dChain d == 0 || dChain d == 3

/-- R206, R214: the length the output of a session job has at most; a CBC decrypt with PAD 1 drops 1 to 16 bytes. -/
def sessionOut (a : Alg) (o : Op) (d : Descriptor) : Nat :=
  let text := dSrcLen d - dAadLen d
  let tag := if lastPiece d then 16 else 0
  match o with
  | .sesEncrypt => match a with
    | .gcm | .ccm => text + tag
    | .cbc => if dPad d then 16 * (dSrcLen d / 16 + 1) else dSrcLen d
    | _ => dSrcLen d
  | .sesDecrypt => match a with
    | .gcm | .ccm => text - tag
    | .cbc => if dPad d then dSrcLen d - 1 else dSrcLen d
    | _ => dSrcLen d
  | .sesMacGen => tag
  | _ => 0

/-- R269: the digest or message bytes an RSA or ECDSA signature covers come after a fixed prefix of the source. -/
def rsaModulusLen (d : Descriptor) : Nat := (dXparam d).toNat

/-- Fixed output lengths that opcode and AUX give (R271). -/
def fixedOut (o : Op) (d : Descriptor) : Nat :=
  match o with
  | .hash => match dHash d with
    | 1 => 32 | 2 => 48 | 3 => 64 | 4 => 32 | 5 => 48 | 6 => 64 | _ => 0
  | .eddsaSign => if dAux d % 2 = 0 then 64 else 114
  | .xdh => if dAux d % 2 = 0 then 32 else 56
  | _ => 0

/-! ### Flags that have a meaning (R114) -/

/-- The opcode reads a source. -/
def takesSource (o : Op) : Bool :=
  match o with
  | .rngOut | .ecKeygen | .cardRead | .cardInfo | .trkExport => false
  | _ => true

/-- The opcode writes a destination. -/
def givesOutput (o : Op) : Bool :=
  match o with
  | .sesMacVerify | .ecdsaVerify | .eddsaVerify | .rsaVerify | .critical _ | .cardWrite => false
  | _ => true

/-- SRC_LIST and DST_LIST where they mean something; a flag without a meaning for the opcode is ignored. -/
def srcListed (o : Op) (d : Descriptor) : Bool := dSrcList d && takesSource o
def dstListed (o : Op) (d : Descriptor) : Bool := dDstList d && givesOutput o

/-! ### R116: no admissible operation, judged without any state -/

/-- An entry a short-Weierstrass opcode may name (R269). -/
def wEntryOk (e : Nat) : Bool := decide (e ≤ 5) || (decide (8 ≤ e) && decide (e ≤ 31))

/-- R269: the KIND of an EC_KEYGEN. -/
def keygenKindOk (k : Nat) : Bool :=
  (decide (0x1000 ≤ k) && decide (k < 0x1020) && wEntryOk (k - 0x1000)) || k == 0x2000 || k == 0x2001 || k == 0x3000 ||
    k == 0x3001

/-- The faults of R207 of a session descriptor. -/
def sessionShapeBad (o : Op) (d : Descriptor) : Bool :=
  let text := dSrcLen d - dAadLen d
  dAux d != 0 || decide (4095 < dSlot d) ||
  ((o == .sesMacGen || o == .sesMacVerify) && dAadLen d != 0) ||
  (o == .sesMacVerify && decide (dSrcLen d < 16)) ||
  (o == .sesMacGen && lastPiece d && decide (dDstLen d < 16)) ||
  (o == .sesDecrypt && dChain d != 0 && !(dStreamed d)) ||
  (o == .sesDecrypt && !(dStreamed d) && decide (65536 + 16 < text)) ||
  ((dChain d == 1 || dChain d == 2) && (text == 0 || text % 16 != 0 || dPad d)) ||
  ((dChain d == 2 || dChain d == 3) && dAadLen d != 0)

/-- The faults of R269 and R272 of a hash or public-key descriptor. -/
def pkShapeBad (o : Op) (d : Descriptor) : Bool :=
  let slotBad := if isPrivate o || o == .ecKeygen then decide (255 < dSlot d) else dSlot d != 0
  let xBad := if o == .rsaVerify then decide (rsaModulusLen d < 128) || decide (1024 < rsaModulusLen d)
    else dXparam d != 0
  let auxBad := match o with
    | .hash => !(decide (1 ≤ dHash d) && decide (dHash d ≤ 6)) || dAux d % 256 != 0 || decide (0x1000 ≤ dAux d)
    | .ecdsaSign | .ecdsaVerify =>
      decide (6 < dHash d) || dAux d % 256 != dEntry d || decide (0x1000 ≤ dAux d) || !(wEntryOk (dEntry d))
    | .ecdh => dAux d != dEntry d || !(wEntryOk (dEntry d))
    | .ecKeygen => !(keygenKindOk (dAux d))
    | .eddsaSign | .eddsaVerify | .xdh => decide (1 < dAux d)
    | .rsaSign | .rsaVerify =>
      decide (0x4000 ≤ dAux d) || !(decide (1 ≤ dHash d) && decide (dHash d ≤ 6)) || decide (64 < dSlen d) ||
        (!(dPss d) && dSlen d != 0)
    | _ => false
  let lenBad := match o with
    | .hash | .eddsaSign => decide (dDstLen d < fixedOut o d)
    | .xdh => decide (dDstLen d < fixedOut o d) || dSrcLen d != fixedOut o d
    | .ecKeygen => dSrcLen d != 0
    | .eddsaVerify => decide (dSrcLen d < (if dAux d % 2 = 0 then 96 else 171))
    | _ => false
  slotBad || xBad || auxBad || lenBad

/-- R308: the fields of RNG_OUT. -/
def rngShapeBad (d : Descriptor) : Bool :=
  dSlot d != 0 || dAux d != 0 || dXparam d != 0 || dSrcLen d != 0 || dDstLen d == 0

/-- R436, R492: the fields of TRK_EXPORT. -/
def exportShapeBad (d : Descriptor) : Bool :=
  dSlot d != 0 || dXparam d != 0 || dSrcLen d != 0 || decide (1 < dAux d) ||
    (dAux d == 1 && (decide (2 ^ 32 ≤ dDstAddr d) || dDstLen d == 0 || dDstLen d % 512 != 0))

/-- R476: the fields of CARD_XFER. -/
def cardShapeBad (o : Op) (d : Descriptor) : Bool :=
  let x := (dXparam d).toNat
  dSlot d != 0 || dAadLen d != 0 || decide (0x20 ≤ dAux d) || (dAux d / 16 % 2 == 1 && o != .cardMailbox) ||
  match o with
  | .cardRead => dSrcLen d != 0 || dDstLen d == 0 || dDstLen d % 512 != 0 || decide (2 ^ 32 ≤ x)
  | .cardWrite => dDstLen d != 0 || dSrcLen d == 0 || dSrcLen d % 512 != 0 || decide (2 ^ 32 ≤ x)
  | .cardMailbox => decide (480 < dSrcLen d) || dDstLen d != 480 || x == 0 || decide (0x0FFF < x)
  | _ => dSrcLen d != 0 || dDstLen d != 64 || x != 0

/-- R116: the descriptor describes no admissible operation; `grant` is the GRANT of the authority it names (R150). -/
def shapeBad (d : Descriptor) (grant : Word) : Bool :=
  decide (dSrcLen d < dAadLen d) ||
  match opOf d with
  | none => true
  | some o => (srcListed o d && (dSrcNent d == 0 || decide (64 < dSrcNent d))) ||
    (dstListed o d && (dDstNent d == 0 || decide (64 < dDstNent d))) ||
    match o with
    | .sesEncrypt | .sesDecrypt | .sesMacGen | .sesMacVerify => sessionShapeBad o d
    | .rngOut => rngShapeBad d
    | .critical c => decide (0x8000 ≤ dAux d) || !(authPermits c (dCmdAuth d) grant)
    | .cardRead | .cardWrite | .cardMailbox | .cardInfo => cardShapeBad o d
    | .trkExport => exportShapeBad d
    | _ => pkShapeBad o d

/-! ### R40: kinds and classes -/

/-- R73: the length row of a short-Weierstrass curve. -/
def wRow (pBits : Nat) : Nat := max 4 (ceilDiv pBits 64)

/-- R40: the kind is admissible in the class; w is the curve's row and k the modulus row of an RSA private key. -/
def kindAdmissible (o : Op) (w k : Nat) (c : Cls) : Bool :=
  match o with
  | .sesEncrypt | .sesDecrypt | .sesMacGen | .sesMacVerify | .hash | .rngOut => true
  | .critical .whiteoutEnter | .critical .evacuate | .critical .alert => true
  | .critical .curveLoad => c == .B
  | .critical _ => c != .L
  | .ecdsaVerify => if w ≤ 7 then c != .L else c == .R || c == .B
  | .rsaSign => if k ≤ 2048 then c != .L else c == .R || c == .B
  | .cardRead | .cardWrite | .cardMailbox | .cardInfo | .trkExport => c == .B
  | _ => c != .L

/-- R38: budget in picoseconds and payload ceiling in bytes. -/
def clsBudget (c : Cls) : Pico :=
  match c with
  | .L => 2000000000 | .P => 25000000000 | .R => 250000000000 | .B => 2500000000000

def clsCeiling (c : Cls) : Nat :=
  match c with
  | .L => 16384 | .P => 1048576 | .R => 16777216 | .B => 536870912

/-- The encoding of R104. -/
def clsCode (c : Cls) : Nat :=
  match c with
  | .L => 0 | .P => 1 | .R => 2 | .B => 3

def clsOfCode (n : Nat) : Cls :=
  match n % 4 with
  | 0 => .L | 1 => .P | 2 => .R | _ => .B

/-! ### Command blocks (R152) -/

def bBits (b : CmdBlock) (off len : Nat) : Nat := (b.extractLsb' (8 * off) len).toNat

def cbVersion (b : CmdBlock) : Nat := bBits b 0x00 8
def cbAuth (b : CmdBlock) : Nat := bBits b 0x01 8
def cbCode (b : CmdBlock) : Nat := bBits b 0x02 16
def cbBodyLen (b : CmdBlock) : Nat := bBits b 0x04 16
def cbReserved (b : CmdBlock) : Nat := bBits b 0x06 16
def cbCounter (b : CmdBlock) : DWord := b.extractLsb' (8 * 0x08) 64
def cbTarget (b : CmdBlock) : DWord := b.extractLsb' (8 * 0x10) 64
/-- A body field of `len` bits at body offset `off`. -/
def cbBody (b : CmdBlock) (off len : Nat) : Nat := bBits b (0x18 + off) len
/-- Body bytes. -/
def cbBytes (b : CmdBlock) (off n : Nat) : Bytes := slice (vecBytes 1024 b) (0x18 + off) n
def cbTag (b : CmdBlock) : Bytes := slice (vecBytes 1024 b) 0x70 16

/-- R153: the message that TAG seals. -/
def sealedMessage (d : Descriptor) (b : CmdBlock) : Bytes :=
  let db := vecBytes 512 d
  db.take 0x28 ++ List.replicate 8 0 ++ db.drop 0x30 ++ (vecBytes 1024 b).take 0x70

/-- R165: the reserved body bytes of a code, from offset to offset; each is zero. -/
def reservedBody (c : CmdCode) : List (Nat × Nat) :=
  match c with
  | .authSet => [(2, 4)]
  | .authDisable => [(1, 4)]
  | .rootImport => [(3, 8)]
  | .rootErase | .privErase => [(1, 2), (3, 4)]
  | .privImport => [(3, 4), (6, 8)]
  | .curveLoad => [(1, 8)]
  | .appletLoad => [(2, 8)]
  | .appletRemove | .razeEnable | .lcAdvance => [(1, 4)]
  | .levelRaise => [(3, 4)]
  | .ctrAssign | .debugUnlock | .sesClear => [(2, 4)]
  | .trkReceipt => [(4, 8)]
  | .sesSet => [(6, 8), (12, 16)]
  | _ => []

/-- R154 stage 4 and R169 reason 0x01: the format of the block. -/
def blockFormatOk (c : CmdCode) (b : CmdBlock) : Bool :=
  let body := cbBytes b 0 88
  cbVersion b == 1 && decide (cbCode b < 0x1000) && cbReserved b == 0 && decide ((bodyLens c).1 ≤ cbBodyLen b) &&
    decide (cbBodyLen b ≤ (bodyLens c).2) && (body.drop (cbBodyLen b)).all (fun x => x == 0) &&
    (reservedBody c).all (fun r => (slice body r.1 (r.2 - r.1)).all (fun x => x == 0))

/-! ### Status codes (R16) -/

def statusCode (s : Status) : Nat :=
  match s with
  | .ok => 0x00 | .okRetried => 0x01 | .okUnverifiedReleased => 0x02
  | .refusedCapacity => 0x10 | .refusedClass => 0x11 | .notReady => 0x12 | .refusedEnvelope => 0x13
  | .refusedLocked => 0x14
  | .authFail => 0x20 | .counterStale => 0x21
  | .keyRevoked => 0x30 | .keyEmpty => 0x31
  | .hostReadFault => 0x40 | .hostWriteFault => 0x41
  | .inputInvalid => 0x50 | .tagMismatch => 0x51 | .replay => 0x52 | .verifyFail => 0x53
  | .rngFault => 0x60
  | .cancelled => 0x70 | .unknownOutcome => 0x71 | .late => 0x7F
  | .memUncorrectable => 0x80

end Sys2Proof.Machine
end

