-- ==== Sys2Proof/Machine/Events.lean ====
section
/-!
DEFINITION. Sys2Proof/Machine/Events.lean: raising an event source, its record and its message (R514 to R520), and
MSI-X (R90).  The callers give DETAIL0 and DETAIL1 of R514.
-/
namespace Sys2Proof.Machine

/-! ### MSI-X (R90) -/

/-- A vector's messages leave at once. -/
def msixOpen (l : Link) (v : Nat) : Bool :=
  l.msixEnable && l.bme && !l.functionMask && !((tblGet MsixEntry.reset l.msix v).control.getLsbD 0)

/-- The message of a vector: its table entry's data, written to that entry's address. -/
def msixOf (l : Link) (v : Nat) : Posted :=
  .msix v (tblGet MsixEntry.reset l.msix v).addr (tblGet MsixEntry.reset l.msix v).data

/-- A message that falls due: sent, or kept in the vector's pending bit. -/
def emitMsix (l : Link) (v : Nat) : Link :=
  { l with posted := if msixOpen l v then l.posted ++ [msixOf l v] else l.posted,
           pba := if msixOpen l v then l.pba else tblSet false l.pba v true }

/-- Every pending message whose way is open leaves, lowest vector first. -/
def releaseMsix (l : Link) : Link :=
  (l.pba.map Prod.fst).foldl
    (fun l v => if msixOpen l v
      then { l with posted := l.posted ++ [msixOf l v], pba := tblSet false l.pba v false } else l) l

/-! ### The event map (R515) -/

/-- The reset entry of a source. -/
def mapReset (src : Nat) : BitVec 16 :=
  if src < 64 then BitVec.ofNat 16 (0x200 + src)
  else
    let v := if src < 128 then 64 else if src < 256 then 65 else if src < 384 then 66 else if src < 512 then 67
      else if src < 576 then 68 else if src < 640 then 69 else if src < 768 then 70 else 71
    BitVec.ofNat 16 (0x300 + v)

/-- A source's entry: a listed key holds the written entry. -/
def mapEntry (e : Events) (src : Nat) : BitVec 16 :=
  match e.map.find? (fun p => p.1 = src) with
  | some p => p.2
  | none => mapReset src

def mapIrq (m : BitVec 16) : Bool := m.getLsbD 9
def mapRecord (src : Nat) (m : BitVec 16) : Bool := decide (64 ≤ src) || m.getLsbD 8
def mapVector (m : BitVec 16) : Nat := m.toNat % 128

/-! ### Coalescing (R520) -/

/-- Sources that are never withheld. -/
def neverWithheld (src : Nat) : Bool := (128 ≤ src && src ≤ 255) || (512 ≤ src && src ≤ 518)

/-- The coalescing interval of a vector, in µs. -/
def coalMicros (e : Events) (v : Nat) : Nat := if v < 64 then e.coalLow else e.coalHigh

def coalNone : Coal := { isOpen := false, withheld := false }

/-- A raise's message on vector v for source src: it leaves, opens an interval or is withheld in one. -/
def sendMsix (src v : Nat) (s : State) : State :=
  let c := tblGet coalNone s.evts.intervals v
  let free := neverWithheld src || coalMicros s.evts v == 0
  let withhold := !free && c.isOpen
  { s with
    link := if withhold then s.link else emitMsix s.link v,
    evts := { s.evts with
      intervals := if free then s.evts.intervals
        else tblSet coalNone s.evts.intervals v { isOpen := true, withheld := withhold } } }

/-! ### Raising (R517, R519) -/

/-- A raise that merges into its source's unwritten record; `late` is its message when the ring is enabled. -/
def mergeRec (d0 : Word) (d1 : DWord) (msg : Option Nat) (told : Bool) (r : EvRec) : EvRec :=
  { r with count := min 255 (r.count + 1), detail0 := d0, detail1 := d1,
           msg := if r.msg.isSome then r.msg else if r.told then none else msg, told := r.told || told }

/-- The source raised within the last millisecond's written record (R517). -/
def recentlyWritten (s : State) (src : Nat) : Bool :=
  decide (640 ≤ src) &&
    (let w := tblGet 0 s.evts.lastWrite src
     w != 0 && decide (s.now + 1 < w + 100000))

/-- The queued records take the next one's SEQ, the last of them `last`. -/
def shiftSeq (last : Nat) : List EvRec → List EvRec
  | [] => []
  | [q] => [{ q with seq := last }]
  | q :: r :: rest => { q with seq := r.seq } :: shiftSeq last (r :: rest)

/-- A new record joins the queue behind every earlier moment and every lower source of its own moment (R517). -/
def insertRec (r : EvRec) : List EvRec → List EvRec
  | [] => [r]
  | q :: rest =>
    if q.time = r.time ∧ r.source < q.source then { r with seq := q.seq } :: shiftSeq r.seq (q :: rest)
    else q :: insertRec r rest

/-- One raise of a source with its details.  It sets EVT_PEND, queues or merges its record, and sends its message at
once when no record of its own will carry it. -/
def raiseEvent (src : Nat) (d0 : Word) (d1 : DWord) (s : State) : State :=
  let m := mapEntry s.evts src
  let irq := mapIrq m && !(tblGet false s.evts.mask src)
  let rec? := mapRecord src m
  let merge := rec? && s.evts.queue.any (fun r => r.source == src)
  let full := rec? && !merge && decide (64 ≤ s.evts.queue.length)
  let later := s.evts.enabled && rec? && !full
  let msg := if irq && later then some (mapVector m) else none
  let already := merge && s.evts.queue.any (fun r => r.source == src && (r.told || r.msg.isSome))
  let now := irq && !later && !already
  let rec0 : EvRec :=
    { time := s.now, source := src, count := 1, detail0 := d0, detail1 := d1, seq := (s.evts.seq + 1) % 2 ^ 32,
      held := recentlyWritten s src, msg := msg, told := now }
  let e : Events := { s.evts with
    pend := tblSet false s.evts.pend src true,
    queue := if !rec? || full then s.evts.queue
      else if merge then modFirst (fun r => r.source == src) (mergeRec d0 d1 msg now) s.evts.queue
      else insertRec rec0 s.evts.queue,
    seq := if rec? && !full && !merge then (s.evts.seq + 1) % 2 ^ 32 else s.evts.seq,
    lost := if full then sat32 s.evts.lost else s.evts.lost,
    lostDue := s.evts.lostDue || full }
  let s1 := { s with evts := e }
  if now then sendMsix src (mapVector m) s1 else s1

/-- A raise when a condition holds. -/
def raiseIf (c : Bool) (src : Nat) (d0 : Word) (d1 : DWord) (s : State) : State :=
  if c then raiseEvent src d0 d1 s else s

/-- Source 364: records lost (R514). -/
def raiseLost (s : State) : State :=
  raiseEvent 364 (BitVec.ofNat 32 s.evts.lost) (BitVec.ofNat 64 s.tel.lost) s

/-! ### Writing records (R516, R518) -/

/-- The 32 bytes of a record. -/
def eventRaw (r : EvRec) (phase : Bool) : BitVec 256 :=
  BitVec.ofNat 256
    (r.time % 2 ^ 64 + r.source * 2 ^ 64 + r.count * 2 ^ 80 + r.detail0.toNat * 2 ^ 96 + r.detail1.toNat * 2 ^ 128 +
      r.seq * 2 ^ 192 + (if phase then 2 ^ 255 else 0))

def evtDepth (e : Events) : Nat := 2 ^ e.depthLog2

/-- EVT_STATUS.FULL. -/
def evtFull (e : Events) : Bool := (e.tail + 1) % evtDepth e == e.head

/-- The ring DMA writes the first record that is not held, when the ring takes it. -/
def writeRecord (s : State) : State :=
  match s.evts.queue.find? (fun r => !r.held) with
  | none => s
  | some r =>
    if s.evts.enabled && s.link.bme && !(evtFull s.evts) then
      let wraps := s.evts.tail + 1 == evtDepth s.evts
      let e : Events := { s.evts with
        queue := s.evts.queue.filter (fun q => q.seq != r.seq),
        tail := if wraps then 0 else s.evts.tail + 1,
        phase := s.evts.phase != wraps,
        lastWrite := if 640 ≤ r.source then tblSet 0 s.evts.lastWrite r.source (s.now + 1) else s.evts.lastWrite,
        lostDue := false }
      let s1 := { s with
        evts := e,
        link := { s.link with posted := s.link.posted ++ [.event s.evts.tail (eventRaw r s.evts.phase)] } }
      let s2 := match r.msg with
        | some v => sendMsix r.source v s1
        | none => s1
      if s.evts.lostDue then raiseLost s2 else s2
    else s

/-- EVENT_HOLD_EXPIRY: the millisecond of a source's held record has passed (R517). -/
def expireHold (src : Nat) (s : State) : State :=
  { s with evts := { s.evts with
      queue := s.evts.queue.map (fun r => if r.source == src then { r with held := false } else r) } }

/-- COALESCE_INTERVAL_END: one message if any was withheld, which opens a new interval (R520). -/
def endInterval (v : Nat) (s : State) : State :=
  let c := tblGet coalNone s.evts.intervals v
  let again := c.isOpen && c.withheld
  { s with
    link := if again then emitMsix s.link v else s.link,
    evts := { s.evts with
      intervals := tblSet coalNone s.evts.intervals v
        { isOpen := again && coalMicros s.evts v != 0, withheld := false } } }

end Sys2Proof.Machine
end

