-- ==== Sys2Proof/Machine/Flags.lean ====
section
/-!
DEFINITION. Sys2Proof/Machine/Flags.lean: the status words that several chapters show or report (R77, R92, R93, R143,
R235, R267, R319, R426, R443, R467, R494, R513), the conditions they are made of, and setting a bit of an event
register with the event it raises (R514).
-/
namespace Sys2Proof.Machine

def word (n : Nat) : Word := BitVec.ofNat 32 n

/-- A one-bit field at bit lo. -/
def fbit (b : Bool) (lo : Nat) : Nat := if b then 2 ^ lo else 0

/-! ### Life cycle, LOCKED, Whiteout and levels (R8, R9, R408 to R413) -/

def lcCode (l : LcState) : Nat :=
  match l with
  | .blank => 0 | .factory => 1 | .provisioned => 2 | .deployed => 3 | .retired => 4

/-- A reset of R498 is asserted. -/
def inReset (s : State) : Bool := s.life.porst || s.life.perst

/-- PROVISIONED or DEPLOYED, where levels above Note act (R411). -/
def levelsAct (s : State) : Bool := s.life.state == .provisioned || s.life.state == .deployed

/-- The part is LOCKED (R411, R412). -/
def isLocked (s : State) : Bool := s.hut.locked && levelsAct s

/-- Whiteout (R460): it exists only in PROVISIONED and DEPLOYED. -/
def inWhiteout (s : State) : Bool := s.hut.whiteout && levelsAct s

/-- LC_STATE.PURGED reads 1 while either copy holds it (R412). -/
def isPurged (s : State) : Bool := s.hut.purged || s.hut.purgedMram

/-- Degraded random service (R316). -/
def rngDegraded (s : State) : Bool := s.powder.state == .failed

def levelNum (l : Level) : Nat :=
  match l with
  | .note => 0 | .guard => 1 | .lock => 2 | .purge => 3 | .raze => 4

def levelOfNum (n : Nat) : Level :=
  match n with
  | 0 => .note | 1 => .guard | 2 => .lock | 3 => .purge | _ => .raze

def levelMax (a b : Level) : Level := if levelNum a < levelNum b then b else a

/-- The floors of R402. -/
def sourceFloor (src : Nat) : Level :=
  if 128 ≤ src ∧ src ≤ 215 then .purge
  else if 216 ≤ src ∧ src ≤ 227 then .lock
  else if src = 228 ∨ src = 229 then .guard
  else if src = 230 then .lock
  else if src = 231 ∨ src = 232 then .guard
  else if 233 ≤ src ∧ src ≤ 236 then .note
  else if src = 237 then .lock
  else if 238 ≤ src ∧ src ≤ 246 then .guard
  else .note

/-- R409: the configured level, at least the floor. -/
def configuredLevel (p : Patrol) (src : Nat) : Level := levelMax (sourceFloor src) (tblGet .note p.levels src)

/-- R409, R411, R420: the level at which a trip of the source acts now. -/
def effLevel (s : State) (src : Nat) : Level :=
  let c := configuredLevel s.patrol src
  let c := if c == .raze && !s.patrol.razeEnabled then .purge else c
  let c := if inWhiteout s && decide (226 ≤ src) && decide (src ≤ 228) && decide (1 < levelNum c) then .guard else c
  if s.life.state == .blank || s.life.state == .factory then .note else c

def psource (s : State) (src : Nat) : PSource := tblGet PSource.reset s.patrol.sources src

/-- Sources that are active, in rising order. -/
def activeSources (s : State) : List Nat := (s.patrol.sources.filter (fun p => p.2.active)).map Prod.fst

/-- A disagreement source is active (R406). -/
def disagreeing (s : State) : Bool := (activeSources s).any (fun n => decide (239 ≤ n) && decide (n ≤ 246))

/-- LC_STATE.GUARD: Guard or higher is in force (R412). -/
def guardUp (s : State) : Bool :=
  levelsAct s && (s.hut.locked || rngDegraded s || (activeSources s).any (fun n => decide (1 ≤ levelNum (effLevel s n))))

/-- The standing level of R426. -/
def standingLevel (s : State) : Level :=
  if isLocked s then levelMax .lock s.patrol.standing else if guardUp s then .guard else .note

/-- R421: Whiteout and LOCKED hold together. -/
def carveOut (s : State) : Bool := inWhiteout s && isLocked s

/-- LC_STATE (R92). -/
def lcState (s : State) : Word :=
  word (lcCode s.life.state + fbit (guardUp s) 8 + fbit (isLocked s) 9 + fbit (inWhiteout s) 10 +
    fbit (rngDegraded s) 11 + fbit s.life.isSealed 12 + fbit s.prot.isOpen 13 + fbit (isPurged s) 14)

/-- LC_START (R92). -/
def lcStart (l : LifeCycle) : Word :=
  word (l.startCode + l.startStep * 2 ^ 8 + fbit l.startFail 30 + fbit l.startDone 31)

/-! ### The Gate (R46, R69, R77) -/

def bandCode (b : Band) : Nat :=
  match b with
  | .s0 => 0 | .s1 => 1 | .s2 => 2

/-- R46: the plan band of the current band. -/
def planBand (b : Band) : Band :=
  match b with
  | .s0 => .s1 | .s1 => .s2 | .s2 => .s2

/-- A Tj condition of R69 holds now. -/
def tjCond (s : State) : Bool :=
  (decide (2000 < s.gate.tj) && !(inWhiteout s)) || decide (2400 < s.gate.tj) || decide (s.gate.tj < -640)

/-- The slew condition of R69 holds now: above 10 K/s, in 1/16 K/s. -/
def slewHigh (g : Gate) : Bool := decide (160 < g.slew)

/-- A condition of R69 holds now. -/
def envCond (s : State) : Bool := tjCond s || !s.gate.railsOut.isEmpty || slewHigh s.gate

/-- GATE_STATUS.OVERRUN_ACTIVE: descriptors that a fetch deferred still wait on an enabled ring (R44, R77). -/
def overrunActive (s : State) : Bool :=
  s.gate.overrun && s.rings.host.any (fun p => p.2.state == .enabled && !p.2.visible.isEmpty)

/-- Admission is open: no condition of R69 holds, and admission has reopened after the last one. -/
def envelopeOk (s : State) : Bool :=
  !(s.gate.envClosed || tjCond s || !s.gate.railsOut.isEmpty || s.gate.slewClosed)

def gateStatus (s : State) : Word :=
  if s.gate.isOpen then
    word (bandCode s.gate.band + bandCode (planBand s.gate.band) * 2 ^ 4 + fbit (!(envCond s)) 8 + fbit (tjCond s) 10 +
      fbit (slewHigh s.gate) 11 + fbit (!s.gate.railsOut.isEmpty) 12 + fbit (decide (64 < s.gate.derate)) 13 +
      fbit (overrunActive s) 14 + fbit s.gate.hoursExceeded 15 + 2 ^ 31)
  else word (fbit s.gate.hoursExceeded 15)

/-- GATE_TJ. -/
def gateTj (g : Gate) : Word := BitVec.ofNat 16 g.slew ++ BitVec.ofInt 16 g.tj

/-! ### Rings (R146) -/

def ringStateCode (r : RingState) : Nat :=
  match r with
  | .disabled => 0 | .enabled => 1 | .draining => 2 | .halted => 3

/-- R136: every fetched descriptor has had its entry written. -/
def ringSettled (r : Ring) : Bool := r.slots.all (fun x => x.written)

def ringStatus (r : Ring) : Word :=
  word (ringStateCode r.state + fbit r.restartPending 4 + fbit r.rearmPending 5 +
    fbit (r.state == .halted && ringSettled r) 6 + fbit r.dbIgnored 8 + fbit r.dbOverflow 9 +
    fbit r.enableIgnored 10 + r.haltIndex * 2 ^ 16)

def pcieErr (l : Link) : Word := l.err.zeroExtend 32

/-! ### Units (R235, R267, R319) -/

def unitStateCode (u : UnitState) : Nat :=
  match u with
  | .off => 0 | .inService => 1 | .draining => 2 | .disabled => 3 | .spare => 4 | .standby => 5 | .faulted => 6
  | .testing => 7

def unitTbl (u : Units) (k : UnitKind) : Tbl UnitRec :=
  match k with
  | .edge => u.edges | .blade => u.blades | .lift => u.lifts | .hash => u.hashes | .groomer => u.groomers

/-- The number of units of a kind (R22). -/
def unitCount (k : UnitKind) : Nat :=
  match k with
  | .edge => 68 | .blade => 18 | .lift => 8 | .hash => 8 | .groomer => 4

def unitRec (s : State) (u : UnitRef) : UnitRec := tblGet UnitRec.reset (unitTbl s.units u.kind) u.num

def unitState (s : State) (u : UnitRef) : UnitState := (unitRec s u).state

/-- The job holds work on the unit: it is placed there and has not left it, or still holds slots there (R247, R264). -/
def onUnit (j : Job) (u : UnitRef) : Bool :=
  j.unit == some u && ((j.stage != .finished && j.stage != .built && j.stage != .prepared) || !j.slots.isEmpty || j.segment.isSome)

def jobsOn (s : State) (u : UnitRef) : List Job := s.rings.jobs.filter (fun j => onUnit j u)

/-- Slots of an Edge that are held. -/
def slotsHeld (s : State) (u : UnitRef) : List Nat := (jobsOn s u).flatMap (fun j => j.slots)

/-- EDGE_UNITn. -/
def edgeUnitReg (s : State) (n : Nat) : Word :=
  let u : UnitRef := { kind := .edge, num := n }
  let r := unitRec s u
  let js := jobsOn s u
  word (unitStateCode r.state + fbit r.restartPending 3 + r.faultCode * 2 ^ 4 +
    (js.filter (fun j => j.stage == .suspended || j.stage == .waitingKey)).length * 2 ^ 8 + js.length * 2 ^ 16 +
    (slotsHeld s u).length * 2 ^ 24)

/-- BLADE_UNITn. -/
def bladeUnitReg (s : State) (n : Nat) : Word :=
  let u : UnitRef := { kind := .blade, num := n }
  let r := unitRec s u
  let js := jobsOn s u
  word (unitStateCode r.state + fbit r.restartPending 3 + r.faultCode * 2 ^ 4 +
    (js.filter (fun j => j.large)).length * 2 ^ 8 + js.length * 2 ^ 16)

/-- EDGE_FAULT and BLADE_FAULT, which differ in the place of the unit number's width only. -/
def unitFaultReg (f : UnitFault) : Word :=
  word (f.place + f.tag * 2 ^ 8 + f.num * 2 ^ 24 + fbit f.valid 31)

/-- LIFT_STATUS: bit i: Lift Li is in service. -/
def liftStatus (s : State) : Word :=
  word ((List.range 8).foldl (fun v i =>
    let st := unitState s { kind := .lift, num := i }
    v + fbit (st == .inService || st == .standby || st == .off) i) 0)

/-- Milliseconds since a tick, saturating at 0xFFFF. -/
def ageMs (now since : Nat) : Nat := min 0xFFFF ((now - since) / 100000)

def groomerOf (s : State) (g : Nat) : Groomer := tblGet Groomer.reset s.powder.grm g

/-- GRM_Gg_STAT. -/
def grmStat (s : State) (g : Nat) : Word :=
  let r := groomerOf s g
  word ((if r.everSeeded then ageMs s.now r.seedAt else 0xFFFF) +
    unitStateCode (unitState s { kind := .groomer, num := g }) * 2 ^ 24 + fbit r.hardStall 29 + fbit r.due 30 +
    fbit r.instantiated 31)

def powderCode (p : PowderState) : Nat :=
  match p with
  | .off => 0 | .startup => 1 | .seeding => 2 | .running => 3 | .failed => 4

/-- PWD_STATUS. -/
def pwdStatus (p : Powder) : Word :=
  word (powderCode p.state + p.failedRestarts * 2 ^ 24 + fbit p.raw 28 + fbit p.pattern 29 + fbit p.confirming 30 +
    fbit p.seeded 31)

/-! ### The Vault (R192, R204) -/

def rootSlot (s : State) (n : Nat) : VSlot := tblGet VSlot.reset s.vault.root n
def privSlot (s : State) (n : Nat) : VSlot := tblGet VSlot.reset s.vault.priv n

def slotOf (s : State) (r : SlotRef) : VSlot :=
  match r with
  | .root n => rootSlot s n
  | .priv n => privSlot s n

/-- The slot holds a current generation. -/
def slotLive (v : VSlot) : Bool := v.cur.isSome

/-- Jobs that hold a generation of a slot (R193). -/
def holders (s : State) (r : SlotRef) (gen : Nat) : List Job :=
  s.rings.jobs.filter (fun j => j.holds.contains { slot := r, gen := gen })

/-! ### Tracks (R434, R443) -/

/-- Free units of the log. -/
def trkFree (t : Tracks) : Nat := 32768 - t.entries.foldl (fun n e => n + e.units) 0

def trkGenFull (t : Tracks) : Bool := decide (trkFree t < 1028)
def trkResFull (t : Tracks) : Bool := decide (trkFree t < 4)

/-- R438: exports would be unsigned. -/
def trkUnsigned (s : State) : Bool := !(slotLive (rootSlot s 27)) || !(s.ctrs.enabled.getLsbD 3)

def trkStatus (s : State) : Word :=
  word (min 0xFFFF (trkFree s.trk) + fbit (trkUnsigned s) 27 + fbit s.trk.pending.isSome 28 +
    fbit (trkResFull s.trk) 29 + fbit (trkGenFull s.trk) 30 + fbit s.trk.ready 31)

/-! ### The Hut and the alarm lines (R444, R455, R459, R467) -/

def cellUsable (mv : Nat) : Bool := decide (2000 ≤ mv)

/-- CELL_NEXT: the usable cell with the higher voltage. -/
def cellNext (h : Hut) : Nat :=
  if cellUsable h.vbat1 && (!(cellUsable h.vbat2) || decide (h.vbat2 ≤ h.vbat1)) then 1
  else if cellUsable h.vbat2 then 2 else 0

def hutStatus (h : Hut) : Word :=
  word (fbit (cellUsable h.vbat1) 0 + fbit (cellUsable h.vbat2) 1 + cellNext h * 2 ^ 8 + h.appended * 2 ^ 16 +
    fbit h.overflow 29 + fbit h.hutLost 30 + fbit h.xtalStop 31)

def hutVbat (h : Hut) : Word := word (h.vbat1 + h.vbat2 * 2 ^ 16)

def almStateCode (a : AlmState) : Nat :=
  match a with
  | .normal => 0 | .active => 1 | .opened => 2 | .short => 3

def almInput (s : State) (n : Nat) : AlmInput := tblGet AlmInput.reset s.alarm.inputs n

def almStateReg (s : State) : Word :=
  word ((List.range 4).foldl (fun v n =>
    v + (almStateCode (almInput s n).state + fbit (almInput s n).changing 2) * 2 ^ (4 * n)) 0)

def lineFault (s : State) : Bool :=
  (List.range 4).any (fun n => (almInput s n).state == .opened || (almInput s n).state == .short)

/-- R464: the conditions under which WHITEOUT_EXIT acts. -/
def exitReady (s : State) : Bool :=
  inWhiteout s &&
    !((List.range 4).any (fun n =>
      let i := almInput s n
      i.func == 1 && (i.state == .active || (i.cand == .active && decide (0 < i.count))))) &&
    (!((List.range 4).any (fun n => (almInput s n).func == 4)) || s.alarm.resetSeen) && s.gate.band != .s2

/-- ALM_WO. -/
def almWo (s : State) : Word :=
  word (s.hut.input * 2 ^ 16 + s.hut.cause * 2 ^ 24 + fbit (exitReady s) 29 + fbit s.alarm.resetSeen 30 +
    fbit (inWhiteout s) 31)

/-- FLT_OUT_N signals a fault (R459). -/
def fltReleased (s : State) : Bool :=
  s.life.porst || decide (s.life.startStep < 5) || s.life.startFail || guardUp s || disagreeing s || lineFault s ||
    !(cellUsable s.hut.vbat1) || !(cellUsable s.hut.vbat2)

/-- LCK_OUT_N signals lock (R459). -/
def lckReleased (s : State) : Bool := s.life.porst || !s.gate.isOpen || isLocked s

/-- ALM_OUT. -/
def almOut (s : State) : Word :=
  word (fbit (!(cellUsable s.hut.vbat1) || !(cellUsable s.hut.vbat2)) 0 + fbit (lineFault s) 1 +
    fbit (disagreeing s) 2 + fbit (guardUp s) 3 + fbit (isLocked s) 4 +
    fbit (s.life.porst || decide (s.life.startStep < 5) || s.life.startFail) 5 + fbit (lckReleased s) 30 +
    fbit (fltReleased s) 31)

/-! ### Patrol (R426) -/

def ptlStatus (s : State) : Word :=
  word (levelNum (standingLevel s) + fbit (carveOut s) 8 + fbit s.hut.razePending 9 + fbit s.patrol.razeEnabled 10 +
    fbit (isPurged s) 11 + fbit (inWhiteout s) 13 + fbit (disagreeing s) 14 +
    fbit (fltReleased s) 16 + fbit (lckReleased s) 17 + (activeSources s).length * 2 ^ 24)

/-- PTL_SRC of a source. -/
def ptlSrc (s : State) (src : Nat) : Word :=
  let p := psource s src
  word (p.trips + fbit p.disagree 17 + fbit p.detB 18 + fbit p.detA 19 + fbit p.active 20 +
    levelNum (effLevel s src) * 2 ^ 23 + levelNum (configuredLevel s.patrol src) * 2 ^ 26 +
    levelNum (sourceFloor src) * 2 ^ 29)

/-! ### The card port (R494) -/

def portCode (p : PortState) : Nat :=
  match p with
  | .disabled => 0 | .enabled => 1 | .draining => 2

def cardCode (c : CardState) : Nat :=
  match c with
  | .none => 0 | .powerUp => 1 | .ident => 2 | .ready => 3 | .transfer => 4 | .offWait => 5 | .rejected => 6

def cardStatus (c : Card) : Word :=
  word (c.reason + cardCode c.state * 2 ^ 8 + portCode c.port * 2 ^ 16 + fbit c.fault 23 + fbit c.mbx.isOpen 24 +
    fbit c.restartPending 25 + fbit c.hc 26 + fbit c.wide 27 + fbit c.hs 28 + fbit c.terja 29 + fbit c.power 30 +
    fbit c.present 31)

/-! ### Event registers of one part-wide source (R514): the source is raised when a bit becomes set -/

/-- GATE_EVT bits, source 358. -/
def setGateEvt (bits : Nat) (s : State) : State :=
  let v := BitVec.ofNat 7 bits
  let fresh := v &&& ~~~ s.gate.evt
  let s1 := { s with gate := { s.gate with evt := s.gate.evt ||| v } }
  raiseIf (fresh != 0) 358 (fresh.zeroExtend 32) ((gateStatus s1).zeroExtend 64) s1

/-- VLT_SEL in the low and CTR_SEL in the high half of DETAIL1 (R514). -/
def selDetail (s : State) : DWord :=
  BitVec.ofNat 64 (s.vault.selSlot + fbit s.vault.selPriv 15 + s.ctrs.sel * 2 ^ 32)

/-- VLT_EVT bits, source 359. -/
def setVltEvt (bits : Nat) (s : State) : State :=
  let v := BitVec.ofNat 3 bits
  let fresh := v &&& ~~~ s.vault.evt
  raiseIf (fresh != 0) 359 (fresh.zeroExtend 32) (selDetail s)
    { s with vault := { s.vault with evt := s.vault.evt ||| v } }

/-- CTR_EVT bits, source 359. -/
def setCtrEvt (bits : Nat) (s : State) : State :=
  let v := BitVec.ofNat 3 bits
  let fresh := v &&& ~~~ s.ctrs.evt
  raiseIf (fresh != 0) 359 (fresh.zeroExtend 32 <<< 8) (selDetail s)
    { s with ctrs := { s.ctrs with evt := s.ctrs.evt ||| v } }

/-- PU_EVT bits, source 360. -/
def setPuEvt (bits : Nat) (s : State) : State :=
  let v := BitVec.ofNat 18 bits
  let fresh := v &&& ~~~ s.prot.evt
  raiseIf (fresh != 0) 360 (fresh.zeroExtend 32) 0 { s with prot := { s.prot with evt := s.prot.evt ||| v } }

/-- TRK_EVT bits, source 361. -/
def setTrkEvt (bits : Nat) (s : State) : State :=
  let v := BitVec.ofNat 5 bits
  let fresh := v &&& ~~~ s.trk.evt
  let s1 := { s with trk := { s.trk with evt := s.trk.evt ||| v } }
  raiseIf (fresh != 0) 361 (fresh.zeroExtend 32) ((trkStatus s1).zeroExtend 64) s1

/-- LC_EVT bits, source 362. -/
def setLcEvt (bits : Nat) (s : State) : State :=
  let v := BitVec.ofNat 3 bits
  let fresh := v &&& ~~~ s.life.evt
  raiseIf (fresh != 0) 362 (fresh.zeroExtend 32) ((lcStart s.life).zeroExtend 64)
    { s with life := { s.life with evt := s.life.evt ||| v } }

/-- PTL_EVT bits, source 247. -/
def setPtlEvt (bits : Nat) (s : State) : State :=
  let v := BitVec.ofNat 6 bits
  let fresh := v &&& ~~~ s.patrol.evt
  let s1 := { s with patrol := { s.patrol with evt := s.patrol.evt ||| v } }
  raiseIf (fresh != 0) 247 (fresh.zeroExtend 32) ((ptlStatus s1).zeroExtend 64) s1

/-- RING_PCIE_ERR bits; bits 7 and 0 raise source 363. -/
def setPcieErr (bits : Nat) (s : State) : State :=
  let v := BitVec.ofNat 8 bits
  let s1 := { s with link := { s.link with err := s.link.err ||| v } }
  raiseIf (v &&& 0x81 != 0) 363 (pcieErr s1.link) 0 s1

/-- HUT_EVT bits: [1:0] source 517, [4:2] source 518 (R468). -/
def setHutEvt (bits : Nat) (s : State) : State :=
  let v := BitVec.ofNat 5 bits
  let fresh := v &&& ~~~ s.hut.evt
  let s1 := { s with hut := { s.hut with evt := s.hut.evt ||| v } }
  let d := (hutVbat s1.hut).zeroExtend 64
  raiseIf (fresh &&& 0x1C != 0) 518 (hutStatus s1.hut) d (raiseIf (fresh &&& 3 != 0) 517 (hutStatus s1.hut) d s1)

/-- ALM_EVT bits [5:4], source 516 (R468). -/
def setWoEvt (bit : Nat) (s : State) : State :=
  let s1 := { s with alarm := { s.alarm with evt := bvSet s.alarm.evt bit } }
  raiseEvent 516 (almWo s1) (BitVec.ofNat 64 s1.hut.time) s1

/-- CARD_EVT bit i, source 528 + i (R494). -/
def setCardEvt (bit : Nat) (s : State) : State :=
  let s1 := { s with card := { s.card with evt := bvSet s.card.evt bit } }
  raiseEvent (528 + bit) (cardStatus s1.card) (s1.card.last.zeroExtend 64) s1

/-- PWD_EVT bit i, source 576 + i (R514). -/
def setPwdEvt (bit : Nat) (s : State) : State :=
  let s1 := { s with powder := { s.powder with evt := bvSet s.powder.evt bit } }
  raiseEvent (576 + bit) (pwdStatus s1.powder) (s1.powder.cellFail.zeroExtend 64) s1

/-- GRM_EVT bit for one Groomer, source 592 + g (R514). -/
def setGrmEvt (bit g : Nat) (s : State) : State :=
  let s1 := { s with powder := { s.powder with grmEvt := bvSet s.powder.grmEvt bit } }
  raiseEvent (592 + g) (grmStat s1 g) (BitVec.ofNat 64 (groomerOf s1 g).count) s1

/-- EDGE_EVT bit for one Edge, source 256 + n; a unit above 67 raises source 358 (R514). -/
def setEdgeEvt (bit n : Nat) (s : State) : State :=
  let s1 := { s with units := { s.units with edgeEvt := bvSet s.units.edgeEvt bit } }
  if n < 68 then
    raiseEvent (256 + n) (edgeUnitReg s1 n) (if bit < 2 then (unitFaultReg s1.units.edgeFault).zeroExtend 64 else 0) s1
  else raiseEvent 358 0 ((gateStatus s1).zeroExtend 64) s1

/-- BLADE_EVT bit for one Blade, source 324 + n; a unit above 17 raises source 358 (R514). -/
def setBladeEvt (bit n : Nat) (s : State) : State :=
  let s1 := { s with units := { s.units with bladeEvt := bvSet s.units.bladeEvt bit } }
  if n < 18 then
    raiseEvent (324 + n) (bladeUnitReg s1 n) (if bit = 0 then (unitFaultReg s1.units.bladeFault).zeroExtend 64 else 0) s1
  else raiseEvent 358 0 ((gateStatus s1).zeroExtend 64) s1

/-- LIFT_EVT.UNIT_FAULT, source 342 + n. -/
def setLiftEvt (n : Nat) (s : State) : State :=
  let s1 := { s with units := { s.units with liftEvt := true } }
  raiseEvent (342 + n) (liftStatus s1) 0 s1

/-- RSF_EVT bits for a bank: bits 1 to 6 raise 384 + bank, TABLE_FULL also 486, TORN and CTR_JUMP 487 (R401). -/
def setRsfEvt (bits bank word? : Nat) (s : State) : State :=
  let v := BitVec.ofNat 8 bits
  let s1 := { s with stored := { s.stored with evt := s.stored.evt ||| v } }
  let d0 := word (bits + bank * 2 ^ 8)
  let d1 := BitVec.ofNat 64 word?
  raiseIf (v &&& 0x81 != 0) 487 d0 d1 (raiseIf (v &&& 0x20 != 0) 486 d0 d1 (raiseIf (v &&& 0x7E != 0) (384 + bank) d0 d1 s1))

end Sys2Proof.Machine
end

