-- ==== Sys2Proof/Machine/Hash.lean ====
section
/-!
DEFINITION. Sys2Proof/Machine/Hash.lean: SHA-2, SHA-3 and SHAKE256 as FIPS 180-4 and FIPS 202 lay them down, for the
hashes that R270, R275, R299 and R430 name (log entry 10).
-/
namespace Sys2Proof.Machine

/-! ### SHA-2 (FIPS 180-4) -/

def sha2K0 : List (BitVec 64) :=
  [0x428A2F98D728AE22, 0x7137449123EF65CD, 0xB5C0FBCFEC4D3B2F, 0xE9B5DBA58189DBBC,
   0x3956C25BF348B538, 0x59F111F1B605D019, 0x923F82A4AF194F9B, 0xAB1C5ED5DA6D8118,
   0xD807AA98A3030242, 0x12835B0145706FBE, 0x243185BE4EE4B28C, 0x550C7DC3D5FFB4E2,
   0x72BE5D74F27B896F, 0x80DEB1FE3B1696B1, 0x9BDC06A725C71235, 0xC19BF174CF692694]

def sha2K1 : List (BitVec 64) :=
  [0xE49B69C19EF14AD2, 0xEFBE4786384F25E3, 0x0FC19DC68B8CD5B5, 0x240CA1CC77AC9C65,
   0x2DE92C6F592B0275, 0x4A7484AA6EA6E483, 0x5CB0A9DCBD41FBD4, 0x76F988DA831153B5,
   0x983E5152EE66DFAB, 0xA831C66D2DB43210, 0xB00327C898FB213F, 0xBF597FC7BEEF0EE4,
   0xC6E00BF33DA88FC2, 0xD5A79147930AA725, 0x06CA6351E003826F, 0x142929670A0E6E70]

def sha2K2 : List (BitVec 64) :=
  [0x27B70A8546D22FFC, 0x2E1B21385C26C926, 0x4D2C6DFC5AC42AED, 0x53380D139D95B3DF,
   0x650A73548BAF63DE, 0x766A0ABB3C77B2A8, 0x81C2C92E47EDAEE6, 0x92722C851482353B,
   0xA2BFE8A14CF10364, 0xA81A664BBC423001, 0xC24B8B70D0F89791, 0xC76C51A30654BE30,
   0xD192E819D6EF5218, 0xD69906245565A910, 0xF40E35855771202A, 0x106AA07032BBD1B8]

def sha2K3 : List (BitVec 64) :=
  [0x19A4C116B8D2D0C8, 0x1E376C085141AB53, 0x2748774CDF8EEB99, 0x34B0BCB5E19B48A8,
   0x391C0CB3C5C95A63, 0x4ED8AA4AE3418ACB, 0x5B9CCA4F7763E373, 0x682E6FF3D6B2B8A3,
   0x748F82EE5DEFB2FC, 0x78A5636F43172F60, 0x84C87814A1F0AB72, 0x8CC702081A6439EC,
   0x90BEFFFA23631E28, 0xA4506CEBDE82BDE9, 0xBEF9A3F7B2C67915, 0xC67178F2E372532B]

def sha2K4 : List (BitVec 64) :=
  [0xCA273ECEEA26619C, 0xD186B8C721C0C207, 0xEADA7DD6CDE0EB1E, 0xF57D4F7FEE6ED178,
   0x06F067AA72176FBA, 0x0A637DC5A2C898A6, 0x113F9804BEF90DAE, 0x1B710B35131C471B,
   0x28DB77F523047D84, 0x32CAAB7B40C72493, 0x3C9EBE0A15C9BEBC, 0x431D67C49C100D4C,
   0x4CC5D4BECB3E42B6, 0x597F299CFC657E2A, 0x5FCB6FAB3AD6FAEC, 0x6C44198C4A475817]

/-- The round constants of SHA-512; those of SHA-256 are the upper halves of the first 64. -/
def sha2K : List (BitVec 64) := sha2K0 ++ sha2K1 ++ sha2K2 ++ sha2K3 ++ sha2K4

def sha512Iv : List (BitVec 64) :=
  [0x6A09E667F3BCC908, 0xBB67AE8584CAA73B, 0x3C6EF372FE94F82B, 0xA54FF53A5F1D36F1,
   0x510E527FADE682D1, 0x9B05688C2B3E6C1F, 0x1F83D9ABFB41BD6B, 0x5BE0CD19137E2179]

def sha384Iv : List (BitVec 64) :=
  [0xCBBB9D5DC1059ED8, 0x629A292A367CD507, 0x9159015A3070DD17, 0x152FECD8F70E5939,
   0x67332667FFC00B31, 0x8EB44A8768581511, 0xDB0C2E0D64F98FA7, 0x47B5481DBEFA4FA4]

/-- The upper half of a 64-bit constant. -/
def hi32 (x : BitVec 64) : BitVec 32 := BitVec.ofNat 32 (x.toNat / 2 ^ 32)

/-- The figures in which the 32-bit and the 64-bit members differ: rotations of Σ0, Σ1, σ0 and σ1 (the last one of σ a
shift). -/
structure Sha2Rot where
  s0 : Nat × Nat × Nat
  s1 : Nat × Nat × Nat
  e0 : Nat × Nat × Nat
  e1 : Nat × Nat × Nat
  deriving DecidableEq, Repr

def rot256 : Sha2Rot := { s0 := (2, 13, 22), s1 := (6, 11, 25), e0 := (7, 18, 3), e1 := (17, 19, 10) }
def rot512 : Sha2Rot := { s0 := (28, 34, 39), s1 := (14, 18, 41), e0 := (1, 8, 7), e1 := (19, 61, 6) }

def rot3 {w : Nat} (r : Nat × Nat × Nat) (x : BitVec w) : BitVec w :=
  x.rotateRight r.1 ^^^ x.rotateRight r.2.1 ^^^ x.rotateRight r.2.2

def rot2s {w : Nat} (r : Nat × Nat × Nat) (x : BitVec w) : BitVec w :=
  x.rotateRight r.1 ^^^ x.rotateRight r.2.1 ^^^ (x >>> r.2.2)

/-- The message schedule: 16 words rolling, oldest first, one round a step. -/
def sha2Rounds {w : Nat} (q : Sha2Rot) : List (BitVec w) → List (BitVec w) → List (BitVec w) → List (BitVec w)
  | [], _, st => st
  | k :: ks, ws, st =>
    match st with
    | [a, b, c, d, e, f, g, h] =>
      let wt := ws.headD 0
      let t1 := h + rot3 q.s1 e + ((e &&& f) ^^^ (~~~ e &&& g)) + k + wt
      let t2 := rot3 q.s0 a + ((a &&& b) ^^^ (a &&& c) ^^^ (b &&& c))
      let nw := rot2s q.e1 (ws.getD 14 0) + ws.getD 9 0 + rot2s q.e0 (ws.getD 1 0) + wt
      sha2Rounds q ks (ws.drop 1 ++ [nw]) [t1 + t2, a, b, c, d + t1, e, f, g]
    | _ => st

def sha2Block {w : Nat} (q : Sha2Rot) (ks st : List (BitVec w)) (blk : Bytes) : List (BitVec w) :=
  let ws := (chunks (w / 8) blk).map (fun c => BitVec.ofNat w (natBE c))
  List.zipWith (· + ·) st (sha2Rounds q ks ws st)

/-- Padding to blocks of n bytes with a length field of n/8 bytes. -/
def sha2Pad (n : Nat) (m : Bytes) : Bytes :=
  let z := (2 * n - 1 - n / 8 - m.length % n) % n
  m ++ [0x80] ++ List.replicate z 0 ++ bytesBE (n / 8) (8 * m.length)

def sha2 {w : Nat} (q : Sha2Rot) (ks iv : List (BitVec w)) (m : Bytes) : Bytes :=
  ((chunks (2 * w) (sha2Pad (2 * w) m)).foldl (sha2Block q ks) iv).flatMap (fun x => bytesBE (w / 8) x.toNat)

def sha256 (m : Bytes) : Bytes := sha2 rot256 ((sha2K.take 64).map hi32) (sha512Iv.map hi32) m
def sha512 (m : Bytes) : Bytes := sha2 rot512 sha2K sha512Iv m
def sha384 (m : Bytes) : Bytes := (sha2 rot512 sha2K sha384Iv m).take 48

/-! ### SHA-3 and SHAKE (FIPS 202) -/

def keccakRc0 : List (BitVec 64) :=
  [0x0000000000000001, 0x0000000000008082, 0x800000000000808A, 0x8000000080008000,
   0x000000000000808B, 0x0000000080000001, 0x8000000080008081, 0x8000000000008009,
   0x000000000000008A, 0x0000000000000088, 0x0000000080008009, 0x000000008000000A]

def keccakRc1 : List (BitVec 64) :=
  [0x000000008000808B, 0x800000000000008B, 0x8000000000008089, 0x8000000000008003,
   0x8000000000008002, 0x8000000000000080, 0x000000000000800A, 0x800000008000000A,
   0x8000000080008081, 0x8000000000008080, 0x0000000080000001, 0x8000000080008008]

/-- The rotation of lane x + 5y. -/
def keccakRho : List Nat :=
  [0, 1, 62, 28, 27, 36, 44, 6, 55, 20, 3, 10, 43, 25, 39, 41, 45, 15, 21, 8, 18, 2, 61, 56, 14]

/-- One round of Keccak-f on 25 lanes, lane (x, y) at x + 5y. -/
def keccakRound (a : List (BitVec 64)) (rc : BitVec 64) : List (BitVec 64) :=
  let c := (List.range 5).map (fun x => a.getD x 0 ^^^ a.getD (x + 5) 0 ^^^ a.getD (x + 10) 0 ^^^ a.getD (x + 15) 0 ^^^
    a.getD (x + 20) 0)
  let d := (List.range 5).map (fun x => c.getD ((x + 4) % 5) 0 ^^^ (c.getD ((x + 1) % 5) 0).rotateLeft 1)
  let t := (List.range 25).map (fun i => (a.getD i 0 ^^^ d.getD (i % 5) 0).rotateLeft (keccakRho.getD i 0))
  -- π moves lane (x, y) to (y, 2x + 3y): lane (x, y) comes from (x + 3y, x)
  let b := (List.range 25).map (fun i => t.getD ((i % 5 + 3 * (i / 5)) % 5 + 5 * (i % 5)) 0)
  let e := (List.range 25).map (fun i =>
    b.getD i 0 ^^^ (~~~ (b.getD ((i % 5 + 1) % 5 + 5 * (i / 5)) 0) &&& b.getD ((i % 5 + 2) % 5 + 5 * (i / 5)) 0))
  match e with
  | [] => []
  | e0 :: es => (e0 ^^^ rc) :: es

def keccakF (a : List (BitVec 64)) : List (BitVec 64) := (keccakRc0 ++ keccakRc1).foldl keccakRound a

def keccakAbsorb (rate : Nat) (st : List (BitVec 64)) (blk : Bytes) : List (BitVec 64) :=
  let ws := (chunks 8 (blk ++ List.replicate (200 - rate) 0)).map (fun c => BitVec.ofNat 64 (natLE c))
  keccakF (List.zipWith (· ^^^ ·) st ws)

def keccakSqueeze (rate : Nat) : Nat → List (BitVec 64) → Bytes
  | 0, _ => []
  | n + 1, st => (st.flatMap (fun x => bytesLE 8 x.toNat)).take rate ++ keccakSqueeze rate n (keccakF st)

/-- The sponge: domain bits `dom` joined with the first padding bit, `len` bytes of output. -/
def keccak (rate : Nat) (dom : Byte) (len : Nat) (m : Bytes) : Bytes :=
  let z := rate - 1 - m.length % rate
  let p := if z = 0 then m ++ [dom ||| 0x80] else m ++ [dom] ++ List.replicate (z - 1) 0 ++ [0x80]
  let st := (chunks rate p).foldl (keccakAbsorb rate) (List.replicate 25 0)
  (keccakSqueeze rate (ceilDiv len rate) st).take len

def sha3_256 (m : Bytes) : Bytes := keccak 136 0x06 32 m
def sha3_384 (m : Bytes) : Bytes := keccak 104 0x06 48 m
def sha3_512 (m : Bytes) : Bytes := keccak 72 0x06 64 m
def shake256 (len : Nat) (m : Bytes) : Bytes := keccak 136 0x1F len m

/-! ### The HASH field (R270) -/

/-- Digest bytes of a HASH code, 0 for none. -/
def hashLen (code : Nat) : Nat :=
  match code with
  | 1 => 32 | 2 => 48 | 3 => 64 | 4 => 32 | 5 => 48 | 6 => 64 | _ => 0

/-- The hash that a HASH code names; code 0 leaves the bytes as they are (R270). -/
def hashBy (code : Nat) (m : Bytes) : Bytes :=
  match code with
  | 1 => sha256 m | 2 => sha384 m | 3 => sha512 m | 4 => sha3_256 m | 5 => sha3_384 m | 6 => sha3_512 m | _ => m

end Sys2Proof.Machine
end

