-- ==== Sys2Proof/Machine/Tracks.lean ====
section
/-!
DEFINITION. Sys2Proof/Machine/Tracks.lean: the Tracks writer (R428 to R435): requests, entries, their chain and their
storage.  Requests wait in a queue (R431) until TRACKS_APPEND, a commit or the end of start-up writes them.
-/
namespace Sys2Proof.Machine

/-- R430: C of entry 1. -/
def genesisChain (serial : BitVec 64) : Bytes := sha256 (bytesLE 8 serial.toNat)

/-- The CHAIN before the next entry. -/
def headChainOf (s : State) : Bytes := if s.trk.headChain.isEmpty then genesisChain s.life.serial else s.trk.headChain

/-- R429: the smallest number of units whose payload room holds n bytes. -/
def trkUnits (n : Nat) : Nat := max 1 (ceilDiv (n + 56) 64)

/-- R434: the reserve kinds; `alarm` marks 0x0200 of an alarm-kind command or UNLOCK. -/
def reserveKind (kind : Nat) (alarm : Bool) : Bool :=
  [0x0100, 0x0101, 0x0102, 0x0300, 0x0301, 0x0800, 0x0900, 0x0901, 0x0902].contains kind || (kind == 0x0200 && alarm)

/-- The bytes of an entry before its CHAIN (R429). -/
def entryBytes (e : TrkEntry) : Bytes :=
  bytesLE 8 e.seq ++ bytesLE 8 e.time ++ bytesLE 2 e.kind ++ bytesLE 2 e.payload.length ++ bytesLE 2 e.origin ++
    bytesLE 1 e.units ++ bytesLE 1 e.flags ++ slice e.payload 0 (64 * e.units - 56)

/-- The whole entry as stored. -/
def entryImage (e : TrkEntry) : Bytes := entryBytes e ++ e.chain

/-- R434, R435: the entry finds room. -/
def trkRoom (t : Tracks) (units : Nat) (reserve : Bool) : Bool :=
  if reserve then decide (units ≤ trkFree t) else decide (units + 1024 ≤ trkFree t)

/-- An entry is written: SEQ, TIME, CHAIN and its units, whose rows of bank 1 count the writes and whose words lose their poison
(R388, R397). -/
def writeEntry (kind origin flags time : Nat) (payload : Bytes) (s : State) : State :=
  let t := s.trk
  let u := trkUnits payload.length
  let e0 : TrkEntry :=
    { seq := t.headSeq + 1, time := time, kind := kind, origin := origin, units := u,
      flags := flags + fbit t.timeRestart 1, payload := payload, chain := [] }
  let c := sha256 (headChainOf s ++ entryBytes e0)
  let rows := (List.range u).foldl (fun m i => tblMod 0 m (0x10000 + (t.headUnit + i) % 32768 / 4) (· + 8)) s.stored.rowWrites
  let marks := s.stored.marks.filter (fun p =>
    p.1 / 0x40000 != 1 || decide (u ≤ (p.1 % 0x40000 / 8 + 32768 - t.headUnit) % 32768))
  { s with stored := { s.stored with rowWrites := rows, marks := marks }, trk := { t with
      entries := t.entries ++ [{ e0 with chain := c }], headSeq := t.headSeq + 1,
      headUnit := (t.headUnit + u) % 32768, headChain := c, timeRestart := false } }

/-- FILL_75 and GEN_FULL of TRK_EVT, set when the free units fall past a limit (R434). -/
def trkFillEvents (before : Nat) (s : State) : State :=
  let after := trkFree s.trk
  setTrkEvt (fbit (decide (8192 ≤ before) && decide (after < 8192)) 0 +
    fbit (decide (1028 ≤ before) && decide (after < 1028)) 1) s

/-- TIME of an entry: a merging entry carries the time of the first occurrence it counts (R373, R414, R429). -/
def reqTime (s : State) (r : TrkReq) : Nat := if r.hold = 0 then s.hut.time else r.hold - 32768

/-- An append reaches the writer: the entry, behind one 0x0902 entry after a loss, or a count in TRK_LOST (R435). -/
def appendReq (r : TrkReq) (s : State) : State :=
  let before := trkFree s.trk
  let lossy := decide (0 < s.trk.lostGeneral) || decide (0 < s.trk.lostReserve)
  let u := trkUnits r.payload.length
  if trkRoom s.trk (u + if lossy then 1 else 0) r.reserve then
    let s1 := if lossy then
        let w := writeEntry 0x0902 0 0 s.hut.time (bytesLE 4 s.trk.lostGeneral ++ bytesLE 4 s.trk.lostReserve) s
        { w with trk := { w.trk with lostGeneral := 0, lostReserve := 0 } }
      else s
    let s2 := writeEntry r.kind r.origin (fbit r.aggregated 0) (reqTime s r) r.payload s1
    let s3 := { s2 with patrol := { s2.patrol with
        lockSeq := if r.raise then BitVec.ofNat 64 s2.trk.headSeq else s2.patrol.lockSeq } }
    trkFillEvents before s3
  else
    setTrkEvt 4 { s with trk := { s.trk with
      lostGeneral := if r.reserve then s.trk.lostGeneral else sat16 s.trk.lostGeneral,
      lostReserve := if r.reserve then sat16 s.trk.lostReserve else s.trk.lostReserve } }

/-- A request waits no more: its second or its merging has ended (R373, R414). -/
def reqReady (now : Nat) (r : TrkReq) : Bool := decide (r.hold ≤ now)

/-- The first request that may be written, and the queue without it. -/
def takeReady (now : Nat) : List TrkReq → Option (TrkReq × List TrkReq)
  | [] => none
  | r :: t =>
    if reqReady now r then some (r, t)
    else match takeReady now t with
      | some (x, t') => some (x, r :: t')
      | none => none

/-- TRACKS_APPEND: one request is written, when Tracks is READY (R432). -/
def appendOne (s : State) : State :=
  if s.trk.ready then
    match takeReady s.hut.time s.trk.queue with
    | some (r, q) => appendReq r { s with trk := { s.trk with queue := q } }
    | none => s
  else s

/-- Every request that may be written. -/
def appendAllFuel : Nat → State → State
  | 0, s => s
  | n + 1, s => appendAllFuel n (appendOne s)

def appendAll (s : State) : State := appendAllFuel s.trk.queue.length s

/-- No request is lost to a reset: those that wait at its assertion are written first. -/
def flushTracks (s : State) : State :=
  if s.trk.ready then
    s.trk.queue.foldl (fun s r => appendReq r s) { s with trk := { s.trk with queue := [] } }
  else s

/-- A request of a kind that never merges. -/
def trkReq (kind origin : Nat) (payload : Bytes) (alarm : Bool := false) : TrkReq :=
  { kind := kind, origin := origin, payload := payload, reserve := reserveKind kind alarm, aggregated := false, hold := 0,
    raise := false }

/-- A request joins the writer's queue. -/
def trkRequest (r : TrkReq) (s : State) : State := { s with trk := { s.trk with queue := s.trk.queue ++ [r] } }

/-- A request whose like, still on hold, takes it in; `f` merges the payloads (R373, R414). -/
def trkMerge (r : TrkReq) (f : Bytes → Bytes) (s : State) : State :=
  let same := fun (q : TrkReq) => q.kind == r.kind && q.origin == r.origin && !(reqReady s.hut.time q)
  { s with trk := { s.trk with
      queue := if s.trk.queue.any same
        then modFirst same (fun q => { q with payload := f q.payload, aggregated := true }) s.trk.queue
        else s.trk.queue ++ [r] } }

/-- A commit's own append, behind every request that may be written; the answer is its SEQ, 0 when it found no room
(R431, R435). -/
def appendCommit (r : TrkReq) (s : State) : State × Nat :=
  let s1 := appendAll s
  let s2 := appendReq r s1
  (s2, if s2.trk.headSeq == s1.trk.headSeq then 0 else s2.trk.headSeq)

end Sys2Proof.Machine
end

