-- ==== Sys2Proof/Machine/Protect.lean ====
section
/-!
DEFINITION. Sys2Proof/Machine/Protect.lean: the internal address map (R35, R36, R175) and the protection check with its
capture (R351 to R365).
-/
namespace Sys2Proof.Machine

/-! ### The internal address map (R35, R36) -/

inductive Region where
  | rom | sram | store | tracksLog | counters | curveTable | records | siteConfig | runtimeData | sessions | ringPorts
  | randomPort | peripherals
  deriving DecidableEq, Repr

/-- The region an address decodes to; none for an unmapped address, the shadow area among them. -/
def regionOf (a : Nat) : Option Region :=
  if a < 0x40000 then some .rom
  else if 0x10000000 ≤ a ∧ a < 0x10400000 then some .sram
  else if 0x20000000 ≤ a ∧ a < 0x20200000 then some .store
  else if 0x20200000 ≤ a ∧ a < 0x20400000 then some .tracksLog
  else if 0x20400000 ≤ a ∧ a < 0x20450000 then some .counters
  else if 0x20450000 ≤ a ∧ a < 0x20458000 then some .curveTable
  else if 0x20458000 ≤ a ∧ a < 0x20460000 then some .records
  else if 0x20460000 ≤ a ∧ a < 0x205F0000 then some .siteConfig
  else if 0x20600000 ≤ a ∧ a < 0x20680000 then some .runtimeData
  else if 0x30000000 ≤ a ∧ a < 0x30080000 then some .sessions
  else if 0x40000000 ≤ a ∧ a < 0x40020000 then some .ringPorts
  else if 0x40020000 ≤ a ∧ a < 0x40021000 then some .randomPort
  else if 0x50000000 ≤ a ∧ a < 0x50010000 then some .peripherals
  else none

/-- Window base of applet n (R35). -/
def windowBase (n : Nat) : Nat := 0x10000000 + n * 0x20000

/-! ### Accesses -/

inductive AccKind where
  | read | write | exec
  deriving DecidableEq, Repr

/-- One access of an initiator (R351): the unit that checks it, its mode, the applet of a user access and its first byte. -/
structure Acc where
  unit : Nat
  user : Bool
  applet : Option Nat
  kind : AccKind
  addr : Nat
  deriving DecidableEq, Repr

/-- What the check finds: pass, a failure of steps 2 to 7 with its reason, or a bus fault of step 8. -/
inductive Verdict where
  | pass
  | deny (reason entry tag colour : Nat)
  | bus
  deriving DecidableEq, Repr

/-! ### Entries (R352 to R356) -/

def peBase (e : PuEntry) : Nat := e.w0.toNat / 2048 * 2048
def peSize (e : PuEntry) : Nat := e.w0.toNat / 32 % 64
def peValid (e : PuEntry) : Bool := e.w1.getLsbD 31
def peLock (e : PuEntry) : Bool := e.w1.getLsbD 30
def peColour (e : PuEntry) : Nat := e.w1.toNat / 2 ^ 24 % 16

/-- The entry permits the kind of access. -/
def pePermits (e : PuEntry) (k : AccKind) : Bool :=
  match k with
  | .read => e.w1.getLsbD 12 | .write => e.w1.getLsbD 13 | .exec => e.w1.getLsbD 14

/-- R355: the entry matches. -/
def peMatches (e : PuEntry) (user : Bool) (a : Nat) : Bool :=
  let size := 2 ^ peSize e
  let off := a - peBase e
  peValid e && (if user then e.w1.getLsbD 28 else e.w1.getLsbD 29) && decide (peBase e ≤ a) && decide (off < size) &&
    !(e.w1.getLsbD (16 + off / (size / 8)))

/-- Entry e of a unit's view for an access (R352). -/
def entryFor (p : Protection) (x : Acc) (e : Nat) : PuEntry :=
  let grant := match x.applet with
    | some n => tblGet PuEntry.reset p.grants (8 * n + e)
    | none => PuEntry.reset
  if x.unit < 8 then (if e < 8 then grant else tblGet PuEntry.reset p.units (16 * x.unit + e))
  else if x.unit == 8 && x.user then (if e < 8 then grant else PuEntry.reset)
  else tblGet PuEntry.reset p.units (16 * x.unit + e)

/-- The deciding entry: the highest-numbered one that matches. -/
def deciding (p : Protection) (x : Acc) : Option Nat :=
  lastBelow 16 (fun e => peMatches (entryFor p x e) x.user x.addr)

/-- R356: the tag of the granule that holds an address. -/
def tagOf (p : Protection) (a : Nat) : Nat :=
  match regionOf a with
  | some .sram | some .sessions => tblGet 0 p.tags (a / 256)
  | _ => 0

/-- R359: the default map for a supervisor access. -/
def defaultAllows (unit : Nat) (k : AccKind) (a : Nat) : Bool :=
  match regionOf a with
  | none => true      -- decoding comes last (step 8)
  | some r =>
    let rd := k == .read
    let rw := k != .exec
    let mram := r == .store || r == .tracksLog || r == .counters || r == .curveTable || r == .records ||
      r == .siteConfig || r == .runtimeData
    if unit < 8 then
      match r with
      | .rom => k != .write | .sram => rw | .sessions => rd | .ringPorts => rw | .randomPort => rd | .peripherals => rw
      | _ => mram && rw
    else if unit == 8 then r == .sram && rw
    else if unit == 9 then r == .peripherals && rd
    else if unit == 10 then (r == .sram && rw) || (mram && rd)
    else match r with
      | .rom => rd | .sram => rw | .sessions => rd | .ringPorts => rw
      | .peripherals => rd || (k == .write && !(decide (0x50002000 ≤ a) && decide (a ≤ 0x500028FF)))
      | _ => mram && rd

/-- Step 8 of R358: decoding and the owned-row rules of R36 and R176. -/
def busOk (unit : Nat) (user : Bool) (k : AccKind) (a : Nat) : Bool :=
  match regionOf a with
  | none => false
  | some r =>
    if k == .write then
      match r with
      | .sram | .ringPorts | .peripherals => true
      | .store | .siteConfig => decide (unit < 8) && !user
      | _ => false
    else true

/-- R389: the tag word of the granule reads as uncorrectable.  Tag memory is bank 0x0E; its words hold the tags of 16
granules, applet SRAM first (log entry 11). -/
def tagWordBad (s : State) (a : Nat) : Bool :=
  let cond := fun (g : Nat) => tblGet WordCond.good s.stored.marks (0x0E * 0x40000 + g / 16)
  let bad := fun (c : WordCond) => c == .writing || c == .uncorrectable || c == .poisoned
  match regionOf a with
  | some .sram => bad (cond ((a - 0x10000000) / 256))
  | some .sessions => bad (cond (16384 + (a - 0x30000000) / 256))
  | _ => false

/-- R353: a write of the protection block by anything but a Rink core in supervisor mode. -/
def blockWrite (x : Acc) : Bool :=
  x.kind == .write && decide (0x50002000 ≤ x.addr) && decide (x.addr ≤ 0x500028FF) && (x.user || decide (8 ≤ x.unit))

/-- R358, steps 2 to 8. -/
def checkAcc (s : State) (x : Acc) : Verdict :=
  let p := s.prot
  let tag := tagOf p x.addr
  if x.unit == 11 && !p.isOpen then .deny 6 0 tag 0
  else if x.user && decide (0x10000000 ≤ x.addr) && decide (x.addr < 0x10400000) && decide (x.addr % 0x20000 < 0x40)
    then .deny 4 0 tag 0
  else if !x.user && x.kind == .exec && decide (0x40000 ≤ x.addr) then .deny 5 0 tag 0
  else match deciding p x with
    | none =>
      if x.user then .deny 1 0 tag 0
      else if blockWrite x then .deny 2 0 tag 0
      else if defaultAllows x.unit x.kind x.addr then
        (if busOk x.unit x.user x.kind x.addr then .pass else .bus)
      else .deny 7 0 tag 0
    | some n =>
      let e := entryFor p x n
      if !(pePermits e x.kind) || blockWrite x then .deny 2 n tag (peColour e)
      else if peColour e != tag || tagWordBad s x.addr then .deny 3 n tag (peColour e)
      else if busOk x.unit x.user x.kind x.addr then .pass else .bus

/-! ### Capture (R364) -/

def puFaultReg (f : PuFault) : Word :=
  word (f.colour * 2 ^ 8 + f.tag * 2 ^ 12 + f.entry * 2 ^ 16 + f.reason * 2 ^ 20 + f.applet * 2 ^ 23 + fbit f.user 28 +
    fbit f.exec 29 + fbit f.write 30 + fbit f.valid 31)

/-- A failure of steps 3 to 7 (and 2, for the debug port) in a unit's capture, PU_FAULT_CNT and PU_EVT. -/
def captureFault (x : Acc) (reason entry tag colour : Nat) (s : State) : State :=
  let f : PuFault :=
    { valid := true, write := x.kind == .write, exec := x.kind == .exec, user := x.user,
      applet := if x.user then x.applet.getD 0 else 0, reason := reason, entry := entry, tag := tag, colour := colour,
      addr := word x.addr }
  let s1 := { s with prot := { s.prot with
      faults := if s.prot.evt.getLsbD x.unit then s.prot.faults else tblSet PuFault.reset s.prot.faults x.unit f,
      faultCnt := sat32 s.prot.faultCnt } }
  setPuEvt (2 ^ x.unit) s1

/-- R365: the Tracks entry of a supervisor or telemetry protection fault. -/
def traceFault (unit : Nat) (s : State) : State :=
  let f := tblGet PuFault.reset s.prot.faults unit
  trkRequest (trkReq 0x0700 unit (bytesLE 4 (puFaultReg f).toNat ++ bytesLE 4 f.addr.toNat)) s

/-! ### The bytes of the map -/

/-- The first 80 bytes of a session context (R175); bytes 0x50 to 0x7F read as zero (R176). -/
def contextBytes (c : Session) : Bytes :=
  vecBytes 256 c.label ++
    bytesLE 4 (c.rootSlot.toNat + c.mode.toNat * 2 ^ 8 + c.flags.toNat * 2 ^ 16 + c.colour.toNat * 2 ^ 24 +
      fbit c.chainOpen 30 + fbit c.isSet 31) ++
    bytesLE 4 c.salt.toNat ++ bytesLE 4 c.gen.toNat ++ bytesLE 4 c.epoch.toNat ++ bytesLE 8 c.txCtr.toNat ++
    bytesLE 8 c.rxHigh.toNat ++ bytesLE 8 c.rxMap.toNat ++ bytesLE 4 c.chainGen.toNat ++ List.replicate 4 0

/-- The bytes of the log from a unit on, by walking the entries back from the next unit to be used. -/
def trkUnitByte (t : Tracks) (off : Nat) : Byte :=
  let place := t.entries.reverse.foldl
    (fun (st : Nat × Option Byte) e =>
      let start := (st.1 + 32768 - e.units) % 32768
      let rel := (off + 2097152 - 64 * start) % 2097152
      (start, if st.2.isSome then st.2 else if rel < 64 * e.units then some ((entryImage e).getD rel 0) else none))
    (t.headUnit, none)
  place.2.getD 0

/-- The curve that an entry of the table holds: its image, digest and state byte (R287). -/
def curveEntryBytes (s : State) (entry : Nat) : Bytes :=
  let c := tblGet Curve.reset s.curves.table entry
  if 8 ≤ entry ∧ c.loaded then slice c.image 0 448 ++ c.digest ++ [0x02] else []

/-- A byte read through the map. -/
def mapByte (s : State) (a : Nat) : Byte :=
  match regionOf a with
  | some .rom => Config.romByte a
  | some .sram | some .store | some .siteConfig => memRead s.mem a
  | some .sessions =>
    (contextBytes (tblGet Session.reset s.sess.table ((a - 0x30000000) / 0x80))).getD ((a - 0x30000000) % 0x80) 0
  | some .tracksLog => trkUnitByte s.trk (a - 0x20200000)
  | some .counters =>
    let o := a - 0x20400000
    let c := tblGet Counter.reset s.ctrs.table (o / 0x500)
    (vecBytes 64 (tblGet 0 c.words (o % 0x500 / 8))).getD (o % 8) 0
  | some .curveTable => (curveEntryBytes s ((a - 0x20450000) / 1024)).getD ((a - 0x20450000) % 1024) 0
  | some .records | some .runtimeData => Config.ownedRowByte a
  | _ => 0

def mapBytes (s : State) (a n : Nat) : Bytes := (List.range n).map (fun i => mapByte s (a + i))

/-! ### The ring DMA's transfers for a job on In (R352, R360, R361) -/

/-- First bytes of the pieces of a transfer: the start and every 256-byte boundary. -/
def pieceStarts (a n : Nat) : List Nat :=
  if n = 0 then []
  else a :: ((List.range ((a % 256 + n - 1) / 256)).map (fun i => a / 256 * 256 + 256 * (i + 1)))

/-- A check of every piece of a ring-DMA transfer for applet n: the first failing verdict. -/
def dmaVerdict (s : State) (n : Nat) (k : AccKind) (a len : Nat) : Option (Acc × Verdict) :=
  let accs := (pieceStarts a len).map (fun x =>
    ({ unit := 8, user := true, applet := some n, kind := k, addr := x } : Acc))
  (accs.map (fun x => (x, checkAcc s x))).find? (fun v => v.2 != .pass)

/-- Bytes of a transfer that are issued before its first failing piece (R361). -/
def dmaPrefix (s : State) (n : Nat) (k : AccKind) (a len : Nat) : Nat :=
  match dmaVerdict s n k a len with
  | some (x, _) => x.addr - a
  | none => len

end Sys2Proof.Machine
end

