-- ==== Sys2Proof/Machine/Words.lean ====
section
/-!
DEFINITION. Sys2Proof/Machine/Words.lean: stored words and their conditions (R377 to R391): which word an address lies in,
corrections, the weak-word rule, retirement, poison, and stores to the applet SRAM, the store and the site configuration.
-/
namespace Sys2Proof.Machine

/-! ### Banks (R384) -/

def bankRowWords (bank : Nat) : Nat := if bank < 4 then 32 else 16

def bankSpares (bank : Nat) : Nat :=
  if bank < 4 then 128 else if bank ≤ 0x0D then 16 else 4

def bankWords (bank : Nat) : Nat :=
  if bank < 4 then 0x40000
  else if bank ≤ 0x0D then 0x10000
  else if bank = 0x0E then 1152
  else if bank = 0x0F then 512
  else if bank ≤ 0x21 then 0x2000
  else 1024

/-- The bank and word index of an internal address. -/
def wordOf (a : Nat) : Option (Nat × Nat) :=
  if 0x20000000 ≤ a ∧ a < 0x20800000 then some ((a - 0x20000000) / 0x200000, (a - 0x20000000) % 0x200000 / 8)
  else if 0x30000000 ≤ a ∧ a < 0x30080000 then some (4, (a - 0x30000000) / 8)
  else if 0x10000000 ≤ a ∧ a < 0x10400000 then some (5 + (a - 0x10000000) / 0x80000, (a - 0x10000000) % 0x80000 / 8)
  else none

def markKey (bank w : Nat) : Nat := bank * 0x40000 + w

def wordCond (s : State) (bank w : Nat) : WordCond := tblGet .good s.stored.marks (markKey bank w)

def setCond (bank w : Nat) (c : WordCond) (s : State) : State :=
  { s with stored := { s.stored with marks := tblSet .good s.stored.marks (markKey bank w) c } }

/-- R380: a read of the word is uncorrectable. -/
def condBad (c : WordCond) : Bool := c == .writing || c == .uncorrectable || c == .poisoned

/-- Words that a range of bytes touches, by address of their first byte. -/
def wordsTouched (a n : Nat) : List Nat :=
  if n = 0 then [] else (List.range ((a % 8 + n + 7) / 8)).map (fun i => a / 8 * 8 + 8 * i)

/-- The first word of a range that reads as uncorrectable. -/
def badWordIn (s : State) (a n : Nat) : Option (Nat × Nat) :=
  (wordsTouched a n).findSome? (fun x => match wordOf x with
    | some (b, w) => if condBad (wordCond s b w) then some (b, w) else none
    | none => none)

/-! ### Rows (R384 to R386) -/

/-- Rows of a bank retired or being retired. -/
def rowsUsed (s : State) (bank : Nat) : Nat :=
  ((s.stored.retired ++ s.stored.retiring).filter (fun p => p.1 == bank)).length

def sparesLeft (s : State) (bank : Nat) : Nat := bankSpares bank - rowsUsed s bank

/-- A retirement begins, unless the row's is under way or it has ended; without a spare SPARES_OUT is set. -/
def retireRow (bank row : Nat) (s : State) : State :=
  if s.stored.retiring.contains (bank, row) then s
  else if sparesLeft s bank = 0 then
    trkRequest (trkReq 0x0502 bank (bytesLE 4 row)) (setRsfEvt 0x10 bank (row * bankRowWords bank) s)
  else { s with stored := { s.stored with retiring := s.stored.retiring ++ [(bank, row)] } }

/-- The part records a completed retirement. -/
def rowRetired (bank row : Nat) (s : State) : State :=
  let s1 := { s with stored := { s.stored with
      retiring := s.stored.retiring.filter (fun p => p != (bank, row)),
      retired := s.stored.retired ++ [(bank, row)], retireCnt := sat32 s.stored.retireCnt } }
  trkRequest (trkReq 0x0500 bank (bytesLE 4 row)) (setRsfEvt 0x08 bank (row * bankRowWords bank) s1)

/-! ### Clearing valid bits (R252, R392) -/

/-- A range of an SRAM bank loses its valid bits: no word of it stays poisoned or in error, and the range joins the bank's
clear queue of 16, or is left to the next pass. -/
def clearRange (bank first n : Nat) (s : State) : State :=
  { s with stored := { s.stored with
      marks := s.stored.marks.filter (fun p => decide (p.1 < markKey bank (first / 8)) ||
        decide (markKey bank ((first + n) / 8) ≤ p.1)),
      clears := tblMod [] s.stored.clears bank (fun l => if l.length < 16 then l ++ [(first, n)] else l) } }

/-! ### Corrections (R382, R383) -/

def sameWord (bank w : Nat) (c : Corrected) : Bool := c.bank == bank && c.word == w

/-- R397: a write of an MRAM word outside the counter banks counts for its row. -/
def wearWrite (bank w : Nat) (s : State) : State :=
  if decide (4 ≤ bank) || (bank == 2 && decide (w < 0xA000)) then s
  else
    { s with stored := { s.stored with
        rowWrites := tblMod 0 s.stored.rowWrites (bank * 0x10000 + w / 32) (· + 1) } }

/-- A word has been written: its next correction makes it weak, and a pending write-back is dropped. -/
def noteWritten (bank w : Nat) (s0 : State) : State :=
  let s := wearWrite bank w s0
  { s with stored := { s.stored with
      corrected := s.stored.corrected.map (fun c => if sameWord bank w c then { c with written := true } else c),
      weak := s.stored.weak.map (fun c => if sameWord bank w c then { c with written := true } else c),
      writeBacks := s.stored.writeBacks.filter (fun p => p != (bank, w)) } }

/-- A range of words is written whole: each counts for wear, and none stays poisoned (R388, R397). -/
def writtenWords (bank first n : Nat) (s : State) : State :=
  (List.range n).foldl (fun s i => noteWritten bank (first + i) (setCond bank (first + i) .good s)) s

/-- The weak-word rule at one correction. -/
def weakRule (bank w : Nat) (s : State) : State :=
  let row := w / bankRowWords bank
  let drop := fun (l : List Corrected) => l.filter (fun c => !(sameWord bank w c))
  match s.stored.weak.find? (sameWord bank w) with
  | some c =>
    if !c.written then s
    else if c.count = 3 then { s with stored := { s.stored with
        weak := modFirst (sameWord bank w) (fun c => { c with written := false }) s.stored.weak } }
    else if 0 < sparesLeft s bank then
      retireRow bank row { s with stored := { s.stored with weak := drop s.stored.weak } }
    else retireRow bank row { s with stored := { s.stored with
        weak := modFirst (sameWord bank w) (fun c => { c with count := 3, written := false }) s.stored.weak } }
  | none =>
    match s.stored.corrected.find? (sameWord bank w) with
    | none => { s with stored := { s.stored with
        corrected := s.stored.corrected ++ [{ bank := bank, word := w, count := 1, written := false }] } }
    | some c =>
      if !c.written then s
      else
        let s1 := setRsfEvt 0x04 bank w { s with stored := { s.stored with corrected := drop s.stored.corrected } }
        if s.stored.weak.length < 64 then
          { s1 with stored := { s1.stored with
              weak := s1.stored.weak ++ [{ bank := bank, word := w, count := 2, written := false }] } }
        else if 0 < sparesLeft s bank then retireRow bank row s1
        else setRsfEvt 0x20 bank w s1

/-- A read corrected a word. -/
def noteCorrected (bank w : Nat) (s : State) : State :=
  let s1 := { s with stored := { s.stored with
      ceCnt := sat32 s.stored.ceCnt, ce := tblMod 0 s.stored.ce bank sat16 } }
  let s2 := weakRule bank w s1
  { s2 with stored := { s2.stored with
      writeBacks := if s2.stored.writeBacks.contains (bank, w) then s2.stored.writeBacks
        else s2.stored.writeBacks ++ [(bank, w)] } }

/-! ### Uncorrectable words (R388 to R390) -/

/-- R390: the areas whose words have a shadow copy: the curve table and the records of bank 2, and the Vault in bank 3 (R36). -/
def duplicated (bank w : Nat) : Bool :=
  (bank == 2 && decide (0x50000 / 8 ≤ w) && decide (w < 0x60000 / 8)) || (bank == 3 && decide (0x10000 ≤ w))

/-- The first uncorrectable event is captured, RSF_EVT.UE set, and the word poisoned. -/
def noteUe (bank w : Nat) (part : Bool) (s : State) : State :=
  let f : RsfFault := { valid := true, part := part, dup := duplicated bank w, bank := bank, word := w }
  let first := wordCond s bank w != .poisoned || part
  let s1 := { s with stored := { s.stored with
      fault := if s.stored.evt.getLsbD 1 then s.stored.fault else f,
      ueCnt := if first then sat32 s.stored.ueCnt else s.stored.ueCnt } }
  setCond bank w .poisoned (setRsfEvt 0x02 bank w s1)

/-- A read of a word of a bank. -/
def readAt (bank w : Nat) (s : State) : State :=
  if wordCond s bank w == .correctable then noteCorrected bank w s
  else if condBad (wordCond s bank w) then noteUe bank w false s
  else s

/-- A read of the stored word at address x, if one stands there. -/
def readWord (x : Nat) (s : State) : State :=
  match wordOf x with
  | some (b, w) => readAt b w s
  | none => s

/-- What reading a range leaves: its correctable words are corrected, its uncorrectable ones poisoned. -/
def readWords (a n : Nat) (s : State) : State := (wordsTouched a n).foldl (fun s x => readWord x s) s

/-- What reading a range of a bank's words leaves. -/
def readRange (bank first n : Nat) (s : State) : State := (List.range n).foldl (fun s i => readAt bank (first + i) s) s

/-- A word of the range reads as uncorrectable. -/
def rangeBad (s : State) (bank first n : Nat) : Bool :=
  (List.range n).any (fun i => condBad (wordCond s bank (first + i)))

/-! ### The Vault and the curve table (R36, R388, R390) -/

/-- First word of the cell of a generation: in bank 3 from the window's end on, root slots before private-key slots, two cells of
170 words to a slot, which generations take in turn (DEDUCED, log entry 89). -/
def cellWord (h : VaultHold) : Nat :=
  0x10000 + 340 * (match h.slot with | .root n => n | .priv n => 32 + n) + 170 * (h.gen % 2)

def cellWords : Nat := 170

/-- First word of a curve entry of 1 KiB. -/
def curveWord (e : Nat) : Nat := 0xA000 + 128 * e

/-- Both copies of a word of the generation are uncorrectable. -/
def keyLost (s : State) (h : VaultHold) : Bool := rangeBad s 3 (cellWord h) cellWords

/-- A cell is written, or erased to EMPTY: either way no word of it stays poisoned. -/
def writeCell (r : SlotRef) (gen : Nat) (s : State) : State := writtenWords 3 (cellWord { slot := r, gen := gen }) cellWords s

/-- A read of the generations that a job holds. -/
def readHolds (j : Job) (s : State) : State := j.holds.foldl (fun s h => readRange 3 (cellWord h) cellWords s) s

/-! ### Session contexts (R175, R389) -/

/-- Words of context n are written by a block that owns them. -/
def writeContextWords (n first k : Nat) (s : State) : State := writtenWords 4 (16 * n + first) k s

/-- A read of context n, and whether a word of it is uncorrectable. -/
def readContext (n : Nat) (s : State) : State := readRange 4 (16 * n) 16 s
def contextBad (s : State) (n : Nat) : Bool := rangeBad s 4 (16 * n) 16

/-! ### Descriptor staging (R23, R389) -/

/-- Words of the staging slot of a tag are written: 32 words to a slot, slots in the order of the tags, the descriptor before the
command block before the job state (DEDUCED, log entry 83). -/
def stageWords (tag first n : Nat) (s : State) : State :=
  if tag < 2048 then writtenWords 0x0D (32 * tag + first) n s else s

/-- Of n words of a slot, those that read as uncorrectable. -/
def stagedBad (s : State) (tag first n : Nat) : List Nat :=
  if tag < 2048 then
    ((List.range n).map (fun i => 32 * tag + first + i)).filter (fun w => condBad (wordCond s 0x0D w))
  else []

/-! ### Stores (R387) -/

/-- The word at x is only partly covered by the bytes from a on. -/
def partly (a n x : Nat) : Bool := decide (x < a) || decide (a + n < x + 8)

/-- R387: the first word whose partial write is refused. -/
def refusedPart (s : State) (a n : Nat) : Option (Nat × Nat) :=
  (wordsTouched a n).findSome? (fun x => match wordOf x with
    | some (b, w) => if partly a n x && condBad (wordCond s b w) then some (b, w) else none
    | none => none)

/-- What a store of n bytes from a on does to the condition of the word at x: a full or corrected write leaves it good. -/
def storeWord (a n x : Nat) (s : State) : State :=
  match wordOf x with
  | some (b, w) =>
    noteWritten b w (setCond b w .good
      (if partly a n x && wordCond s b w == .correctable then noteCorrected b w s else s))
  | none => s

/-- Bytes stored at an address whose words all take the write: poison goes, corrections count. -/
def storeBytes (a : Nat) (bs : Bytes) (s : State) : State :=
  let s1 := (wordsTouched a bs.length).foldl (fun s x => storeWord a bs.length x s) s
  { s1 with mem := memWriteBytes s1.mem a bs }

end Sys2Proof.Machine
end

