-- ==== Sys2Proof/Machine/Mail.lean ====
section
/-!
DEFINITION. Sys2Proof/Machine/Mail.lean: applet states, the cores' records and the mailbox (R337, R339, R342, R343).
-/
namespace Sys2Proof.Machine

def applet (s : State) (n : Nat) : Applet := tblGet Applet.reset s.merya.apps n

def setApplet (n : Nat) (a : Applet) (s : State) : State :=
  { s with merya := { s.merya with apps := tblSet Applet.reset s.merya.apps n a } }

def modApplet (n : Nat) (f : Applet → Applet) (s : State) : State := setApplet n (f (applet s n)) s

def rinkOf (s : State) (c : Nat) : Rink := tblGet Rink.reset s.merya.cores c

def setCore (c : Nat) (k : Rink) (s : State) : State :=
  { s with merya := { s.merya with cores := tblSet Rink.reset s.merya.cores c k } }

def modCore (c : Nat) (f : Rink → Rink) (s : State) : State := setCore c (f (rinkOf s c)) s

def appCode (a : AppState) : Nat :=
  match a with
  | .empty => 0 | .starting => 1 | .ready => 2 | .running => 3 | .waiting => 4 | .stopping => 5 | .removing => 6
  | .faulted => 7

/-- A transition of R337, which raises the applet's state source. -/
def moveApplet (n : Nat) (st : AppState) (s : State) : State :=
  if (applet s n).state == st then s
  else raiseEvent (640 + 4 * n) (word (appCode st)) 0 (modApplet n (fun a => { a with state := st }) s)

/-! ### The image header (R335) -/

def imgNat (im : Bytes) (off n : Nat) : Nat := natLE (slice im off n)
def imgFlags (im : Bytes) : Nat := imgNat im 0x06 2
def imgRestart (im : Bytes) : Bool := imgFlags im % 2 = 1
/-- HANDLES flag i: 1 EVACUATE, 2 ALERT, 3 ALARM. -/
def imgHandles (im : Bytes) (i : Nat) : Bool := imgFlags im / 2 ^ i % 2 = 1

/-- The applet that holds a HANDLES flag. -/
def handlerOf (s : State) (i : Nat) : Option Nat :=
  firstBelow 32 (fun n => (applet s n).state != .empty && imgHandles (applet s n).image i)

/-! ### Mailbox records (R342) -/

def mailAddr (n slot : Nat) : Nat := windowBase n + 0x1F000 + 0x80 * slot

def mailBytes (r : MailRecord) : Bytes :=
  bytesLE 2 r.kind ++ bytesLE 2 r.seq ++ bytesLE 2 r.lost ++ [0, 0] ++ bytesLE 8 r.time ++ bytesLE 4 r.arg0.toNat ++
    bytesLE 4 r.arg1.toNat ++ bytesLE 8 r.trkSeq.toNat ++ bytesLE 1 r.auth ++ bytesLE 1 r.data.length ++
    List.replicate 14 0 ++ slice r.data 0 80

/-- Kinds that have at most one unconsumed record. -/
def mailMerges (kind : Nat) : Bool := kind == 0x10 || kind == 0x11 || kind == 0x20

/-- The applet takes records. -/
def mailOpen (a : Applet) : Bool := !(a.state == .empty || a.state == .faulted || a.state == .removing)

/-- The budget of R38 in ticks. -/
def clsTicks (c : Cls) : Nat := clsBudget c / 10000

/-- WAIT_EVENT returns the oldest record: its activation begins. -/
def returnRecord (n : Nat) (r : MailRecord) (a : Applet) : Applet :=
  { a with taken := true, waitPending := false, slices := 0, deadline := r.time + clsTicks a.cls,
           regs := tblSet 0 (tblSet 0 a.regs 1 (word (mailAddr n r.slot))) 2 (word r.kind) }

/-- A WAITING applet with a record becomes READY. -/
def wakeApplet (n : Nat) (s : State) : State :=
  let a := applet s n
  match a.state, a.mail with
  | .waiting, r :: _ => moveApplet n .ready (modApplet n (returnRecord n r) s)
  | _, _ => s

/-- A record is posted to an applet's mailbox. -/
def postMail (n kind : Nat) (arg0 arg1 : Word) (trkSeq : DWord) (auth : Nat) (data : Bytes) (s : State) : State :=
  let a := applet s n
  if !(mailOpen a) then s
  else if mailMerges kind && a.mail.any (fun r => r.kind == kind) then
    let slot := ((a.mail.find? (fun r => r.kind == kind)).map (fun r => r.slot)).getD 0
    storeBytes (mailAddr n slot + 0x10) (bytesLE 4 arg0.toNat)
      (modApplet n (fun a => { a with mail := modFirst (fun r => r.kind == kind) (fun r => { r with arg0 := arg0 }) a.mail }) s)
  else if 32 ≤ a.mail.length then
    raiseEvent (643 + 4 * n) (word (sat16 a.mailLost)) 0 (modApplet n (fun a => { a with mailLost := sat16 a.mailLost }) s)
  else
    let r : MailRecord :=
      { slot := a.mailSlot, kind := kind, seq := a.mailSeq, lost := a.mailLost, time := s.now, arg0 := arg0, arg1 := arg1,
        trkSeq := trkSeq, auth := auth, data := data }
    wakeApplet n (storeBytes (mailAddr n r.slot) (mailBytes r)
      (modApplet n (fun a => { a with mail := a.mail ++ [r], mailSlot := (a.mailSlot + 1) % 32,
                                      mailSeq := (a.mailSeq + 1) % 0x10000, mailLost := 0 }) s))

end Sys2Proof.Machine
end

