-- ==== Sys2Proof/Machine/Numbers.lean ====
section
/-!
DEFINITION. Sys2Proof/Machine/Numbers.lean: modular arithmetic and the curves, and the public-key algorithms as FIPS 186-5,
RFC 8032, RFC 7748, SP 800-186 and PKCS #1 v2.2 lay them down, for R270 to R291 (log entry 10).
-/
namespace Sys2Proof.Machine

/-! ### Modular arithmetic -/

/-- b to the power of the bits of e, from bit i − 1 down. -/
def powModFuel (b e m : Nat) : Nat → Nat → Nat
  | 0, acc => acc
  | i + 1, acc =>
    let sq := acc * acc % m
    powModFuel b e m i (if e.testBit i then sq * b % m else sq)

def powMod (b e m : Nat) : Nat := powModFuel (b % m) e m (e.log2 + 1) (1 % m)

/-- Bits of a number; 0 for 0. -/
def bitLength (n : Nat) : Nat := if n = 0 then 0 else n.log2 + 1

def invModFuel (m : Nat) : Nat → Nat → Nat → Nat → Nat → Nat
  | 0, _, _, s0, _ => s0
  | f + 1, r0, r1, s0, s1 =>
    if r1 = 0 then s0
    else invModFuel m f r1 (r0 % r1) s1 ((s0 + (m - (r0 / r1) * s1 % m)) % m)

/-- The inverse of a modulo m, by the extended Euclidean algorithm; 0 for a = 0. -/
def invMod (a m : Nat) : Nat := if a % m = 0 then 0 else invModFuel m (2 * bitLength m + 4) m (a % m) 0 1

/-- a − b modulo m, both below m. -/
def subMod (a b m : Nat) : Nat := (a + (m - b % m)) % m

/-- One Miller–Rabin round: m − 1 = 2^s · d. -/
def mrSquares (m : Nat) : Nat → Nat → Bool
  | 0, _ => false
  | s + 1, x => x == m - 1 || mrSquares m s (x * x % m)

def twoAdicFuel : Nat → Nat → Nat
  | 0, _ => 0
  | f + 1, n => if n % 2 = 0 then twoAdicFuel f (n / 2) + 1 else 0

def millerRabin (m base : Nat) : Bool :=
  let s := twoAdicFuel (bitLength m) (m - 1)
  let x := powMod base ((m - 1) / 2 ^ s) m
  x == 1 || mrSquares m s x

/-! ### Short-Weierstrass curves (R286, R287) -/

structure WCurve where
  pBits : Nat
  nBits : Nat
  h : Nat
  p : Nat
  a : Nat
  b : Nat
  gx : Nat
  gy : Nat
  n : Nat
  deriving DecidableEq, Repr

/-- An affine point; none is the identity. -/
abbrev Pt := Option (Nat × Nat)

def wAdd (c : WCurve) (u v : Pt) : Pt :=
  match u, v with
  | none, _ => v
  | _, none => u
  | some (x1, y1), some (x2, y2) =>
    if x1 = x2 ∧ (y1 + y2) % c.p = 0 then none
    else
      let l := if x1 = x2 then (3 * x1 * x1 + c.a) * invMod (2 * y1) c.p % c.p
        else subMod y2 y1 c.p * invMod (subMod x2 x1 c.p) c.p % c.p
      let x3 := subMod (subMod (l * l % c.p) x1 c.p) x2 c.p
      some (x3, subMod (l * subMod x1 x3 c.p % c.p) y1 c.p)

def wMulFuel (c : WCurve) (k : Nat) (q : Pt) : Nat → Pt → Pt
  | 0, acc => acc
  | i + 1, acc =>
    let d := wAdd c acc acc
    wMulFuel c k q i (if k.testBit i then wAdd c d q else d)

def wMul (c : WCurve) (k : Nat) (q : Pt) : Pt := wMulFuel c k q (bitLength k) none

def wBase (c : WCurve) : Pt := some (c.gx, c.gy)

def wOnCurve (c : WCurve) (x y : Nat) : Bool :=
  y * y % c.p == (x * x * x + c.a * x + c.b) % c.p

/-- Bytes of a field element and of a scalar (R271). -/
def WCurve.lp (c : WCurve) : Nat := ceilDiv c.pBits 8
def WCurve.ln (c : WCurve) : Nat := ceilDiv c.nBits 8

def wEncode (c : WCurve) (q : Pt) : Bytes :=
  match q with
  | none => [0x04] ++ List.replicate (2 * c.lp) 0
  | some (x, y) => [0x04] ++ bytesBE c.lp x ++ bytesBE c.lp y

/-- R277: an encoding that is no point of the curve. -/
def pointFormBad (c : WCurve) (enc : Bytes) : Bool :=
  let x := natBE (slice enc 1 c.lp)
  let y := natBE (slice enc (1 + c.lp) c.lp)
  enc.headD 0 != 0x04 || decide (c.p ≤ x) || decide (c.p ≤ y) || (x == 0 && y == 0) || !(wOnCurve c x y)

def wDecode (c : WCurve) (enc : Bytes) : Pt :=
  some (natBE (slice enc 1 c.lp), natBE (slice enc (1 + c.lp) c.lp))

/-- R271: the integer e of a digest: its leftmost bits, as many as n has. -/
def ecdsaInt (c : WCurve) (d : Bytes) : Nat :=
  let v := natBE d
  let b := 8 * d.length
  if c.nBits < b then v / 2 ^ (b - c.nBits) else v

/-- R282: the scalar that a draw gives. -/
def scalarOf (draw : Bytes) (n : Nat) : Nat := natBE draw % (n - 1) + 1

def curveP256 : WCurve :=
  { pBits := 256,
    nBits := 256,
    h := 1,
    p := 0xFFFFFFFF00000001000000000000000000000000FFFFFFFFFFFFFFFFFFFFFFFF,
    a := 0xFFFFFFFF00000001000000000000000000000000FFFFFFFFFFFFFFFFFFFFFFFC,
    b := 0x5AC635D8AA3A93E7B3EBBD55769886BC651D06B0CC53B0F63BCE3C3E27D2604B,
    gx := 0x6B17D1F2E12C4247F8BCE6E563A440F277037D812DEB33A0F4A13945D898C296,
    gy := 0x4FE342E2FE1A7F9B8EE7EB4A7C0F9E162BCE33576B315ECECBB6406837BF51F5,
    n := 0xFFFFFFFF00000000FFFFFFFFFFFFFFFFBCE6FAADA7179E84F3B9CAC2FC632551 }

def curveP384 : WCurve :=
  { pBits := 384,
    nBits := 384,
    h := 1,
    p := 0xFFFFFFFFFFFFFFFFFFFFFFFFFFFFFFFFFFFFFFFFFFFFFFFFFFFFFFFFFFFFFFFEFFFFFFFF0000000000000000FFFFFFFF,
    a := 0xFFFFFFFFFFFFFFFFFFFFFFFFFFFFFFFFFFFFFFFFFFFFFFFFFFFFFFFFFFFFFFFEFFFFFFFF0000000000000000FFFFFFFC,
    b := 0xB3312FA7E23EE7E4988E056BE3F82D19181D9C6EFE8141120314088F5013875AC656398D8A2ED19D2A85C8EDD3EC2AEF,
    gx := 0xAA87CA22BE8B05378EB1C71EF320AD746E1D3B628BA79B9859F741E082542A385502F25DBF55296C3A545E3872760AB7,
    gy := 0x3617DE4A96262C6F5D9E98BF9292DC29F8F41DBD289A147CE9DA3113B5F0B8C00A60B1CE1D7E819D7A431D7C90EA0E5F,
    n := 0xFFFFFFFFFFFFFFFFFFFFFFFFFFFFFFFFFFFFFFFFFFFFFFFFC7634D81F4372DDF581A0DB248B0A77AECEC196ACCC52973 }

def curveP521 : WCurve :=
  { pBits := 521,
    nBits := 521,
    h := 1,
    p := 0x1FFFFFFFFFFFFFFFFFFFFFFFFFFFFFFFFFFFFFFFFFFFFFFFFFFFFFFFFFFFFFFFFFFFFFFFFFFFFFFFFFFFFFFFFFFFFFFFFFFFFFFFFFFFFFFFFFFFFFFFFFFFFFFFFFF,
    a := 0x1FFFFFFFFFFFFFFFFFFFFFFFFFFFFFFFFFFFFFFFFFFFFFFFFFFFFFFFFFFFFFFFFFFFFFFFFFFFFFFFFFFFFFFFFFFFFFFFFFFFFFFFFFFFFFFFFFFFFFFFFFFFFFFFFFC,
    b := 0x51953EB9618E1C9A1F929A21A0B68540EEA2DA725B99B315F3B8B489918EF109E156193951EC7E937B1652C0BD3BB1BF073573DF883D2C34F1EF451FD46B503F00,
    gx := 0xC6858E06B70404E9CD9E3ECB662395B4429C648139053FB521F828AF606B4D3DBAA14B5E77EFE75928FE1DC127A2FFA8DE3348B3C1856A429BF97E7E31C2E5BD66,
    gy := 0x11839296A789A3BC0045C8A5FB42C7D1BD998F54449579B446817AFBD17273E662C97EE72995EF42640C550B9013FAD0761353C7086A272C24088BE94769FD16650,
    n := 0x1FFFFFFFFFFFFFFFFFFFFFFFFFFFFFFFFFFFFFFFFFFFFFFFFFFFFFFFFFFFFFFFFFA51868783BF2F966B7FCC0148F709A5D03BB5C9B8899C47AEBB6FB71E91386409 }

def curveBpP256 : WCurve :=
  { pBits := 256,
    nBits := 256,
    h := 1,
    p := 0xA9FB57DBA1EEA9BC3E660A909D838D726E3BF623D52620282013481D1F6E5377,
    a := 0x7D5A0975FC2C3057EEF67530417AFFE7FB8055C126DC5C6CE94A4B44F330B5D9,
    b := 0x26DC5C6CE94A4B44F330B5D9BBD77CBF958416295CF7E1CE6BCCDC18FF8C07B6,
    gx := 0x8BD2AEB9CB7E57CB2C4B482FFC81B7AFB9DE27E1E3BD23C23A4453BD9ACE3262,
    gy := 0x547EF835C3DAC4FD97F8461A14611DC9C27745132DED8E545C1D54C72F046997,
    n := 0xA9FB57DBA1EEA9BC3E660A909D838D718C397AA3B561A6F7901E0E82974856A7 }

def curveBpP384 : WCurve :=
  { pBits := 384,
    nBits := 384,
    h := 1,
    p := 0x8CB91E82A3386D280F5D6F7E50E641DF152F7109ED5456B412B1DA197FB71123ACD3A729901D1A71874700133107EC53,
    a := 0x7BC382C63D8C150C3C72080ACE05AFA0C2BEA28E4FB22787139165EFBA91F90F8AA5814A503AD4EB04A8C7DD22CE2826,
    b := 0x4A8C7DD22CE28268B39B55416F0447C2FB77DE107DCD2A62E880EA53EEB62D57CB4390295DBC9943AB78696FA504C11,
    gx := 0x1D1C64F068CF45FFA2A63A81B7C13F6B8847A3E77EF14FE3DB7FCAFE0CBD10E8E826E03436D646AAEF87B2E247D4AF1E,
    gy := 0x8ABE1D7520F9C2A45CB1EB8E95CFD55262B70B29FEEC5864E19C054FF99129280E4646217791811142820341263C5315,
    n := 0x8CB91E82A3386D280F5D6F7E50E641DF152F7109ED5456B31F166E6CAC0425A7CF3AB6AF6B7FC3103B883202E9046565 }

def curveBpP512 : WCurve :=
  { pBits := 512,
    nBits := 512,
    h := 1,
    p := 0xAADD9DB8DBE9C48B3FD4E6AE33C9FC07CB308DB3B3C9D20ED6639CCA703308717D4D9B009BC66842AECDA12AE6A380E62881FF2F2D82C68528AA6056583A48F3,
    a := 0x7830A3318B603B89E2327145AC234CC594CBDD8D3DF91610A83441CAEA9863BC2DED5D5AA8253AA10A2EF1C98B9AC8B57F1117A72BF2C7B9E7C1AC4D77FC94CA,
    b := 0x3DF91610A83441CAEA9863BC2DED5D5AA8253AA10A2EF1C98B9AC8B57F1117A72BF2C7B9E7C1AC4D77FC94CADC083E67984050B75EBAE5DD2809BD638016F723,
    gx := 0x81AEE4BDD82ED9645A21322E9C4C6A9385ED9F70B5D916C1B43B62EEF4D0098EFF3B1F78E2D0D48D50D1687B93B97D5F7C6D5047406A5E688B352209BCB9F822,
    gy := 0x7DDE385D566332ECC0EABFA9CF7822FDF209F70024A57B1AA000C55B881F8111B2DCDE494A5F485E5BCA4BD88A2763AED1CA2B2FA8F0540678CD1E0F3AD80892,
    n := 0xAADD9DB8DBE9C48B3FD4E6AE33C9FC07CB308DB3B3C9D20ED6639CCA70330870553E5C414CA92619418661197FAC10471DB1D381085DDADDB58796829CA90069 }

def curveW25519 : WCurve :=
  { pBits := 255,
    nBits := 253,
    h := 8,
    p := 0x7FFFFFFFFFFFFFFFFFFFFFFFFFFFFFFFFFFFFFFFFFFFFFFFFFFFFFFFFFFFFFED,
    a := 0x2AAAAAAAAAAAAAAAAAAAAAAAAAAAAAAAAAAAAAAAAAAAAAAAAAAAAA984914A144,
    b := 0x7B425ED097B425ED097B425ED097B425ED097B425ED097B4260B5E9C7710C864,
    gx := 0x2AAAAAAAAAAAAAAAAAAAAAAAAAAAAAAAAAAAAAAAAAAAAAAAAAAAAAAAAAAD245A,
    gy := 0x20AE19A1B8A086B4E01EDD2C7748D14C923D4D7E6D7C61B229E9C5A27ECED3D9,
    n := 0x1000000000000000000000000000000014DEF9DEA2F79CD65812631A5CF5D3ED }

def curveW448 : WCurve :=
  { pBits := 448,
    nBits := 446,
    h := 4,
    p := 0xFFFFFFFFFFFFFFFFFFFFFFFFFFFFFFFFFFFFFFFFFFFFFFFFFFFFFFFEFFFFFFFFFFFFFFFFFFFFFFFFFFFFFFFFFFFFFFFFFFFFFFFFFFFFFFFF,
    a := 0xAAAAAAAAAAAAAAAAAAAAAAAAAAAAAAAAAAAAAAAAAAAAAAAAAAAAAAA9FFFFFFFFFFFFFFFFFFFFFFFFFFFFFFFFFFFFFFFFFFFFFFFE1A76D41F,
    b := 0x5ED097B425ED097B425ED097B425ED097B425ED097B425ED097B425E71C71C71C71C71C71C71C71C71C71C71C71C71C71C72C87B7CC69F70,
    gx := 0xAAAAAAAAAAAAAAAAAAAAAAAAAAAAAAAAAAAAAAAAAAAAAAAAAAAAAAAA0000000000000000000000000000000000000000000000000000CB91,
    gy := 0x7D235D1295F5B1F66C98AB6E58326FCECBAE5D34F55545D060F75DC28DF3F6EDB8027E2346430D211312C4B150677AF76FD7223D457B5B1A,
    n := 0x3FFFFFFFFFFFFFFFFFFFFFFFFFFFFFFFFFFFFFFFFFFFFFFFFFFFFFFF7CCA23E9C44EDB49AED63690216CC2728DC58F552378C292AB5844F3 }

/-- R286: the built-in entries, 0 to 7. -/
def builtInCurve (entry : Nat) : WCurve :=
  match entry with
  | 0 => curveP256 | 1 => curveP384 | 2 => curveP521 | 3 => curveBpP256 | 4 => curveBpP384 | 5 => curveBpP512
  | 6 => curveW25519 | _ => curveW448

/-- R287: the 440-byte parameter image. -/
def curveImage (c : WCurve) : Bytes :=
  bytesLE 2 c.pBits ++ bytesLE 2 c.nBits ++ bytesLE 1 c.h ++ [0, 0, 0] ++ bytesBE 72 c.p ++ bytesBE 72 c.a ++
    bytesBE 72 c.b ++ bytesBE 72 c.gx ++ bytesBE 72 c.gy ++ bytesBE 72 c.n

/-- The curve that an image holds. -/
def curveOfImage (im : Bytes) : WCurve :=
  { pBits := natLE (slice im 0 2), nBits := natLE (slice im 2 2), h := natLE (slice im 4 1),
    p := natBE (slice im 0x08 72), a := natBE (slice im 0x50 72), b := natBE (slice im 0x98 72),
    gx := natBE (slice im 0xE0 72), gy := natBE (slice im 0x128 72), n := natBE (slice im 0x170 72) }

/-- R288: the format of an image. -/
def curveFormatOk (im : Bytes) : Bool :=
  let c := curveOfImage im
  im.length == 440 && slice im 5 3 == [0, 0, 0] && bitLength c.p == c.pBits && bitLength c.n == c.nBits &&
    decide (192 ≤ c.pBits) && decide (c.pBits ≤ 576) && decide (c.nBits ≤ c.pBits + 1) && decide (1 ≤ c.h) &&
    decide (c.h ≤ 4)

/-- Bytes of one Miller–Rabin draw (R291): 64 + bit length of the candidate. -/
def mrDrawBytes (m : Nat) : Nat := ceilDiv (64 + bitLength m) 8

/-- R291: bases from 2 to m − 2 by the method of R282, and the 64 rounds of R289. -/
def mrPasses (m : Nat) (draws : Bytes) : Bool :=
  (List.range 64).all (fun i =>
    millerRabin m (natBE (slice draws (i * mrDrawBytes m) (mrDrawBytes m)) % (m - 3) + 2))

/-! ### Edwards curves (RFC 8032) -/

structure ECurve where
  p : Nat
  a : Nat
  d : Nat
  bx : Nat
  by' : Nat
  l : Nat
  h : Nat
  bytes : Nat
  deriving DecidableEq, Repr

def ed25519 : ECurve :=
  let p := 2 ^ 255 - 19
  { p := p, a := p - 1, d := (p - 121665 % p) * invMod 121666 p % p,
    bx := 0x216936D3CD6E53FEC0A4E231FDD6DC5C692CC7609525A7B2C9562D608F25D51A,
    by' := 4 * invMod 5 p % p, l := 2 ^ 252 + 27742317777372353535851937790883648493, h := 8, bytes := 32 }

def ed448 : ECurve :=
  let p := 2 ^ 448 - 2 ^ 224 - 1
  { p := p, a := 1, d := p - 39081,
    bx := 0x4F1970C66BED0DED221D15A622BF36DA9E146570470F1767EA6DE324A3D3A46412AE1AF72AB66511433B80E18B00938E2626A82BC70CC05E,
    by' := 0x693F46716EB6BC248876203756C9C7624BEA73736CA3984087789C1E05A0C2D73AD3FF1CE67C39C4FDBD132C4ED7C8AD9808795BF230FA14,
    l := 2 ^ 446 - 13818066809895115352007386748515426880336692474882178609894547503885, h := 4, bytes := 57 }

def eAdd (c : ECurve) (u v : Nat × Nat) : Nat × Nat :=
  let t := c.d * (u.1 * v.1 % c.p) % c.p * (u.2 * v.2 % c.p) % c.p
  ((u.1 * v.2 + v.1 * u.2) % c.p * invMod ((1 + t) % c.p) c.p % c.p,
   subMod (u.2 * v.2 % c.p) (c.a * (u.1 * v.1 % c.p) % c.p) c.p * invMod (subMod 1 t c.p) c.p % c.p)

def eMulFuel (c : ECurve) (k : Nat) (q : Nat × Nat) : Nat → Nat × Nat → Nat × Nat
  | 0, acc => acc
  | i + 1, acc =>
    let d := eAdd c acc acc
    eMulFuel c k q i (if k.testBit i then eAdd c d q else d)

def eMul (c : ECurve) (k : Nat) (q : Nat × Nat) : Nat × Nat := eMulFuel c k q (bitLength k) (0, 1)

def eEncode (c : ECurve) (q : Nat × Nat) : Bytes := bytesLE c.bytes (q.2 + (q.1 % 2) * 2 ^ (8 * c.bytes - 1))

/-- A square root modulo p, if there is one: p is 5 modulo 8 or 3 modulo 4. -/
def sqrtMod (x p : Nat) : Option Nat :=
  let r := if p % 4 = 3 then powMod x ((p + 1) / 4) p else powMod x ((p + 3) / 8) p
  let r := if r * r % p = x % p then r else r * powMod 2 ((p - 1) / 4) p % p
  if r * r % p = x % p then some r else none

/-- Decoding of RFC 8032; none where R277 calls A or R invalid. -/
def eDecode (c : ECurve) (enc : Bytes) : Option (Nat × Nat) :=
  let v := natLE enc
  let sign := v / 2 ^ (8 * c.bytes - 1) % 2
  let y := v % 2 ^ (8 * c.bytes - 1)
  if c.p ≤ y then none
  else
    let yy := y * y % c.p
    let x2 := subMod 1 yy c.p * invMod (subMod c.a (c.d * yy % c.p) c.p) c.p % c.p
    match sqrtMod x2 c.p with
    | none => none
    | some x => if x = 0 ∧ sign = 1 then none else some (if x % 2 = sign then x else c.p - x, y)

/-- AUX[0] of R269: 0 Ed25519, 1 Ed448. -/
def edCurve (sel : Nat) : ECurve := if sel = 0 then ed25519 else ed448

/-- The hash of RFC 8032: SHA-512, or SHAKE256 with dom4 of an empty context. -/
def edHash (sel : Nat) (m : Bytes) : Bytes :=
  if sel = 0 then sha512 m else shake256 114 m

/-- dom4 of RFC 8032 for PureEdDSA with an empty context: the bytes of "SigEd448", 0, 0. -/
def edDom (sel : Nat) : Bytes := if sel = 0 then [] else [0x53, 0x69, 0x67, 0x45, 0x64, 0x34, 0x34, 0x38, 0, 0]

/-- The secret scalar and the prefix of a secret key. -/
def edExpand (sel : Nat) (sk : Bytes) : Nat × Bytes :=
  let h := edHash sel sk
  let n := (edCurve sel).bytes
  let v := natLE (h.take n)
  let a := if sel = 0 then v % 2 ^ 254 / 8 * 8 + 2 ^ 254 else v % 2 ^ 447 / 4 * 4 + 2 ^ 447
  (a, h.drop n)

/-! ### X25519 and X448 (RFC 7748, R280) -/

structure XState where
  x2 : Nat
  z2 : Nat
  x3 : Nat
  z3 : Nat
  deriving DecidableEq, Repr

def xStep (p a24 x1 : Nat) (s : XState) : XState :=
  let a := (s.x2 + s.z2) % p
  let b := subMod s.x2 s.z2 p
  let aa := a * a % p
  let bb := b * b % p
  let e := subMod aa bb p
  let da := subMod s.x3 s.z3 p * a % p
  let cb := (s.x3 + s.z3) % p * b % p
  let t := subMod da cb p
  { x2 := aa * bb % p, z2 := e * ((aa + a24 * e) % p) % p, x3 := (da + cb) * (da + cb) % p, z3 := x1 * (t * t % p) % p }

def xLadder (p a24 x1 k : Nat) : Nat → XState → XState
  | 0, s => s
  | i + 1, s =>
    let sw := fun (t : XState) => if k.testBit i then { x2 := t.x3, z2 := t.z3, x3 := t.x2, z3 := t.z2 } else t
    xLadder p a24 x1 k i (sw (xStep p a24 x1 (sw s)))

/-- Bytes of a scalar or coordinate: 0 X25519, 1 X448. -/
def xBytes (sel : Nat) : Nat := if sel = 0 then 32 else 56

/-- The field prime; the clamped scalar, at each use; the coordinate u, masked and reduced (R280). -/
def xPrime (sel : Nat) : Nat := if sel = 0 then 2 ^ 255 - 19 else 2 ^ 448 - 2 ^ 224 - 1

def xScalar (sel : Nat) (k : Bytes) : Nat :=
  let v := natLE k
  if sel = 0 then v % 2 ^ 254 / 8 * 8 + 2 ^ 254 else v % 2 ^ 447 / 4 * 4 + 2 ^ 447

def xCoord (sel : Nat) (u : Bytes) : Nat := (if sel = 0 then natLE u % 2 ^ 255 else natLE u) % xPrime sel

/-- The base u of R271. -/
def xBaseU (sel : Nat) : Bytes := bytesLE (xBytes sel) (if sel = 0 then 9 else 5)

/-! ### RSA (PKCS #1 v2.2) -/

/-- The DigestInfo of HASH's NIST object identifier, before the digest. -/
def digestInfo (code : Nat) : Bytes :=
  let oid : Byte := match code with
    | 1 => 1 | 2 => 2 | 3 => 3 | 4 => 8 | 5 => 9 | _ => 10
  let n := hashLen code
  [0x30, BitVec.ofNat 8 (17 + n), 0x30, 0x0D, 0x06, 0x09, 0x60, 0x86, 0x48, 0x01, 0x65, 0x03, 0x04, 0x02, oid, 0x05,
    0x00, 0x04, BitVec.ofNat 8 n]

/-- EMSA-PKCS1-v1_5 of k bytes. -/
def emsaV15 (code k : Nat) (digest : Bytes) : Bytes :=
  let t := digestInfo code ++ digest
  [0x00, 0x01] ++ List.replicate (k - 3 - t.length) 0xFF ++ [0x00] ++ t

def mgf1 (code : Nat) (seed : Bytes) (n : Nat) : Bytes :=
  ((List.range (ceilDiv n (hashLen code))).flatMap (fun i => hashBy code (seed ++ bytesBE 4 i))).take n

/-- The first byte of DB with the bits beyond emBits cleared. -/
def clearTop (emBits : Nat) (db : Bytes) : Bytes :=
  match db with
  | [] => []
  | b :: t => (b &&& (0xFF#8 >>> (8 * ceilDiv emBits 8 - emBits))) :: t

/-- EMSA-PSS for a modulus of `bits` bits. -/
def emsaPss (code bits : Nat) (digest salt : Bytes) : Bytes :=
  let emBits := bits - 1
  let emLen := ceilDiv emBits 8
  let hl := hashLen code
  let h := hashBy code (List.replicate 8 0 ++ digest ++ salt)
  let db := List.replicate (emLen - salt.length - hl - 2) 0 ++ [0x01] ++ salt
  clearTop emBits (xorBytes db (mgf1 code h (emLen - hl - 1))) ++ h ++ [0xBC]

/-- EMSA-PSS-VERIFY with a salt of sLen bytes. -/
def emsaPssOk (code bits sLen : Nat) (digest em : Bytes) : Bool :=
  let emBits := bits - 1
  let emLen := ceilDiv emBits 8
  let hl := hashLen code
  let masked := em.take (emLen - hl - 1)
  let h := slice em (emLen - hl - 1) hl
  let db := clearTop emBits (xorBytes masked (mgf1 code h (emLen - hl - 1)))
  let z := emLen - hl - sLen - 2
  em.length == emLen && decide (hl + sLen + 2 ≤ emLen) && em.getLastD 0 == 0xBC && clearTop emBits masked == masked &&
    db.take z == List.replicate z 0 && db.getD z 0 == 0x01 &&
    h == hashBy code (List.replicate 8 0 ++ digest ++ db.drop (z + 1))

/-- An RSA private key in CRT form (R191). -/
structure RsaKey where
  k : Nat
  p : Nat
  q : Nat
  dp : Nat
  dq : Nat
  qinv : Nat
  e : Nat
  deriving DecidableEq, Repr

def rsaOfBytes (k : Nat) (bs : Bytes) : RsaKey :=
  let f := fun i => natBE (slice bs (i * (k / 2)) (k / 2))
  { k := k, p := f 0, q := f 1, dp := f 2, dq := f 3, qinv := f 4, e := natBE (slice bs (5 * (k / 2)) 4) }

/-- The private operation by the Chinese remainder theorem. -/
def rsaCrt (key : RsaKey) (m : Nat) : Nat :=
  let s1 := powMod m key.dp key.p
  let s2 := powMod m key.dq key.q
  s2 + key.q * (subMod s1 s2 key.p * key.qinv % key.p)

/-- R277: the values of an RSA verification are invalid. -/
def rsaBad (nB eB sB : Bytes) : Bool :=
  let n := natBE nB
  let e := natBE eB
  let s := natBE sB
  n % 2 == 0 || nB.headD 0 == 0 || e % 2 == 0 || decide (e < 3) || s == 0 || decide (n ≤ s)

/-- R279: the encoded message is the one PKCS #1 v2.2 expects. -/
def rsaOk (pss : Bool) (code sLen : Nat) (nB eB sB digest : Bytes) : Bool :=
  let n := natBE nB
  let m := powMod (natBE sB) (natBE eB) n
  let emLen := ceilDiv (bitLength n - 1) 8
  if pss then decide (m < 2 ^ (8 * emLen)) && emsaPssOk code (bitLength n) sLen digest (bytesBE emLen m)
  else bytesBE nB.length m == emsaV15 code nB.length digest

end Sys2Proof.Machine
end

