-- ==== Sys2Proof/Machine/Plan.lean ====
section
/-!
DEFINITION. Sys2Proof/Machine/Plan.lean: what the Gate plans with: the figures of R76, R170, R440 and R481, the link
rates of R45, the footprints of R245, and the test of R56 (R54 to R59, R223, R276, R306).  Times are in picoseconds
and every division is rounded up (log entry 8).
-/
namespace Sys2Proof.Machine

/-! ### Units of time -/

def micros (n : Nat) : Pico := n * 1000000
def nanos (n : Nat) : Pico := n * 1000
/-- Tenths of a millisecond divided by ten: the table of R76 in steps of 0.01 ms. -/
def centiMillis (n : Nat) : Pico := n * 10000000
/-- A moment of the time base (R41). -/
def tickTime (t : Nat) : Pico := t * 10000

/-- The time of `bytes` at `rate` bytes per microsecond. -/
def atRate (bytes rate : Nat) : Pico := ceilDiv (bytes * 1000000) rate

/-- A figure per band, S0 / S1 / S2. -/
def perBand (b : Band) (x y z : Nat) : Nat :=
  match b with
  | .s0 => x | .s1 => y | .s2 => z

/-- R50: an engine figure multiplied by D ÷ 64. -/
def derated (d : Nat) (t : Pico) : Pico := ceilDiv (t * d) 64

/-! ### The link (R45, R84) -/

/-- Planned read rate, planned write rate and fetch allowance of a link; zero for no link. -/
def linkRow (gen width : Nat) : Nat × Nat × Nat :=
  match gen, width with
  | 4, 4 => (5900, 5530, 256)
  | 4, 2 => (2950, 2765, 128) | 3, 4 => (2950, 2765, 128)
  | 2, 4 => (1500, 1400, 64)
  | 4, 1 => (1475, 1380, 64) | 3, 2 => (1475, 1380, 64)
  | 2, 2 => (750, 700, 32) | 1, 4 => (750, 700, 32)
  | 3, 1 => (740, 690, 32)
  | 2, 1 => (375, 350, 16) | 1, 2 => (375, 350, 16)
  | 1, 1 => (187, 175, 8)
  | _, _ => (0, 0, 0)

/-- R84: Max_Payload_Size below 256 bytes or Max_Read_Request_Size below 512 bytes. -/
def smallTlp (l : Link) : Bool := decide (l.mps < 1) || decide (l.mrrs < 2)

/-- Half of what R45 gives under R84, the whole otherwise, in halves. -/
def halves (l : Link) (n : Nat) : Nat := if smallTlp l then n else 2 * n

/-- The planned rates, in half bytes per microsecond.  The read data in flight that R45 bounds by the read rate are no state
(DESIGN CHOICE, log entry 69). -/
def readRate (l : Link) : Nat := max 1 (halves l (linkRow l.gen l.width).1)
def writeRate (l : Link) : Nat := max 1 (halves l (linkRow l.gen l.width).2.1)
def fetchAllowance (l : Link) : Nat := halves l (linkRow l.gen l.width).2.2 / 2

/-- The time of `bytes` over the link, at a rate in half bytes per microsecond. -/
def linkTime (bytes rate : Nat) : Pico := ceilDiv (bytes * 2000000) rate

/-- GATE_HOST_LAT.RD_LAT as a time. -/
def rdLat (s : State) : Pico := s.gate.rdLat * 500000

/-! ### Edge figures (R76), in steps of 0.01 ms -/

inductive WOp where
  | sign | verify | ecdh | keygen
  deriving DecidableEq, Repr

def wFigure (o : WOp) (w : Nat) (b : Band) : Nat :=
  match o with
  | .sign => match w with
    | 4 => perBand b 90 120 160 | 5 => perBand b 150 200 270 | 6 => perBand b 220 300 400 | 7 => perBand b 310 420 560
    | 8 => perBand b 410 550 740 | _ => perBand b 550 740 1000
  | .verify => match w with
    | 4 => perBand b 150 200 270 | 5 => perBand b 250 335 450 | 6 => perBand b 370 500 670 | 7 => perBand b 520 700 940
    | 8 => perBand b 680 920 1240 | _ => perBand b 920 1240 1670
  | .ecdh => match w with
    | 4 => perBand b 80 105 145 | 5 => perBand b 135 180 245 | 6 => perBand b 200 270 360 | 7 => perBand b 280 380 510
    | 8 => perBand b 370 500 670 | _ => perBand b 500 670 900
  | .keygen => match w with
    | 4 => perBand b 75 100 135 | 5 => perBand b 125 170 230 | 6 => perBand b 185 250 335 | 7 => perBand b 260 350 470
    | 8 => perBand b 340 460 620 | _ => perBand b 460 620 830

/-- The smallest verify row of R76 that is at least the modulus bits (R73). -/
def rsaVerifyRow (bits : Nat) : Nat :=
  if bits ≤ 1024 then 1024 else if bits ≤ 1536 then 1536 else if bits ≤ 2048 then 2048 else if bits ≤ 3072 then 3072
  else if bits ≤ 4096 then 4096 else if bits ≤ 6144 then 6144 else 8192

/-- The private row: 1,024 and 1,536 bits run at 2,048 (R271). -/
def rsaPrivateRow (bits : Nat) : Nat := if bits ≤ 2048 then 2048 else if bits ≤ 3072 then 3072 else 4096

/-- Figures in steps of 0.01 ms. -/
def rsaVerifyFigure (row : Nat) (b : Band) : Nat :=
  match row with
  | 1024 => perBand b 6 8 11 | 1536 => perBand b 13 17 23 | 2048 => perBand b 23 31 42 | 3072 => perBand b 51 68 92
  | 4096 => perBand b 90 120 160 | 6144 => perBand b 200 270 360 | _ => perBand b 340 460 620

def rsaPrivateFigure (row : Nat) (b : Band) : Nat :=
  match row with
  | 2048 => perBand b 450 600 810 | 3072 => perBand b 1450 1950 2630 | _ => perBand b 3200 4300 5800

/-- The Edge figure of an operation, in steps of 0.01 ms. -/
def edgeFigure (o : Op) (d : Descriptor) (f : Facts) (b : Band) : Nat :=
  let ed := dAux d % 2
  match o with
  | .ecdsaSign => wFigure .sign f.w b
  | .ecdsaVerify => wFigure .verify f.w b
  | .ecdh => wFigure .ecdh f.w b
  | .ecKeygen =>
    if dAux d < 0x2000 then wFigure .keygen f.w b
    else match dAux d with
      | 0x2000 => perBand b 65 90 120 | 0x2001 => perBand b 190 260 350 | 0x3000 => perBand b 60 80 110
      | _ => perBand b 180 240 330
  | .eddsaSign => if ed = 0 then perBand b 70 95 130 else perBand b 200 270 370
  | .eddsaVerify => if ed = 0 then perBand b 130 175 240 else perBand b 360 490 660
  | .xdh => if ed = 0 then perBand b 60 80 110 else perBand b 180 240 330
  | .rsaVerify => rsaVerifyFigure (rsaVerifyRow (8 * f.k)) b
  | .rsaSign => rsaPrivateFigure (rsaPrivateRow (8 * f.k)) b
  | _ => 0

/-- R75: 1.3 × the figure, rounded up to the next 0.1 ms. -/
def paddedFigure (n : Nat) : Nat := ceilDiv (n * 13) 100 * 10

def arbiterTerm (b : Band) : Pico := perBand b 9500000 13000000 17000000
/-- In steps of 0.01 ms. -/
def curveLoadFigure (b : Band) : Nat := perBand b 6000 8000 10800
def curveLoadTerm (b : Band) : Pico := centiMillis (curveLoadFigure b)

/-! ### Blade, Lift, hash and Groomer figures (R76) -/

def bladeSetup (b : Band) : Pico := perBand b 1100000 1500000 2000000
def liftTerm (b : Band) : Pico := perBand b 300000 400000 550000
def hashSetup (b : Band) : Pico := perBand b 300000 400000 550000
def groomerRate (b : Band) : Nat := perBand b 1330 1000 740
def groomerRequest (b : Band) : Pico := perBand b 500000 700000 950000
def groomerReseed (b : Band) : Pico := perBand b 12000000 16000000 22000000
def criticalTerm (b : Band) : Pico := perBand b 8000000 11000000 15000000
def recordTerm (b : Band) : Pico := perBand b 6000000 8000000 11000000
def handoverTerm (b : Band) : Pico := perBand b 1000000 1300000 1800000
def storeTerm (b : Band) : Pico := perBand b 38000000 50000000 68000000
/-- Key wrap of a wrapped length. -/
def wrapTerm (b : Band) (bytes : Nat) : Pico :=
  perBand b 1500000 2000000 2700000 + bytes / 8 * perBand b 100000 130000 180000

/-- Lane rate in bytes per microsecond; a reserved code is planned at the slowest lane. -/
def bladeRate (keyBits dummy : Nat) (b : Band) : Nat :=
  match keyBits, dummy with
  | 128, 2 => perBand b 1800 1350 980 | 128, 4 => perBand b 1540 1160 830 | 128, _ => perBand b 1200 900 650
  | 192, 2 => perBand b 1540 1160 830 | 192, 4 => perBand b 1350 1010 730 | 192, _ => perBand b 1080 810 580
  | _, 2 => perBand b 1350 1010 730 | _, 4 => perBand b 1200 900 650 | _, _ => perBand b 980 740 530

/-- Hash rate in bytes per microsecond by HASH code; 0 stands for SHAKE256 (R275). -/
def hashRate (code : Nat) (b : Band) : Nat :=
  match code with
  | 1 => perBand b 1070 800 590 | 2 => perBand b 1600 1200 890 | 3 => perBand b 1600 1200 890
  | 5 => perBand b 1010 760 560 | 6 => perBand b 710 530 390 | _ => perBand b 1330 1000 740

/-- R62: the longest interval of a unit kind that cannot be pre-empted. -/
def pieceFigure (k : UnitKind) (b : Band) : Pico :=
  match k with
  | .edge => perBand b 9000000 12000000 16000000
  | .blade => perBand b 34000000 45000000 62000000
  | .hash => perBand b 24000000 31000000 42000000
  | .groomer => perBand b 25000000 33000000 45000000
  | .lift => liftTerm b

/-! ### Hashing around the Edge (R275, R276) -/

/-- Bytes of the source that a public-key job hashes as its message, 0 when it carries a digest. -/
def messageLen (o : Op) (d : Descriptor) (f : Facts) : Nat :=
  match o with
  | .ecdsaSign => if dHash d = 0 then 0 else dSrcLen d
  | .ecdsaVerify => if dHash d = 0 then 0 else dSrcLen d - (1 + 2 * f.lp + 2 * f.ln)
  | .rsaSign => if dPrehashed d then 0 else dSrcLen d
  | .rsaVerify => if dPrehashed d then 0 else dSrcLen d - (2 * f.k + 4)
  | .eddsaSign => dSrcLen d
  | .eddsaVerify => dSrcLen d - (if dAux d % 2 = 0 then 96 else 171)
  | _ => 0

/-- The HASH code that a public-key job's message hash runs at. -/
def messageHash (o : Op) (d : Descriptor) : Nat :=
  match o with
  | .eddsaSign | .eddsaVerify => if dAux d % 2 = 0 then 3 else 0
  | _ => dHash d

/-- R275: a public-key job hashes something: its message, an EdDSA hash, or the MGF1 and M′ of PSS. -/
def hashesAtAll (o : Op) (d : Descriptor) : Bool :=
  match o with
  | .ecdsaSign | .ecdsaVerify => dHash d != 0
  | .rsaSign | .rsaVerify => !(dPrehashed d) || dPss d
  | .eddsaSign | .eddsaVerify => true
  | .ecKeygen => dAux d == 0x2000 || dAux d == 0x2001
  | _ => false

/-- R281: bytes a public-key job draws. -/
def drawLen (o : Op) (d : Descriptor) (f : Facts) : Nat :=
  match o with
  | .ecdsaSign => ceilDiv (f.nBits + 64) 8
  | .ecKeygen =>
    if dAux d < 0x2000 then ceilDiv (f.nBits + 64) 8
    else match dAux d with
      | 0x2000 => 32 | 0x2001 => 57 | 0x3000 => 32 | _ => 56
  | .rsaSign => if dPss d then dSlen d else 0
  | _ => 0

/-! ### Output lengths (R54: the scatter bytes) -/

/-- The largest output an operation can write. -/
def outputLen (o : Op) (d : Descriptor) (f : Facts) : Nat :=
  match o with
  | .sesEncrypt | .sesDecrypt | .sesMacGen | .sesMacVerify =>
    match modeAlg f.mode with
    | some a => sessionOut a o d
    | none => 0
  | .hash | .eddsaSign | .xdh => fixedOut o d
  | .ecdsaSign => 2 * f.ln
  | .ecdh => f.lp
  | .ecKeygen =>
    if dAux d < 0x2000 then 1 + 2 * f.lp
    else match dAux d with
      | 0x2000 => 32 | 0x2001 => 57 | 0x3000 => 32 | _ => 56
  | .rsaSign => f.k
  | .rngOut | .cardRead | .cardMailbox | .cardInfo => dDstLen d
  | .trkExport => if dAux d % 2 = 0 then dDstLen d else 0
  | _ => 0

def scatterBytes (o : Op) (d : Descriptor) (f : Facts) : Nat := min (outputLen o d f) (dDstLen d)

/-- R221: a staged GCM or CCM decrypt of 16,385 to 65,536 bytes of plaintext runs in two passes. -/
def twoPass (o : Op) (d : Descriptor) (mode : BitVec 8) : Bool :=
  match modeAlg mode with
  | some a => o == .sesDecrypt && (a == .gcm || a == .ccm) && lastPiece d &&
      decide (16384 < sessionOut a o d) && decide (sessionOut a o d ≤ 65536)
  | none => false

/-- R54, R223, R276: the gather bytes of the plan. -/
def gatherBytes (o : Op) (d : Descriptor) (f : Facts) : Nat :=
  let twice := twoPass o d f.mode || (o == .eddsaSign && decide (64 < dSrcLen d))
  dSrcLen d * (if twice then 2 else 1) + (if isCritical o then 128 else 0)

/-! ### Footprints (R244, R245) -/

def slotBytes (u : Units) : Nat := 32 * (u.slotLen + 1)
def slotCount (u : Units) : Nat := min 64 (8192 / slotBytes u)

/-- Slots of `count` operands of n bytes. -/
def operandSlots (u : Units) (n count : Nat) : Nat := ceilDiv (32 * (ceilDiv n 32 + 1)) (slotBytes u) * count

def footprint (u : Units) (o : Op) (d : Descriptor) (f : Facts) : Nat :=
  let e := if dAux d % 2 = 0 then 32 else 56
  match o with
  | .ecdsaSign => operandSlots u (8 * f.w) 20
  | .ecdsaVerify => operandSlots u (8 * f.w) 24
  | .ecdh => operandSlots u (8 * f.w) 16
  | .ecKeygen =>
    if dAux d < 0x2000 then operandSlots u (8 * f.w) 16
    else if dAux d < 0x3000 then operandSlots u e 16 else operandSlots u e 12
  | .eddsaSign => operandSlots u e 20
  | .eddsaVerify => operandSlots u e 24
  | .xdh => operandSlots u e 12
  | .rsaVerify => operandSlots u (rsaVerifyRow (8 * f.k) / 8) 6
  | .rsaSign =>
    let row := rsaPrivateRow (8 * f.k) / 8
    operandSlots u (row / 2) 14 + operandSlots u row 4
  | .critical .curveLoad => operandSlots u (8 * f.w) 28
  | _ => 0

/-! ### The test of R56 -/

def placesOn (s : State) (res : Res) : List Placement :=
  s.rings.jobs.flatMap (fun j => j.places.filter (fun p => p.res == res)) ++
    s.merya.cores.filterMap (fun c => c.2.refill.filter (fun p => p.res == res))

/-- One interval of the test; `extra` is the Groomer's reseed term of R306. -/
def intervalFits (now : Pico) (extra : Pico) (ps : List Placement) (s e : Pico) : Bool :=
  let work := ps.foldl (fun w p => if p.deadline ≤ e ∧ s ≤ max p.release now then w + p.time else w) 0
  let worst := maxOf (ps.map (fun p => if p.deadline ≤ e then p.redo else 0))
  let longest := maxOf (ps.map (fun p => if p.deadline ≤ e then 0 else p.piece))
  decide (s + longest + work + micros 2 + worst + extra ≤ e)

/-- fits(u) with every placement of the unit, the new one among them. -/
def fits (now : Pico) (extra : Pico) (ps : List Placement) : Bool :=
  (now :: ps.map (fun p => max p.release now)).all (fun s =>
    (ps.map (fun p => p.deadline)).all (fun e => decide (e ≤ s) || intervalFits now extra ps s e))

/-- The new placement passes on its resource; a job whose engine deadline is not after its release fits nowhere. -/
def fitsWith (s : State) (extra : Pico) (p : Placement) : Bool :=
  let now := tickTime s.now
  decide (max p.release now < p.deadline) && fits now extra (p :: placesOn s p.res)

/-- R491: the unlock flow's planned time that remains: two mailbox transactions and the command between them. -/
def flowTime (s : State) : Pico :=
  if s.card.flow == .idle then 0
  else
    let c := s.card
    let b := planBand s.gate.band
    let cmd := if c.hs then micros 4 else micros 7
    let blk := if c.wide then (if c.hs then micros 21 else micros 42) else (if c.hs then micros 83 else micros 165)
    let mailbox := perBand b 2000000 3000000 4000000 + 2 * (cmd + c.use.readAcc * 1000000000 + blk) + cmd + blk +
      c.use.final * 10000000000 + cmd + c.use.mbxTmo * 10000000000
    2 * mailbox + derated s.gate.derate (criticalTerm b + recordTerm b) - (tickTime s.now - tickTime c.flowSince)

/-- The card port's test: an unlock flow is work placed there from now on. -/
def fitsPort (s : State) (p : Placement) : Bool :=
  let now := tickTime s.now
  let ps := p :: placesOn s .cardPort
  fitsWith s 0 p && (ps.map (fun q => q.deadline)).all (fun e => decide (e ≤ now) || intervalFits now (flowTime s) ps now e)

/-- Units of a kind in service, in order of least planned work with engine deadline up to e, ties by number (R56). -/
def candidates (s : State) (k : UnitKind) (e : Pico) : List UnitRef :=
  let us := (List.range (unitCount k)).filter (fun n => unitState s { kind := k, num := n } == .inService)
  let load := fun n => ((placesOn s (.unit { kind := k, num := n })).filter (fun p => decide (p.deadline ≤ e))).foldl
    (fun w p => w + p.time) 0
  (sortBy (fun a b => decide (a.1 ≤ b.1)) (us.map (fun n => (load n, n)))).map (fun p => { kind := k, num := p.2 })

/-- The first unit on which the placement passes and that `ok` admits. -/
def placeOn (s : State) (k : UnitKind) (extra : Pico) (ok : UnitRef → Bool) (p : UnitRef → Placement) :
    Option Placement :=
  match (candidates s k (p { kind := k, num := 0 }).deadline).find? (fun u => ok u && fitsWith s extra (p u)) with
  | some u => some (p u)
  | none => none

/-- R59: the reserve of a kind: its lowest-numbered idle spare, else its standby. -/
def reserveOf (s : State) (k : UnitKind) : Option UnitRef :=
  let at? := fun (st : UnitState) => (firstBelow (unitCount k) (fun n => unitState s { kind := k, num := n } == st)).map
    (fun n => ({ kind := k, num := n } : UnitRef))
  match at? .spare with
  | some u => some u
  | none => at? .standby

/-! ### Planning a job (R54 to R57) -/

/-- What admission fixes of a job (R59). -/
structure Plan where
  unit : Option UnitRef
  reserve : Option UnitRef
  places : List Placement
  slots : List Nat
  large : Bool
  deriving DecidableEq, Repr

/-- A job as the Gate sees it. -/
structure Cand where
  host : Bool
  cls : Cls
  t0 : Nat
  op : Op
  desc : Descriptor
  facts : Facts
  ring : RingId
  afterPred : Pico         -- R161, R215: an earlier limit on the release
  deriving DecidableEq, Repr

def jobDeadline (c : Cand) : Pico := tickTime c.t0 + clsBudget c.cls

/-- R120: the term of a source list. -/
def listTerm (s : State) (o : Op) (d : Descriptor) : Pico :=
  if srcListed o d then rdLat s + micros 1 + linkTime (dSrcNent d * 16) (readRate s.link) else 0

/-- Gather bytes on the read channel: the source list counts there (R120). -/
def channelGather (c : Cand) : Nat :=
  gatherBytes c.op c.desc c.facts + (if srcListed c.op c.desc then dSrcNent c.desc * 16 else 0)

def jobRelease (s : State) (c : Cand) : Pico :=
  let front := if c.host then 2 * rdLat s + micros 9 + linkTime (gatherBytes c.op c.desc c.facts) (readRate s.link) +
      listTerm s c.op c.desc else micros 3
  max (tickTime c.t0 + front) c.afterPred

def engineDeadline (s : State) (c : Cand) : Pico :=
  let rear := if c.host then micros 3 + linkTime (scatterBytes c.op c.desc c.facts) (writeRate s.link) else micros 1
  jobDeadline c - rear

/-- R55, R120: the time to fetch the retained inputs again. -/
def takeoverTime (s : State) (c : Cand) : Pico :=
  rdLat s + micros 1 + linkTime (gatherBytes c.op c.desc c.facts) (readRate s.link) + listTerm s c.op c.desc

/-- R57: the link channels, for a host ring. -/
def linkPlaces (s : State) (c : Cand) : List Placement :=
  if c.host then
    let g := linkTime (channelGather c) (readRate s.link)
    let w := linkTime (scatterBytes c.op c.desc c.facts) (writeRate s.link)
    let r := jobRelease s c
    [{ res := .linkRead, release := tickTime c.t0, deadline := r, time := g, redo := g, piece := 0 },
     { res := .linkWrite, release := r, deadline := jobDeadline c - micros 3, time := w, redo := w, piece := 0 }]
  else []

/-- A placement on a unit with engine time t, rerun time `rerun` and deadline e. -/
def unitPlace (s : State) (c : Cand) (b : Band) (t rerun r e : Pico) (u : UnitRef) : Placement :=
  { res := .unit u, release := r, deadline := e, time := t, redo := takeoverTime s c + rerun,
    piece := min t (derated s.gate.derate (pieceFigure u.kind b)) }

/-- R223: the planned Blade time. -/
def bladeTime (s : State) (c : Cand) (b : Band) : Pico :=
  let rate := bladeRate (modeKeyBits c.facts.mode) (modeDummy c.facts.mode) b
  let rate := if modeAlg c.facts.mode == some .ccm then rate / 2 else rate
  let passes := if twoPass c.op c.desc c.facts.mode then 2 else 1
  derated s.gate.derate
    (bladeSetup b + atRate (passes * payload c.desc) rate + (ceilDiv (payload c.desc) 16384 - 1) * liftTerm b)

/-- R170: the body term of a critical command; the SHA-256 of DIGEST is planned at its rate alone, as the example has it. -/
def bodyTerm (c : CmdCode) (d : Descriptor) (b : Band) : Pico :=
  recordTerm b + match c with
    | .evacuate | .alert => handoverTerm b
    | .authSet | .rootImport => wrapTerm b 40
    | .privImport => wrapTerm b (dSrcLen d) + atRate (dSrcLen d) (hashRate 1 b)
    | .curveLoad => curveLoadTerm b + atRate (dSrcLen d) (hashRate 1 b)
    | .appletLoad => ceilDiv (dSrcLen d) 1024 * storeTerm b + atRate (dSrcLen d) (hashRate 1 b)
    | _ => 0

/-- R481: command time and block time of the ready card's bus mode. -/
def cardCmd (c : Card) : Pico := if c.hs then micros 4 else micros 7
def cardBlk (c : Card) : Pico :=
  if c.wide then (if c.hs then micros 21 else micros 42) else (if c.hs then micros 83 else micros 165)

/-- R481: the planned card time. -/
def cardTime (s : State) (o : Op) (d : Descriptor) (b : Band) : Pico :=
  let c := s.card
  let setup := perBand b 2000000 3000000 4000000
  let acc := c.use.readAcc * 1000000000
  let fin := c.use.final * 10000000000
  let cmd := cardCmd c
  let blk := cardBlk c
  let write := fun n => setup + 4 * cmd + n * (blk + c.use.busyBlk * 100000000) + fin + 3 * cmd + blk + acc
  let read := fun n => setup + 2 * cmd + acc + n * (blk + micros 20)
  match o with
  | .cardRead => read (dDstLen d / 512)
  | .cardWrite => write (dSrcLen d / 512)
  | .cardMailbox => setup + 2 * (cmd + acc + blk) + cmd + blk + fin + cmd + c.use.mbxTmo * 10000000000
  | .trkExport => write (ceilDiv (dDstLen d) 512) + read (ceilDiv (dDstLen d) 512)
  | _ => setup

/-- R440: the terms of an export at the worst case of DST_LEN. -/
def exportTime (d : Descriptor) (b : Band) : Pico :=
  ceilDiv (dDstLen d) 1024 * perBand b 4000000 5500000 7500000 + perBand b 12000000 16000000 22000000

/-- Free slot numbers of an Edge, lowest first. -/
def freeSlots (s : State) (u : UnitRef) : List Nat :=
  let held := slotsHeld s u
  (List.range (slotCount s.units)).filter (fun i => !(held.contains i))

/-- The unit of a resource. -/
def resUnit (r : Res) : Option UnitRef :=
  match r with
  | .unit u => some u
  | _ => none

/-- The Gate's schedule check: a plan, or none for REFUSED_CAPACITY. -/
def planJob (s : State) (c : Cand) : Option Plan :=
  let b := planBand s.gate.band
  let d := s.gate.derate
  let r := jobRelease s c
  let e := engineDeadline s c
  let links := linkPlaces s c
  let linksOk := links.all (fun p => p.time == 0 || fits (tickTime s.now) 0 (p :: placesOn s p.res))
  let single : Placement → Option Plan := fun p => if linksOk && fitsWith s 0 p then
      some { unit := none, reserve := none, places := p :: links, slots := [], large := false } else none
  match c.op with
  | .sesEncrypt | .sesDecrypt | .sesMacGen | .sesMacVerify =>
    let t := bladeTime s c b
    let large := decide (16384 < payload c.desc)
    let roomy := fun u => !large || decide (((jobsOn s u).filter (fun j => j.large)).length < 8)
    let lt := derated d (liftTerm b) * max 1 (ceilDiv (payload c.desc) 16384)
    match placeOn s .blade 0 roomy (unitPlace s c b t t r e), placeOn s .lift 0 (fun _ => true)
        (unitPlace s c b lt lt r (e - t)) with
    | some p, some l =>
      if linksOk then
        some { unit := resUnit p.res,
               reserve := reserveOf s .blade, places := p :: l :: links, slots := [], large := large }
      else none
    | _, _ => none
  | .hash =>
    let t := derated d (hashSetup b + atRate (dSrcLen c.desc) (hashRate (dHash c.desc) b))
    match placeOn s .hash 0 (fun _ => true) (unitPlace s c b t t r e) with
    | some p => if linksOk then
        some { unit := resUnit p.res,
               reserve := reserveOf s .hash, places := p :: links, slots := [], large := false }
      else none
    | none => none
  | .rngOut =>
    let t := derated d (ceilDiv (dDstLen c.desc) 16384 * groomerRequest b + atRate (dDstLen c.desc) (groomerRate b))
    match placeOn s .groomer (derated d (groomerReseed b)) (fun _ => true) (unitPlace s c b t t r e) with
    | some p => if linksOk then
        some { unit := resUnit p.res,
               reserve := reserveOf s .groomer, places := p :: links, slots := [], large := false }
      else none
    | none => none
  | .critical code =>
    let provision := if code == .lcAdvance && s.life.state == .factory then
        centiMillis (perBand b 60 80 110) + hashSetup b + atRate 104 (hashRate 1 b) + wrapTerm b 72 else 0
    let t := derated d (criticalTerm b + bodyTerm code c.desc b + provision)
    let p : Placement :=
      { res := .keyAdmin, release := r, deadline := e, time := t, redo := takeoverTime s c + t, piece := t }
    if code == .authSet || code == .rootImport || code == .privImport then
      -- R231: the unwrap runs on an in-service Blade, whose key register a Lift loads
      let wt := derated d (wrapTerm b (if code == .privImport then dSrcLen c.desc else 40))
      let lt := derated d (liftTerm b)
      match placeOn s .blade 0 (fun _ => true) (unitPlace s c b wt wt r e),
          placeOn s .lift 0 (fun _ => true) (unitPlace s c b lt lt r (e - wt)) with
      | some q, some l => if linksOk && fitsWith s 0 p then
          some { unit := resUnit q.res, reserve := reserveOf s .blade, places := q :: l :: p :: links, slots := [],
                 large := false }
        else none
      | _, _ => none
    else if code == .curveLoad then
      let n := footprint s.units c.op c.desc c.facts
      let et := derated d (curveLoadTerm b)
      let again := derated d (centiMillis (paddedFigure (curveLoadFigure b)))
      -- R281, R306: the bases of the widest curve, since the image is not yet read (log entry 35)
      let dt := derated d (groomerRequest b + atRate (128 * ceilDiv (64 + 576) 8) (groomerRate b))
      match placeOn s .edge 0 (fun u => decide (n ≤ (freeSlots s u).length)) (unitPlace s c b et again r e),
          placeOn s .groomer (derated d (groomerReseed b)) (fun _ => true) (unitPlace s c b dt dt r (e - et)) with
      | some q, some g => if linksOk && fitsWith s 0 p then
          some { unit := resUnit q.res,
                 reserve := reserveOf s .edge, places := q :: g :: p :: links,
                 slots := ((resUnit q.res).map (fun u => (freeSlots s u).take n)).getD [],
                 large := false }
        else none
      | _, _ => none
    else single p
  | .cardRead | .cardWrite | .cardMailbox | .cardInfo =>
    let t := cardTime s c.op c.desc b
    let p : Placement := { res := .cardPort, release := r, deadline := e, time := t, redo := 0, piece := t }
    if fitsPort s p then single p else none
  | .trkExport =>
    let t := derated d (exportTime c.desc b) + (if dAux c.desc % 2 = 0 then
        linkTime (dDstLen c.desc) (writeRate s.link) + linkTime (dDstLen c.desc) (readRate s.link)
      else cardTime s .trkExport c.desc b)
    let p : Placement := { res := .tracks, release := r, deadline := e, time := t, redo := 0, piece := t }
    if dAux c.desc % 2 = 0 then single p
    else
      let q : Placement := { p with res := .cardPort }
      if linksOk && fitsWith s 0 p && fitsPort s q then
        some { unit := none, reserve := none, places := p :: q :: links, slots := [], large := false }
      else none
  | _ =>
    -- the Edge operations, with their hashing (R276) and their draw (R306)
    let fig := edgeFigure c.op c.desc c.facts b
    let arb := if isPrivate c.op then arbiterTerm b else 0
    let m := messageLen c.op c.desc c.facts
    let hashTime := derated d (hashSetup b + (if m ≤ 64 then 0 else atRate m (hashRate (messageHash c.op c.desc) b)))
    let hashes := hashesAtAll c.op c.desc
    let second := if c.op == .eddsaSign && decide (64 < m) then hashTime else 0
    let t := derated d (centiMillis fig + arb) + second
    let rerun := derated d (centiMillis (paddedFigure fig) + arb) + second
    let re := if hashes && decide (64 < m) then r + hashTime else r
    let n := footprint s.units c.op c.desc c.facts
    let draw := drawLen c.op c.desc c.facts
    let dt := derated d (groomerRequest b + atRate draw (groomerRate b))
    let hp := if hashes then
        match placeOn s .hash 0 (fun _ => true) (unitPlace s c b hashTime hashTime r (e - t)) with
        | some p => some [p]
        | none => none
      else some []
    let gp := if draw = 0 then some []
      else match placeOn s .groomer (derated d (groomerReseed b)) (fun _ => true)
          (unitPlace s c b dt dt r (e - t)) with
        | some p => some [p]
        | none => none
    match hp, gp, placeOn s .edge 0 (fun u => decide (n ≤ (freeSlots s u).length)) (unitPlace s c b t rerun re e) with
    | some h, some g, some p =>
      if linksOk then
        some { unit := resUnit p.res,
               reserve := reserveOf s .edge, places := p :: (h ++ g ++ links),
               slots := ((resUnit p.res).map (fun u => (freeSlots s u).take n)).getD [],
               large := false }
      else none
    | _, _, _ => none

end Sys2Proof.Machine
end

