-- ==== Sys2Proof/Machine/Jobs.lean ====
section
/-!
DEFINITION. Sys2Proof/Machine/Jobs.lean: rings, descriptor fetch, completion entries, their order, halts and a job's
output writes (R44, R45, R103 to R147).
-/
namespace Sys2Proof.Machine

/-! ### Rings and jobs -/

def getRing (s : State) (r : RingId) : Ring :=
  match r with
  | .host n => tblGet Ring.reset s.rings.host n
  | .internal n => tblGet Ring.resetInternal s.rings.internal n

def setRing (r : RingId) (x : Ring) (s : State) : State :=
  { s with rings := { s.rings with
      host := match r with
        | .host n => tblSet Ring.reset s.rings.host n x
        | .internal _ => s.rings.host,
      internal := match r with
        | .host _ => s.rings.internal
        | .internal n => tblSet Ring.resetInternal s.rings.internal n x } }

def modRing (r : RingId) (f : Ring → Ring) (s : State) : State := setRing r (f (getRing s r)) s

def ringDepth (x : Ring) : Nat := 2 ^ x.depthLog2

def isHost (r : RingId) : Bool :=
  match r with
  | .host _ => true
  | .internal _ => false

/-- The ring number of R121. -/
def ringNum (r : RingId) : Nat :=
  match r with
  | .host n => n
  | .internal n => n

def findJob (s : State) (tag : Nat) : Option Job := s.rings.jobs.find? (fun j => j.tag == tag)

def modJob (tag : Nat) (f : Job → Job) (s : State) : State :=
  { s with rings := { s.rings with jobs := modFirst (fun j => j.tag == tag) f s.rings.jobs } }

/-- Job tags held (R124): a tag from 2,048 on marks a descriptor that found none free. -/
def tagsHeld (s : State) : List Nat := (s.rings.jobs.map (fun j => j.tag)).filter (fun t => decide (t < 2048))

/-- R124: the tag the descriptor takes: `pick` when it is free, else the lowest free one. -/
def takeTag (s : State) (pick : Nat) : Option Nat :=
  let held := tagsHeld s
  if decide (pick < 2048) && !(held.contains pick) then some pick
  else firstBelow 2048 (fun t => !(held.contains t))

/-- The stand-in for a tag of a descriptor that found none free. -/
def noTag (r : RingId) (index : Nat) : Nat := 2048 + (if isHost r then 0 else 0x400000) + ringNum r * 0x10000 + index

/-- RING_STATUS bits [10:8] set, or HALTED entered (R132, R147; 642 + 4n for an internal ring). -/
def raiseRing (r : RingId) (s : State) : State :=
  match r with
  | .host n => raiseEvent (64 + n) (ringStatus (getRing s r)) ((pcieErr s.link).zeroExtend 64) s
  | .internal n =>
    postMail n 0x11 (ringStatus (getRing s r)) 0 0 0 [] (raiseEvent (642 + 4 * n) (ringStatus (getRing s r)) 0 s)

/-! ### Requests on the link (R83) -/

/-- The pieces of n bytes from a on: none carries more than `most` bytes or crosses a 4 KiB boundary. -/
def tlpsFuel : Nat → Nat → Nat → Nat → List (Nat × Nat)
  | 0, _, _, _ => []
  | f + 1, most, a, n =>
    if n = 0 then []
    else
      let k := min n (min most (4096 - a % 4096))
      (a, k) :: tlpsFuel f most (a + k) (n - k)

def tlps (most a n : Nat) : List (Nat × Nat) := tlpsFuel n most a n

/-- Max_Payload_Size and Max_Read_Request_Size in bytes. -/
def maxPayload (l : Link) : Nat := 128 * 2 ^ l.mps
def maxRead (l : Link) : Nat := 128 * 2 ^ l.mrrs

/-- R86: output data writes carry Relaxed Ordering. -/
def relaxedWrites (l : Link) : Bool := l.relaxedOrdering && l.dataRo

/-- The writes that carry bytes to an address. -/
def dataWrites (l : Link) (a : Nat) (bs : Bytes) : List Posted :=
  (tlps (maxPayload l) a bs.length).map (fun p =>
    .data (BitVec.ofNat 64 p.1) (slice bs (p.1 - a) p.2) (relaxedWrites l))

/-- The part issues the read requests of some ranges of host memory. -/
def requestReads (segs : List (Nat × Nat)) (s : State) : State :=
  { s with link := { s.link with
      requests := s.link.requests ++ segs.flatMap (fun g =>
        (tlps (maxRead s.link) g.1 g.2).map (fun p => { addr := BitVec.ofNat 64 p.1, bytes := p.2 })) } }

/-! ### Fetch (R44, R45, R105) -/

/-- Descriptors charged in the preceding 20 µs. -/
def charged (s : State) : Nat :=
  s.gate.charges.foldl (fun n p => if s.now < p.1 + 2000 then n + p.2 else n) 0

/-- n descriptors are charged now; older charges are forgotten. -/
def charge (n : Nat) (s : State) : State :=
  { s with gate := { s.gate with
      charges := s.gate.charges.filter (fun p => decide (s.now < p.1 + 2000)) ++ (if n = 0 then [] else [(s.now, n)]) } }

/-- The ring has a descriptor to fetch. -/
def wantsFetch (s : State) (r : RingId) : Bool :=
  let x := getRing s r
  x.state == .enabled && !x.visible.isEmpty

/-- One descriptor is fetched: its slot opens and its read is issued. -/
def fetchOne (r : RingId) (s : State) : State :=
  let x := getRing s r
  match x.visible with
  | [] => s
  | v :: rest =>
    let wraps := x.fetch + 1 == ringDepth x
    let slot : Slot :=
      { index := x.fetch, phase := x.fetchPhase, t0 := v.getD s.now, arrived := false, tag := none, written := false,
        doomed := false, quiet := false }
    requestReads (if isHost r then [(x.sqBase.toNat + 64 * x.fetch, 64)] else []) (charge (if isHost r then 1 else 0)
      (setRing r { x with visible := rest, fetch := if wraps then 0 else x.fetch + 1,
                          fetchPhase := x.fetchPhase != wraps, slots := x.slots ++ [slot] } s))

/-- The ring's descriptors are fetched while the allowance leaves room; an internal ring needs no link. -/
def fetchFuel : Nat → RingId → State → State
  | 0, _, s => s
  | n + 1, r, s =>
    if wantsFetch s r && (!(isHost r) || decide (charged s < fetchAllowance s.link)) then fetchFuel n r (fetchOne r s)
    else s

/-- Numbers of the rings of a table that have descriptors to fetch. -/
def waitingRings (s : State) : List RingId :=
  (s.rings.host.map (fun p => RingId.host p.1)).filter (wantsFetch s)

/-- GATE_STATUS.OVERRUN_ACTIVE and GATE_EVT.OVERRUN (R44). -/
def noteOverrun (s : State) : State :=
  let o := !(waitingRings s).isEmpty
  let s1 := { s with gate := { s.gate with overrun := o } }
  if o then setGateEvt 1 s1 else s1

/-- Fetching goes on for one ring. -/
def fetchRing (r : RingId) (s : State) : State := noteOverrun (fetchFuel (getRing s r).visible.length r s)

/-- Fetching goes on for every ring, in ring order (FETCH_ALLOWANCE_FREED). -/
def fetchAll (s : State) : State :=
  noteOverrun ((waitingRings s).foldl (fun s r => fetchFuel (getRing s r).visible.length r s) s)

/-! ### Failed host requests (R87, R93, R94, R137) -/

/-- The KIND of R93 and the RING_PCIE_ERR bit of a failed read. -/
def readFaultCode (k : ReadFault) : Nat × Nat :=
  match k with
  | .ur => (1, 4) | .ca => (2, 8) | .timeout => (3, 16) | .poisoned => (4, 32)

/-- The capture takes the first failed request while RING_PCIE_ERR bits [5:1] are all zero.  KIND 0b101 sets none of them, so
the next failure replaces it and any write of RING_PCIE_ERR ends it (DESIGN CHOICE, log entry 78). -/
def captureHost (write : Bool) (ring tag kind : Nat) (addr : DWord) (s : State) : State :=
  { s with link := { s.link with
      fault := if s.link.err &&& 0x3E == 0 then
          { valid := true, write := write, ring := ring, tag := tag % 2048, kind := kind, addr := addr }
        else s.link.fault } }

/-- A read request of host ring n failed: the capture, its bit of RING_PCIE_ERR, and the ring's error source. -/
def hostReadFailed (n tag : Nat) (k : ReadFault) (addr : DWord) (s : State) : State :=
  raiseRing (.host n) (setPcieErr (readFaultCode k).2 (captureHost false n tag (readFaultCode k).1 addr s))

/-! ### Completion entries (R121, R122) -/

/-- UNIT_KIND of R121. -/
def unitKindCode (k : UnitKind) : Nat :=
  match k with
  | .edge => 1 | .blade => 2 | .hash => 3 | .groomer => 4 | .lift => 5

/-- The 32 bytes of an entry. -/
def entryRaw (cookie result : DWord) (bytes tag : Nat) (r : RingId) (st : Status) (kind num : Nat) (retried : Bool)
    (band : Band) (unverified : Bool) (index : Nat) (phase : Bool) : BitVec 256 :=
  let tagWord := (if tag < 2048 then tag + 2 ^ 11 else 0) + ringNum r * 2 ^ 16 + fbit (!(isHost r)) 22 +
    statusCode st * 2 ^ 24
  let unitWord := num + kind * 2 ^ 8 + fbit retried 11 + bandCode band * 2 ^ 12 + fbit unverified 14 + index * 2 ^ 16
  BitVec.ofNat 256 (cookie.toNat + result.toNat * 2 ^ 64 + bytes * 2 ^ 128 + tagWord * 2 ^ 160 + unitWord * 2 ^ 192 +
    fbit phase 255)

/-- A protection failure of a job's transfer on In: the capture, and source 641 + 4n (R365). -/
def faultDma (n tag : Nat) (x : Acc) (v : Verdict) (s : State) : State :=
  let s1 := match v with
    | .deny r e t c => captureFault x r e t c s
    | _ => s
  raiseEvent (641 + 4 * n) 0 (BitVec.ofNat 64 tag) s1

/-- The entry goes into its slot of the completion ring: posted to the host, or into applet SRAM, where grant set n must
permit it (R352); a denied entry is not written. -/
def putEntry (r : RingId) (index : Nat) (raw : BitVec 256) (s : State) : State :=
  match r with
  | .host n => { s with link := { s.link with posted := s.link.posted ++ [.entry n index raw] } }
  | .internal n =>
    let a := (getRing s r).cqBase.toNat + 32 * index
    match dmaVerdict s n .write a 32 with
    | none => storeBytes a (vecBytes 256 raw) s
    | some (x, v) => faultDma n (raw.extractLsb' 160 11).toNat x v s

/-! ### Flush (R136) -/

/-- The capture of a flush read that has failed (R94, R136). -/
def flushReadFails (r : RingId) (read : FlushRead) (addr : DWord) (s : State) : State :=
  match r, read with
  | .host n, .failed k => hostReadFailed n 0 k addr s
  | .internal n, .failed _ => match dmaVerdict s n .read addr.toNat 64 with
    | some (x, v) => faultDma n 0 x v s
    | none => s
  | _, _ => s

/-- One flushed descriptor: its entry in its own slot, and the indices past it.  A failed read has no job: RING_PCIE_FAULT
captures tag 0 (DESIGN CHOICE, log entry 73). -/
def flushOne (r : RingId) (read : FlushRead) (s : State) : State :=
  let x := getRing s r
  let wraps := x.fetch + 1 == ringDepth x
  let addr := x.sqBase + BitVec.ofNat 64 (64 * x.fetch)
  let cookie := match read with
    | .cookie c _ => c
    | .failed _ => 0
  let st := match read with
    | .cookie _ _ => Status.cancelled
    | .failed _ => Status.hostReadFault
  let s2 := putEntry r x.fetch
    (entryRaw cookie 0 0 2048 r st 0 0 false (planBand s.gate.band) false x.fetch x.fetchPhase) (flushReadFails r read addr s)
  let s3 := { s2 with rings := { s2.rings with
      cancelCnt := if isHost r && st == .cancelled then sat32 s2.rings.cancelCnt else s2.rings.cancelCnt } }
  modRing r (fun x => { x with visible := x.visible.drop 1, fetch := if wraps then 0 else x.fetch + 1,
                               fetchPhase := x.fetchPhase != wraps, done := if wraps then 0 else x.fetch + 1 }) s3

/-- Address of slot i from FETCH on of the submission ring. -/
def slotAddr (x : Ring) (i : Nat) : Nat := x.sqBase.toNat + 64 * ((x.fetch + i) % ringDepth x)

/-- What the flush reads of a slot: on a host ring what the command brings, or a free COOKIE where it brings nothing (log
entry 72); on an internal ring applet SRAM, where grant set n must permit the read. -/
def flushReadAt (s : State) (r : RingId) (reads : List FlushRead) (i : Nat) : FlushRead :=
  let x := getRing s r
  match r with
  | .host _ => reads.getD i (.cookie (Config.flushCookie (s.free + i)) false)
  | .internal n =>
    if (dmaVerdict s n .read (slotAddr x i) 64).isSome then .failed .ur
    else
      let d : Descriptor := BitVec.ofNat 512 (natLE (mapBytes s (slotAddr x i) 64))
      .cookie (dCookie d) (dNoIrq d)

/-- An entry of the flush counts as one without NO_IRQ. -/
def flushLoud (q : FlushRead) : Bool :=
  match q with
  | .cookie _ quiet => !quiet
  | .failed _ => true

/-- Every descriptor from FETCH to TAIL gets its entry.  The flush is one advance of the prefix (DESIGN CHOICE, log entry 73):
the completion source is raised once, unless every entry carries NO_IRQ (R130). -/
def flushRing (r : RingId) (reads : List FlushRead) (s : State) : State :=
  let x := getRing s r
  let n := x.visible.length
  let items := (List.range n).map (flushReadAt s r reads)
  let loud := items.any flushLoud
  let s0 := if isHost r then requestReads ((List.range n).map (fun i => (slotAddr x i, 64)))
      { s with free := s.free + (n - reads.length) } else s
  let s1 := items.foldl (fun s q => flushOne r q s) s0
  match r with
  | .host h => raiseIf loud h (word (getRing s1 r).done) 0 s1
  | .internal h => if loud then postMail h 0x10 (word (getRing s1 r).done) 0 0 0 [] s1 else s1

/-! ### Ring states (R143 to R145) -/

/-- Indices and phase of R105 and R106 at an ENABLE; HALT_INDEX keeps its last value outside HALTED (log entry 27). -/
def enabledRing (x : Ring) : Ring :=
  { x with state := .enabled, tail := 0, fetch := 0, done := 0, fetchPhase := true, visible := [], slots := [],
           rearmPending := false, rearmFlush := none, restartPending := false }

/-- The ring as DISABLED. -/
def disabledRing (x : Ring) : Ring :=
  { x with state := .disabled, visible := [], slots := [], rearmPending := false, rearmFlush := none,
           restartPending := false, heldDb := none }

/-- An entry may leave now: credit and Bus Master Enable on a host ring (R138, R88). -/
def mayWrite (s : State) (r : RingId) : Bool := !(isHost r) || (s.link.bme && !s.link.creditStalled)

/-- A REARM of a settled HALTED ring, after its flush: descriptors made visible there take the stamp of its write (R112). -/
def rearmRing (r : RingId) (s : State) : State :=
  let s1 := match (getRing s r).rearmFlush with
    | some reads => flushRing r reads s
    | none => s
  fetchRing r (modRing r (fun x => { x with state := .enabled, rearmPending := false, rearmFlush := none,
                                            visible := x.visible.map (fun v => some (v.getD x.rearmAt)) }) s1)

/-- What follows when every fetched descriptor has had its entry written; a flush waits for posted-write credit (R138). -/
def settleRing (r : RingId) (s : State) : State :=
  let x := getRing s r
  if x.state == .draining && ringSettled x then
    setRing r (if x.restartPending then enabledRing x else disabledRing x) s
  else if x.state == .halted && ringSettled x && x.rearmPending && (x.rearmFlush.isNone || mayWrite s r) then rearmRing r s
  else s

/-- The slot of an index is written. -/
def markWritten (r : RingId) (index : Nat) (s : State) : State :=
  modRing r (fun x => { x with slots := modFirst (fun q => q.index == index) (fun q => { q with written := true }) x.slots }) s

/-- Stage 9: the descriptor staging slot of a tag is cleared (R26, R392). -/
def releaseStaging (tag : Nat) (s : State) : State := if tag < 2048 then clearRange 0x0D (256 * tag) 256 s else s

/-- Entries in order: written slots leave the prefix, and a built entry at the prefix is written and frees its tag
(R125 to R127). -/
def advanceFuel : Nat → RingId → State → State
  | 0, _, s => s
  | n + 1, r, s =>
    match (getRing s r).slots with
    | [] => s
    | x :: rest =>
      if x.written then
        advanceFuel n r (modRing r (fun q => { q with slots := rest, done := (q.done + 1) % ringDepth q }) s)
      else match x.tag.bind (findJob s) with
        | none => s
        | some j =>
          if j.stage == .built && mayWrite s r then
            advanceFuel n r (markWritten r x.index (releaseStaging j.tag
              (putEntry r x.index j.entry { s with rings := { s.rings with
                jobs := s.rings.jobs.filter (fun k => k.tag != j.tag) } })))
          else s

/-- The ring's entries go as far as they may; the completion source is raised once for the advance (R130). -/
def advanceRing (r : RingId) (s : State) : State :=
  let before := (getRing s r).slots
  let s1 := advanceFuel (2 * before.length) r s
  let gone := before.length - (getRing s1 r).slots.length
  let loud := (before.take gone).any (fun x => !x.quiet)
  let s2 := match r with
    | .host n => raiseIf loud n (word (getRing s1 r).done) 0 s1
    | .internal n => if loud then postMail n 0x10 (word (getRing s1 r).done) 0 0 0 [] s1 else s1
  settleRing r s2

/-- An entry written ahead of its turn, in its own slot (R63); it waits where the link gives no posted-write credit (R138). -/
def entryNow (r : RingId) (index : Nat) (raw : BitVec 256) (s : State) : State :=
  if isHost r && s.link.creditStalled then
    { s with link := { s.link with heldEntries := s.link.heldEntries ++ [(ringNum r, index, raw)] } }
  else advanceRing r (markWritten r index (putEntry r index raw s))

/-! ### Output writes (R118, R119, R138 to R140) -/

/-- The segments of a gather list. -/
def listSegs (bs : Bytes) : List (Nat × Nat) :=
  (chunks 16 bs).map (fun e => (natLE (slice e 0 8), natLE (slice e 8 4)))

def srcSegs (j : Job) : List (Nat × Nat) :=
  if srcListed j.op j.desc then listSegs (j.srcList.getD []) else [(dSrcAddr j.desc, dSrcLen j.desc)]

def dstSegs (j : Job) : List (Nat × Nat) :=
  if dstListed j.op j.desc then listSegs (j.dstList.getD []) else [(dDstAddr j.desc, dDstLen j.desc)]

/-- A segment wraps past the top of host memory (R119). -/
def wraps (g : Nat × Nat) : Bool := decide (2 ^ 64 < g.1 + g.2)

/-- R347: an address of an internal job with a bit of [63:32] set, which counts as a range that wraps. -/
def upperBits (r : RingId) (a : Nat) : Bool := !(isHost r) && decide (2 ^ 32 ≤ a)

/-- R119: a gather list that does not describe its buffer. -/
def listBad (r : RingId) (segs : List (Nat × Nat)) (len : Nat) : Bool :=
  segs.any (fun g => g.2 == 0 || wraps g || upperBits r g.1) || segs.foldl (fun n g => n + g.2) 0 != len

/-- R119: a direct buffer that wraps; R347: an address with upper bits. -/
def directBad (j : Job) : Bool :=
  (!(srcListed j.op j.desc) && wraps (dSrcAddr j.desc, dSrcLen j.desc)) ||
    (!(dstListed j.op j.desc) && wraps (dDstAddr j.desc, dDstLen j.desc)) ||
    upperBits j.ring (dSrcAddr j.desc) || upperBits j.ring (dDstAddr j.desc)

/-- The lists gathered so far break R119. -/
def listsBad (j : Job) : Bool :=
  (match j.srcList with
   | some l => srcListed j.op j.desc && listBad j.ring (listSegs l) (dSrcLen j.desc)
   | none => false) ||
  (match j.dstList with
   | some l => dstListed j.op j.desc && listBad j.ring (listSegs l) (dDstLen j.desc)
   | none => false)

/-- Bytes laid over segments from an offset on. -/
def spread : List (Nat × Nat) → Nat → Bytes → List (Nat × Bytes)
  | [], _, _ => []
  | (a, n) :: t, skip, bs =>
    if bs.isEmpty then []
    else if n ≤ skip then spread t (skip - n) bs
    else (a + skip, bs.take (n - skip)) :: spread t 0 (bs.drop (n - skip))

/-- One segment of output of an internal job: what its first failing piece leaves unwritten fails the write, and a
refused partial write stops it (R389). -/
def writeSram (n : Nat) (tag : Nat) (seg : Nat × Bytes) (s : State) : State :=
  match findJob s tag with
  | none => s
  | some j =>
    if j.noOutput then s
    else
      let k := dmaPrefix s n .write seg.1 seg.2.length
      match refusedPart s seg.1 k with
      | some (b, w) =>
        modJob tag (fun j => { j with noOutput := true, status := some .memUncorrectable }) (noteUe b w true s)
      | none =>
      let s1 := modJob tag (fun j => { j with bytes := j.bytes + k }) (storeBytes seg.1 (seg.2.take k) s)
      match dmaVerdict s n .write seg.1 seg.2.length with
      | none => s1
      | some (x, v) =>
        faultDma n tag x v (modJob tag (fun j => { j with noOutput := true, status := some .hostWriteFault }) s1)

/-! ### What a job reads (R28, R118, R120) -/

/-- The reads that the descriptor itself names: the lists, the command block, and a source without a list. -/
def namedReads (j : Job) : List (Nat × Nat) :=
  (if srcListed j.op j.desc then [(dSrcAddr j.desc, 16 * dSrcNent j.desc)]
   else if takesSource j.op then [(dSrcAddr j.desc, dSrcLen j.desc)] else []) ++
  (if dstListed j.op j.desc then [(dDstAddr j.desc, 16 * dDstNent j.desc)] else []) ++
  (if isCritical j.op then [(dCmdAddr j.desc, 128)] else [])

/-- An admitted job of a host ring issues its first reads. -/
def requestNamed (tag : Nat) (s : State) : State :=
  match findJob s tag with
  | none => s
  | some j => if isHost j.ring then requestReads (namedReads j) s else s

/-- A job of a host ring reads the segments of its source. -/
def requestSource (tag : Nat) (s : State) : State :=
  match findJob s tag with
  | none => s
  | some j => if isHost j.ring then requestReads (srcSegs j) s else s

/-- A job issues the next bytes of its output. -/
def issueOutput (tag : Nat) (bs : Bytes) (s : State) : State :=
  match findJob s tag with
  | none => s
  | some j =>
    if j.noOutput || bs.isEmpty then s
    else
      let segs := spread (dstSegs j) j.bytes bs
      match j.ring with
      | .host _ =>
        if s.link.bme then
          modJob tag (fun j => { j with bytes := j.bytes + bs.length })
            { s with link := { s.link with posted := s.link.posted ++ segs.flatMap (fun g => dataWrites s.link g.1 g.2) } }
        else s
      | .internal n => segs.foldl (fun s g => writeSram n tag g s) s

end Sys2Proof.Machine
end

