-- ==== Sys2Proof/Machine/Units.lean ====
section
/-!
DEFINITION. Sys2Proof/Machine/Units.lean: the pool of units, dispatch, faults and takeover, vectors, enable and disable
(R23, R24, R59 to R67, R78, R227 to R234, R247 to R268, R307).
-/
namespace Sys2Proof.Machine

/-! ### Unit records and the pool (R66, R77, R78) -/

def setUnitRec (u : UnitRef) (r : UnitRec) (s : State) : State :=
  { s with units := { s.units with
      edges := if u.kind == .edge then tblSet UnitRec.reset s.units.edges u.num r else s.units.edges,
      blades := if u.kind == .blade then tblSet UnitRec.reset s.units.blades u.num r else s.units.blades,
      lifts := if u.kind == .lift then tblSet UnitRec.reset s.units.lifts u.num r else s.units.lifts,
      hashes := if u.kind == .hash then tblSet UnitRec.reset s.units.hashes u.num r else s.units.hashes,
      groomers := if u.kind == .groomer then tblSet UnitRec.reset s.units.groomers u.num r else s.units.groomers } }

def modUnit (u : UnitRef) (f : UnitRec → UnitRec) (s : State) : State := setUnitRec u (f (unitRec s u)) s

def setUnitState (u : UnitRef) (st : UnitState) (s : State) : State := modUnit u (fun r => { r with state := st }) s

/-- Units of a kind in one of the states. -/
def unitsIn (s : State) (k : UnitKind) (p : UnitState → Bool) : List Nat :=
  (List.range (unitCount k)).filter (fun n => p (unitState s { kind := k, num := n }))

def plannedCount (s : State) (k : UnitKind) : Nat := (unitsIn s k (fun x => x == .inService)).length

def reserveCount (s : State) (k : UnitKind) : Nat := (unitsIn s k (fun x => x == .spare || x == .standby)).length

def allKinds : List UnitKind := [.edge, .blade, .lift, .hash, .groomer]

/-- The counts of GATE_POOL0 and GATE_POOL1. -/
def poolCounts (s : State) : List Nat := allKinds.flatMap (fun k => [plannedCount s k, reserveCount s k])

/-- R78: GATE_EVT.POOL_SHRINK when a count has fallen since `before`. -/
def noteShrink (before : List Nat) (s : State) : State :=
  if (before.zip (poolCounts s)).any (fun p => decide (p.2 < p.1)) then setGateEvt 16 s else s

/-- R65: a standby is designated when no spare remains, and returns when it is the last healthy unit. -/
def rebalance (k : UnitKind) (s : State) : State :=
  let inS := unitsIn s k (fun x => x == .inService)
  let spare := unitsIn s k (fun x => x == .spare)
  let stand := unitsIn s k (fun x => x == .standby)
  match stand with
  | n :: _ => if inS.isEmpty then setUnitState { kind := k, num := n } .inService s else s
  | [] =>
    if spare.isEmpty && decide (2 ≤ inS.length) then
      match inS.getLast? with
      | some n => setUnitState { kind := k, num := n } .standby s
      | none => s
    else s

/-- R59: every job of a kind names the reserve of the moment; a job on that very unit has none. -/
def renameReserves (k : UnitKind) (s : State) : State :=
  let r := reserveOf s k
  { s with rings := { s.rings with
      jobs := s.rings.jobs.map (fun j => match j.unit with
        | some u => if u.kind == k then { j with reserve := if r == some u then none else r } else j
        | none => j) } }

/-! ### Dispatch (R60, R61, R220, R249, R250, R281) -/

/-- Engine deadline of a job on a unit. -/
def engineDl (j : Job) (u : UnitRef) : Pico :=
  match j.places.find? (fun p => p.res == .unit u) with
  | some p => p.deadline
  | none => j.deadline

/-- The job of a ring whose descriptor was submitted first: the phase turns where the index wraps (R105, R106). -/
def earlierIndex (a b : Job) : Bool := if a.phase == b.phase then decide (a.index < b.index) else decide (b.index < a.index)

/-- R60: of two jobs with one deadline, a runs strictly before b. -/
def tieBefore (a b : Job) : Bool :=
  if a.t0 != b.t0 then decide (a.t0 < b.t0)
  else if isHost a.ring != isHost b.ring then isHost a.ring
  else if ringNum a.ring != ringNum b.ring then decide (ringNum a.ring < ringNum b.ring)
  else earlierIndex a b

/-- R60: a runs strictly before b. -/
def runsBefore (u : UnitRef) (a b : Job) : Bool :=
  let x := engineDl a u
  let y := engineDl b u
  if x != y then decide (x < y) else tieBefore a b

/-- The first of a list in the order of R60. -/
def firstToRun (u : UnitRef) : List Job → Option Job
  | [] => none
  | j :: t => match firstToRun u t with
    | some k => if runsBefore u k j then some k else some j
    | none => some j

/-- R276: a message of more than 64 bytes is hashed on a hash unit of its own placement. -/
def longMessage (j : Job) : Bool := isEdge j.op && decide (64 < messageLen j.op j.desc j.facts)

/-- R276: EDDSA_SIGN hashes such a message twice. -/
def hashesTwice (j : Job) : Bool := j.op == .eddsaSign && longMessage j

/-- R276: the message hash without which the Edge cannot start. -/
def digestDue (j : Job) : Bool := longMessage j && j.digest.isNone

/-- R276: the challenge hash, for which a started EDDSA_SIGN waits suspended at a step boundary. -/
def challengeDue (j : Job) : Bool := hashesTwice j && j.digest2.isNone

/-- R289, R291: a CURVE_LOAD past stage 9 is Edge work. -/
def curveWork (j : Job) : Bool := j.op == .critical .curveLoad && j.counterSpent

/-- R291: the Miller-Rabin bases of an image's p and n, 64 each, in bytes. -/
def curveDrawLen (image : Bytes) : Nat :=
  let c := curveOfImage image
  64 * mrDrawBytes c.p + 64 * mrDrawBytes c.n

/-- R281: bytes that a job draws when it starts. -/
def drawNeed (j : Job) : Nat := if curveWork j then curveDrawLen (j.source.getD []) else drawLen j.op j.desc j.facts

/-- R281: the draw that the job still waits for. -/
def drawDue (j : Job) : Bool := (isEdge j.op || curveWork j) && j.draw.isNone && decide (0 < drawNeed j)

/-- R220: segments of a Blade's staging that jobs hold; a job takes the lowest-numbered free one (log entry 86). -/
def segmentsHeld (s : State) (u : UnitRef) : List Nat :=
  (s.rings.jobs.filter (fun j => j.unit == some u)).filterMap (fun j => j.segment)

/-- R220: the Blade has a free segment: one is held by each running job and each job whose output waits. -/
def segmentFree (s : State) (u : UnitRef) : Bool := decide ((segmentsHeld s u).length < 4)

/-- R215: an earlier first or middle piece of the session whose entry is not built. -/
def predecessorIn : List Job → Job → Bool
  | [], _ => false
  | k :: t, j =>
    if k.tag == j.tag then false
    else ((k.sess.map (fun c => c.session)) == (j.sess.map (fun c => c.session)) && isSession k.op &&
        (dChain k.desc == 1 || dChain k.desc == 2) && k.stage != .built) || predecessorIn t j

def waitsForPiece (s : State) (j : Job) : Bool :=
  (dChain j.desc == 2 || dChain j.desc == 3) && isSession j.op && predecessorIn s.rings.jobs j

/-- The job could start or go on on its unit, but for its session key. -/
def wouldStart (s : State) (u : UnitRef) (j : Job) : Bool :=
  (j.stage == .ready || j.stage == .suspended) &&
    (match u.kind with
     | .blade => (segmentFree s u || j.segment.isSome) && !(waitsForPiece s j)
     | .edge => !(digestDue j) && !(drawDue j) && !(j.stage == .suspended && challengeDue j)
     | _ => true)

/-- The job can start or go on on its unit. -/
def startable (s : State) (u : UnitRef) (j : Job) : Bool := wouldStart s u j && (u.kind != .blade || j.keyLoaded)

/-! ### Work beside a job's own unit: a derivation on a Lift, a message hash on a hash unit (R26, R60, R202, R276) -/

/-- The Lift or hash unit that a job is placed on beside its own unit. -/
def sideUnit (j : Job) : Option UnitRef :=
  j.places.findSome? (fun p => match p.res with
    | .unit u => if (u.kind == .lift || u.kind == .hash) && j.unit != some u then some u else none
    | _ => none)

/-- The job is under way and no status is fixed for it. -/
def inFlight (j : Job) : Bool := j.admitted && j.status.isNone && j.stage != .finished && j.stage != .built

/-- R26: another job holds the key register of this job's Blade, or has a Lift load it. -/
def keyRegisterTaken (s : State) (j : Job) : Bool :=
  s.rings.jobs.any (fun k => k.tag != j.tag && k.unit == j.unit && isSession k.op && (k.keyLoaded || k.sideOn))

/-- No job of the same Blade that also wants the key register comes before this one (R60; log entry 86). -/
def nextForKey (s : State) (j : Job) : Bool :=
  match j.unit with
  | none => true
  | some u => !(s.rings.jobs.any (fun k => k.tag != j.tag && k.unit == some u && isSession k.op && inFlight k && !k.keyLoaded &&
      !(waitsForPiece s k) && runsBefore u k j))

/-- Bytes of the source that must be there before a message hash can begin: all of them, or its first 16 KiB. -/
def hashHasInput (j : Job) : Bool := decide (min (dSrcLen j.desc) 16384 ≤ (j.source.getD []).length)

/-- The job's side work can begin on its unit. -/
def sideReady (s : State) (j : Job) : Bool :=
  inFlight j && !j.sideOn &&
    (if isSession j.op then !j.keyLoaded && !(keyRegisterTaken s j) && !(waitsForPiece s j) && nextForKey s j
     else isEdge j.op && hashHasInput j && (digestDue j || (challengeDue j && (j.stage == .running || j.stage == .suspended))))

/-- A unit executes a job, or side work of one. -/
def unitBusy (s : State) (u : UnitRef) : Bool :=
  (jobsOn s u).any (fun j => j.stage == .running) || s.rings.jobs.any (fun j => j.sideOn && sideUnit j == some u)

/-- What a unit can take up: its own jobs that can start and the side work that can begin. -/
def unitChoices (s : State) (u : UnitRef) : List Job :=
  s.rings.jobs.filter (fun j => (onUnit j u && startable s u j) || (sideUnit j == some u && sideReady s j))

/-- The placement that outlasts the engine: that of the output's writes. -/
def linkPlacesOnly (j : Job) : List Placement := j.places.filter (fun p => p.res == .linkWrite)

/-- Bank of an Edge's operand memory and of a Blade's staging (R384). -/
def unitBank (u : UnitRef) : Nat := if u.kind == .edge then 0x22 + u.num else 0x10 + u.num

/-- R252: the valid bits of a job's slots are cleared, and those of its segment of Blade staging (R392). -/
def clearJobMemory (j : Job) (s : State) : State :=
  match j.unit with
  | none => s
  | some u =>
    let n := slotBytes s.units
    let s1 := j.slots.foldl (fun s i => clearRange (unitBank u) (n * i) n s) s
    if u.kind == .blade then (j.segment.toList).foldl (fun s i => clearRange (unitBank u) (16384 * i) 16384 s) s1 else s1

/-- A job gives back its slots and its segment. -/
def freeMemory (tag : Nat) (s : State) : State :=
  match findJob s tag with
  | none => s
  | some j => modJob tag (fun j => { j with slots := [], segment := none }) (clearJobMemory j s)

/-- The job's output is in the posted stream, or will not be written (R127, R247). -/
def outputDone (j : Job) : Bool := j.out.isEmpty || j.noOutput

/-- Reservations of EC_KEYGEN jobs that have ended without a commit are released (R284). -/
def releaseKeygen (js : List Job) (s : State) : State :=
  { s with vault := { s.vault with
      priv := js.foldl (fun t j =>
        if j.op == .ecKeygen && j.admitted then
          tblMod VSlot.reset t (dSlot j.desc) (fun v => { v with reserved := false })
        else t) s.vault.priv } }

/-- A job as it ends on its unit: its key and its generation are released, and what it still drew with. -/
def endedJob (st : Status) (j : Job) : Job :=
  { j with status := some (j.status.getD st), stage := .finished, holds := [], key := [], keyLoaded := false, sideOn := false,
           blinds := [], saved := none, places := linkPlacesOnly j }

def okStatus (st : Status) : Bool := st == .ok || st == .okRetried

/-- R433: the 0x0201 entry of a critical command that ends without OK after stage 9, its reason that of RESULT. -/
def traceFailure (j : Job) (st : Status) (s : State) : State :=
  match j.block with
  | some b =>
    if isCritical j.op && j.counterSpent && j.stage != .finished && j.stage != .built && !(okStatus st) then
      trkRequest (trkReq 0x0201 (dCmdAuth j.desc * 0x1000 + dCmdCode j.desc)
        ((vecBytes 1024 b).take 24 ++ bytesLE 1 (statusCode st) ++ bytesLE 1 (j.result.toNat % 256))) s
    else s
  | none => s

/-- A job ends on its unit, with this status unless an earlier one is fixed: it releases its key and its generation, and,
once its output is issued, its slots and its segment (R127, R193, R247). -/
def endJob (tag : Nat) (st : Status) (s : State) : State :=
  match findJob s tag with
  | none => s
  | some j =>
    let s1 := traceFailure j (j.status.getD st) (releaseKeygen [j] (modJob tag (endedJob st) s))
    if outputDone j then freeMemory tag s1 else s1

/-- Bytes of CONT (R217). -/
def contNat (c : BitVec 384) (off n : Nat) : Nat := (c.extractLsb' (8 * off) (8 * n)).toNat

/-- R216: a piece that fails as it starts on the context it finds. -/
def chainStartBad (x : Session) (j : Job) (c : SessionCopy) : Bool :=
  let first := dChain j.desc == 1
  let text := dSrcLen j.desc - dAadLen j.desc - (if j.op == .sesDecrypt && lastPiece j.desc then 16 else 0)
  let past := match modeAlg c.mode with
    | some .gcm => decide (2 ^ 36 - 32 < (if first then 0 else contNat x.cont 0x28 7) + text)
    | some .ctr => decide (16 * (2 ^ 32 - 1) < (if first then 0 else contNat x.cont 0x28 7) + dSrcLen j.desc)
    | _ => false
  (first && x.chainOpen) || (!first && (!x.chainOpen || contNat x.cont 0x2F 1 != dOpcode j.desc)) || past

/-- A session job starts: it takes a segment and reads the chain state of the moment, once (R215, R218, R220). -/
def startPiece (u : UnitRef) (tag : Nat) (s : State) : State :=
  modJob tag (fun j =>
    { j with stage := .running, saved := none,
             segment := if j.segment.isSome then j.segment else firstBelow 4 (fun i => !((segmentsHeld s u).contains i)),
             sess := j.sess.map (fun c =>
               if c.started || dChain j.desc == 0 then { c with started := true }
               else
                 let x := tblGet Session.reset s.sess.table c.session
                 { c with started := true, cont := x.cont, chainBad := chainStartBad x j c }) }) s

/-! ### Blinding words (R253 to R256) -/

/-- R254: blinding words of a run: one for λ of a program on points or a ladder, one for its secret scalar, and r1, r2 and rb of
an RSA private operation. -/
def blindCount (o : Op) (d : Descriptor) : Nat :=
  match o with
  | .rsaSign => 3
  | .ecdsaSign | .ecdh | .eddsaSign => 2
  | .ecKeygen => if dAux d < 0x3000 then 2 else 1
  | .xdh | .ecdsaVerify | .eddsaVerify | .critical .curveLoad => 1
  | _ => 0

/-- A blinded run that begins draws its words from the Edge's masking generator (R255). -/
def drawBlinds (u : UnitRef) (tag : Nat) (s : State) : State :=
  match findJob s tag with
  | none => s
  | some j =>
    if u.kind != .edge || !j.blinded || !j.blinds.isEmpty then s
    else
      let g := tblGet MaskGen.reset s.units.mask (18 + u.num)
      let n := blindCount j.op j.desc
      modJob tag (fun j => { j with blinds := (List.range n).map (fun i => Config.maskWord g.seed (g.drawn + i)) })
        { s with units := { s.units with
            mask := tblSet MaskGen.reset s.units.mask (18 + u.num) { g with drawn := g.drawn + n } } }

/-! ### Dispatch -/

/-- A job starts on its unit. -/
def startJob (u : UnitRef) (j : Job) (s : State) : State :=
  if isSession j.op then startPiece u j.tag s
  else drawBlinds u j.tag (modJob j.tag (fun j => { j with stage := .running }) s)

/-- A free unit takes the first that it can take up; a private-key job whose key is not yet loaded asks the Vault arbiter and
leaves the datapath to the next (R250). -/
def dispatchFuel : Nat → UnitRef → State → State
  | 0, _, s => s
  | n + 1, u, s =>
    if unitBusy s u then s
    else match firstToRun u (unitChoices s u) with
      | none => s
      | some j =>
        if sideUnit j == some u then modJob j.tag (fun j => { j with sideOn := true }) s
        else if isPrivate j.op && !j.keyLoaded then
          dispatchFuel n u (modJob j.tag (fun j => { j with stage := .waitingKey })
            { s with units := { s.units with arbSince := tblSet 0 s.units.arbSince j.tag (s.now + 1) } })
        else
          let s1 := startJob u j s
          if (((findJob s1 j.tag).bind (fun j => j.sess)).map (fun c => c.chainBad)) == some true then
            dispatchFuel n u (endJob j.tag .inputInvalid (modJob j.tag (fun j => { j with noOutput := true }) s1))
          else s1

/-- The unit executes work: it is in service, or a DRAINING or STANDBY unit that finishes what it holds (R65, R232). -/
def unitServes (s : State) (u : UnitRef) : Bool :=
  let st := unitState s u
  st == .inService || st == .draining || st == .standby

/-- A DRAINING unit whose last job has left it. -/
def settleUnit (u : UnitRef) (s : State) : State :=
  let r := unitRec s u
  if r.state == .draining && (jobsOn s u).isEmpty then
    setUnitRec u { r with state := if r.restartPending then .testing else .disabled, restartPending := false,
                          afterEnable := r.restartPending } s
  else s

/-- The unit takes up work, and settles where that leaves it without a job. -/
def dispatchUnit (u : UnitRef) (s : State) : State :=
  if unitServes s u then settleUnit u (dispatchFuel (s.rings.jobs.length + 1) u s) else s

/-- Lifts and hash units, on which side work runs. -/
def sideUnits : List UnitRef :=
  (List.range 8).map (fun n => { kind := .lift, num := n }) ++ (List.range 8).map (fun n => { kind := .hash, num := n })

/-- Side work that can begin begins. -/
def feedSides (s : State) : State := sideUnits.foldl (fun s u => dispatchUnit u s) s

/-- A job may have become able to start, on its unit or beside it. -/
def wakeJob (tag : Nat) (s : State) : State :=
  match (findJob s tag).bind (fun j => j.unit) with
  | some u => dispatchUnit u (feedSides s)
  | none => feedSides s

/-! ### Leaving a unit (R127, R232, R247, R264) -/

/-- A unit that a job has left settles and goes on. -/
def leaveUnit (u : UnitRef) (s : State) : State := dispatchUnit u (settleUnit u s)

/-- A job ends on its unit, and its unit, and what waited for its key register, goes on. -/
def finishJob (tag : Nat) (st : Status) (s : State) : State :=
  let s1 := feedSides (endJob tag st s)
  match (findJob s tag).bind (fun j => j.unit) with
  | some u => leaveUnit u s1
  | none => s1

/-- Jobs already finished by another rule leave their units. -/
def settleUnits (us : List UnitRef) (s : State) : State := us.foldl (fun s u => leaveUnit u s) (feedSides s)

/-! ### Halts (R132 to R134) -/

/-- A job cancelled under R134: it never starts, or stops at its next pre-emption point, and issues no more output. -/
def cancelJob (j : Job) : Job :=
  if j.stage == .built then j
  else if j.stage == .running then { j with status := some .cancelled, noOutput := true }
  else { endedJob .cancelled j with status := some .cancelled, noOutput := true }

/-- The jobs of a ring that R133 cancels now. -/
def toCancel (s : State) (r : RingId) : List Job :=
  let later := (getRing s r).slots.filter (fun q => q.doomed)
  s.rings.jobs.filter (fun j => j.ring == r && j.stage != .built && j.status != some .cancelled &&
    later.any (fun x => x.tag == some j.tag))

/-- R133: they are cancelled; those that have not started leave their units, and an EC_KEYGEN that has not ended gives its
reservation back (R284). -/
def cancelLater (r : RingId) (s : State) : State :=
  let js := toCancel s r
  let gone := js.filter (fun j => j.stage != .running)
  let s1 := { s with rings := { s.rings with
      jobs := s.rings.jobs.map (fun j => if js.any (fun k => k.tag == j.tag) then cancelJob j else j) } }
  let s2 := gone.foldl (fun s j => freeMemory j.tag s) s1
  settleUnits (gone.filterMap (fun j => j.unit)) (releaseKeygen (gone.filter (fun j => j.stage != .finished)) s2)

/-- The slots behind an index come later than a failed descriptor. -/
def doomAfter (index : Nat) : List Slot → List Slot
  | [] => []
  | q :: rest =>
    if q.index = index then q :: rest.map (fun x => { x with doomed := true }) else q :: doomAfter index rest

/-- A status has been fixed for the descriptor at an index: on a halt-on-error ring a failure halts it, and HALT_INDEX
moves to a failure earlier than the last (R132, R133). -/
def noteStatus (r : RingId) (index : Nat) (st : Status) (s : State) : State :=
  let x := getRing s r
  if okStatus st || !x.haltMode || !(x.state == .enabled || x.state == .halted) ||
      x.slots.any (fun q => q.index == index && q.doomed) then s
  else
    let s1 := setRing r { x with state := .halted, haltIndex := index, slots := doomAfter index x.slots } s
    let s2 := if x.state == .enabled then raiseRing r s1 else s1
    cancelLater r s2

/-! ### Takeover (R64, R67, R229, R258, R259, R307) -/

def moveRes (u r : UnitRef) (ps : List Placement) : List Placement :=
  ps.map (fun p => if p.res == .unit u then { p with res := .unit r } else p)

/-- Inputs are gathered again, and nothing of the first run stays but its draw and its digests (R74, R141, R229). -/
def regather (j : Job) : Job :=
  { j with stage := if dSrcLen j.desc = 0 || !(takesSource j.op) then .ready else .gathering, source := none, srcList := none,
           bytes := 0, out := [], steps := 0, digest := if isEdge j.op then j.digest else none, secondPass := false,
           keyLoaded := false, key := [], sideOn := false, blinds := [], saved := none, segment := none,
           drawBytes := if j.op == .rngOut then dDstLen j.desc else j.drawBytes }

/-- The job runs again from its first byte after a fault; R253 blinds the one that was running on an Edge. -/
def rerunJob (u r : UnitRef) (j : Job) : Job :=
  let j' := regather j
  { j' with unit := some r, places := moveRes u r j.places, retried := true, rerun := true, again := true,
            blinded := u.kind == .edge && j.stage == .running }

/-- It issues its reads again. -/
def rerunOn (u r : UnitRef) (tag : Nat) (s : State) : State := requestNamed tag (modJob tag (rerunJob u r) s)

/-- EDGE_PADDED_CNT counts the blinded runs after a fault. -/
def countPadded (u : UnitRef) (j : Job) (s : State) : State :=
  { s with units := { s.units with
      paddedCnt := if u.kind == .edge && j.stage == .running then sat32 s.units.paddedCnt else s.units.paddedCnt } }

/-- A job that had not started; the key register of its new Blade is loaded afresh (R202). -/
def movedJob (u r : UnitRef) (j : Job) : Job :=
  { j with unit := some r, places := moveRes u r j.places, retried := true, sideOn := j.sideOn && u.kind != .blade,
           keyLoaded := j.keyLoaded && u.kind != .blade, key := if u.kind == .blade then [] else j.key }

/-- A suspended Blade job goes on from its entry; an Edge job's slots are copied, one at the barrier with them (R258). -/
def resumedJob (u r : UnitRef) (j : Job) : Job :=
  { j with unit := some r, places := moveRes u r j.places, retried := true, rerun := true,
           stage := if u.kind == .edge && j.stage != .barrier then .copying else j.stage }

/-- R306: the reseed that the test of a Groomer counts. -/
def reseedTerm (s : State) (k : UnitKind) : Pico :=
  if k == .groomer then derated s.gate.derate (groomerReseed (planBand s.gate.band)) else 0

/-- R224: the unit has room for one more job of more than 16 KiB, when this is one. -/
def roomyFor (s : State) (large : Bool) (u : UnitRef) : Bool :=
  !large || decide (((jobsOn s u).filter (fun j => j.large)).length < 8)

/-- The unit that R67 finds for a job: in service, standby, spare, in this order, by the tests of admission. -/
def rehome (s : State) (k : UnitKind) (p : Placement) (slots : Nat) (large : Bool) : Option UnitRef :=
  let refs := fun (f : UnitState → Bool) => (unitsIn s k f).map (fun n => ({ kind := k, num := n } : UnitRef))
  let order := candidates s k p.deadline ++ refs (fun x => x == .standby) ++ refs (fun x => x == .spare)
  order.find? (fun v => (k != .edge || decide (slots ≤ (freeSlots s v).length)) && roomyFor s (k == .blade && large) v &&
    fitsWith s (reseedTerm s k) { p with res := .unit v, release := tickTime s.now, time := p.redo })

/-- R67: the job runs again on a healthy unit that still meets its deadline, or is cancelled. -/
def retryElsewhere (tag : Nat) (u : UnitRef) (s : State) : State :=
  match findJob s tag with
  | none => s
  | some j =>
    match j.places.find? (fun p => p.res == .unit u) with
    | none => finishJob tag .cancelled (modJob tag (fun j => { j with noOutput := true }) s)
    | some p =>
      match rehome s u.kind p j.slots.length j.large with
      | none => finishJob tag .cancelled (modJob tag (fun j => { j with noOutput := true, retried := true, unit := some u }) s)
      | some v =>
        let s1 := if unitState s v == .spare then setUnitState v .inService s else s
        requestNamed tag (modJob tag (fun j => { rerunJob u v j with
            slots := if u.kind == .edge then (freeSlots s v).take j.slots.length else [] }) (countPadded u j s1))

/-- The job's gather is complete and its inputs stand in its slots (R258). -/
def inSlots (j : Job) : Bool :=
  j.stage == .suspended || j.stage == .waitingKey || j.stage == .ready || j.stage == .copying ||
    (j.stage == .barrier && j.source.isSome)

/-- One job of the faulted unit u moves to reserve r, when there is one; `bad` are the jobs with an illegal or uncorrectable
word in their slots or their suspension entry.  A job whose status is fixed already ends with it. -/
def takeOver (u : UnitRef) (r : Option UnitRef) (bad : List Nat) (s : State) (j : Job) : State :=
  if j.stage == .finished then freeMemory j.tag s
  else if j.status.isSome then finishJob j.tag .cancelled (modJob j.tag (fun j => { j with noOutput := true }) s)
  else match r with
  | none => retryElsewhere j.tag u s
  | some v =>
    let clash := j.slots.any (fun i => (slotsHeld s v).contains i)
    if clash || (j.again && j.stage == .running) || (bad.contains j.tag && j.stage != .running) then retryElsewhere j.tag u s
    else if j.stage == .running || (u.kind == .groomer && j.stage == .suspended) then
      rerunOn u v j.tag (countPadded u j s)
    else if u.kind == .edge && inSlots j then modJob j.tag (resumedJob u v) s
    else if j.stage == .suspended then modJob j.tag (resumedJob u v) s
    else modJob j.tag (movedJob u v) s

/-- Jobs that use the unit beside their own: a derivation, a message hash or a draw not yet done. -/
def sideWork (u : UnitRef) (j : Job) : Bool :=
  j.unit != some u && j.places.any (fun p => p.res == .unit u) &&
    (match u.kind with
     | .lift => !j.keyLoaded
     | .hash => digestDue j || challengeDue j
     | .groomer => drawDue j
     | _ => false)

/-- One job's side work moves to the reserve, or to a unit that has room; without one the job ends. -/
def moveOneSide (u : UnitRef) (r : Option UnitRef) (first : Option Nat) (j : Job) (s : State) : State :=
  match r with
  | some v => modJob j.tag (fun j => { j with places := moveRes u v j.places, retried := true, sideOn := false,
                                              rerun := j.rerun || first == some j.tag }) s
  | none =>
    match j.places.find? (fun p => p.res == .unit u) with
    | none => s
    | some p => match rehome s u.kind p 0 false with
      | some v => modJob j.tag (fun j => { j with places := moveRes u v j.places, retried := true, sideOn := false,
                                                  rerun := j.rerun || first == some j.tag }) s
      | none => finishJob j.tag .cancelled (modJob j.tag (fun j => { j with noOutput := true, retried := true }) s)

/-- Side work moves with its unit; what was in progress is done afresh: of the draws on a Groomer the first in the order of
R60. -/
def moveSideWork (u : UnitRef) (r : Option UnitRef) (s : State) : State :=
  let js := s.rings.jobs.filter (sideWork u)
  let first := if u.kind == .groomer then (firstToRun u js).map (fun j => j.tag)
    else (js.find? (fun j => j.sideOn)).map (fun j => j.tag)
  let moved := js.foldl (fun s j => moveOneSide u r first j s) s
  -- placements whose work is done stay with the reserve
  match r with
  | some v => { moved with rings := { moved.rings with
      jobs := moved.rings.jobs.map (fun j => { j with places := moveRes u v j.places }) } }
  | none => moved

/-- Refills placed on a Groomer move to its reserve; without one the port asks again (R307, R309). -/
def moveRefills (u : UnitRef) (r : Option UnitRef) (s : State) : State :=
  { s with merya := { s.merya with cores := tblModAll Rink.reset (List.range 8) s.merya.cores (fun _ k => { k with
      refill := match k.refill, r with
        | some p, some v => some (if p.res == .unit u then { p with res := .unit v } else p)
        | some p, none => if p.res == .unit u then none else some p
        | none, _ => none }) } }

/-! ### The fault itself (R64, R229, R235, R257, R261, R267, R307, R320) -/

/-- Event source of a unit (R514). -/
def unitSource (u : UnitRef) : Nat :=
  match u.kind with
  | .edge => 256 + u.num
  | .blade => 324 + u.num
  | .lift => 342 + u.num
  | .hash => 350 + u.num
  | .groomer => 592 + u.num

/-- The capture: it holds the first fault until its event bit is cleared. -/
def captureUnit (u : UnitRef) (tag place : Nat) (s : State) : State :=
  let f : UnitFault := { valid := true, num := u.num, tag := tag, place := place }
  { s with units := { s.units with
      edgeFault := if u.kind == .edge && !(s.units.edgeEvt.getLsbD 0) then f else s.units.edgeFault,
      bladeFault := if u.kind == .blade && !(s.units.bladeEvt.getLsbD 0) then f else s.units.bladeFault } }

/-- The fault's event. -/
def faultEvent (u : UnitRef) (s : State) : State :=
  match u.kind with
  | .edge => setEdgeEvt 0 u.num s
  | .blade => setBladeEvt 0 u.num s
  | .lift => setLiftEvt u.num s
  | .hash => raiseEvent (350 + u.num) (word u.num) 0 s
  | .groomer => setGrmEvt 3 u.num s

/-- What a faulted unit loses: an Edge its masking generator and its operand memory (R261), a Groomer its state. -/
def dropUnitState (u : UnitRef) (s : State) : State :=
  match u.kind with
  | .edge => clearRange (unitBank u) 0 8192 { s with units := { s.units with
      mask := tblMod MaskGen.reset s.units.mask (18 + u.num) (fun m => { m with seed := [], drawn := 0 }) } }
  | .groomer => { s with powder := { s.powder with
      grm := tblMod Groomer.reset s.powder.grm u.num (fun g =>
        { g with instantiated := false, k := [], v := [], count := 0, due := false, hardStall := false }) } }
  | _ => s

/-- The reserve takes the faulted unit's place; SPARE_USED for an Edge or Blade spare. -/
def useReserve (r : UnitRef) (s : State) : State :=
  let spare := unitState s r == .spare
  let s1 := setUnitState r .inService s
  if spare then
    match r.kind with
    | .edge => setEdgeEvt 2 r.num s1
    | .blade => setBladeEvt 1 r.num s1
    | _ => s1
  else s1

/-- Units of a kind take up the work that has come to them. -/
def dispatchKind (k : UnitKind) (s : State) : State :=
  ((s.rings.jobs.filterMap (fun j => j.unit)).filter (fun u => u.kind == k)).foldl (fun s u => dispatchUnit u s) (feedSides s)

/-- A unit fault with its takeover. -/
def faultUnit (u : UnitRef) (code place : Nat) (bad : List Nat) (s : State) : State :=
  let before := poolCounts s
  let tag := match (jobsOn s u).find? (fun j => j.stage == .running) with
    | some j => j.tag % 2048
    | none => 0
  let old := unitState s u
  let reserve := if reserveOf s u.kind == some u then none else reserveOf s u.kind
  let js := jobsOn s u
  let s1 := captureUnit u tag place (setUnitRec u { state := .faulted, faultCode := code, restartPending := false,
                                                    afterEnable := false } s)
  let s2 := dropUnitState u s1
  let s3 := trkRequest (trkReq 0x0401 (unitSource u)
    (bytesLE 1 code ++ bytesLE 1 place ++ bytesLE 2 tag)) s2
  let s4 := { s3 with patrol := { s3.patrol with
      unitFaults := s3.patrol.unitFaults.filter (fun t => decide (s3.now < t + 100000000)) ++ [s3.now] } }
  -- a unit that carried no work (a spare, one under test) leaves no place for a reserve to fill
  let used := old == .inService || !js.isEmpty
  let r := if used then reserve else none
  let s5 := match r with
    | some v => useReserve v s4
    | none => s4
  let s7 := js.foldl (takeOver u r bad) s5
  let s8 := moveSideWork u r s7
  let s9 := renameReserves u.kind (rebalance u.kind (if u.kind == .groomer then moveRefills u r s8 else s8))
  dispatchKind u.kind (faultEvent u (noteShrink before s9))

/-! ### Vectors, enable and disable (R230, R232 to R234, R262 to R266) -/

/-- UNIT_VECTORS_DONE for a unit in TESTING. -/
def vectorsDone (u : UnitRef) (pass : Bool) (s : State) : State :=
  let r := unitRec s u
  if r.state != .testing then s
  else if pass then
    noteShrink (poolCounts s) (renameReserves u.kind (rebalance u.kind
      (setUnitRec u { state := .inService, faultCode := 0, restartPending := false, afterEnable := false } s)))
  else
    let s1 := setUnitRec u { state := .faulted, faultCode := if r.afterEnable then 3 else 2, restartPending := false,
                             afterEnable := false } s
    match u.kind with
    | .edge => setEdgeEvt 3 u.num s1
    | .blade => setBladeEvt 2 u.num s1
    | .hash => raiseEvent (350 + u.num) (word u.num) 0 s1
    | .groomer => setGrmEvt 3 u.num s1
    | .lift => setLiftEvt u.num s1

/-- CMD_IGNORED of a unit control register. -/
def unitCmdIgnored (k : UnitKind) (n : Nat) (s : State) : State :=
  if k == .edge then setEdgeEvt 4 n s else setBladeEvt 3 n s

/-- ENABLE of an Edge or Blade. -/
def enableUnit (k : UnitKind) (n : Nat) (s : State) : State :=
  let u : UnitRef := { kind := k, num := n }
  let r := unitRec s u
  if decide (unitCount k ≤ n) then unitCmdIgnored k n s
  else if r.state == .draining then setUnitRec u { r with restartPending := true } s
  else if r.state == .disabled then
    setUnitRec u { r with state := .testing, restartPending := false, afterEnable := true } s
  else unitCmdIgnored k n s

/-- DISABLE of an Edge or Blade. -/
def disableUnit (k : UnitKind) (n : Nat) (s : State) : State :=
  let u : UnitRef := { kind := k, num := n }
  let r := unitRec s u
  if decide (unitCount k ≤ n) || inWhiteout s then unitCmdIgnored k n s
  else if r.state == .draining then setUnitRec u { r with restartPending := false } s
  else if r.state != .inService || plannedCount s k == 1 then unitCmdIgnored k n s
  else
    let before := poolCounts s
    noteShrink before (renameReserves k (rebalance k (settleUnit u (setUnitRec u { r with state := .draining } s))))

end Sys2Proof.Machine
end

