-- ==== Sys2Proof/Machine/Gate.lean ====
section
/-!
DEFINITION. Sys2Proof/Machine/Gate.lean: a descriptor in staging and the Gate's decision on it (R39, R52, R116, R122 to
R124, R133, R160, R161, R173, R182 to R186, R193, R200, R208, R215, R273, R274, R284, R285, R348, R389, R411, R421, R435,
R436, R504, R507, R546).
-/
namespace Sys2Proof.Machine

/-! ### Curves and keys that a descriptor names (R73, R191, R273, R274, R290, R546) -/

/-- R290: entries whose CURVE_LOAD has begun stage 10 and has neither committed nor failed. -/
def loadingEntries (s : State) : List Nat :=
  s.rings.jobs.filterMap (fun j =>
    if curveWork j && j.status.isNone then j.block.map (fun b => cbBody b 0 8) else none)

/-- The short-Weierstrass curve of an entry: none when it is EMPTY or LOADING. -/
def curveAt (s : State) (e : Nat) : Option WCurve :=
  if e < 6 then some (builtInCurve e)
  else if 8 ≤ e ∧ e < 32 then
    let c := tblGet Curve.reset s.curves.table e
    if c.loaded && !((loadingEntries s).contains e) then some (curveOfImage c.image) else none
  else none

/-- PARAM_DIGEST of an entry. -/
def curveDigest (s : State) (e : Nat) : Bytes :=
  if e < 8 then sha256 (curveImage (builtInCurve e)) else (tblGet Curve.reset s.curves.table e).digest

/-- The curve entry a descriptor names, when its opcode is a short-Weierstrass one. -/
def namedEntry (o : Op) (d : Descriptor) : Option Nat :=
  match o with
  | .ecdsaSign | .ecdsaVerify | .ecdh => some (dEntry d)
  | .ecKeygen => if dAux d < 0x2000 then some (dAux d % 32) else none
  | _ => none

/-- R274: the KIND a private-key opcode needs fits the key's. -/
def kindFits (o : Op) (d : Descriptor) (kind : Nat) : Bool :=
  match o with
  | .ecdsaSign | .ecdh => kind == 0x1000 + dEntry d
  | .eddsaSign => kind == 0x2000 + dAux d % 2
  | .xdh => kind == 0x3000 + dAux d % 2
  | .rsaSign => decide (0x4080 ≤ kind) && decide (kind ≤ 0x4200)
  | _ => false

/-- The private key an opcode may use: the current generation of its slot, of the right KIND, whose curve entry still
matches its record; K255 in FACTORY serves no job (R509). -/
def usableKey (s : State) (o : Op) (d : Descriptor) : Option KeyMat :=
  match (privSlot s (dSlot d)).cur with
  | none => none
  | some m =>
    let bound := match o with
      | .ecdsaSign | .ecdh => curveDigest s (dEntry d) == m.digest
      | _ => true
    if kindFits o d m.kind.toNat && bound && !(s.life.state == .factory && dSlot d == 255) then some m else none

/-- R245, R291: the length row that a CURVE_LOAD is admitted with, since its image is not yet read: the longest whose footprint
an empty Edge holds (log entry 35). -/
def curvePlanRow (u : Units) : Nat :=
  ([9, 8, 7, 6, 5, 4].find? (fun w => decide (operandSlots u (8 * w) 28 ≤ slotCount u))).getD 9

/-- R546: the facts of the state that a job names; 4 and the 2,048 row stand in for a missing curve or key. -/
def factsOf (s : State) (o : Op) (d : Descriptor) : Facts :=
  let c := (namedEntry o d).bind (curveAt s)
  let k := match o with
    | .rsaVerify => rsaModulusLen d
    | .rsaSign => match (privSlot s (dSlot d)).cur with
      | some m => if kindFits .rsaSign d m.kind.toNat then m.kind.toNat % 1024 else 256
      | none => 256
    | _ => 0
  { mode := if isSession o then (tblGet Session.reset s.sess.table (dSlot d)).mode else 0,
    w := match c with
      | some c => wRow c.pBits
      | none => if o == .critical .curveLoad then curvePlanRow s.units else 4,
    lp := match c with
      | some c => c.lp
      | none => 0,
    ln := match c with
      | some c => c.ln
      | none => 0,
    nBits := match c with
      | some c => c.nBits
      | none => 0,
    k := k }

/-! ### Checks of R52 before the state is read -/

def sessionOf (s : State) (d : Descriptor) : Session := tblGet Session.reset s.sess.table (dSlot d)

/-- The session's root slot holds a generation that the session may use (R183, without the TX_CTR limit). -/
def sessionUsable (s : State) (c : Session) : Option KeyMat :=
  match (rootSlot s c.rootSlot.toNat).cur with
  | none => none
  | some m => if c.isSet && !m.kek && (flagFollow c.flags || c.gen.toNat == m.gen) then some m else none

/-- R421: a job that the carve-out admits. -/
def carveJob (s : State) (o : Op) (d : Descriptor) (c : Cls) : Bool :=
  carveOut s && isSession o && c == .L && flagLifeSafety (sessionOf s d).flags && (sessionUsable s (sessionOf s d)).isSome

/-- The Lock check of R52 with R160 and R285. -/
def lockFails (s : State) (o : Op) (d : Descriptor) (c : Cls) : Bool :=
  match o with
  | .critical code =>
    (isLocked s && code != .unlock) ||
    ((cmdGroup code == .key || cmdGroup code == .policy) && guardUp s) ||
    (cmdGroup code == .key && inWhiteout s)
  | _ => (isLocked s && !(carveJob s o d c)) || (o == .ecKeygen && (guardUp s || inWhiteout s))

/-- R504, R507: the life-cycle state admits the operation. -/
def lifeAdmits (s : State) (o : Op) : Bool :=
  match s.life.state with
  | .blank => false
  | .retired => o == .trkExport || o == .critical .trkReceipt
  | _ => true

/-- The class check of R52: R39, R40, R116, R348. -/
def classFails (s : State) (r : RingId) (x : Ring) (d : Descriptor) : Bool :=
  match opOf d with
  | none => true
  | some o =>
    let f := factsOf s o d
    !(lifeAdmits s o) || dClass d != clsCode x.cls || decide (clsCeiling x.cls < payload d) ||
      shapeBad d (tblGet 0 s.ctrs.grant (dCmdAuth d)) || !(kindAdmissible o f.w (8 * f.k) x.cls) ||
      (!(isHost r) && (isCritical o || isCard o || o == .trkExport))

/-- The readiness check (R52, R281, R313, R316); a CURVE_LOAD under degraded service meets R291 instead. -/
def readinessFails (s : State) (o : Op) (d : Descriptor) : Bool :=
  if o == .critical .curveLoad then !s.powder.seeded && !(rngDegraded s)
  else ((needsRandom o d || signsOrGenerates o) && !s.powder.seeded) || (signsOrGenerates o && rngDegraded s)

/-- Credits of R173. -/
def hasCredit (s : State) (n : Nat) : Bool :=
  let c := tblGet Counter.reset s.ctrs.table n
  decide (0 < c.short) && decide (0 < c.long)

/-- R173, R435, R436: what a critical command or an export needs beside the schedule. -/
def creditFails (s : State) (o : Op) (d : Descriptor) : Bool :=
  match o with
  | .critical code =>
    !(hasCredit s (dCmdAuth d)) ||
      (trkGenFull s.trk && !(cmdGroup code == .alarm || cmdGroup code == .unlock || code == .trkReceipt))
  | .trkExport => !(hasCredit s 8)
  | _ => false

/-- The checks of R52 up to the jobs in flight; `o` is the descriptor's operation. -/
def earlyRefusal (s : State) (r : RingId) (x : Ring) (d : Descriptor) (tagged : Bool) : Option Status :=
  match opOf d with
  | none => some .refusedClass
  | some o =>
    if classFails s r x d then some .refusedClass
    else if lockFails s o d x.cls then some .refusedLocked
    else if !(envelopeOk s) then some .refusedEnvelope
    else if readinessFails s o d then some .notReady
    else if !tagged then some .refusedCapacity
    else none

/-! ### Checks that need the state (R546) -/

/-- R215: the earlier first and middle pieces of the session whose entries are not built. -/
def chainPieces (s : State) (d : Descriptor) : List Job :=
  s.rings.jobs.filter (fun k => isSession k.op && k.admitted && k.stage != .built &&
    (dChain k.desc == 1 || dChain k.desc == 2) && (k.sess.map (fun c => c.session)) == some (dSlot d))

/-- R200, R215: the generation of the open chain that a later piece continues. -/
def chainGenOf (s : State) (d : Descriptor) : Option Nat :=
  match (chainPieces s d).getLast? with
  | some k => k.sess.map (fun c => c.gen)
  | none => if (sessionOf s d).chainOpen then some (sessionOf s d).chainGen.toNat else none

/-- R186, R213: the frame counter of the open chain that a later piece continues. -/
def chainCounterOf (s : State) (d : Descriptor) : DWord :=
  match (chainPieces s d).getLast? with
  | some k => ((k.sess.map (fun c => c.counter)).getD 0)
  | none => if (sessionOf s d).chainOpen then BitVec.ofNat 64 (contNat (sessionOf s d).cont 0x10 8) else 0

/-- R208. -/
def layoutFails (a : Alg) (o : Op) (d : Descriptor) : Bool :=
  let text := dSrcLen d - dAadLen d
  let tag := if lastPiece d then 16 else 0
  !(algAccepts a o) ||
  (dChain d != 0 && a == .ccm) ||
  (dAadLen d != 0 && (a == .ctr || a == .cbc)) ||
  (dPad d && a != .cbc) ||
  decide (dDstLen d < sessionOut a o d) ||
  (a == .cbc && !(dPad d) && dSrcLen d % 16 != 0) ||
  (a == .cbc && o == .sesDecrypt && dPad d && (dSrcLen d == 0 || dSrcLen d % 16 != 0)) ||
  ((a == .gcm || a == .ccm) && o == .sesDecrypt && decide (text < tag)) ||
  (a == .ccm && decide (16777215 < (if o == .sesDecrypt then text - 16 else text))) ||
  (o == .sesDecrypt && !(dStreamed d) && decide (65536 < sessionOut a o d))

def sessionCheck (s : State) (o : Op) (d : Descriptor) : Option Status :=
  let c := sessionOf s d
  match modeAlg c.mode, sessionUsable s c with
  | some a, some m =>
    if isSending o && nonceMode a && (dChain d == 0 || dChain d == 1) && c.txCtr == BitVec.allOnes 64 then some .keyEmpty
    else if (dChain d == 2 || dChain d == 3) && (chainGenOf s d).any (fun g => g != m.gen) then some .keyRevoked
    else if layoutFails a o d then some .inputInvalid
    else none
  | _, _ => some .keyEmpty

/-- R273: the source and destination lengths for the curve or key. -/
def keyLayoutFails (s : State) (o : Op) (d : Descriptor) : Bool :=
  let f := factsOf s o d
  let entryBad := match namedEntry o d with
    | some e => (curveAt s e).isNone
    | none => false
  let digestBad := fun (n : Nat) =>
    if o == .ecdsaSign || o == .ecdsaVerify then dHash d == 0 && (n == 0 || decide (64 < n))
    else dPrehashed d && n != hashLen (dHash d)
  let pssBad := dPss d && decide (f.k - 1 < hashLen (dHash d) + dSlen d + 2)
  entryBad || match o with
    | .ecdsaSign => digestBad (dSrcLen d) || decide (dDstLen d < 2 * f.ln)
    | .ecdsaVerify =>
      decide (dSrcLen d < 1 + 2 * f.lp + 2 * f.ln) || digestBad (dSrcLen d - (1 + 2 * f.lp + 2 * f.ln))
    | .ecdh => dSrcLen d != 1 + 2 * f.lp || decide (dDstLen d < f.lp)
    | .ecKeygen => decide (dDstLen d < outputLen o d f)
    | .rsaSign => digestBad (dSrcLen d) || decide (dDstLen d < f.k) || pssBad
    | .rsaVerify => decide (dSrcLen d < 2 * f.k + 4) || digestBad (dSrcLen d - (2 * f.k + 4)) || pssBad
    | _ => false

/-- R546: the first failing check that needs the state. -/
def stateCheck (s : State) (o : Op) (d : Descriptor) : Option Status :=
  if isSession o then
    if contextBad s (dSlot d) then some .memUncorrectable else sessionCheck s o d
  else if isPrivate o && (usableKey s o d).isNone then some .keyEmpty
  else if o == .ecKeygen && s.life.state == .factory && dSlot d == 255 then some .keyEmpty
  else if isEdge o && keyLayoutFails s o d then some .inputInvalid
  else if o == .ecKeygen then
    let v := privSlot s (dSlot d)
    if slotLive v || v.reserved || v.number == 0xFFFFFFFF then some .inputInvalid else none
  else none

/-! ### The decision -/

/-- R161, R215: what else holds the release back. -/
def afterPredOf (s : State) (r : RingId) (o : Op) (d : Descriptor) : Pico :=
  if isCritical o then
    maxOf ((s.rings.jobs.filter (fun j => j.ring == r && j.admitted)).map (fun j => j.deadline - micros 3))
  else if isSession o && (dChain d == 2 || dChain d == 3) then
    match (chainPieces s d).getLast? with
    | some k => k.edl
    | none => 0
  else 0

def candOf (s : State) (r : RingId) (x : Ring) (t0 : Nat) (o : Op) (d : Descriptor) : Cand :=
  { host := isHost r, cls := x.cls, t0 := t0, op := o, desc := d, facts := factsOf s o d, ring := r,
    afterPred := afterPredOf s r o d }

/-- What the Gate answers. -/
inductive Decision where
  | refuse (st : Status)
  | fixed (o : Op) (st : Status)
  | admitJob (o : Op) (p : Plan)
  deriving DecidableEq, Repr

def decideOn (s : State) (r : RingId) (x : Ring) (t0 : Nat) (d : Descriptor) (tagged : Bool) : Decision :=
  match earlyRefusal s r x d tagged with
  | some st => .refuse st
  | none => match opOf d with
    | none => .refuse .refusedClass
    | some o => match stateCheck s o d with
      | some st => .fixed o st
      | none =>
        match planJob s (candOf s r x t0 o d) with
        | none => .refuse .refusedCapacity
        | some p => if creditFails s o d then .refuse .refusedCapacity else .admitJob o p

/-- The refusal of a critical command comes from its credit alone (CTR_REFUSE_CNT). -/
def refusedForCredit (s : State) (r : RingId) (x : Ring) (t0 : Nat) (d : Descriptor) (tagged : Bool) : Bool :=
  match opOf d with
  | some o =>
    isCritical o && !(hasCredit s (dCmdAuth d)) && (earlyRefusal s r x d tagged).isNone && (stateCheck s o d).isNone &&
      (planJob s (candOf s r x t0 o d)).isSome
  | none => false

/-! ### Admission -/

/-- R213: RESULT of a receiving job is XPARAM. -/
def receiveResult (s : State) (o : Op) (d : Descriptor) : DWord :=
  match modeAlg (sessionOf s d).mode with
  | some a => if (o == .sesDecrypt || o == .sesMacVerify) && nonceMode a then dXparam d else 0
  | none => 0

/-- R182: what a session job copies. -/
def sessionCopy (s : State) (o : Op) (d : Descriptor) (gen : Nat) : SessionCopy :=
  let c := sessionOf s d
  let takes := isSending o && (dChain d == 0 || dChain d == 1) && (modeAlg c.mode).any nonceMode
  { session := dSlot d, label := c.label, rootSlot := c.rootSlot.toNat, mode := c.mode, flags := c.flags, salt := c.salt,
    epoch := c.epoch, gen := gen,
    counter := if takes then c.txCtr
      else if isSending o && (dChain d == 2 || dChain d == 3) then chainCounterOf s d else dXparam d,
    took := takes, passed := false,
    cont := c.cont, contOut := 0, started := false, chainBad := false }

/-- A job as it enters the part. -/
def newJob (s : State) (r : RingId) (x : Ring) (q : Slot) (tag : Nat) (o : Op) (d : Descriptor) : Job :=
  { tag := tag, ring := r, index := q.index, phase := q.phase, desc := d, op := o, cls := x.cls, t0 := q.t0,
    admitted := true, planBand := planBand s.gate.band, deadline := tickTime q.t0 + clsBudget x.cls, places := [],
    stage := .gathering, unit := none, reserve := none, retried := false, rerun := false, blinded := false,
    large := false, slots := [], steps := 0, sess := none, facts := factsOf s o d, holds := [], keyLoaded := false,
    key := [], srcList := none, dstList := none, source := none, block := none, digest := none, draw := none,
    drawBytes := if o == .rngOut then dDstLen d else drawLen o d (factsOf s o d), edl := 0, sideOn := false, again := false,
    digest2 := none, blinds := [], saved := none, segment := none, out := [], bytes := 0,
    result := if isSession o then receiveResult s o d else 0, status := none, noOutput := false, secondPass := false,
    counterSpent := false, entry := 0 }

/-- The generations an admitted job takes (R193). -/
def holdsOf (s : State) (o : Op) (d : Descriptor) : List VaultHold :=
  match o with
  | .critical _ => match (rootSlot s (24 + dCmdAuth d)).cur with
    | some m => [{ slot := .root (24 + dCmdAuth d), gen := m.gen }]
    | none => []
  | _ =>
    if isSession o then
      let c := sessionOf s d
      match (rootSlot s c.rootSlot.toNat).cur with
      | some m => [{ slot := .root c.rootSlot.toNat, gen := m.gen }]
      | none => []
    else if isPrivate o then
      match usableKey s o d with
      | some m => [{ slot := .priv (dSlot d), gen := m.gen }]
      | none => []
    else []

/-- A credit of each kind is taken from a counter. -/
def takeCredit (n : Nat) (s : State) : State :=
  let low := (tblGet Counter.reset s.ctrs.table n).long == 86400
  let s1 := { s with ctrs := { s.ctrs with
      table := tblMod Counter.reset s.ctrs.table n (fun c => { c with short := c.short - 1, long := c.long - 1 }) } }
  if low then setCtrEvt 4 s1 else s1

/-- A reserved credit returns; none rises above its most (R173). -/
def returnCredit (n : Nat) (s : State) : State :=
  { s with ctrs := { s.ctrs with
      table := tblMod Counter.reset s.ctrs.table n (fun c =>
        { c with short := min 1000 (c.short + 1), long := min 691200 (c.long + 1) }) } }

/-- A sending job takes a frame counter from its context. -/
def takesFrame (o : Op) (d : Descriptor) (c : Session) : Bool :=
  isSending o && (dChain d == 0 || dChain d == 1) && (modeAlg c.mode).any nonceMode

/-- The context after a usable admission: FOLLOW takes the generation, a sending job the frame counter; their words, GEN's and
TX_CTR's, are written. -/
def takeFrame (o : Op) (d : Descriptor) (gen : Nat) (s : State) : State :=
  let n := dSlot d
  let c := tblGet Session.reset s.sess.table n
  let s1 := { s with sess := { s.sess with
      table := tblMod Session.reset s.sess.table n (fun c =>
        { c with gen := if flagFollow c.flags then BitVec.ofNat 32 gen else c.gen,
                 txCtr := if takesFrame o d c then c.txCtr + 1 else c.txCtr }) } }
  writeContextWords n 5 (bitNat (flagFollow c.flags)) (writeContextWords n 6 (bitNat (takesFrame o d c)) s1)

/-- What the admission itself changes in the state that the job names. -/
def admitEffects (o : Op) (d : Descriptor) (holds : List VaultHold) (s : State) : State :=
  match o with
  | .critical _ => takeCredit (dCmdAuth d) s
  | .trkExport => takeCredit 8 s
  | .ecKeygen => { s with vault := { s.vault with
      priv := tblMod VSlot.reset s.vault.priv (dSlot d) (fun v => { v with reserved := true }) } }
  | _ => if isSession o then takeFrame o d ((holds.map (fun h => h.gen)).headD 0) s else s

/-- An admitted job joins the jobs in flight; telemetry counts it. -/
def joinJobs (j : Job) (s : State) : State :=
  let s1 := { s with rings := { s.rings with jobs := s.rings.jobs ++ [j] } }
  { s1 with tel := { s1.tel with
      admitted := tblMod 0 s.tel.admitted (clsCode j.cls) sat32,
      inflightMax := max s.tel.inflightMax (tagsHeld s1).length } }

/-! ### Arrival in staging (R45, R117, R124, R133) -/

/-- The slot of an arriving descriptor takes its tag and its NO_IRQ. -/
def markArrived (r : RingId) (index : Nat) (tag : Option Nat) (quiet : Bool) (s : State) : State :=
  modRing r (fun x => { x with
      slots := modFirst (fun q => q.index == index) (fun q => { q with arrived := true, tag := tag, quiet := quiet })
        x.slots }) s

/-- An entry without a job: unit none, nothing written. -/
def bareEntry (cookie : DWord) (result : DWord) (tag : Nat) (r : RingId) (st : Status) (band : Band) (q : Slot) :
    BitVec 256 :=
  entryRaw cookie result 0 tag r st 0 0 false band false q.index q.phase

/-- A refusal: its own entry at once, the class's count, and the halt of R132. -/
def refuseDesc (r : RingId) (x : Ring) (q : Slot) (d : Descriptor) (tag : Nat) (st : Status) (s : State) : State :=
  let s1 := { s with
    gate := { s.gate with refused := tblMod 0 s.gate.refused (clsCode x.cls) sat32 },
    rings := { s.rings with noTagCnt := if 2048 ≤ tag then sat32 s.rings.noTagCnt else s.rings.noTagCnt } }
  let s2 := noteStatus r q.index st (markArrived r q.index none (dNoIrq d) s1)
  entryNow r q.index (bareEntry (dCookie d) 0 tag r st (planBand s.gate.band) q) s2

/-- A descriptor whose entry is fixed without a decision, in its own place (R133, R137). -/
def fixedDesc (r : RingId) (x : Ring) (q : Slot) (d : Descriptor) (cookie : DWord) (tag : Nat) (st : Status)
    (s : State) : State :=
  let j : Job := { newJob s r x q tag .hash d with
    admitted := false, stage := .built, status := some st, result := 0, drawBytes := 0,
    entry := bareEntry cookie 0 tag r st (planBand s.gate.band) q }
  let s1 := { s with rings := { s.rings with
      jobs := s.rings.jobs ++ [j],
      noTagCnt := if 2048 ≤ tag then sat32 s.rings.noTagCnt else s.rings.noTagCnt,
      cancelCnt := if st == .cancelled && isHost r then sat32 s.rings.cancelCnt else s.rings.cancelCnt } }
  advanceRing r (markArrived r q.index (some tag) (dNoIrq d) s1)

/-- The job that an admission creates: the Gate's plan, the generations it takes and what it copies. -/
def admittedJob (r : RingId) (x : Ring) (q : Slot) (d : Descriptor) (tag : Nat) (o : Op) (p : Plan) (s : State) : Job :=
  let holds := holdsOf s o d
  let gen := (holds.map (fun h => h.gen)).headD 0
  { newJob s r x q tag o d with
    edl := engineDeadline s (candOf s r x q.t0 o d), places := p.places, unit := p.unit, reserve := p.reserve, slots := p.slots, large := p.large, holds := holds,
    sess := if isSession o then some (sessionCopy s o d gen) else none,
    result := if isSession o then
        (if (sessionCopy s o d gen).took then (sessionOf s d).txCtr else receiveResult s o d) else 0 }

/-- The state in which an admitted descriptor's reads begin. -/
def admitted (r : RingId) (x : Ring) (q : Slot) (d : Descriptor) (tag : Nat) (o : Op) (p : Plan) (s : State) : State :=
  joinJobs (admittedJob r x q d tag o p s)
    (admitEffects o d (holdsOf s o d) (markArrived r q.index (some tag) (dNoIrq d) s))

/-- An admitted job; `go` starts its reads and its run. -/
def admitDesc (go : Nat → State → State) (r : RingId) (x : Ring) (q : Slot) (d : Descriptor) (tag : Nat) (o : Op)
    (p : Plan) (s : State) : State :=
  go tag (admitted r x q d tag o p s)

/-- An admitted job that completes at admission (R546). -/
def fixDesc (r : RingId) (x : Ring) (q : Slot) (d : Descriptor) (tag : Nat) (o : Op) (st : Status) (s : State) : State :=
  let gen := match (rootSlot s (sessionOf s d).rootSlot.toNat).cur with
    | some m => m.gen
    | none => 0
  let j : Job := { newJob s r x q tag o d with
    stage := .finished, status := some st, noOutput := true, drawBytes := 0,
    sess := if isSession o then
        let c := sessionCopy s o d gen
        some { c with took := false, counter := if isSending o && st != .keyRevoked then 0 else c.counter }
      else none }
  joinJobs j (markArrived r q.index (some tag) (dNoIrq d) s)

/-- The descriptor as staged: from the link, or from applet SRAM for an internal ring (R117, R347).  The manual names no
outcome for an uncorrectable word there; it is staged as it reads (DESIGN CHOICE, log entry 73). -/
def stagedDesc (s : State) (a : Arrival) : Descriptor :=
  match a.ring with
  | .host _ => a.desc
  | .internal n =>
    BitVec.ofNat 512 (natLE (mapBytes s ((getRing s (.internal n)).sqBase.toNat + 64 * a.index) 64))

/-- A protection failure of the descriptor read of an internal ring. -/
def descDenied (s : State) (a : Arrival) : Option (Acc × Verdict) :=
  match a.ring with
  | .host _ => none
  | .internal n => dmaVerdict s n .read ((getRing s (.internal n)).sqBase.toNat + 64 * a.index) 64

/-- The slot whose descriptor is still on its way. -/
def openSlot (s : State) (r : RingId) (index : Nat) : Option Slot :=
  (getRing s r).slots.find? (fun q => q.index == index && !q.arrived)

/-- It comes later than a failed descriptor of a ring that was HALTED with its read in flight (R133). -/
def cancelledOnArrival (s : State) (r : RingId) (index : Nat) : Bool :=
  (getRing s r).slots.any (fun q => q.index == index && q.doomed)

/-- The tag of R124, or the stand-in. -/
def tagFor (s : State) (a : Arrival) : Nat := (takeTag s a.pick).getD (noTag a.ring a.index)

/-! ### Refills of the random buffers (R309) -/

/-- The port of a core asks for a refill: 32 bytes or fewer, and none asked for. -/
def wantsRefill (s : State) (c : Nat) : Bool :=
  let k := rinkOf s c
  decide (k.buffer.length ≤ 32) && k.arriving.isEmpty && k.refill.isNone && (k.applet.isSome || k.stalled.isSome)

/-- The refill as the Gate plans it: a one-request draw of the applet's class, on the internal-ring terms of R54; class B where
the runtime itself loads (DESIGN CHOICE, log entry 80). -/
def refillPlace (s : State) (c : Nat) (g : UnitRef) : Placement :=
  let b := planBand s.gate.band
  let cls := match (rinkOf s c).applet with
    | some n => (applet s n).cls
    | none => .B
  let t := derated s.gate.derate (groomerRequest b + atRate 64 (groomerRate b))
  { res := .unit g, release := tickTime s.now + micros 3, deadline := tickTime s.now + clsBudget cls - micros 1, time := t,
    redo := t, piece := t }

/-- A refill that is asked for is placed on an in-service Groomer, or asked for again at a later decision. -/
def placeRefill (c : Nat) (s : State) : State :=
  if wantsRefill s c && s.powder.seeded then
    let reseed := derated s.gate.derate (groomerReseed (planBand s.gate.band))
    let p := placeOn s .groomer reseed (fun _ => true) (refillPlace s c)
    modCore c (fun k => { k with refill := p }) s
  else s

def placeRefills (s : State) : State := (List.range 8).foldl (fun s c => placeRefill c s) s

/-! ### Arrival -/

/-- The Gate reads the context of a session job that nothing refuses earlier (R389). -/
def gateReads (r : RingId) (x : Ring) (d : Descriptor) (tagged : Bool) (s : State) : State :=
  match earlyRefusal s r x d tagged, opOf d with
  | none, some o => if isSession o then readContext (dSlot d) s else s
  | _, _ => s

/-- A descriptor arrives in staging: its two extra charges, its tag, and the Gate's decision.  The row's own
descriptors are those that `mine` accepts; another is no occurrence of the row. -/
def arrive (go : Nat → State → State) (mine : Option Op → Bool) (a : Arrival) (s : State) : State :=
  let d := stagedDesc s a
  match openSlot s a.ring a.index with
  | none => s
  | some q =>
    if !(mine (opOf d)) then s
    else
      let x := getRing s a.ring
      let tag := tagFor s a
      let s0 := stageWords tag 0 32 (charge (if dOpcode d == 0x40 && isHost a.ring then 2 else 0) s)
      match descDenied s a, a.ring with
      | some (acc, v), .internal n =>
        fixedDesc a.ring x q d 0 tag .hostReadFault (noteStatus a.ring q.index .hostReadFault (faultDma n tag acc v s0))
      | _, _ =>
        if cancelledOnArrival s a.ring a.index then fixedDesc a.ring x q d (dCookie d) tag .cancelled s0
        else
          let s1 := gateReads a.ring x d (decide (tag < 2048)) s0
          placeRefills (match decideOn s1 a.ring x q.t0 d (decide (tag < 2048)) with
          | .refuse st =>
            let credit := refusedForCredit s1 a.ring x q.t0 d (decide (tag < 2048))
            refuseDesc a.ring x q d tag st { s1 with ctrs := { s1.ctrs with
              refuseCnt := if credit then sat32 s1.ctrs.refuseCnt else s1.ctrs.refuseCnt } }
          | .fixed o st => fixDesc a.ring x q d tag o st s1
          | .admitJob o p => admitDesc go a.ring x q d tag o p s1)

end Sys2Proof.Machine
end

