-- ==== Sys2Proof/Machine/Blades.lean ====
section
/-!
DEFINITION. Sys2Proof/Machine/Blades.lean: what a Blade computes for a session job, when its output leaves, and the replay
window (R184, R185, R187, R201, R205 to R222).
-/
namespace Sys2Proof.Machine

/-! ### The session key (R184, R201) -/

/-- Bytes 1 to 45 of M_i. -/
def deriveFixed (c : SessionCopy) (dir : Nat) : Bytes :=
  let bits := modeKeyBits c.mode
  [0x53, 0x45, 0x53, 0x31, 0x00] ++ vecBytes 256 c.label ++ bytesLE 1 dir ++ bytesLE 1 c.mode.toNat ++
    bytesBE 4 c.salt.toNat ++ bytesBE 2 bits

/-- The material of a generation that a job may still read: current, or retiring. -/
def matOf (v : VSlot) (gen : Nat) : Option KeyMat :=
  match v.cur with
  | some m => if m.gen = gen then some m else (v.old.map (fun r => r.mat)).find? (fun m => m.gen == gen)
  | none => (v.old.map (fun r => r.mat)).find? (fun m => m.gen == gen)

/-- The session key of a job. -/
def sessionKey (s : State) (j : Job) (c : SessionCopy) : Bytes :=
  match matOf (rootSlot s c.rootSlot) c.gen with
  | some m => kdf m.key (deriveFixed c (direction j.op c.flags)) (modeKeyBits c.mode)
  | none => []

/-! ### Frame counter and nonce (R185, R186, R217) -/

/-- The frame counter of a job's message: its own, or the one CONT holds for a later piece. -/
def frameOf (j : Job) (c : SessionCopy) : Nat :=
  if dChain j.desc == 2 || dChain j.desc == 3 then contNat c.cont 0x10 8 else c.counter.toNat

def nonceOf (c : SessionCopy) (frame : Nat) : Bytes := bytesBE 4 c.salt.toNat ++ bytesBE 8 frame

/-! ### The modes -/

/-- What a run gives: the output text, the tag that follows it, whether a check of it fails, and CONT. -/
structure BladeRun where
  text : Bytes
  tag : Bytes
  tagBad : Bool
  padBad : Bool
  cont : Bytes
  deriving DecidableEq, Repr

def zeros (n : Nat) : Bytes := List.replicate n 0

/-- CONT of R217 from its parts: 16 bytes, 16 bytes, two counts and the opcode. -/
def contBytes (x y : Bytes) (aLen pLen : Nat) (opcode : Nat) : Bytes :=
  slice x 0 16 ++ slice y 0 16 ++ bytesLE 8 aLen ++ bytesLE 7 pLen ++ bytesLE 1 opcode

def runGcm (rk : List Bytes) (j : Job) (c : SessionCopy) (mac : Bool) (src : Bytes) : BladeRun :=
  let later := dChain j.desc == 2 || dChain j.desc == 3
  let frame := frameOf j c
  let j0 := nonceOf c frame ++ bytesBE 4 1
  let checks := lastPiece j.desc && !(isSending j.op)
  let body := if checks then src.take (src.length - 16) else src
  let a := if mac then body else body.take (dAadLen j.desc)
  let p := if mac then [] else body.drop (dAadLen j.desc)
  let acc0 := if later then slice (vecBytes 384 c.cont) 0 16 else zeros 16
  let ctr0 := if later then contNat c.cont 0x18 4 else 2
  let aLen := (if later then contNat c.cont 0x20 8 else 0) + a.length
  let pLen := (if later then contNat c.cont 0x28 7 else 0) + p.length
  let text := ctrCrypt rk (nonceOf c frame ++ bytesBE 4 ctr0) p
  let acc1 := if a.isEmpty then acc0 else ghashBytes rk acc0 a
  let cipher := if isSending j.op then text else p
  let acc2 := if cipher.isEmpty then acc1 else ghashBytes rk acc1 cipher
  let tag := gcmTag rk acc2 aLen pLen j0
  { text := text, tag := if lastPiece j.desc && isSending j.op then tag else [],
    tagBad := checks && tag != src.drop (src.length - 16), padBad := false,
    cont := contBytes acc2 (bytesLE 8 frame ++ bytesLE 4 (ctr0 + ceilDiv p.length 16)) aLen pLen (dOpcode j.desc) }

def runCcm (rk : List Bytes) (j : Job) (c : SessionCopy) (src : Bytes) : BladeRun :=
  let nonce := nonceOf c (frameOf j c)
  let a := src.take (dAadLen j.desc)
  let rest := src.drop (dAadLen j.desc)
  if isSending j.op then
    { text := ctrCrypt rk (ccmCtr nonce 1) rest, tag := ccmTag rk nonce a rest, tagBad := false, padBad := false,
      cont := [] }
  else
    let text := ctrCrypt rk (ccmCtr nonce 1) (rest.take (rest.length - 16))
    { text := text, tag := [], tagBad := ccmTag rk nonce a text != rest.drop (rest.length - 16), padBad := false,
      cont := [] }

def runCtr (rk : List Bytes) (j : Job) (c : SessionCopy) (src : Bytes) : BladeRun :=
  let later := dChain j.desc == 2 || dChain j.desc == 3
  let blk := if later then slice (vecBytes 384 c.cont) 0 16
    else bytesBE 4 c.salt.toNat ++ bytesBE 8 (dXparam j.desc).toNat ++ bytesBE 4 1
  let n := (if later then contNat c.cont 0x28 7 else 0) + src.length
  { text := ctrCrypt rk blk src, tag := [], tagBad := false, padBad := false,
    cont := contBytes (ctrAdd blk (ceilDiv src.length 16)) (zeros 16) 0 n (dOpcode j.desc) }

def runCbc (rk : List Bytes) (j : Job) (c : SessionCopy) (src : Bytes) : BladeRun :=
  let later := dChain j.desc == 2 || dChain j.desc == 3
  let iv := if later then slice (vecBytes 384 c.cont) 0 16
    else aesEncWith rk (bytesBE 4 c.salt.toNat ++ bytesBE 8 (dXparam j.desc).toNat ++ zeros 4)
  let n := (if later then contNat c.cont 0x28 7 else 0) + src.length
  if j.op == .sesEncrypt then
    let text := cbcEncrypt rk iv (if dPad j.desc then pkcs7 src else src)
    { text := text, tag := [], tagBad := false, padBad := false,
      cont := contBytes (if text.isEmpty then iv else text.drop (text.length - 16)) (zeros 16) 0 n (dOpcode j.desc) }
  else
    let plain := cbcDecrypt rk iv src
    let cont := contBytes (if src.isEmpty then iv else src.drop (src.length - 16)) (zeros 16) 0 n (dOpcode j.desc)
    if dPad j.desc then
      match pkcs7Len plain with
      | some k => { text := plain.take (plain.length - k), tag := [], tagBad := false, padBad := false, cont := cont }
      | none => { text := plain, tag := [], tagBad := false, padBad := true, cont := cont }
    else { text := plain, tag := [], tagBad := false, padBad := false, cont := cont }

def runCmac (rk : List Bytes) (j : Job) (c : SessionCopy) (src : Bytes) : BladeRun :=
  let later := dChain j.desc == 2 || dChain j.desc == 3
  let checks := lastPiece j.desc && !(isSending j.op)
  let body := if checks then src.take (src.length - 16) else src
  let x := if later then slice (vecBytes 384 c.cont) 0 16 else zeros 16
  let msg := (if later then slice (vecBytes 384 c.cont) 16 16 else []) ++ body
  let n := (if later then contNat c.cont 0x28 7 else 0) + body.length
  if lastPiece j.desc then
    let tag := cmacFrom rk x msg
    { text := [], tag := if isSending j.op then tag else [],
      tagBad := checks && tag != src.drop (src.length - 16), padBad := false, cont := [] }
  else
    let keep := msg.length - 16
    { text := [], tag := [], tagBad := false, padBad := false,
      cont := contBytes (macChain rk x (chunks 16 (msg.take keep))) (msg.drop keep) 0 n (dOpcode j.desc) }

/-- The run of a session job over a source. -/
def bladeRun (j : Job) (src : Bytes) : BladeRun :=
  let rk := roundKeys j.key
  match j.sess with
  | none => { text := [], tag := [], tagBad := false, padBad := false, cont := [] }
  | some c => match modeAlg c.mode with
    | some .gcm => runGcm rk j c false src
    | some .gmac => runGcm rk j c true src
    | some .ccm => runCcm rk j c src
    | some .ctr => runCtr rk j c src
    | some .cbc => runCbc rk j c src
    | some .cmac => runCmac rk j c src
    | none => { text := [], tag := [], tagBad := false, padBad := false, cont := [] }

/-! ### The source as it arrives -/

/-- The source so far, laid over its length. -/
def laidSource (j : Job) : Bytes := slice (j.source.getD []) 0 (dSrcLen j.desc)

/-- All of the source has arrived. -/
def sourceWhole (j : Job) : Bool := decide (dSrcLen j.desc ≤ (j.source.getD []).length)

/-- The source has arrived as far as the end of the job's next 16 KiB segment, which is not its last (R61, R228). -/
def atBoundary (j : Job) : Bool :=
  decide (16384 * (j.steps + 1) < dSrcLen j.desc) && decide (16384 * (j.steps + 1) ≤ (j.source.getD []).length)

/-- R228: the mode state of a job after `steps` segments, in the CONT layout of R217: that of a first or later piece which ends
there.  R217 has no row for CCM, whose entry shows zeros (log entry 76). -/
def modeState (j : Job) : BitVec 384 :=
  let piece : BitVec 512 := BitVec.ofNat 512 ((if dChain j.desc == 2 || dChain j.desc == 3 then 2 else 1) * 2 ^ 20)
  let d := (j.desc &&& ~~~(BitVec.ofNat 512 (3 * 2 ^ 20))) ||| piece
  BitVec.ofNat 384 (natLE (bladeRun { j with desc := d } ((j.source.getD []).take (16384 * j.steps))).cont)

/-! ### Staging and release (R141, R142, R219 to R222) -/

def jobAlg (j : Job) : Alg := (modeAlg j.facts.mode).getD .gcm

/-- A GCM or CCM decrypt. -/
def aeadDecrypt (j : Job) : Bool := j.op == .sesDecrypt && (jobAlg j == .gcm || jobAlg j == .ccm)

/-- R221: it runs in two passes. -/
def isTwoPass (j : Job) : Bool := twoPass j.op j.desc j.facts.mode

/-- R142, R219: plaintext leaves before its tag is known. -/
def isStreamed (j : Job) : Bool :=
  aeadDecrypt j && (!(lastPiece j.desc) || decide (65536 < sessionOut (jobAlg j) j.op j.desc))

/-- Output leaves as segments fill. -/
def fillsSegments (j : Job) : Bool :=
  let n := sessionOut (jobAlg j) j.op j.desc
  match j.op with
  | .sesEncrypt => decide (16384 < n)
  | .sesDecrypt =>
    if aeadDecrypt j then (isStreamed j && decide (16384 < n)) || (isTwoPass j && j.secondPass) else decide (16384 < n)
  | _ => false

/-- R123: the run could release plaintext before its verdict. -/
def mayBeUnverified (j : Job) : Bool :=
  j.op == .sesDecrypt && (isStreamed j || dChain j.desc != 0 || isTwoPass j || fillsSegments j)

/-- The text before the final block of a CBC decrypt (R212). -/
def beforeFinal (j : Job) (text : Bytes) : Bytes := text.take ((dSrcLen j.desc - 16) / 16 * 16)

/-- Output text that is ready after `steps` segments of the payload. -/
def readyText (j : Job) (text : Bytes) (steps : Nat) : Bytes :=
  let n := min text.length (16384 * steps - dAadLen j.desc) / 16 * 16
  let held := if j.op == .sesDecrypt && jobAlg j == .cbc && dPad j.desc then min n ((dSrcLen j.desc - 16) / 16 * 16) else n
  text.take held

/-! ### The replay window (R187 to R189, R217) -/

/-- A job in flight that has passed with the counter. -/
def passedInFlight (s : State) (c : SessionCopy) (tag frame : Nat) : Bool :=
  s.rings.jobs.any (fun k => k.tag != tag && k.stage != .built && match k.sess with
    | some x => x.session == c.session && x.epoch == c.epoch && x.passed && frameOf k x == frame
    | none => false)

/-- R217: the open GCM decrypt chain of the context counts as a passed job. -/
def passedInCont (x : Session) (c : SessionCopy) (frame : Nat) : Bool :=
  x.chainOpen && x.epoch == c.epoch && contNat x.cont 0x2F 1 == 0x11 && modeAlg x.mode == some .gcm &&
    contNat x.cont 0x10 8 == frame

/-- replay_check: true when the frame passes. -/
def replayPasses (s : State) (j : Job) (c : SessionCopy) : Bool :=
  let x := tblGet Session.reset s.sess.table c.session
  let frame := frameOf j c
  let hi := x.rxHigh.toNat
  c.passed || (!(passedInFlight s c j.tag frame) && !(passedInCont x c frame) &&
    (x.rxMap == 0 || decide (hi < frame) || (decide (hi - frame ≤ 63) && !(x.rxMap.getLsbD (hi - frame)))))

/-- mark. -/
def markFrame (x : Session) (frame : Nat) : Session :=
  let hi := x.rxHigh.toNat
  { x with
    rxHigh := if x.rxMap == 0 || decide (hi < frame) then BitVec.ofNat 64 frame else x.rxHigh,
    rxMap := if x.rxMap == 0 then 1
      else if hi < frame then (x.rxMap <<< (frame - hi)) ||| 1
      else if hi - frame ≤ 63 then bvSet x.rxMap (hi - frame)
      else x.rxMap }

/-- The job makes a replay check: receiving, counter-nonce, and for a chain only where R213 and R219 place it. -/
def makesReplayCheck (j : Job) : Bool :=
  !(isSending j.op) && isSession j.op && nonceMode (jobAlg j) &&
    (dChain j.desc == 0 || (jobAlg j == .gcm && dChain j.desc == 1) || (jobAlg j == .gmac && dChain j.desc == 3))

/-- The check, which reads the context, and is remembered in the job when it passes; else the status that it gives (R188,
R389). -/
def replayStep (tag : Nat) (s : State) : State × Option Status :=
  match findJob s tag with
  | none => (s, none)
  | some j => match j.sess with
    | none => (s, none)
    | some c =>
      if !(makesReplayCheck j) || c.passed then (s, none)
      else
        let s1 := readContext c.session s
        if contextBad s c.session then (s1, some .memUncorrectable)
        else if replayPasses s j c then
          (modJob tag (fun j => { j with sess := j.sess.map (fun c => { c with passed := true }) }) s1, none)
        else (s1, some .replay)

/-! ### Output of a job (R86, R126, R138, R220, R247) -/

/-- A finished job whose output has gone gives back its slots and its segment, and its unit goes on. -/
def outputGone (tag : Nat) (s : State) : State :=
  match findJob s tag with
  | none => s
  | some j =>
    if j.stage != .finished || !(outputDone j) then s
    else match j.unit with
      | some u => leaveUnit u (freeMemory tag s)
      | none => freeMemory tag s

/-- Output held for want of posted-write credit leaves when there is some. -/
def releaseOutput (tag : Nat) (s : State) : State :=
  match findJob s tag with
  | none => s
  | some j =>
    if isHost j.ring && s.link.creditStalled then s
    else outputGone tag (modJob tag (fun j => { j with out := [] }) (issueOutput tag j.out s))

/-- The job's remaining output is ready. -/
def giveOutput (tag : Nat) (bs : Bytes) (s : State) : State :=
  releaseOutput tag (modJob tag (fun j => { j with out := j.out ++ bs }) s)

/-- Bytes of its output that the run has given so far, issued or held. -/
def givenLen (j : Job) : Nat := j.bytes + j.out.length

/-- R108: the segments of two byte ranges meet. -/
def segsMeet (xs ys : List (Nat × Nat)) : Bool :=
  xs.any (fun x => ys.any (fun y => decide (0 < x.2) && decide (0 < y.2) && decide (x.1 < y.1 + y.2) &&
    decide (y.1 < x.1 + x.2)))

/-- R108: the destination overlaps bytes that the job reads. -/
def overlaps (j : Job) : Bool :=
  let reads := srcSegs j ++ (if srcListed j.op j.desc then [(dSrcAddr j.desc, 16 * dSrcNent j.desc)] else []) ++
    (if dstListed j.op j.desc then [(dDstAddr j.desc, 16 * dDstNent j.desc)] else []) ++
    (if isCritical j.op then [(dCmdAddr j.desc, 128)] else [])
  segsMeet (dstSegs j) reads

/-- The statuses that an overlapping job may carry. -/
def overlapStatuses : List Status := [.ok, .inputInvalid, .tagMismatch, .replay, .verifyFail, .hostReadFault]

/-- An output, or a free one of the same length for an overlapping job (R108, log entry 7). -/
def outputOr (s : State) (j : Job) (bs : Bytes) : Bytes :=
  if overlaps j then slice (Config.overlapOutput s.free) 0 bs.length else bs

/-- A status, or a free one for an overlapping job. -/
def statusOr (s : State) (j : Job) (st : Status) : Status :=
  if overlaps j then overlapStatuses.getD (Config.overlapStatus s.free % 6) .ok else st

def drawFree (j : Job) (s : State) : State := { s with free := if overlaps j then s.free + 1 else s.free }

/-- A job's engine has finished: its output leaves and its status is fixed. -/
def endRun (tag : Nat) (bs : Bytes) (st : Status) (s : State) : State :=
  match findJob s tag with
  | none => s
  | some j => finishJob tag (statusOr s j st) (giveOutput tag (outputOr s j bs) (drawFree j s))

/-- A job ends with a status and no further output. -/
def endSilent (tag : Nat) (st : Status) (s : State) : State :=
  endRun tag [] st (modJob tag (fun j => { j with noOutput := true }) s)

/-! ### A Blade's events -/

/-- A segment boundary of a running job: what the segment releases leaves. -/
def bladeBoundary (tag : Nat) (s : State) : State :=
  match findJob s tag with
  | none => s
  | some j =>
    if !(fillsSegments j) || j.status.isSome then s
    else
      let (s1, fails) := if isStreamed j then replayStep tag s else (s, none)
      match fails with
      | some st => endSilent tag st s1
      | none =>
        let text := readyText j (bladeRun j (laidSource j)).text j.steps
        giveOutput tag (outputOr s j (text.drop (givenLen j))) s1

/-- R221: the first pass has its verdict; the second gathers the source again. -/
def secondPassBegins (tag : Nat) (s : State) : State :=
  modJob tag (fun j => { j with source := none, secondPass := true, steps := 0 }) s

/-- BLADE_JOB_DONE: the pass over the whole source has ended. -/
def bladeDone (tag : Nat) (s : State) : State :=
  match findJob s tag with
  | none => s
  | some j =>
    if !(isSession j.op) || j.stage != .running then s
    else if j.status.isSome then finishJob tag .ok s
    else if !(sourceWhole j) then s
    else
      let run := bladeRun j (laidSource j)
      let setCont := fun (s : State) => modJob tag (fun j =>
        { j with sess := j.sess.map (fun c => { c with contOut := BitVec.ofNat 384 (natLE run.cont) }) }) s
      let rest := (run.text ++ run.tag).drop (givenLen j)
      if isStreamed j then
        let (s1, fails) := replayStep tag s
        match fails with
        | some st => endSilent tag st s1
        | none => endRun tag rest (if run.tagBad || !(lastPiece j.desc) then .okUnverifiedReleased else .ok) (setCont s1)
      else if isTwoPass j && j.secondPass then
        if run.tagBad then endSilent tag .okUnverifiedReleased s else endRun tag rest .ok (setCont s)
      else if run.tagBad then endSilent tag .tagMismatch s
      else
        let (s1, fails) := replayStep tag s
        match fails with
        | some st => endSilent tag st s1
        | none =>
          if isTwoPass j then secondPassBegins tag s1
          else if run.padBad then
            endRun tag (if fillsSegments j then (beforeFinal j run.text).drop (givenLen j) else []) .inputInvalid s1
          else endRun tag rest .ok (setCont s1)

end Sys2Proof.Machine
end

