-- ==== Sys2Proof/Machine/Blinding.lean ====
section
/-!
DEFINITION. Sys2Proof/Machine/Blinding.lean: the randomised representations of a blinded Edge run (R253 to R256).  Every
function here takes the blinding words of the run; with none, it is the plain program (log entry 70).
-/
namespace Sys2Proof.Machine

/-- Blinding word i of a run. -/
def blindWord (b : List DWord) (i : Nat) : Nat := (b.getD i 0).toNat

/-- λ of R254, from 1 to p − 1. -/
def lambdaOf (b : List DWord) (p : Nat) : Nat := blindWord b 0 % (p - 1) + 1

/-- Scalar blinding: a secret scalar k becomes k + r × n. -/
def blindScalar (b : List DWord) (n k : Nat) : Nat := k + blindWord b 1 * n

/-! ### Short-Weierstrass points in Jacobian form -/

/-- (X, Y, Z) stands for (X ÷ Z², Y ÷ Z³); Z = 0 is the identity. -/
structure JPt where
  x : Nat
  y : Nat
  z : Nat
  deriving DecidableEq, Repr

def jIdentity : JPt := { x := 1, y := 1, z := 0 }

/-- R254: (X, Y, 1) becomes (λ²X, λ³Y, λ). -/
def jRandom (p l x y : Nat) : JPt := { x := l * l % p * x % p, y := l * l % p * l % p * y % p, z := l % p }

def jDouble (c : WCurve) (u : JPt) : JPt :=
  let y2 := u.y * u.y % c.p
  let z2 := u.z * u.z % c.p
  let s := 4 * u.x * y2 % c.p
  let m := (3 * u.x * u.x + c.a * (z2 * z2 % c.p)) % c.p
  let x := subMod (m * m % c.p) (2 * s) c.p
  { x := x, y := subMod (m * subMod s x c.p % c.p) (8 * (y2 * y2 % c.p)) c.p, z := 2 * u.y * u.z % c.p }

def jAdd (c : WCurve) (u v : JPt) : JPt :=
  if u.z = 0 then v
  else if v.z = 0 then u
  else
    let zu := u.z * u.z % c.p
    let zv := v.z * v.z % c.p
    let xu := u.x * zv % c.p
    let xv := v.x * zu % c.p
    let yu := u.y * (zv * v.z % c.p) % c.p
    let yv := v.y * (zu * u.z % c.p) % c.p
    if xu = xv then (if yu = yv then jDouble c u else jIdentity)
    else
      let h := subMod xv xu c.p
      let r := subMod yv yu c.p
      let h2 := h * h % c.p
      let h3 := h2 * h % c.p
      let x := subMod (subMod (r * r % c.p) h3 c.p) (2 * xu * h2) c.p
      { x := x, y := subMod (r * subMod (xu * h2 % c.p) x c.p % c.p) (yu * h3) c.p, z := h * (u.z * v.z % c.p) % c.p }

def jMulFuel (c : WCurve) (k : Nat) (q : JPt) : Nat → JPt → JPt
  | 0, acc => acc
  | i + 1, acc =>
    let d := jDouble c acc
    jMulFuel c k q i (if k.testBit i then jAdd c d q else d)

def jAffine (c : WCurve) (u : JPt) : Pt :=
  if u.z = 0 then none
  else
    let i := invMod u.z c.p
    some (u.x * (i * i % c.p) % c.p, u.y * (i * i % c.p * i % c.p) % c.p)

/-- k × q, its point randomised in a blinded run. -/
def wMulOn (b : List DWord) (c : WCurve) (k : Nat) (q : Pt) : Pt :=
  if b.isEmpty then wMul c k q
  else match q with
    | none => none
    | some (x, y) => jAffine c (jMulFuel c k (jRandom c.p (lambdaOf b c.p) x y) (bitLength k) jIdentity)

/-! ### Edwards points in extended form -/

structure EPt where
  x : Nat
  y : Nat
  z : Nat
  t : Nat
  deriving DecidableEq, Repr

/-- R254: (X, Y, 1, XY) becomes (λX, λY, λ, λXY). -/
def xtRandom (p l x y : Nat) : EPt := { x := l * x % p, y := l * y % p, z := l % p, t := l * (x * y % p) % p }

def xtAdd (c : ECurve) (u v : EPt) : EPt :=
  let a := u.x * v.x % c.p
  let b := u.y * v.y % c.p
  let t := c.d * u.t % c.p * v.t % c.p
  let z := u.z * v.z % c.p
  let e := subMod ((u.x + u.y) * (v.x + v.y) % c.p) (a + b) c.p
  let f := subMod z t c.p
  let g := (z + t) % c.p
  let h := subMod b (c.a * a) c.p
  { x := e * f % c.p, y := g * h % c.p, z := f * g % c.p, t := e * h % c.p }

def xtMulFuel (c : ECurve) (k : Nat) (q : EPt) : Nat → EPt → EPt
  | 0, acc => acc
  | i + 1, acc =>
    let d := xtAdd c acc acc
    xtMulFuel c k q i (if k.testBit i then xtAdd c d q else d)

def xtAffine (c : ECurve) (u : EPt) : Nat × Nat :=
  let i := invMod u.z c.p
  (u.x * i % c.p, u.y * i % c.p)

/-- k × q on an Edwards curve, its point randomised in a blinded run. -/
def eMulOn (b : List DWord) (c : ECurve) (k : Nat) (q : Nat × Nat) : Nat × Nat :=
  if b.isEmpty then eMul c k q
  else xtAffine c (xtMulFuel c k (xtRandom c.p (lambdaOf b c.p) q.1 q.2) (bitLength k)
    { x := 0, y := 1, z := 1, t := 0 })

/-! ### The programs -/

/-- R277: the point is no valid public point of the curve. -/
def pointBadOn (b : List DWord) (c : WCurve) (enc : Bytes) : Bool :=
  pointFormBad c enc || (wMulOn b c c.h (wDecode c enc) == none)

/-- r and s of an ECDSA signature with nonce k. -/
def ecdsaSignOn (b : List DWord) (c : WCurve) (d e k : Nat) : Nat × Nat :=
  let r := match wMulOn b c (blindScalar b c.n k) (wBase c) with
    | none => 0
    | some (x, _) => x % c.n
  (r, invMod k c.n * ((e + r * d) % c.n) % c.n)

/-- R279: the signature is valid, every value being valid under R277. -/
def ecdsaOkOn (b : List DWord) (c : WCurve) (q : Pt) (r s e : Nat) : Bool :=
  let w := invMod s c.n
  match wAdd c (wMulOn b c (e * w % c.n) (wBase c)) (wMulOn b c (r * w % c.n) q) with
  | none => false
  | some (x, _) => x % c.n == r

def edPublicOn (b : List DWord) (sel : Nat) (sk : Bytes) : Bytes :=
  let c := edCurve sel
  eEncode c (eMulOn b c (blindScalar b c.l (edExpand sel sk).1) (c.bx, c.by'))

/-- R of an EdDSA signature, from its nonce hash. -/
def edCommitOn (b : List DWord) (sel : Nat) (nonceHash : Bytes) : Bytes :=
  let c := edCurve sel
  eEncode c (eMulOn b c (blindScalar b c.l (natLE nonceHash % c.l)) (c.bx, c.by'))

/-- An EdDSA signature from its two hashes. -/
def edSignOn (b : List DWord) (sel : Nat) (sk nonceHash challenge : Bytes) : Bytes :=
  let c := edCurve sel
  edCommitOn b sel nonceHash ++
    bytesLE c.bytes ((natLE nonceHash % c.l + natLE challenge % c.l * (edExpand sel sk).1) % c.l)

/-- R277: the values of an EdDSA verification are invalid. -/
def edBadOn (b : List DWord) (sel : Nat) (pub sig : Bytes) : Bool :=
  let c := edCurve sel
  match eDecode c pub, eDecode c (sig.take c.bytes) with
  | some a, some _ => eMulOn b c c.h a == (0, 1) || decide (c.l ≤ natLE (sig.drop c.bytes))
  | _, _ => true

/-- R279: the cofactored equation, with the challenge hash. -/
def edOkOn (b : List DWord) (sel : Nat) (pub sig challenge : Bytes) : Bool :=
  let c := edCurve sel
  match eDecode c pub, eDecode c (sig.take c.bytes) with
  | some a, some r =>
    let s := natLE (sig.drop c.bytes)
    eMulOn b c (c.h * s) (c.bx, c.by') == eAdd c (eMulOn b c c.h r) (eMulOn b c c.h (eMulOn b c (natLE challenge % c.l) a))
  | _, _ => false

/-- The function X25519 or X448; a blinded run randomises the ladder's points by λ.  Its clamped scalar is not blinded: k + r × n
on a point of low order would change the result, against R256 (log entry 70). -/
def xdhOn (b : List DWord) (sel : Nat) (k u : Bytes) : Bytes :=
  let p := xPrime sel
  let l := if b.isEmpty then 1 else lambdaOf b p
  let uv := xCoord sel u
  let s := xLadder p (if sel = 0 then 121665 else 39081) uv (xScalar sel k) (if sel = 0 then 255 else 448)
    { x2 := l, z2 := 0, x3 := l * uv % p, z3 := l }
  bytesLE (xBytes sel) (s.x2 * invMod s.z2 p % p)

/-- The RSA private operation: exponents and base are blinded by r1, r2 and rb; a word of zero counts as 1 in rb, which must
have an inverse. -/
def rsaCrtOn (b : List DWord) (key : RsaKey) (m : Nat) : Nat :=
  if b.isEmpty then rsaCrt key m
  else
    let n := key.p * key.q
    let rb := max 1 (blindWord b 2)
    let x := m * powMod rb key.e n % n
    rsaCrt { key with dp := key.dp + blindWord b 0 * (key.p - 1), dq := key.dq + blindWord b 1 * (key.q - 1) } x *
      invMod rb n % n

/-- An RSA signature over a digest. -/
def rsaSignOn (b : List DWord) (key : RsaKey) (pss : Bool) (code : Nat) (digest salt : Bytes) : Bytes :=
  let em := if pss then emsaPss code (bitLength (key.p * key.q)) digest salt else emsaV15 code key.k digest
  bytesBE key.k (rsaCrtOn b key (natBE em))

/-- R289: check i + 1 fails in bit i; `pd` and `nd` are the draws for p and for n. -/
def curveChecksOn (b : List DWord) (c : WCurve) (pd nd : Bytes) : BitVec 9 :=
  let fails : List Bool :=
    [ c.p % 2 == 0 || !(mrPasses c.p pd),
      decide (c.p ≤ c.a) || decide (c.p ≤ c.b),
      (4 * c.a * c.a * c.a + 27 * c.b * c.b) % c.p == 0,
      decide (c.p ≤ c.gx) || decide (c.p ≤ c.gy) || !(wOnCurve c c.gx c.gy),
      !(mrPasses c.n nd),
      wMulOn b c c.n (wBase c) != none,
      decide (4 * (c.p : Int) < ((c.h * c.n : Int) - c.p - 1) ^ 2),
      c.n == c.p,
      (List.range 20).any (fun i => powMod c.p (i + 1) c.n == 1 % c.n) ]
  BitVec.ofNat 9 ((List.range 9).foldl (fun v i => v + (if fails.getD i false then 2 ^ i else 0)) 0)

end Sys2Proof.Machine
end

