-- ==== Sys2Proof/Machine/Drbg.lean ====
section
/-!
DEFINITION. Sys2Proof/Machine/Drbg.lean: CTR_DRBG of SP 800-90A with AES-256 and the derivation function, as R302 names
it (log entry 10).
-/
namespace Sys2Proof.Machine

def dfRound (rk : List Bytes) (s : Bytes) (i : Nat) : Bytes :=
  macChain rk (List.replicate 16 0) (chunks 16 (bytesBE 4 i ++ List.replicate 12 0 ++ s))

/-- Block_Cipher_df with 48 bytes of output. -/
def drbgDf (input : Bytes) : Bytes :=
  let s := pad16 (bytesBE 4 input.length ++ bytesBE 4 48 ++ input ++ [0x80])
  let rk := roundKeys ((List.range 32).map (BitVec.ofNat 8))
  let t := dfRound rk s 0 ++ dfRound rk s 1 ++ dfRound rk s 2
  let rk' := roundKeys (t.take 32)
  let x1 := aesEncWith rk' (slice t 32 16)
  let x2 := aesEncWith rk' x1
  x1 ++ x2 ++ aesEncWith rk' x2

/-- V + n. -/
def drbgInc (v : Bytes) (n : Nat) : Bytes := bytesBE 16 (natBE v + n)

/-- CTR_DRBG_Update: the new key and V. -/
def drbgUpdate (data k v : Bytes) : Bytes × Bytes :=
  let rk := roundKeys k
  let t := (List.range 3).flatMap (fun i => aesEncWith rk (drbgInc v (i + 1)))
  let t := xorBytes t data
  (t.take 32, t.drop 32)

def drbgZero : Bytes := List.replicate 48 0

/-- Instantiate from entropy ‖ nonce ‖ personalisation. -/
def drbgInstantiate (seed : Bytes) : Bytes × Bytes :=
  drbgUpdate (drbgDf seed) (List.replicate 32 0) (List.replicate 16 0)

/-- Reseed with empty additional input. -/
def drbgReseed (entropy k v : Bytes) : Bytes × Bytes := drbgUpdate (drbgDf entropy) k v

/-- Generate n bytes with empty additional input: the output and the new state. -/
def drbgGenerate (n : Nat) (k v : Bytes) : Bytes × (Bytes × Bytes) :=
  let rk := roundKeys k
  let q := ceilDiv n 16
  let out := (List.range q).flatMap (fun i => aesEncWith rk (drbgInc v (i + 1)))
  (out.take n, drbgUpdate drbgZero k (drbgInc v q))

end Sys2Proof.Machine
end

