-- ==== Sys2Proof/Machine/Edges.lean ====
section
/-!
DEFINITION. Sys2Proof/Machine/Edges.lean: what an Edge, a hash unit and a Groomer compute for a job, a Lift's derivation and
the Vault arbiter's grant (R201, R202, R250, R269 to R285, R302, R305, R306, R308).
-/
namespace Sys2Proof.Machine

/-! ### What a public-key job hashes (R275, R276) -/

def edEncLen (d : Descriptor) : Nat := if dAux d % 2 = 0 then 32 else 57

/-- The message, or the digest that the job carries: what follows the values at the front of the source. -/
def textOf (j : Job) : Bytes :=
  let d := j.desc
  let front := match j.op with
    | .ecdsaVerify => 1 + 2 * j.facts.lp + 2 * j.facts.ln
    | .rsaVerify => 2 * j.facts.k + 4
    | .eddsaVerify => 3 * edEncLen d
    | _ => 0
  (j.source.getD []).drop front

/-- The key of the generation that the job holds. -/
def heldKey (s : State) (j : Job) : Bytes :=
  match j.holds with
  | [] => []
  | h :: _ => ((matOf (slotOf s h.slot) h.gen).map (fun m => m.key)).getD []

/-- The first hash of a job, on a hash unit: the message's, the nonce hash of EDDSA_SIGN, whose prefix comes from the key that
the job holds, the challenge hash of EDDSA_VERIFY; or the digest that the job carries. -/
def firstDigest (s : State) (j : Job) : Bytes :=
  let d := j.desc
  let sel := dAux d % 2
  let n := edEncLen d
  let src := j.source.getD []
  match j.op with
  | .eddsaSign => edHash sel (edDom sel ++ (edExpand sel (heldKey s j)).2 ++ textOf j)
  | .eddsaVerify => edHash sel (edDom sel ++ slice src n n ++ src.take n ++ textOf j)
  | .rsaSign | .rsaVerify => if dPrehashed d then textOf j else hashBy (dHash d) (textOf j)
  | _ => if dHash d = 0 then textOf j else hashBy (dHash d) (textOf j)

/-- The digest in the job's slots.  A hash inside the figure of R76 has no event of its own: the hash unit gives it when the
program comes to it (log entry 75). -/
def digestOf (s : State) (j : Job) : Bytes := j.digest.getD (firstDigest s j)

/-- The challenge hash of EDDSA_SIGN, over R, the public key and the message. -/
def secondDigest (s : State) (j : Job) : Bytes :=
  let sel := dAux j.desc % 2
  edHash sel (edDom sel ++ edCommitOn j.blinds sel (digestOf s j) ++ edPublicOn j.blinds sel (heldKey s j) ++ textOf j)

def challengeOf (s : State) (j : Job) : Bytes := j.digest2.getD (secondDigest s j)

/-! ### Public-key results (R271, R277 to R283) -/

/-- What a program gives: its output, or the status of a result that is discarded. -/
structure EdgeRun where
  out : Bytes
  status : Status
  deriving DecidableEq, Repr

def badRun (st : Status) : EdgeRun := { out := [], status := st }

def verdict (bad ok : Bool) : EdgeRun :=
  badRun (if bad then .inputInvalid else if ok then .ok else .verifyFail)

def verifyEcdsa (b : List DWord) (c : WCurve) (src digest : Bytes) : EdgeRun :=
  let pt := src.take (1 + 2 * c.lp)
  let r := natBE (slice src (1 + 2 * c.lp) c.ln)
  let v := natBE (slice src (1 + 2 * c.lp + c.ln) c.ln)
  let bad := pointBadOn b c pt || r == 0 || decide (c.n ≤ r) || v == 0 || decide (c.n ≤ v)
  verdict bad (ecdsaOkOn b c (wDecode c pt) r v (ecdsaInt c digest))

def agreeEcdh (b : List DWord) (c : WCurve) (key src : Bytes) : EdgeRun :=
  if pointBadOn b c src then badRun .inputInvalid
  else match wMulOn b c (c.h * blindScalar b c.n (natBE key)) (wDecode c src) with
    | some (x, _) => { out := bytesBE c.lp x, status := .ok }
    | none => badRun .inputInvalid

def signEcdsa (b : List DWord) (c : WCurve) (key draw digest : Bytes) : EdgeRun :=
  let rs := ecdsaSignOn b c (natBE key) (ecdsaInt c digest) (scalarOf draw c.n)
  if rs.1 == 0 || rs.2 == 0 then badRun .rngFault
  else { out := bytesBE c.ln rs.1 ++ bytesBE c.ln rs.2, status := .ok }

/-- R281, R282: the private key that EC_KEYGEN generates, as R191 stores it, and its public key. -/
def generated (s : State) (b : List DWord) (d : Descriptor) (draw : Bytes) : Bytes × Bytes :=
  match dAux d with
  | 0x2000 => (draw.take 32, edPublicOn b 0 (draw.take 32))
  | 0x2001 => (draw.take 57, edPublicOn b 1 (draw.take 57))
  | 0x3000 => (draw.take 32, xdhOn b 0 (draw.take 32) (xBaseU 0))
  | 0x3001 => (draw.take 56, xdhOn b 1 (draw.take 56) (xBaseU 1))
  | k => match curveAt s (k % 32) with
    | some c =>
      let v := scalarOf draw c.n
      (bytesBE c.ln v, wEncode c (wMulOn b c (blindScalar b c.n v) (wBase c)))
    | none => ([], [])

/-- The run of an Edge job on its source, its key, its draw and its digests. -/
def edgeRun (s : State) (j : Job) : EdgeRun :=
  let d := j.desc
  let src := j.source.getD []
  let draw := j.draw.getD []
  let sel := dAux d % 2
  let b := j.blinds
  let withCurve := fun (f : WCurve → EdgeRun) => match (namedEntry j.op d).bind (curveAt s) with
    | some c => f c
    | none => badRun .inputInvalid
  match j.op with
  | .ecdsaSign => withCurve (fun c => signEcdsa b c j.key draw (digestOf s j))
  | .ecdsaVerify => withCurve (fun c => verifyEcdsa b c src (digestOf s j))
  | .ecdh => withCurve (fun c => agreeEcdh b c j.key src)
  | .ecKeygen => { out := (generated s b d draw).2, status := .ok }
  | .eddsaSign => { out := edSignOn b sel j.key (digestOf s j) (challengeOf s j), status := .ok }
  | .eddsaVerify =>
    let n := edEncLen d
    let pub := src.take n
    let sig := slice src n (2 * n)
    verdict (edBadOn b sel pub sig) (edOkOn b sel pub sig (digestOf s j))
  | .xdh =>
    let out := xdhOn b sel j.key src
    if out.all (fun x => x == 0) then badRun .inputInvalid else { out := out, status := .ok }
  | .rsaSign =>
    { out := rsaSignOn b (rsaOfBytes j.facts.k j.key) (dPss d) (dHash d) (digestOf s j) draw, status := .ok }
  | .rsaVerify =>
    let k := j.facts.k
    let nB := src.take k
    let eB := slice src k 4
    let sB := slice src (k + 4) k
    verdict (rsaBad nB eB sB) (rsaOk (dPss d) (dHash d) (dSlen d) nB eB sB (digestOf s j))
  | _ => badRun .ok

/-! ### Steps (R242) -/

/-- The length row, or the variant, of a job's program (R237). -/
def programRow (j : Job) : Nat :=
  match j.op with
  | .rsaVerify => rsaVerifyRow (8 * j.facts.k)
  | .rsaSign => rsaPrivateRow (8 * j.facts.k)
  | .eddsaSign | .eddsaVerify | .xdh => dAux j.desc % 2
  | .ecKeygen => if dAux j.desc < 0x2000 then j.facts.w else dAux j.desc
  | .critical .curveLoad => wRow (curveOfImage (j.source.getD [])).pBits
  | _ => j.facts.w

/-- R242: the steps of a job's program; the manual counts those of the P-256 ECDSA sign (log entry 71). -/
def edgeSteps (j : Job) : Nat :=
  if j.op == .ecdsaSign && j.facts.w == 4 then 272 else Config.programSteps (dOpcode j.desc) (programRow j)

/-! ### EC_KEYGEN's commit (R284, R285) -/

/-- A slot's number reaches its last value: VLT_EVT.GEN_LIMIT. -/
def noteGenLimit (n : Nat) (s : State) : State := if n == 0xFFFFFFFF then setVltEvt 1 s else s

/-- Key administration commits the generated key before any output is written. -/
def commitKeygen (tag : Nat) (j : Job) (s : State) : State :=
  let n := dSlot j.desc
  let v := privSlot s n
  let aux := dAux j.desc
  let g := v.number + 1
  let m : KeyMat :=
    { gen := g, key := (generated s j.blinds j.desc (j.draw.getD [])).1, kek := false, kind := BitVec.ofNat 16 aux,
      digest := if aux < 0x2000 then curveDigest s (aux % 32) else [] }
  let s1 := { s with vault := { s.vault with
      priv := tblSet VSlot.reset s.vault.priv n { v with number := g, cur := some m, reserved := false } } }
  noteGenLimit g (modJob tag (fun j => { j with result := BitVec.ofNat 64 (n + g * 2 ^ 32) }) (writeCell (.priv n) g s1))

/-! ### CURVE_LOAD's checks (R289, R291) -/

/-- The nine checks on the command's Edge: EDGE_CURVE_LAST and the Tracks entry; a load that fails them ends. -/
def curveDone (j : Job) (s : State) : State × Bool :=
  let src := j.source.getD []
  let c := curveOfImage src
  let draws := j.draw.getD []
  let n := 64 * mrDrawBytes c.p
  let e := match j.block with
    | some b => cbBody b 0 8
    | none => 0
  let bad := curveChecksOn j.blinds c (draws.take n) (draws.drop n)
  let first := ((List.range 9).find? (fun i => bad.getLsbD i)).map (· + 1)
  let s1 := { s with curves := { s.curves with
      lastValid := true, lastEntry := e, lastFirst := first.getD 0, lastFailed := bad } }
  (trkRequest (trkReq 0x0402 e (bytesLE 1 (first.getD 0) ++ [0] ++ bytesLE 2 bad.toNat ++ sha256 src)) s1, bad == 0)

/-- A command that has passed stage 10 waits for its commit; its Edge is free, and its slots with it (R154, R247). -/
def curvePrepared (j : Job) (s : State) : State :=
  let s1 := freeMemory j.tag (modJob j.tag (fun j =>
    { j with stage := .prepared, blinds := [],
             places := j.places.filter (fun p => p.res == .keyAdmin || p.res == .linkWrite) }) s)
  match j.unit with
  | some u => leaveUnit u s1
  | none => s1

/-- R390: a word of the curve entry that the job names is lost in both copies. -/
def curveLost (s : State) (j : Job) : Bool :=
  (namedEntry j.op j.desc).any (fun e => decide (8 ≤ e) && rangeBad s 2 (curveWord e) 61)

/-- EDGE_JOB_DONE of a job that is not critical: the program has run its last step.  A curve entry whose words are lost ends it
with MEM_UNCORRECTABLE (R390). -/
def edgeDone (tag : Nat) (s : State) : State :=
  match findJob s tag with
  | none => s
  | some j =>
    if !(isEdge j.op) || j.stage != .running then s
    else if j.status.isSome then finishJob tag .ok s
    else if challengeDue j then s
    else if curveLost s j then
      endSilent tag .memUncorrectable
        ((namedEntry j.op j.desc).toList.foldl (fun s e => readRange 2 (curveWord e) 61 s) s)
    else
      let run := edgeRun s j
      let s1 := modJob tag (fun j => { j with steps := edgeSteps j }) s
      if run.status != .ok then endSilent tag run.status (modJob tag (fun j => { j with result := 0 }) s1)
      else if j.op == .ecKeygen then
        if guardUp s || inWhiteout s then endSilent tag .cancelled s1 else endRun tag run.out .ok (commitKeygen tag j s1)
      else endRun tag run.out .ok s1

/-! ### Hash units (R275, R276) -/

/-- HASH_JOB_DONE: a HASH job ends, or a hash that runs for a public-key job gives its digest.  The first hash of an EDDSA_SIGN
that hashes twice leaves it to gather its message again. -/
def hashDone (tag : Nat) (s : State) : State :=
  match findJob s tag with
  | none => s
  | some j =>
    if j.op == .hash then
      if j.stage != .running then s
      else if j.status.isSome then finishJob tag .ok s
      else if !(sourceWhole j) then s
      else endRun tag (hashBy (dHash j.desc) (laidSource j)) .ok s
    else if !j.sideOn || isSession j.op || !(sourceWhole j) then s
    else
      let s1 := modJob tag (fun j =>
        if j.digest.isNone then
          { j with sideOn := false, digest := some (firstDigest s j), source := if hashesTwice j then none else j.source }
        else { j with sideOn := false, digest2 := some (secondDigest s j) }) s
      let s2 := match sideUnit j with
        | some u => dispatchUnit u s1
        | none => s1
      wakeJob tag s2

/-! ### Lifts (R201 to R203) -/

/-- R390: a job whose key cannot be read ends with MEM_UNCORRECTABLE, without output. -/
def keyUnread (j : Job) (s : State) : State :=
  finishJob j.tag .memUncorrectable (modJob j.tag (fun j => { j with noOutput := true }) (readHolds j s))

/-- LIFT_DERIVATION_DONE: the derivation that a Lift runs puts the key into the Blade's key register. -/
def liftDone (tag : Nat) (s : State) : State :=
  match findJob s tag with
  | none => s
  | some j => match j.sess with
    | none => s
    | some c =>
      if !j.sideOn || !(isSession j.op) then s
      else if j.holds.any (keyLost s) then keyUnread j s
      else
        let s1 := { s with units := { s.units with deriveCnt := sat32 s.units.deriveCnt } }
        let s2 := modJob tag (fun j => { j with keyLoaded := true, sideOn := false, key := sessionKey s j c }) s1
        let s3 := match sideUnit j with
          | some u => dispatchUnit u s2
          | none => s2
        wakeJob tag s3

/-! ### The Vault arbiter (R29, R250) -/

/-- The request of a job, in ticks; 0 when it waits for no grant. -/
def arbTime (s : State) (j : Job) : Nat := if j.stage == .waitingKey then tblGet 0 s.units.arbSince j.tag else 0

/-- R29: no other job's request came earlier. -/
def arbFirst (s : State) (j : Job) : Bool :=
  s.rings.jobs.all (fun k => arbTime s k == 0 || decide (arbTime s j ≤ arbTime s k))

/-- VAULT_ARBITER_GRANT, in the order of the requests: the key is in the job's slots, and the job becomes ready. -/
def arbiterGrant (tag : Nat) (s : State) : State :=
  match findJob s tag with
  | none => s
  | some j =>
    if j.stage != .waitingKey || !(arbFirst s j) then s
    else
      let waited := s.now + 1 - tblGet 0 s.units.arbSince tag
      let s1 := { s with units := { s.units with
          arbMax := max s.units.arbMax (min 0xFFFF waited), arbSince := tblSet 0 s.units.arbSince tag 0 } }
      if j.holds.any (keyLost s) then keyUnread j s1
      else wakeJob tag (modJob tag (fun j => { j with stage := .ready, keyLoaded := true, key := heldKey s j }) s1)

/-! ### Groomers (R302, R305, R306, R308, R309) -/

/-- One generate request of n bytes: its output, the new state, and the count of R305. -/
def groomerDraw (s : State) (g n : Nat) : Bytes × State :=
  let r := groomerOf s g
  let out := drbgGenerate n r.k r.v
  let c := r.count + 1
  let r' : Groomer := { r with k := out.2.1, v := out.2.2, count := c, due := r.due || decide (2 ^ 16 ≤ c) }
  (out.1, { s with powder := { s.powder with grm := tblSet Groomer.reset s.powder.grm g r' } })

/-- The Groomer can serve a request. -/
def groomerServes (s : State) (g : Nat) : Bool :=
  let st := unitState s { kind := .groomer, num := g }
  (st == .inService || st == .standby) && (groomerOf s g).instantiated && !((groomerOf s g).hardStall) &&
    decide ((groomerOf s g).count < 2 ^ 24)

/-- Draws that wait on a Groomer: those of jobs that could start on their Edge, whose draw is placed on it (R281), and the
requests of a running RNG_OUT job. -/
def drawsOn (s : State) (g : Nat) : List Job :=
  let u : UnitRef := { kind := .groomer, num := g }
  s.rings.jobs.filter (fun j => j.status.isNone &&
    ((j.stage == .ready && drawDue j && !(digestDue j) && j.places.any (fun p => p.res == .unit u)) ||
     (j.op == .rngOut && j.unit == some u && j.stage == .running)))

/-- GROOMER_DRAW_DONE for the first draw in the order of R60; false when none waits. -/
def drawDone (g : Nat) (s : State) : State × Bool :=
  match firstToRun { kind := .groomer, num := g } (drawsOn s g) with
  | none => (s, false)
  | some j =>
    if !(groomerServes s g) then (s, false)
    else if j.op == .rngOut then
      let n := min 16384 j.drawBytes
      let (bs, s1) := groomerDraw s g n
      let s2 := modJob j.tag (fun j => { j with drawBytes := j.drawBytes - n, steps := j.steps + 1 }) (drawFree j s1)
      let s3 := giveOutput j.tag (outputOr s j bs) s2
      (if j.drawBytes ≤ 16384 then finishJob j.tag (statusOr s j .ok) s3 else s3, true)
    else
      let (bs, s1) := groomerDraw s g (drawNeed j)
      (wakeJob j.tag (modJob j.tag (fun j => { j with draw := some bs, drawBytes := 0 }) s1), true)

end Sys2Proof.Machine
end

