-- ==== Sys2Proof/Machine/Complete.lean ====
section
/-!
DEFINITION. Sys2Proof/Machine/Complete.lean: building a job's completion entry and what the build writes (R70, R121 to R135,
R188, R213, R216 to R219, R235, R267, R284, R313).  The commit of a critical command comes before it (Critical.lean).
-/
namespace Sys2Proof.Machine

/-- The status an entry is built with: OK of a re-run is OK_RETRIED, and LATE replaces every status (R70, R129). -/
def builtStatus (s : State) (j : Job) : Status :=
  let st := j.status.getD .ok
  if j.admitted && decide (j.deadline < tickTime s.now + micros 3) then .late
  else if st == .ok && j.rerun then .okRetried
  else st

/-- R123. -/
def builtUnverified (j : Job) (st : Status) : Bool :=
  st == .okUnverifiedReleased || (mayBeUnverified j && decide (0 < j.bytes) && !(okStatus st))

/-- R121: UNIT_KIND and UNIT_NUM. -/
def builtUnit (j : Job) : Nat × Nat :=
  if isCard j.op then (6, 0)
  else if isCritical j.op then (7, 0)
  else match j.unit with
    | some u => (unitKindCode u.kind, u.num)
    | none => (0, 0)

/-- R213: RESULT of a later sending piece is the frame counter that its chain took, which it copied at admission. -/
def builtResult (j : Job) : DWord :=
  match j.sess with
  | none => j.result
  | some c =>
    if isSending j.op && (dChain j.desc == 2 || dChain j.desc == 3) && nonceMode (jobAlg j) then c.counter
    else j.result

/-- Counters of one status (R77, R146, R174, R204, R235, R267, R313, R319). -/
def countStatus (j : Job) (st : Status) (s : State) : State :=
  let edge := isEdge j.op
  let rng := st == .rngFault
  let s1 := { s with
    gate := { s.gate with
      lateCnt := if st == .late then sat32 s.gate.lateCnt else s.gate.lateCnt,
      retryCnt := if st == .okRetried then sat32 s.gate.retryCnt else s.gate.retryCnt },
    ctrs := { s.ctrs with
      authFailCnt := if st == .authFail then sat32 s.ctrs.authFailCnt else s.ctrs.authFailCnt,
      lastCode := if isCritical j.op then dCmdCode j.desc else s.ctrs.lastCode,
      lastAuth := if isCritical j.op then dCmdAuth j.desc else s.ctrs.lastAuth,
      lastStatus := if isCritical j.op then statusCode st else s.ctrs.lastStatus },
    rings := { s.rings with cancelCnt := if st == .cancelled && isHost j.ring then sat32 s.rings.cancelCnt else s.rings.cancelCnt },
    units := { s.units with
      tagfailCnt := if st == .tagMismatch then sat32 s.units.tagfailCnt else s.units.tagfailCnt,
      unverCnt := if st == .okUnverifiedReleased then sat32 s.units.unverCnt else s.units.unverCnt,
      invalidCnt := if st == .inputInvalid && edge && j.unit.isSome && !(listsBad j || directBad j) then sat32 s.units.invalidCnt else s.units.invalidCnt,
      vfailCnt := if st == .verifyFail then sat32 s.units.vfailCnt else s.units.vfailCnt,
      rngfailCnt := if rng && edge && j.draw.isSome then sat32 s.units.rngfailCnt else s.units.rngfailCnt },
    sess := { s.sess with replayCnt := if st == .replay then sat32 s.sess.replayCnt else s.sess.replayCnt },
    powder := { s.powder with
      rngFaultCnt := if rng && !(edge && j.draw.isSome) then sat32 s.powder.rngFaultCnt else s.powder.rngFaultCnt } }
  let s2 := if st == .authFail then setCtrEvt 2 s1 else s1
  if st == .late then setGateEvt 2 s2 else s2

/-- R188, R218: the job's success marks its frame. -/
def marksFrame (j : Job) (c : SessionCopy) (st : Status) : Bool :=
  okStatus st && (c.passed || (j.op == .sesDecrypt && jobAlg j == .gcm && dChain j.desc == 3))

/-- R218: the chain state after a piece. -/
def chainAfter (x : Session) (j : Job) (c : SessionCopy) (st : Status) : Session :=
  if dChain j.desc == 0 || c.chainBad then x
  else if (dChain j.desc == 1 || dChain j.desc == 2) && (okStatus st || st == .okUnverifiedReleased) then
    { x with chainOpen := true, cont := c.contOut,
             chainGen := if dChain j.desc == 1 then BitVec.ofNat 32 c.gen else x.chainGen }
  else { x with chainOpen := false, cont := 0 }

/-- The words that its entry writes: RX_HIGH and RX_MAP with a marked frame, CHAIN_OPEN, CHAIN_GEN and CONT with a chain's state. -/
def noteContext (j : Job) (c : SessionCopy) (st : Status) (s : State) : State :=
  let chains := !(dChain j.desc == 0 || c.chainBad)
  let s1 := writeContextWords c.session 7 (2 * bitNat (marksFrame j c st)) s
  writeContextWords c.session 9 (7 * bitNat chains) (writeContextWords c.session 4 (bitNat chains) s1)

/-- What a session job's entry writes into the context, when its EPOCH is still the context's. -/
def writeContext (j : Job) (st : Status) (s : State) : State :=
  match j.sess with
  | none => s
  | some c =>
    if (tblGet Session.reset s.sess.table c.session).epoch != c.epoch then s
    else noteContext j c st { s with sess := { s.sess with
        table := tblMod Session.reset s.sess.table c.session (fun x =>
          chainAfter (if marksFrame j c st then markFrame x (frameOf j c) else x) j c st) } }

/-- Credits that a command or export never spent return (R173). -/
def giveBackCredit (j : Job) (s : State) : State :=
  if !j.admitted || j.counterSpent then s
  else match j.op with
    | .critical _ => returnCredit (dCmdAuth j.desc) s
    | .trkExport => returnCredit 8 s
    | _ => s

/-- Later pieces of the session may start now (R215). -/
def wakePieces (j : Job) (s : State) : State :=
  match j.sess with
  | none => s
  | some c =>
    if dChain j.desc == 0 then s
    else (s.rings.jobs.filter (fun k => (k.sess.map (fun x => x.session)) == some c.session)).foldl
      (fun s k => wakeJob k.tag s) s

/-- R389: the words of its staging slot that the completion stage cannot read: of the descriptor, of a command's block and of
the job state. -/
def unreadWords (s : State) (j : Job) : List Nat :=
  stagedBad s j.tag 0 (if isCritical j.op then 24 else 8) ++ stagedBad s j.tag 24 8

/-- The entry is built: status, marks, chain state, credits and counts; a halt follows a failure (R132).  Where the slot does not
read, the job completes with MEM_UNCORRECTABLE, and COOKIE, or RESULT and BYTES, are zero (R389; log entry 83). -/
def buildEntry (tag : Nat) (s0 : State) : State :=
  match findJob s0 tag with
  | none => s0
  | some j0 =>
    let bad := unreadWords s0 j0
    let lost := !(stagedBad s0 tag 24 8).isEmpty
    let j := if bad.isEmpty then j0 else { j0 with
      status := some .memUncorrectable, result := if lost then 0 else builtResult j0, bytes := if lost then 0 else j0.bytes }
    let s := bad.foldl (fun s w => noteUe 0x0D w false s) s0
    let st := builtStatus s j
    let u := builtUnit j
    let raw := entryRaw (if (stagedBad s0 tag 7 1).isEmpty then dCookie j.desc else 0)
      (if lost then 0 else builtResult j) j.bytes tag j.ring st u.1 u.2 j.retried j.planBand (builtUnverified j st) j.index j.phase
    let s1 := countStatus j st (writeContext j st (giveBackCredit j s))
    let s2 := modJob tag (fun j =>
      { j with stage := .built, entry := raw, status := some st, places := [], holds := [], slots := [], key := [] }) s1
    wakePieces j (noteStatus j.ring j.index st s2)

/-- COMPLETION_ENTRY_WRITE of a job whose work has ended: held output leaves first (R126); then the entry is built, and
the ring's entries go as far as R126 lets them. -/
def writeCompletion (tag : Nat) (s : State) : State :=
  match findJob s tag with
  | none => s
  | some j =>
    if j.stage == .built then advanceRing j.ring s
    else if j.stage != .finished then s
    else
      let s1 := releaseOutput tag s
      match findJob s1 tag with
      | none => s1
      | some j1 =>
        if j1.out.isEmpty || j1.noOutput then
          let s2 := advanceRing j.ring (buildEntry tag s1)
          match j.unit with
          | some u => dispatchUnit u s2
          | none => s2
        else s1

end Sys2Proof.Machine
end

