-- ==== Sys2Proof/Machine/Rings.lean ====
section
/-!
DEFINITION. Sys2Proof/Machine/Rings.lean: doorbells and the ring commands, for host and internal rings (R98, R109 to R112,
R143 to R147, R348, R349).
-/
namespace Sys2Proof.Machine

/-! ### Doorbells -/

/-- RING_STATUS.DB_IGNORED is set. -/
def dbIgnored (r : RingId) (s : State) : State :=
  raiseRing r (modRing r (fun x => { x with dbIgnored := true }) s)

/-- RING_STATUS.DB_OVERFLOW is set. -/
def dbOverflow (r : RingId) (s : State) : State :=
  raiseRing r (modRing r (fun x => { x with dbOverflow := true }) s)

/-- RING_STATUS.ENABLE_IGNORED is set. -/
def enableIgnored (r : RingId) (s : State) : State :=
  raiseRing r (modRing r (fun x => { x with enableIgnored := true }) s)

/-- Descriptors fetched or visible whose entries are not yet written. -/
def unfinished (x : Ring) : Nat := (x.slots.filter (fun q => !q.written)).length + x.visible.length

/-- A doorbell takes effect: R110, R111, R112. -/
def acceptDoorbell (r : RingId) (value : Word) (s : State) : State :=
  let x := getRing s r
  let tail := value.toNat % 0x10000
  let count := (tail + ringDepth x - x.tail) % ringDepth x
  if decide (0x10000 ≤ value.toNat) || decide (ringDepth x ≤ tail) || x.state == .disabled || x.state == .draining then
    dbIgnored r s
  else if count = 0 then s
  else if ringDepth x - 1 < count + unfinished x then dbOverflow r s
  else
    let stamp := if x.state == .halted then none else some s.now
    fetchRing r (setRing r { x with tail := tail, visible := x.visible ++ List.replicate count stamp } s)

/-- A doorbell write; one stored to an internal ring before the Gate opens is held (R348). -/
def doorbellRing (r : RingId) (value : Word) (s : State) : State :=
  if !(isHost r) && !s.gate.isOpen then modRing r (fun x => { x with heldDb := some value }) s
  else acceptDoorbell r value s

/-! ### Ring commands (R143) -/

/-- R98, R143: a host ring may leave DISABLED; an internal ring always may. -/
def mayEnable (s : State) (r : RingId) : Bool :=
  !(isHost r) || (s.gate.isOpen && s.link.bme && (s.life.state != .deployed || s.life.isSealed))

/-- R348: an ENABLE during DRAINING sets RESTART_PENDING, on an internal ring only while its applet is RUNNING. -/
def mayRestart (s : State) (r : RingId) : Bool :=
  match r with
  | .host _ => true
  | .internal n => (applet s n).state == .running

def enableRing (r : RingId) (s : State) : State :=
  let x := getRing s r
  match x.state with
  | .disabled => if mayEnable s r then setRing r (enabledRing x) s else enableIgnored r s
  | .draining => if mayRestart s r then setRing r { x with restartPending := true } s else s
  | _ => s

def disableRing (r : RingId) (s : State) : State :=
  let x := getRing s r
  match x.state with
  | .enabled | .halted =>
    settleRing r (setRing r { x with
      state := .draining, restartPending := false, rearmPending := false, rearmFlush := none } s)
  | .draining => setRing r { x with restartPending := false } s
  | .disabled => s

/-- REARM, with FLUSH when `flush` carries what its reads bring.  While REARM_PENDING is set a later REARM replaces the earlier
one (DESIGN CHOICE, log entry 73). -/
def rearmCommand (r : RingId) (flush : Option (List FlushRead)) (s : State) : State :=
  let x := getRing s r
  if x.state != .halted then s
  else settleRing r (setRing r { x with rearmPending := true, rearmFlush := flush, rearmAt := s.now } s)

/-- R145: the highest-priority bit of a RING_CTRL write acts. -/
def ringCtrl (r : RingId) (value : Word) (reads : List FlushRead) (s : State) : State :=
  if value.getLsbD 1 then disableRing r s
  else if value.getLsbD 0 then enableRing r s
  else if value.getLsbD 2 then rearmCommand r (if value.getLsbD 3 then some reads else none) s
  else s

/-- RING_STATUS bits [10:8] are write-one-to-clear. -/
def ringStatusClear (r : RingId) (value : Word) (s : State) : State :=
  modRing r (fun x => { x with
    dbIgnored := x.dbIgnored && !(value.getLsbD 8), dbOverflow := x.dbOverflow && !(value.getLsbD 9),
    enableIgnored := x.enableIgnored && !(value.getLsbD 10) }) s

/-- RING_POS. -/
def ringPos (x : Ring) : Word := word (x.tail + x.fetch * 2 ^ 16)

/-- RING_CFG and RING_PORT_CFG. -/
def ringCfg (x : Ring) : Word := word (x.depthLog2 + clsCode x.cls * 2 ^ 8 + fbit x.haltMode 12)

/-! ### Ring ports (R349) -/

/-- A load of a ring-port register. -/
def portRead (s : State) (n off : Nat) : Word :=
  let x := getRing s (.internal n)
  match off with
  | 0x008 => ringStatus x
  | 0x00C => ringPos x
  | 0x010 => ringCfg x
  | 0x014 => word x.sqBase.toNat
  | 0x018 => word x.cqBase.toNat
  | _ => 0

/-- A store to a ring-port register. -/
def portWrite (n off : Nat) (value : Word) (s : State) : State :=
  match off with
  | 0x000 => doorbellRing (.internal n) value s
  | 0x004 => ringCtrl (.internal n) value [] s
  | 0x008 => ringStatusClear (.internal n) value s
  | _ => s

/-- A doorbell held for applet n's ring takes effect. -/
def releaseDoorbell (n : Nat) (s : State) : State :=
  match (getRing s (.internal n)).heldDb with
  | some v => acceptDoorbell (.internal n) v (modRing (.internal n) (fun x => { x with heldDb := none }) s)
  | none => s

/-- The moment the Gate opens, the held doorbells take effect (R348). -/
def releaseDoorbells (s : State) : State :=
  (List.range 32).foldl (fun s n => releaseDoorbell n s) s

end Sys2Proof.Machine
end

