-- ==== Sys2Proof/Machine/Counters.lean ====
section
/-!
DEFINITION. Sys2Proof/Machine/Counters.lean: the monotonic counters and their credits (R171 to R174).
-/
namespace Sys2Proof.Machine

def counter (s : State) (n : Nat) : Counter := tblGet Counter.reset s.ctrs.table n

def modCounter (n : Nat) (f : Counter → Counter) (s : State) : State :=
  { s with ctrs := { s.ctrs with table := tblMod Counter.reset s.ctrs.table n f } }

/-- R171, CTR_POS.OWNER. -/
def counterOwner (s : State) (n : Nat) : Nat := if n < 8 then n else if n < 16 then 8 else (counter s n).owner

/-- The 8-byte word p of counter n: bank 2 and its index there. -/
def counterWord (n p : Nat) : Nat := 160 * n + p

/-- R172: a new value is written after the head, which moves on to it. -/
def writeCounter (n : Nat) (v : DWord) (s : State) : State :=
  let c := counter s n
  let p := (c.head + 1) % 160
  let s1 := modCounter n (fun c => { c with value := v, head := p, words := tblSet 0 c.words p v }) s
  let s2 := { s1 with
    ctrs := { s1.ctrs with incs := sat32 s1.ctrs.incs },
    stored := { s1.stored with ctrWrites := tblMod 0 s1.stored.ctrWrites (counterWord n p) (· + 1) } }
  noteWritten 2 (counterWord n p) (setCond 2 (counterWord n p) .good s2)

/-- One increment that spends a credit of each kind. -/
def increment (n : Nat) (s : State) : State := writeCounter n ((counter s n).value + 1) (takeCredit n s)

/-- CTR_CREDIT. -/
def ctrCredit (c : Counter) : Word := word (c.long + c.short * 2 ^ 20)

/-- CTR_POS. -/
def ctrPos (s : State) (n : Nat) : Word := word ((counter s n).head + counterOwner s n * 2 ^ 8)

/-- CTR_AUTH. -/
def ctrAuth (s : State) : Word :=
  word (s.ctrs.enabled.toNat * 2 ^ 8 +
    (List.range 8).foldl (fun v i => v + fbit (slotLive (rootSlot s (24 + i))) i) 0)

/-- CTR_LAST. -/
def ctrLast (c : Counters) : Word := word (c.lastStatus + c.lastAuth * 2 ^ 8 + c.lastCode * 2 ^ 16)

/-- The pending unlock half that is not yet 60 s old (R168). -/
def unlockHalf (s : State) : Option (Nat × Nat) :=
  match s.ctrs.half with
  | some (a, t) => if s.hut.time ≤ t + 60 * 32768 then some (a, t) else none
  | none => none

/-- CTR_UNLOCK. -/
def ctrUnlock (s : State) : Word :=
  match unlockHalf s with
  | some (a, t) => word ((t + 60 * 32768 - s.hut.time) / 32768 % 64 + a * 2 ^ 16 + 2 ^ 31)
  | none => 0

/-- UNLOCK_HALF_EXPIRY: a pending half older than 60 s is discarded. -/
def dropHalf (s : State) : State := { s with ctrs := { s.ctrs with half := unlockHalf s } }

/-- LONG_CREDIT_REFILL and SHORT_CREDIT_REFILL: every counter's credit grows by 1 up to its limit. -/
def refillLong (s : State) : State :=
  { s with ctrs := { s.ctrs with
      table := tblModAll Counter.reset (s.ctrs.table.map Prod.fst) s.ctrs.table
        (fun _ c => { c with long := min 691200 (c.long + 1) }) } }

def refillShort (s : State) : State :=
  { s with ctrs := { s.ctrs with
      table := tblModAll Counter.reset (s.ctrs.table.map Prod.fst) s.ctrs.table
        (fun _ c => { c with short := min 1000 (c.short + 1) }) } }

end Sys2Proof.Machine
end

