-- ==== Sys2Proof/Machine/Ops.lean ====
section
/-!
DEFINITION. Sys2Proof/Machine/Ops.lean: the operations on time, and on a Rink core's registers, memory and mode: register
access (R324), the checked load and store (R329, R349, R353, R358, R387, R389), the entry into an exception (R333) and the
stop of an applet (R334, R338).
-/
namespace Sys2Proof.Machine

/-! ### Time -/

/-- One tick of the time base of R41, 10 ns; the Hut's timekeeper of R445 counts 32,768 ticks a second on its own crystal, or
on the oscillator of R448 that stands in for it (log entry 1). -/
def tick (s : State) : State :=
  let f := s.hut.frac + 128
  let carry := decide (390625 ≤ f)
  { s with
    now := (s.now + 1) % 2 ^ 64,
    hut := { s.hut with
      frac := if carry then f - 390625 else f,
      time := if carry then s.hut.time + 1 else s.hut.time } }

/-! ### Core registers -/

/-- w0 reads as zero. -/
def reg (k : Rink) (r : Fin 16) : Word := if r.val = 0 then 0 else tblGet 0 k.regs r.val

/-- Writes to w0 are discarded. -/
def withReg (r : Fin 16) (v : Word) (k : Rink) : Rink :=
  { k with regs := if r.val = 0 then k.regs else tblSet 0 k.regs r.val v }

/-- The next instruction follows in memory. -/
def nextPc (k : Rink) : Rink := { k with pc := k.pc + 4 }

/-- STAT (R325). -/
def statOf (s : State) (c : Nat) : Word :=
  let k := rinkOf s c
  let n := k.applet.getD 0
  let cls := match k.applet with
    | some n => clsCode (applet s n).cls
    | none => 0
  word (fbit (s.powder.seeded && !(rngDegraded s)) 24 + c % 8 * 2 ^ 20 + cls * 2 ^ 16 + n % 32 * 2 ^ 8 +
    fbit k.supervisor 0)

/-- The core executes instructions: it is not idle, stalled on the random port, or held on a breakpoint (R350, R375). -/
def executing (s : State) (c : Nat) : Bool :=
  let k := rinkOf s c
  decide (c < 8) && !k.idle && k.stalled.isNone && !(k.applet.any (fun n => (applet s n).held))

/-! ### Exceptions (R333, R334, R338) -/

/-- What raises an exception: its cause, the address for EADDR, and a denied access or an uncorrectable word behind it. -/
structure Trap where
  cause : Nat
  addr : Option Word
  denied : Option (Acc × Verdict)
  bad : Option (Nat × Nat)
  part : Bool              -- the word refused a partial write (R387)
  deriving DecidableEq, Repr

def trapOf (cause : Nat) : Trap := { cause := cause, addr := none, denied := none, bad := none, part := false }

def trapAt (cause : Nat) (a : Word) : Trap := { cause := cause, addr := some a, denied := none, bad := none, part := false }

/-- The exception of R333: PC and STAT are saved, the cause recorded, and supervisor mode entered (log entry 5). -/
def enterException (c cause : Nat) (addr : Option Word) (s : State) : State :=
  let stat := statOf s c
  modCore c (fun k => { k with epc := k.pc, estat := stat, ecause := word cause, eaddr := addr.getD k.eaddr,
                               supervisor := true, stalled := none, pc := Config.exceptionEntry cause }) s

/-- A fault of R333, as against SVC and a slice end. -/
def isFault (cause : Nat) : Bool := decide (1 ≤ cause) && decide (cause ≤ 8)

/-- The record that WAIT_EVENT returned last is consumed (R343). -/
def consume (a : Applet) : Applet := { a with mail := if a.taken then a.mail.drop 1 else a.mail, taken := false }

/-- A fault moves an applet to STOPPING, and its ring is disabled (R334, R338). -/
def stopApplet (n cause : Nat) (epc eaddr : Word) (s : State) : State :=
  let s1 := modApplet n (fun a => { consume a with cause := cause, epc := epc, waitPending := false, held := false }) s
  let s2 := raiseEvent (641 + 4 * n) (word cause) (eaddr.zeroExtend 64) (moveApplet n .stopping s1)
  disableRing (.internal n) s2

/-- The capture and trace of a denied access of a core (R364, R365). -/
def noteDenied (t : Trap) (s : State) : State :=
  match t.denied with
  | some (x, .deny r e g col) =>
    let s1 := captureFault x r e g col s
    if x.user then s1 else traceFault x.unit s1
  | _ => s

def noteBad (t : Trap) (s : State) : State :=
  match t.bad with
  | some (b, w) => noteUe b w t.part s
  | none => s

/-- The event of R35 at a bus fault of supervisor code.  R514 gives it no source of its own: it is raised as one of the
protection's, 360, with no PU_EVT bit (DESIGN CHOICE, log entry 82). -/
def noteBus (user : Bool) (t : Trap) (s : State) : State := raiseIf (!user && t.cause == 5) 360 0 0 s

/-- The exception is taken; a fault in user mode ends the applet's activation and frees the core of it. -/
def takeTrap (c : Nat) (t : Trap) (s : State) : State :=
  let k := rinkOf s c
  let s1 := enterException c t.cause t.addr (noteBus (!k.supervisor) t (noteBad t (noteDenied t s)))
  match k.applet, k.supervisor with
  | some n, false =>
    if isFault t.cause then
      modCore c (fun k => { k with applet := none }) (stopApplet n t.cause k.pc (rinkOf s1 c).eaddr s1)
    else s1
  | _, _ => s1

/-! ### Checked accesses -/

/-- The access of a core. -/
def accOf (k : Rink) (c : Nat) (kind : AccKind) (a : Nat) : Acc :=
  { unit := c, user := !k.supervisor, applet := k.applet, kind := kind, addr := a }

/-- The stored word that holds an address reads as uncorrectable. -/
def badAt (s : State) (a : Nat) : Option (Nat × Nat) :=
  match wordOf (a / 8 * 8) with
  | some (b, w) => if condBad (wordCond s b w) then some (b, w) else none
  | none => none

/-- A read corrects the word that holds an address (R380). -/
def correctAt (a : Nat) (s : State) : State :=
  match wordOf (a / 8 * 8) with
  | some (b, w) => if wordCond s b w == .correctable then noteCorrected b w s else s
  | none => s

/-- R389: an uncorrectable word is cause 0x06; for supervisor code in the MRAM window it is a bus fault. -/
def badCause (k : Rink) (a : Nat) : Nat := if k.supervisor && decide (0x20000000 ≤ a) && decide (a < 0x20680000) then 5 else 6

/-- The trap of an access, when it fails at steps 1 to 8 of R358 or meets an uncorrectable word. -/
def accTrap (s : State) (c : Nat) (kind : AccKind) (a : Word) (size : Nat) : Option Trap :=
  let k := rinkOf s c
  let x := accOf k c kind a.toNat
  if a.toNat % size ≠ 0 then some (trapAt (if kind == .exec then 2 else 3) a)
  else match checkAcc s x with
    | .deny r e t col => some { trapAt 4 a with denied := some (x, .deny r e t col) }
    | .bus => some (trapAt 5 a)
    | .pass =>
      if kind == .write && decide (size = 8) then none
      else match badAt s a.toNat with
        | some b => some { trapAt (badCause k a.toNat) a with bad := some b, part := kind == .write }
        | none => none

/-- One instruction of a core that executes: its fetch first, then what it does. -/
def runOn (c : Nat) (f : State → State) (s : State) : State :=
  if executing s c then
    match accTrap s c .exec (rinkOf s c).pc 4 with
    | some t => takeTrap c t s
    | none => f (correctAt (rinkOf s c).pc.toNat s)
  else s

/-! ### Protection block and debug registers (R353, R354, R368, R369, R375) -/

/-- R354: the two words make a legal entry. -/
def entryLegal (w0 : Word) : Bool :=
  let n := w0.toNat / 32 % 64
  decide (11 ≤ n) && decide (n ≤ 32) && (w0.toNat / 2048 * 2048) % 2 ^ n == 0

/-- BAD_ENTRY and LOCKED_WRITE. -/
def badEntry (s : State) : State := setPuEvt (2 ^ 17) s
def lockedWrite (s : State) : State := setPuEvt (2 ^ 13) s

/-- R367: a rule change abandons a stalled random-port load of the cores it affects; PC stays at the load. -/
def abandonLoads (hit : Nat → Rink → Bool) (s : State) : State :=
  { s with merya := { s.merya with
      cores := tblModAll Rink.reset (List.range 8) s.merya.cores
        (fun c k => if hit c k then { k with stalled := none } else k) } }

/-- The fields of an entry; reserved bits read as zero (R14, R354), and so does LOCK in a grant set. -/
def keptEntry (grant : Bool) (w0 w1 : Word) : PuEntry :=
  { w0 := w0 &&& 0xFFFFFFE0, w1 := w1 &&& (if grant then 0xBFFF7000 else 0xFFFF7000) }

/-- A write of entry e of a unit or of a grant set takes effect (R354, R369). -/
def writeEntryWords (grant : Bool) (set e : Nat) (w0 w1 : Word) (s : State) : State :=
  if grant then
    if !(entryLegal w0) then badEntry s
    else abandonLoads (fun _ k => k.applet == some set) { s with prot := { s.prot with
        grants := tblSet PuEntry.reset s.prot.grants (8 * set + e) (keptEntry true w0 w1) } }
  else if peLock (tblGet PuEntry.reset s.prot.units (16 * set + e)) then lockedWrite s
  else if !(entryLegal w0) then badEntry s
  else abandonLoads (fun c _ => c == set) { s with prot := { s.prot with
      units := tblSet PuEntry.reset s.prot.units (16 * set + e) (keptEntry false w0 w1) } }

/-! ### Settings of the card port (R494) -/

/-- The settings of CARD_CFG and CARD_TMO come into use. -/
def useSettings (c : Card) : Card :=
  { c with use := { unlockEn := c.unlockEn, readAcc := c.readAcc, busyBlk := c.busyBlk, final := c.final, mbxTmo := c.mbxTmo } }

/-- After a write of CARD_CFG or CARD_TMO: a card that is identified keeps the settings it was identified under. -/
def settingsWritten (c : Card) : Card := if c.state == .ready || c.state == .transfer then c else useSettings c

/-- R368: 1 to 2,048 granules within applet SRAM or the session table. -/
def tagRangeOk (first count : Nat) : Bool :=
  decide (0 < count) && decide (count ≤ 2048) &&
    ((decide (0x10000000 ≤ first) && decide (first + 256 * count ≤ 0x10400000)) ||
     (decide (0x30000000 ≤ first) && decide (first + 256 * count ≤ 0x30080000)))

/-- R368: tags of a range of granules; a range outside applet SRAM and the session table is ignored. -/
def writeTags (first count tag : Nat) (s : State) : State :=
  if !(tagRangeOk first count) then badEntry s
  else abandonLoads (fun _ _ => true) { s with prot := { s.prot with
      tags := (List.range count).foldl (fun t i => tblSet 0 t (first / 256 + i) tag) s.prot.tags } }

/-- The dword of the protection block that a core reads: entries, grant sets through their view, and PU_TAG. -/
def protRead (s : State) (off : Nat) : Word :=
  if off < 0x600 then
    let u := off / 0x80
    let e := off % 0x80 / 8
    let x := if u < 8 && decide (e < 8) then
        (match (rinkOf s u).applet with
         | some n => tblGet PuEntry.reset s.prot.grants (8 * n + e)
         | none => PuEntry.reset)
      else tblGet PuEntry.reset s.prot.units (16 * u + e)
    if off % 8 < 4 then x.w0 else x.w1
  else if off = 0x600 then word s.prot.gsel
  else if 0x608 ≤ off ∧ off < 0x648 then
    let x := tblGet PuEntry.reset s.prot.grants (8 * s.prot.gsel + (off - 0x608) / 8)
    if off % 8 < 4 then x.w0 else x.w1
  else if 0x680 ≤ off ∧ off < 0x6E0 then
    let f := tblGet PuFault.reset s.prot.faults ((off - 0x680) / 8)
    if off % 8 < 4 then puFaultReg f else f.addr
  else match off with
    | 0x700 => s.prot.evt.zeroExtend 32
    | 0x708 => word s.prot.denyCnt
    | 0x70C => word s.prot.faultCnt
    | 0x710 => word s.prot.drainMax
    | 0x714 => s.prot.arm
    | 0x718 => word ((List.range 32).foldl (fun v n => v + fbit (applet s n).held n) 0)
    | 0x800 => s.prot.puTag
    | _ => 0

/-- A dword store to the protection block by supervisor code: one word of an entry changes, PU_GSEL, or the tag
interface.  The block gives an entry two dwords; a store of 4 bytes changes one and keeps the other (log entry 12). -/
def protWrite (off : Nat) (v : Word) (s : State) : State :=
  if off < 0x600 then
    let u := off / 0x80
    let e := off % 0x80 / 8
    let view := if u < 8 && decide (e < 8) then (rinkOf s u).applet else none
    let old := match view with
      | some n => tblGet PuEntry.reset s.prot.grants (8 * n + e)
      | none => tblGet PuEntry.reset s.prot.units (16 * u + e)
    let w0 := if off % 8 < 4 then v else old.w0
    let w1 := if off % 8 < 4 then old.w1 else v
    match view with
    | some n => writeEntryWords true n e w0 w1 s
    | none => if u < 8 && decide (e < 8) then s else writeEntryWords false u e w0 w1 s
  else if off = 0x600 then { s with prot := { s.prot with gsel := v.toNat % 32 } }
  else if 0x608 ≤ off ∧ off < 0x648 then
    let e := (off - 0x608) / 8
    let old := tblGet PuEntry.reset s.prot.grants (8 * s.prot.gsel + e)
    writeEntryWords true s.prot.gsel e (if off % 8 < 4 then v else old.w0) (if off % 8 < 4 then old.w1 else v) s
  else match off with
    | 0x800 => { s with prot := { s.prot with puTag := v &&& 0xFFFFFF0F } }
    | 0x804 => writeTags (s.prot.puTag.toNat / 256 * 256) v.toNat (s.prot.puTag.toNat % 16) s
    | _ => s

/-- A dword of the peripheral space: the protection block and the debug registers; the rest reads as zero (log entry 13). -/
def periRead (s : State) (a : Nat) : Word :=
  if 0x50002000 ≤ a ∧ a < 0x50002900 then protRead s (a - 0x50002000)
  else if a = 0x50003000 then s.prot.arm
  else 0

/-! ### Loads and stores -/

/-- The dword at a 4-byte aligned address, as a load finds it. -/
def wordAt (s : State) (a : Nat) : Nat :=
  match regionOf a with
  | some .ringPorts => (portRead s ((a - 0x40000000) / 0x1000) (a % 0x1000 / 4 * 4)).toNat
  | some .peripherals => (periRead s (a / 4 * 4)).toNat
  | _ => natLE (mapBytes s (a / 4 * 4) 4)

/-- The `size` bytes at an aligned address. -/
def loadValue (s : State) (a size : Nat) : Nat :=
  if size = 8 then wordAt s a + 2 ^ 32 * wordAt s (a + 4)
  else wordAt s a / 2 ^ (8 * (a % 4)) % 2 ^ (8 * size)

/-- A store of `size` bytes that the check has let through.  Registers take whole dwords: a narrower store to a
register leaves the dword's other bytes zero (log entry 12). -/
def storeValue (a size v : Nat) (s : State) : State :=
  match regionOf a with
  | some .ringPorts =>
    let n := (a - 0x40000000) / 0x1000
    let low := v % 2 ^ (8 * min size 4) * 2 ^ (8 * (a % 4))
    let s1 := portWrite n (a % 0x1000 / 4 * 4) (word low) s
    if size = 8 then portWrite n (a % 0x1000 + 4) (word (v / 2 ^ 32)) s1 else s1
  | some .peripherals =>
    if 0x50002000 ≤ a ∧ a < 0x50002900 then
      let s1 := protWrite (a / 4 * 4 - 0x50002000) (word (v % 2 ^ (8 * min size 4) * 2 ^ (8 * (a % 4)))) s
      if size = 8 then protWrite (a + 4 - 0x50002000) (word (v / 2 ^ 32)) s1 else s1
    else s
  | _ => storeBytes a (bytesLE size v) s

/-- A sign-extended or zero-extended value of `size` bytes. -/
def extend (signed : Bool) (size v : Nat) : Word :=
  if signed && decide (2 ^ (8 * size - 1) ≤ v) then word (v + 2 ^ 32 - 2 ^ (8 * size)) else word v

/-! ### The random port (R309, R310) -/

/-- Loads from the port stall: before the first seed, or while a forced reseed runs on the serving Groomer. -/
def portStalls (s : State) : Bool :=
  !s.powder.seeded ||
    (match (List.range 4).find? (fun g => unitState s { kind := .groomer, num := g } == .inService) with
     | some g => (groomerOf s g).hardStall
     | none => false)

/-- A load writes its destination: one register, or a pair for 8 bytes. -/
def loadInto (rd : Fin 16) (size : Nat) (signed : Bool) (v : Nat) (k : Rink) : Rink :=
  if size = 8 then withReg (rd + 1) (word (v / 2 ^ 32)) (withReg rd (word (v % 2 ^ 32)) k)
  else withReg rd (extend signed size v) k

/-- A load from the random port: a bus fault under degraded service, the next bytes of the buffer, or a stall; the port asks
for a refill where few bytes are left. -/
def randomLoad (c : Nat) (rd : Fin 16) (size : Nat) (signed : Bool) (a : Word) (s : State) : State :=
  let k := rinkOf s c
  if rngDegraded s then
    takeTrap c (trapAt 5 a) { s with powder := { s.powder with portFaultCnt := sat32 s.powder.portFaultCnt } }
  else if portStalls s || decide (k.buffer.length < size) then
    placeRefill c (modCore c (fun k => { k with stalled := some (rd, size, signed, a) }) s)
  else placeRefill c (modCore c (fun k =>
    nextPc (loadInto rd size signed (natLE (k.buffer.take size)) { k with buffer := k.buffer.drop size })) s)

/-- A stalled load that finds its bytes completes. -/
def resumeLoad (c : Nat) (s : State) : State :=
  let k := rinkOf s c
  match k.stalled with
  | none => s
  | some (rd, size, signed, _) =>
    if portStalls s || decide (k.buffer.length < size) then s
    else modCore c (fun k => nextPc (loadInto rd size signed (natLE (k.buffer.take size))
      { k with buffer := k.buffer.drop size, stalled := none })) s

def resumeLoads (s : State) : State := (List.range 8).foldl (fun s c => resumeLoad c s) s

end Sys2Proof.Machine
end

