-- ==== Sys2Proof/Machine/Rink.lean ====
section
/-!
DEFINITION. Sys2Proof/Machine/Rink.lean: the instruction set of the Rink cores (R325 to R333, R375).  A row names the
instruction that the core's fetch at PC brings (log entry 14).
-/
namespace Sys2Proof.Machine

/-! ### Shapes of instructions -/

/-- rd := a value of the core, and the next instruction follows. -/
def writeRd (c : Nat) (rd : Fin 16) (f : Rink → Word) (s : State) : State :=
  runOn c (fun s => modCore c (fun k => nextPc (withReg rd (f k) k)) s) s

/-- Two source registers. -/
def alu (c : Nat) (rd rs1 rs2 : Fin 16) (f : Word → Word → Word) (s : State) : State :=
  writeRd c rd (fun k => f (reg k rs1) (reg k rs2)) s

/-- One source register and an immediate. -/
def aluImm (c : Nat) (rd rs1 : Fin 16) (f : Word → Word) (s : State) : State := writeRd c rd (fun k => f (reg k rs1)) s

/-- A shift by an immediate; imm16[15:5] not zero is illegal (R327). -/
def shiftImm (c : Nat) (rd rs1 : Fin 16) (imm : BitVec 16) (f : Word → Nat → Word) (s : State) : State :=
  if 32 ≤ imm.toNat then runOn c (takeTrap c (trapOf 1)) s
  else aluImm c rd rs1 (fun x => f x imm.toNat) s

/-- sext and zext of imm16. -/
def sext16 (imm : BitVec 16) : Word := imm.signExtend 32
def zext16 (imm : BitVec 16) : Word := imm.zeroExtend 32

def shiftLeft (x : Word) (n : Nat) : Word := x <<< n
def shiftRight (x : Word) (n : Nat) : Word := x >>> n
def shiftRightArith (x : Word) (n : Nat) : Word := x.sshiftRight n

def oneIf (b : Bool) : Word := if b then 1 else 0

/-- R328: for a divisor of 0 the quotient is all ones and the remainder the dividend. -/
def divu (x y : Word) : Word := if y = 0 then 0xFFFFFFFF else x / y
def remu (x y : Word) : Word := if y = 0 then x else x % y
def mulhu (x y : Word) : Word := BitVec.ofNat 32 (x.toNat * y.toNat / 2 ^ 32)

/-- A load of `size` bytes. -/
def load (c : Nat) (rd rs1 : Fin 16) (imm : BitVec 16) (size : Nat) (signed : Bool) (s : State) : State :=
  if size = 8 ∧ rd.val % 2 = 1 then runOn c (takeTrap c (trapOf 1)) s
  else runOn c (fun s =>
    let a := reg (rinkOf s c) rs1 + sext16 imm
    match accTrap s c .read a size with
    | some t => takeTrap c t s
    | none =>
      if regionOf a.toNat == some .randomPort then randomLoad c rd size signed a s
      else
        let v := loadValue s a.toNat size
        modCore c (fun k => nextPc (loadInto rd size signed v k)) (correctAt a.toNat s)) s

/-- A store of `size` bytes. -/
def store (c : Nat) (rt rs1 : Fin 16) (imm : BitVec 16) (size : Nat) (s : State) : State :=
  if size = 8 ∧ rt.val % 2 = 1 then runOn c (takeTrap c (trapOf 1)) s
  else runOn c (fun s =>
    let k := rinkOf s c
    let a := reg k rs1 + sext16 imm
    let v := (reg k rt).toNat + if size = 8 then (reg k (rt + 1)).toNat * 2 ^ 32 else 0
    match accTrap s c .write a size with
    | some t => takeTrap c t s
    | none => storeValue a.toNat size v (modCore c nextPc s)) s

/-- A branch to T + 4 × sext(off18). -/
def branch (c : Nat) (rs1 rs2 : Fin 16) (off : BitVec 18) (taken : Word → Word → Bool) (s : State) : State :=
  runOn c (fun s => modCore c (fun k =>
    { k with pc := if taken (reg k rs1) (reg k rs2) then k.pc + 4 * off.signExtend 32 else k.pc + 4 }) s) s

/-- A supervisor-only instruction: illegal in user mode. -/
def supervisorOnly (c : Nat) (f : State → State) (s : State) : State :=
  runOn c (fun s => if (rinkOf s c).supervisor then f s else takeTrap c (trapOf 1) s) s

/-! ### System registers (R325) -/

def sysKnown (n : Nat) : Bool := decide (n ≤ 4) || (decide (0x10 ≤ n) && decide (n ≤ 0x14))

def sysUser (n : Nat) : Bool := n == 0 || (decide (0x10 ≤ n) && decide (n ≤ 0x14))

/-- The time-base counter, and the deadline and slices of the applet on the core. -/
def coreDeadline (s : State) (k : Rink) : Nat :=
  match k.applet with
  | some n => (applet s n).deadline
  | none => 0

def coreSlices (s : State) (k : Rink) : Nat :=
  match k.applet with
  | some n => (applet s n).slices
  | none => 0

def sysValue (s : State) (c n : Nat) : Word :=
  let k := rinkOf s c
  match n with
  | 0x000 => statOf s c
  | 0x001 => k.epc
  | 0x002 => k.estat
  | 0x003 => k.ecause
  | 0x004 => k.eaddr
  | 0x010 => word s.now
  | 0x011 => k.timeHi
  | 0x012 => word (coreSlices s k)
  | 0x013 => word (coreDeadline s k)
  | 0x014 => k.deadlineHi
  | _ => 0

/-- The latch that a read of TIME_LO or DEADLINE_LO makes. -/
def sysLatch (s : State) (n : Nat) (k : Rink) : Rink :=
  { k with timeHi := if n = 0x010 then word (s.now / 2 ^ 32) else k.timeHi,
           deadlineHi := if n = 0x013 then word (coreDeadline s k / 2 ^ 32) else k.deadlineHi }

/-- An MTS: STAT takes MODE, whose other fields show the part's state; the exception registers take the value; what a
write leaves in SLICES and the latches is not described, and is a free value (log entry 6). -/
def sysWrite (c n : Nat) (v : Word) (s : State) : State :=
  let free := Config.freeWord s.free
  let k := rinkOf s c
  let k' : Rink := { k with
    supervisor := if n = 0 then v.getLsbD 0 else k.supervisor,
    epc := if n = 1 then v else k.epc,
    estat := if n = 2 then v else k.estat,
    ecause := if n = 3 then v else k.ecause,
    eaddr := if n = 4 then v else k.eaddr,
    timeHi := if n = 0x010 ∨ n = 0x011 then free else k.timeHi,
    deadlineHi := if n = 0x013 ∨ n = 0x014 then free else k.deadlineHi }
  let s1 := setCore c (nextPc k') { s with free := if 0x10 ≤ n then s.free + 1 else s.free }
  match n, k.applet with
  | 0x012, some a => modApplet a (fun x => { x with slices := free.toNat }) s1
  | 0x013, some a => modApplet a (fun x => { x with deadline := free.toNat }) s1
  | _, _ => s1

/-! ### Legality (R326, R327) -/

/-- Bits hi..lo of an instruction word. -/
def insBits (w : Word) (hi lo : Nat) : Nat := bitsOf w.toNat hi lo

/-- R327: the word raises illegal instruction in the mode. -/
def wordIllegal (user : Bool) (w : Word) : Bool :=
  let op := insBits w 31 26
  let rd := insBits w 25 22
  let rs1 := insBits w 21 18
  let imm := insBits w 15 0
  let top := insBits w 17 16
  if 0x01 ≤ op ∧ op ≤ 0x10 then
    insBits w 9 0 != 0 || (op != 0x0F && insBits w 13 10 != 0) || (op == 0x10 && insBits w 17 14 != 0)
  else if (0x11 ≤ op ∧ op ≤ 0x1A) ∨ (0x20 ≤ op ∧ op ≤ 0x25) ∨ (0x28 ≤ op ∧ op ≤ 0x2B) ∨ op = 0x39 then
    top != 0 || (op == 0x1A && rs1 != 0) || (decide (0x15 ≤ op) && decide (op ≤ 0x17) && decide (32 ≤ imm)) ||
      ((op == 0x25 || op == 0x2B) && rd % 2 == 1)
  else if (0x30 ≤ op ∧ op ≤ 0x35) ∨ op = 0x38 then false
  else if op = 0x36 ∨ (0x3A ≤ op ∧ op ≤ 0x3F) then
    top != 0 || (op != 0x3C && rd != 0) || (op != 0x3D && rs1 != 0) ||
      (user && (op == 0x36 || op == 0x3D || op == 0x3F)) ||
      (op == 0x3C && (if user then !(sysUser imm) else !(sysKnown imm))) ||
      (op == 0x3D && !(sysKnown imm))
  else true

/-! ### Decoding (R326, R328) -/

/-- The register number at bits lo+3..lo. -/
def insReg (w : Word) (lo : Nat) : Fin 16 := (w.extractLsb' lo 4).toFin

/-- The row of an SVC by its service number (R344). -/
def svcRow (core : Nat) (n : BitVec 16) : Instr :=
  match n.toNat with
  | 0x0001 => .waitEvent core
  | 0x0002 => .yield core
  | 0x0003 => .ringConfig core
  | 0x0010 => .ctrRead core
  | 0x0011 => .ctrIncrement core
  | 0x0020 => .eventSignal core
  | 0x0030 => .trkAppend core
  | 0x0040 => .timerSet core
  | _ => .svcUnknown core n

/-- The row that a legal word spells: the opcode of R328 and the fields of its format; rd, rt and a branch's rs1 stand at
[25:22], rs1 and a branch's rs2 at [21:18], rs2 at [17:14]. -/
def rinkRow (core : Nat) (w : Word) : Instr :=
  let d := insReg w 22
  let a := insReg w 18
  let b := insReg w 14
  let imm := w.extractLsb' 0 16
  match insBits w 31 26 with
  | 0x01 => .add core d a b
  | 0x02 => .sub core d a b
  | 0x03 => .and core d a b
  | 0x04 => .or core d a b
  | 0x05 => .xor core d a b
  | 0x06 => .sll core d a b
  | 0x07 => .srl core d a b
  | 0x08 => .sra core d a b
  | 0x09 => .mul core d a b
  | 0x0A => .mulhu core d a b
  | 0x0B => .divu core d a b
  | 0x0C => .remu core d a b
  | 0x0D => .slt core d a b
  | 0x0E => .sltu core d a b
  | 0x0F => .csel core d a b (insReg w 10)
  | 0x10 => .mask core d a
  | 0x11 => .addi core d a imm
  | 0x12 => .andi core d a imm
  | 0x13 => .ori core d a imm
  | 0x14 => .xori core d a imm
  | 0x15 => .slli core d a imm
  | 0x16 => .srli core d a imm
  | 0x17 => .srai core d a imm
  | 0x18 => .slti core d a imm
  | 0x19 => .sltiu core d a imm
  | 0x1A => .lui core d imm
  | 0x20 => .lb core d a imm
  | 0x21 => .lbu core d a imm
  | 0x22 => .lh core d a imm
  | 0x23 => .lhu core d a imm
  | 0x24 => .lw core d a imm
  | 0x25 => .ldd core d a imm
  | 0x28 => .sb core d a imm
  | 0x29 => .sh core d a imm
  | 0x2A => .sw core d a imm
  | 0x2B => .sdd core d a imm
  | 0x30 => .beq core d a (w.extractLsb' 0 18)
  | 0x31 => .bne core d a (w.extractLsb' 0 18)
  | 0x32 => .blt core d a (w.extractLsb' 0 18)
  | 0x33 => .bge core d a (w.extractLsb' 0 18)
  | 0x34 => .bltu core d a (w.extractLsb' 0 18)
  | 0x35 => .bgeu core d a (w.extractLsb' 0 18)
  | 0x36 => .wait core
  | 0x38 => .jal core (w.extractLsb' 0 26)
  | 0x39 => .jalr core d a imm
  | 0x3A => svcRow core imm
  | 0x3B => .brk core imm
  | 0x3C => .mfs core d imm
  | 0x3D => .mts core a imm
  | 0x3E => .fence core
  | 0x3F => .eret core
  | _ => .illegalInstruction core w

/-- The row of any word in a mode; an illegal word is that row (R327). -/
def rinkDecode (core : Nat) (user : Bool) (w : Word) : Instr :=
  if wordIllegal user w then .illegalInstruction core w else rinkRow core w

/-- The row that the fetch of a core at its PC brings (log entry 14). -/
def fetchedRow (s : State) (core : Nat) : Instr :=
  rinkDecode core (!(rinkOf s core).supervisor) (word (wordAt s (rinkOf s core).pc.toNat))

/-! ### The rows -/

def execAdd (core : Nat) (rd rs1 rs2 : Fin 16) (s : State) : Host.Outcome State Fault Refusal :=
  .next (alu core rd rs1 rs2 (· + ·) s)

def execSub (core : Nat) (rd rs1 rs2 : Fin 16) (s : State) : Host.Outcome State Fault Refusal :=
  .next (alu core rd rs1 rs2 (· - ·) s)

def execAnd (core : Nat) (rd rs1 rs2 : Fin 16) (s : State) : Host.Outcome State Fault Refusal :=
  .next (alu core rd rs1 rs2 (· &&& ·) s)

def execOr (core : Nat) (rd rs1 rs2 : Fin 16) (s : State) : Host.Outcome State Fault Refusal :=
  .next (alu core rd rs1 rs2 (· ||| ·) s)

def execXor (core : Nat) (rd rs1 rs2 : Fin 16) (s : State) : Host.Outcome State Fault Refusal :=
  .next (alu core rd rs1 rs2 (· ^^^ ·) s)

def execSll (core : Nat) (rd rs1 rs2 : Fin 16) (s : State) : Host.Outcome State Fault Refusal :=
  .next (alu core rd rs1 rs2 (fun x y => shiftLeft x (y.toNat % 32)) s)

def execSrl (core : Nat) (rd rs1 rs2 : Fin 16) (s : State) : Host.Outcome State Fault Refusal :=
  .next (alu core rd rs1 rs2 (fun x y => shiftRight x (y.toNat % 32)) s)

def execSra (core : Nat) (rd rs1 rs2 : Fin 16) (s : State) : Host.Outcome State Fault Refusal :=
  .next (alu core rd rs1 rs2 (fun x y => shiftRightArith x (y.toNat % 32)) s)

def execMul (core : Nat) (rd rs1 rs2 : Fin 16) (s : State) : Host.Outcome State Fault Refusal :=
  .next (alu core rd rs1 rs2 (· * ·) s)

def execMulhu (core : Nat) (rd rs1 rs2 : Fin 16) (s : State) : Host.Outcome State Fault Refusal :=
  .next (alu core rd rs1 rs2 mulhu s)

def execDivu (core : Nat) (rd rs1 rs2 : Fin 16) (s : State) : Host.Outcome State Fault Refusal :=
  .next (alu core rd rs1 rs2 divu s)

def execRemu (core : Nat) (rd rs1 rs2 : Fin 16) (s : State) : Host.Outcome State Fault Refusal :=
  .next (alu core rd rs1 rs2 remu s)

def execSlt (core : Nat) (rd rs1 rs2 : Fin 16) (s : State) : Host.Outcome State Fault Refusal :=
  .next (alu core rd rs1 rs2 (fun x y => oneIf (x.slt y)) s)

def execSltu (core : Nat) (rd rs1 rs2 : Fin 16) (s : State) : Host.Outcome State Fault Refusal :=
  .next (alu core rd rs1 rs2 (fun x y => oneIf (x.ult y)) s)

def execCsel (core : Nat) (rd rs1 rs2 rs3 : Fin 16) (s : State) : Host.Outcome State Fault Refusal :=
  .next (writeRd core rd (fun k => if reg k rs3 ≠ 0 then reg k rs1 else reg k rs2) s)

def execMask (core : Nat) (rd rs1 : Fin 16) (s : State) : Host.Outcome State Fault Refusal :=
  .next (aluImm core rd rs1 (fun x => if x ≠ 0 then 0xFFFFFFFF else 0) s)

def execAddi (core : Nat) (rd rs1 : Fin 16) (imm : BitVec 16) (s : State) : Host.Outcome State Fault Refusal :=
  .next (aluImm core rd rs1 (fun x => x + sext16 imm) s)

def execAndi (core : Nat) (rd rs1 : Fin 16) (imm : BitVec 16) (s : State) : Host.Outcome State Fault Refusal :=
  .next (aluImm core rd rs1 (fun x => x &&& zext16 imm) s)

def execOri (core : Nat) (rd rs1 : Fin 16) (imm : BitVec 16) (s : State) : Host.Outcome State Fault Refusal :=
  .next (aluImm core rd rs1 (fun x => x ||| zext16 imm) s)

def execXori (core : Nat) (rd rs1 : Fin 16) (imm : BitVec 16) (s : State) : Host.Outcome State Fault Refusal :=
  .next (aluImm core rd rs1 (fun x => x ^^^ zext16 imm) s)

def execSlli (core : Nat) (rd rs1 : Fin 16) (imm : BitVec 16) (s : State) : Host.Outcome State Fault Refusal :=
  .next (shiftImm core rd rs1 imm shiftLeft s)

def execSrli (core : Nat) (rd rs1 : Fin 16) (imm : BitVec 16) (s : State) : Host.Outcome State Fault Refusal :=
  .next (shiftImm core rd rs1 imm shiftRight s)

def execSrai (core : Nat) (rd rs1 : Fin 16) (imm : BitVec 16) (s : State) : Host.Outcome State Fault Refusal :=
  .next (shiftImm core rd rs1 imm shiftRightArith s)

def execSlti (core : Nat) (rd rs1 : Fin 16) (imm : BitVec 16) (s : State) : Host.Outcome State Fault Refusal :=
  .next (aluImm core rd rs1 (fun x => oneIf (x.slt (sext16 imm))) s)

def execSltiu (core : Nat) (rd rs1 : Fin 16) (imm : BitVec 16) (s : State) : Host.Outcome State Fault Refusal :=
  .next (aluImm core rd rs1 (fun x => oneIf (x.ult (sext16 imm))) s)

def execLui (core : Nat) (rd : Fin 16) (imm : BitVec 16) (s : State) : Host.Outcome State Fault Refusal :=
  .next (writeRd core rd (fun _ => zext16 imm <<< 16) s)

def execLb (core : Nat) (rd rs1 : Fin 16) (imm : BitVec 16) (s : State) : Host.Outcome State Fault Refusal :=
  .next (load core rd rs1 imm 1 true s)

def execLbu (core : Nat) (rd rs1 : Fin 16) (imm : BitVec 16) (s : State) : Host.Outcome State Fault Refusal :=
  .next (load core rd rs1 imm 1 false s)

def execLh (core : Nat) (rd rs1 : Fin 16) (imm : BitVec 16) (s : State) : Host.Outcome State Fault Refusal :=
  .next (load core rd rs1 imm 2 true s)

def execLhu (core : Nat) (rd rs1 : Fin 16) (imm : BitVec 16) (s : State) : Host.Outcome State Fault Refusal :=
  .next (load core rd rs1 imm 2 false s)

def execLw (core : Nat) (rd rs1 : Fin 16) (imm : BitVec 16) (s : State) : Host.Outcome State Fault Refusal :=
  .next (load core rd rs1 imm 4 false s)

def execLdd (core : Nat) (rd rs1 : Fin 16) (imm : BitVec 16) (s : State) : Host.Outcome State Fault Refusal :=
  .next (load core rd rs1 imm 8 false s)

def execSb (core : Nat) (rt rs1 : Fin 16) (imm : BitVec 16) (s : State) : Host.Outcome State Fault Refusal :=
  .next (store core rt rs1 imm 1 s)

def execSh (core : Nat) (rt rs1 : Fin 16) (imm : BitVec 16) (s : State) : Host.Outcome State Fault Refusal :=
  .next (store core rt rs1 imm 2 s)

def execSw (core : Nat) (rt rs1 : Fin 16) (imm : BitVec 16) (s : State) : Host.Outcome State Fault Refusal :=
  .next (store core rt rs1 imm 4 s)

def execSdd (core : Nat) (rt rs1 : Fin 16) (imm : BitVec 16) (s : State) : Host.Outcome State Fault Refusal :=
  .next (store core rt rs1 imm 8 s)

def execBeq (core : Nat) (rs1 rs2 : Fin 16) (off : BitVec 18) (s : State) : Host.Outcome State Fault Refusal :=
  .next (branch core rs1 rs2 off (fun x y => x == y) s)

def execBne (core : Nat) (rs1 rs2 : Fin 16) (off : BitVec 18) (s : State) : Host.Outcome State Fault Refusal :=
  .next (branch core rs1 rs2 off (fun x y => x != y) s)

def execBlt (core : Nat) (rs1 rs2 : Fin 16) (off : BitVec 18) (s : State) : Host.Outcome State Fault Refusal :=
  .next (branch core rs1 rs2 off (fun x y => x.slt y) s)

def execBge (core : Nat) (rs1 rs2 : Fin 16) (off : BitVec 18) (s : State) : Host.Outcome State Fault Refusal :=
  .next (branch core rs1 rs2 off (fun x y => !(x.slt y)) s)

def execBltu (core : Nat) (rs1 rs2 : Fin 16) (off : BitVec 18) (s : State) : Host.Outcome State Fault Refusal :=
  .next (branch core rs1 rs2 off (fun x y => x.ult y) s)

def execBgeu (core : Nat) (rs1 rs2 : Fin 16) (off : BitVec 18) (s : State) : Host.Outcome State Fault Refusal :=
  .next (branch core rs1 rs2 off (fun x y => !(x.ult y)) s)

/-- R328: the core idles until the scheduler gives it work. -/
def execWait (core : Nat) (s : State) : Host.Outcome State Fault Refusal :=
  .next (supervisorOnly core (fun s => modCore core (fun k => { nextPc k with idle := true }) s) s)

/-- R328: w15 := T + 4, then jump. -/
def execJal (core : Nat) (off : BitVec 26) (s : State) : Host.Outcome State Fault Refusal :=
  .next (runOn core (fun s => modCore core (fun k =>
    { withReg 15 (k.pc + 4) k with pc := k.pc + 4 * off.signExtend 32 }) s) s)

/-- R328, R329: rd := T + 4 and PC := address; a target that is no multiple of 4 raises misaligned fetch. -/
def execJalr (core : Nat) (rd rs1 : Fin 16) (imm : BitVec 16) (s : State) : Host.Outcome State Fault Refusal :=
  .next (runOn core (fun s =>
    let t := reg (rinkOf s core) rs1 + sext16 imm
    if t.toNat % 4 ≠ 0 then takeTrap core (trapAt 2 t) s
    else modCore core (fun k => { withReg rd (k.pc + 4) k with pc := t }) s) s)

/-- R333, R375: an armed applet is held at the BRK while the debug port is open; otherwise cause 0x07. -/
def execBrk (core : Nat) (_imm : BitVec 16) (s : State) : Host.Outcome State Fault Refusal :=
  .next (runOn core (fun s =>
    let k := rinkOf s core
    match k.applet with
    | some n =>
      if !k.supervisor && s.prot.isOpen && s.prot.arm.getLsbD n then modApplet n (fun a => { a with held := true }) s
      else takeTrap core (trapOf 7) s
    | none => takeTrap core (trapOf 7) s) s)

/-- R325: a register that user mode may not read, or that does not exist, is illegal. -/
def execMfs (core : Nat) (rd : Fin 16) (imm : BitVec 16) (s : State) : Host.Outcome State Fault Refusal :=
  .next (runOn core (fun s =>
    let n := imm.toNat
    if if (rinkOf s core).supervisor then sysKnown n else sysUser n then
      let v := sysValue s core n
      modCore core (fun k => nextPc (withReg rd v (sysLatch s n k))) s
    else takeTrap core (trapOf 1) s) s)

def execMts (core : Nat) (rs1 : Fin 16) (imm : BitVec 16) (s : State) : Host.Outcome State Fault Refusal :=
  .next (supervisorOnly core (fun s =>
    if sysKnown imm.toNat then sysWrite core imm.toNat (reg (rinkOf s core) rs1) s
    else takeTrap core (trapOf 1) s) s)

/-- R328, R331: the model's stores are visible as they are made, so a FENCE only goes on. -/
def execFence (core : Nat) (s : State) : Host.Outcome State Fault Refusal :=
  .next (runOn core (fun s => modCore core nextPc s) s)

/-- R328: the return puts EPC into PC and ESTAT's MODE into STAT (log entry 5). -/
def execEret (core : Nat) (s : State) : Host.Outcome State Fault Refusal :=
  .next (supervisorOnly core (fun s =>
    modCore core (fun k => { k with pc := k.epc, supervisor := k.estat.getLsbD 0 }) s) s)

/-- R327. -/
def execIllegalInstruction (core : Nat) (w : Word) (s : State) : Host.Outcome State Fault Refusal :=
  .next (if wordIllegal (!(rinkOf s core).supervisor) w then runOn core (takeTrap core (trapOf 1)) s else s)

end Sys2Proof.Machine
end

