-- ==== Sys2Proof/Machine/Applets.lean ====
section
/-!
DEFINITION. Sys2Proof/Machine/Applets.lean: the scheduler, the service calls, and the life of an applet (R335 to R350, R357,
R362, R418).
-/
namespace Sys2Proof.Machine

/-! ### Cores and applets (R339, R340) -/

/-- The core's registers go into the applet, and the core is free. -/
def releaseCore (c : Nat) (s : State) : State :=
  let k := rinkOf s c
  let s1 := match k.applet with
    | some n => modApplet n (fun a => { a with pc := k.pc, regs := k.regs }) s
    | none => s
  modCore c (fun k => { k with applet := none, supervisor := true, idle := true, regs := [], stalled := none }) s1

/-- A slice of an applet begins on a core; one beyond MAX_SLICES raises cause 0x08. -/
def beginSlice (c n : Nat) (s : State) : State :=
  let count := (applet s n).slices + 1
  let s1 := modCore c (fun k => { k with sliceAt := s.now }) (modApplet n (fun a => { a with slices := count }) s)
  if imgNat (applet s n).image 0x1C 2 < count then takeTrap c (trapOf 8) s1 else s1

/-- The READY applet with the earliest activation deadline, the lower number first. -/
def earliestReady (s : State) : Option Nat :=
  (List.range 32).foldl (fun best n =>
    if (applet s n).state == .ready then
      match best with
      | some b => if (applet s n).deadline < (applet s b).deadline then some n else best
      | none => some n
    else best) none

/-- An applet gets a core. -/
def giveCore (c n : Nat) (s : State) : State :=
  let a := applet s n
  beginSlice c n (moveApplet n .running (modCore c (fun k =>
    { k with applet := some n, idle := false, supervisor := false, regs := a.regs, pc := a.pc, stalled := none }) s))

/-- CORE_DISPATCH. -/
def dispatchCore (c : Nat) (s : State) : State :=
  if decide (8 ≤ c) || (rinkOf s c).applet.isSome then s
  else match earliestReady s with
    | some n => placeRefill c (giveCore c n s)
    | none => s

/-- SLICE_END: a switch to a READY applet with an earlier deadline, or a new slice (cause 0x0A). -/
def endSlice (c : Nat) (s : State) : State :=
  let k := rinkOf s c
  match k.applet with
  | none => s
  | some n =>
    if (applet s n).held then s
    else
      let stat := statOf s c
      let s1 := modCore c (fun k => { k with epc := k.pc, estat := stat, ecause := 0x0A }) s
      match earliestReady s with
      | some m =>
        if (applet s m).deadline < (applet s n).deadline then giveCore c m (moveApplet n .ready (releaseCore c s1))
        else beginSlice c n s1
      | none => beginSlice c n s1

/-! ### Service calls (R344 to R346) -/

/-- An SVC of an applet: the exception's registers, then the service; in supervisor mode the exception is the runtime's. -/
def service (c : Nat) (f : Nat → State → State) (s : State) : State :=
  runOn c (fun s =>
    let k := rinkOf s c
    match k.applet, k.supervisor with
    | some n, false =>
      let stat := statOf s c
      f n (modCore c (fun k => { k with epc := k.pc, estat := stat, ecause := 9 }) s)
    | _, _ => takeTrap c (trapOf 9) s) s

/-- The call returns with a status in w1. -/
def returnStatus (c : Nat) (st : Word) (s : State) : State := modCore c (fun k => nextPc (withReg 1 st k)) s

/-- The call returns a status and a 64-bit value in w2 and w3. -/
def returnValue (c : Nat) (st : Word) (v : Nat) (s : State) : State :=
  modCore c (fun k => nextPc (withReg 3 (word (v / 2 ^ 32)) (withReg 2 (word v) (withReg 1 st k)))) s

def serveWait (c n : Nat) (s : State) : State :=
  let a := consume (applet s n)
  match a.mail with
  | r :: _ =>
    modCore c (fun k => nextPc (withReg 2 (word r.kind) (withReg 1 (word (mailAddr n r.slot)) k)))
      (setApplet n { returnRecord n r a with regs := (applet s n).regs } s)
  | [] =>
    moveApplet n .waiting (releaseCore c (modCore c nextPc (setApplet n { a with waitPending := true } s)))

def serveYield (c n : Nat) (s : State) : State := moveApplet n .ready (releaseCore c (returnStatus c 0 s))

/-- R346: the arguments of RING_CONFIG are in range. -/
def ringArgsOk (a : Applet) (sq cq log2 : Nat) : Bool :=
  let lo := imgNat a.image 0x0C 4
  let sqEnd := sq + 64 * 2 ^ log2
  let cqEnd := cq + 32 * 2 ^ log2
  decide (3 ≤ log2) && decide (log2 ≤ 10) && sq % 256 == 0 && cq % 256 == 0 && decide (lo ≤ sq) && decide (lo ≤ cq) &&
    decide (sqEnd ≤ 0x1F000) && decide (cqEnd ≤ 0x1F000) && (decide (sqEnd ≤ cq) || decide (cqEnd ≤ sq))

def serveRingConfig (c n : Nat) (s : State) : State :=
  let k := rinkOf s c
  let a := applet s n
  let sq := (reg k 1).toNat
  let cq := (reg k 2).toNat
  let w3 := (reg k 3).toNat
  if !(ringArgsOk a sq cq (w3 % 32)) then returnStatus c 1 s
  else if (getRing s (.internal n)).state != .disabled then returnStatus c 4 s
  else returnStatus c 0 (modRing (.internal n) (fun x =>
    { x with sqBase := BitVec.ofNat 64 (windowBase n + sq), cqBase := BitVec.ofNat 64 (windowBase n + cq),
             depthLog2 := w3 % 32, haltMode := decide (w3 / 2 ^ 12 % 2 = 1), cls := a.cls }) s)

/-- The counter that w1 names, when it is bound to the applet; else the status. -/
def boundCounter (s : State) (n w1 : Nat) : Option Word :=
  if 255 < w1 then some 1 else if counterOwner s w1 ≠ 0x20 + n then some 2 else none

def serveCtrRead (c n : Nat) (s : State) : State :=
  let w1 := (reg (rinkOf s c) 1).toNat
  match boundCounter s n w1 with
  | some st => returnStatus c st s
  | none => returnValue c 0 (counter s w1).value.toNat s

def serveCtrIncrement (c n : Nat) (s : State) : State :=
  let w1 := (reg (rinkOf s c) 1).toNat
  match boundCounter s n w1 with
  | some st => returnStatus c st s
  | none =>
    if hasCredit s w1 then
      let s1 := increment w1 s
      returnValue c 0 (counter s1 w1).value.toNat s1
    else returnStatus c 3 s

def serveEvent (c n : Nat) (s : State) : State :=
  let w1 := (reg (rinkOf s c) 1).toNat
  if 7 < w1 then returnStatus c 1 s
  else returnStatus c 0 (raiseEvent (768 + 8 * n + w1) (word (n + w1 * 2 ^ 8)) 0 s)

def serveTrkAppend (c n : Nat) (s : State) : State :=
  let k := rinkOf s c
  let a := (reg k 1).toNat
  let len := (reg k 2).toNat
  if decide (a < windowBase n) || decide (windowBase n + 0x20000 < a + len) || len == 0 || decide (64 < len) then
    returnStatus c 1 s
  else
    let (s1, seq) := appendCommit (trkReq (0x1000 + n) n (mapBytes s a len)) s
    returnValue c 0 seq s1

def serveTimer (c n : Nat) (s : State) : State :=
  let us := (reg (rinkOf s c) 1).toNat
  if 10000000 < us then returnStatus c 1 s
  else returnStatus c 0 (modApplet n (fun a => { a with timer := if us = 0 then none else some (s.now + 100 * us) }) s)

/-- A service number that R344 lists. -/
def serviceKnown (n : Nat) : Bool := [0x0001, 0x0002, 0x0003, 0x0010, 0x0011, 0x0020, 0x0030, 0x0040].contains n

/-! ### Windows, grants and tags (R337, R357, R362) -/

/-- The window of an applet cleared through its valid bits: its bytes read as zero and its words take any write. -/
def clearWindow (n : Nat) (s : State) : State :=
  let bank := 5 + n / 4
  let lo := markKey bank (n % 4 * 0x4000)
  { s with
    mem := memErase s.mem (windowBase n) 0x20000,
    stored := { s.stored with
      marks := s.stored.marks.filter (fun p => decide (p.1 < lo) || decide (lo + 0x4000 ≤ p.1)),
      clears := tblMod [] s.stored.clears bank (fun l => if l.length < 16 then l ++ [(n % 4 * 0x20000, 0x20000)] else l) } }

/-- Every granule of a window takes a tag. -/
def tagWindow (n tag : Nat) (s : State) : State :=
  { s with prot := { s.prot with
      tags := (List.range 512).foldl (fun t i => tblSet 0 t (windowBase n / 256 + i) tag) s.prot.tags } }

/-- An entry of R362: region, enabled sub-regions, PERM and COLOUR, for user accesses. -/
def grantEntry (base log2 enabled perm colour : Nat) (valid : Bool) : PuEntry :=
  { w0 := word (base + log2 * 2 ^ 5),
    w1 := word (perm * 2 ^ 12 + (255 - (2 ^ enabled - 1)) * 2 ^ 16 + colour * 2 ^ 24 + 2 ^ 28 + fbit valid 31) }

/-- Grant set n, filled from the image header. -/
def grantSet (n : Nat) (im : Bytes) : List PuEntry :=
  let w := windowBase n
  let c := 1 + n % 15
  let codeEnd := imgNat im 0x0C 4
  let a := codeEnd / 0x4000
  let b := codeEnd % 0x4000 / 0x800
  let e := codeEnd % 0x800 / 256
  let ses := imgNat im 0x1E 1
  [grantEntry w 17 8 3 c true, grantEntry w 17 a 5 c (decide (0 < a)),
   grantEntry (w + a * 0x4000) 14 b 5 c (decide (0 < b)),
   grantEntry (w + a * 0x4000 + b * 0x800) 11 e 5 c (decide (0 < e)),
   grantEntry (w + 0x1F000) 12 8 1 c true, grantEntry (0x40000000 + n * 0x1000) 12 8 3 0 true,
   grantEntry 0x40020000 12 8 1 0 true,
   grantEntry 0x30000000 19 8 1 (ses % 16) (decide (128 ≤ ses))]

/-- A grant set is written or cleared. -/
def setGrants (n : Nat) (es : List PuEntry) (s : State) : State :=
  { s with prot := { s.prot with
      grants := (List.range 8).foldl (fun t i => tblSet PuEntry.reset t (8 * n + i) (es.getD i PuEntry.reset)) s.prot.grants } }

/-! ### Start, stop and removal (R337, R338, R418) -/

/-- APPLET_START_COMPLETE: READY with a start or restart record, or FAULTED. -/
def startComplete (n : Nat) (readable : Bool) (s : State) : State :=
  let a := applet s n
  if a.state != .starting then s
  else if !readable || sha256 a.image != a.sha then moveApplet n .faulted s
  else
    let s1 := storeBytes (windowBase n) a.image (clearWindow n s)
    let s2 := a.mail.foldl (fun s r => storeBytes (mailAddr n r.slot) (mailBytes r) s) s1
    let s3 := setGrants n (grantSet n a.image) (tagWindow n (1 + n % 15) s2)
    let kind := if a.restart then 0x31 else 0x30
    let s4 := postMail n kind (if a.restart then word a.cause else 0) (if a.restart then a.epc else 0) 0 0 [] s3
    moveApplet n .ready (modApplet n (fun a => { a with
      pc := word (windowBase n + imgNat a.image 0x10 4),
      regs := tblSet 0 [] 14 (word (windowBase n + imgNat a.image 0x18 4)),
      slices := 0, deadline := s.now + clsTicks a.cls, restart := false, forced := false }) s4)

/-- The applet's core, if it has one, is free. -/
def dropCore (n : Nat) (s : State) : State :=
  (List.range 8).foldl (fun s c => if (rinkOf s c).applet == some n then releaseCore c s else s) s

/-- R418: a Purge sends an applet through STOPPING; its mailbox is lost. -/
def purgeApplet (n : Nat) (s : State) : State :=
  let a := applet s n
  if a.state == .empty || a.state == .removing then s
  else
    disableRing (.internal n) (moveApplet n .stopping (modApplet n (fun a => { a with
      mail := [], taken := false, waitPending := false, held := false, forced := true, cause := 0, epc := 0 })
      (dropCore n s)))

/-- A commit of APPLET_REMOVE stops the applet. -/
def removeApplet (n : Nat) (s : State) : State :=
  disableRing (.internal n) (moveApplet n .removing (modApplet n (fun a => { consume a with
    waitPending := false, held := false }) (dropCore n s)))

/-- EMPTY: store space, counters, bindings, grants and tags are given up. -/
def emptyApplet (n : Nat) (s : State) : State :=
  let s1 := moveApplet n .empty (setGrants n [] (tagWindow n 0 (clearWindow n s)))
  let s2 := setApplet n { Applet.reset with restarts := (applet s n).restarts } s1
  { s2 with ctrs := { s2.ctrs with
      table := tblModAll Counter.reset (s2.ctrs.table.map Prod.fst) s2.ctrs.table
        (fun _ c => if c.owner == 0x20 + n then { c with owner := 0xFF } else c) } }

/-- APPLET_RING_DISABLED: what follows STOPPING and REMOVING once the ring is DISABLED. -/
def ringDisabled (n : Nat) (s : State) : State :=
  let a := applet s n
  if (getRing s (.internal n)).state != .disabled then s
  else if a.state == .removing then emptyApplet n s
  else if a.state == .stopping then
    if a.forced then moveApplet n .starting (modApplet n (fun a => { a with restart := true }) s)
    else if imgRestart a.image && decide (a.restarts < 8) then
      moveApplet n .starting (modApplet n (fun a => { a with restart := true, restarts := a.restarts + 1 }) s)
    else moveApplet n .faulted s
  else s

/-! ### Refills of the random buffer (R309) -/

/-- The refill of a core is drawn from Groomer g, where it is placed there and the Groomer serves. -/
def drawFor (c g : Nat) (s : State) : State :=
  if ((rinkOf s c).refill.any (fun p => p.res == .unit { kind := .groomer, num := g })) && groomerServes s g && s.powder.seeded then
    let (bs, s1) := groomerDraw s g 64
    modCore c (fun k => { k with arriving := bs, refill := none }) s1
  else s

/-- The core whose refill is the first on a Groomer, by engine deadline (R60), with that deadline. -/
def firstRefill (s : State) (g : Nat) : Option (Pico × Nat) :=
  ((List.range 8).filterMap (fun c => match (rinkOf s c).refill with
    | some p => if p.res == .unit { kind := .groomer, num := g } then some (p.deadline, c) else none
    | none => none)).foldl (fun b x => match b with
      | some y => if x.1 < y.1 then some x else some y
      | none => some x) none

/-- A Groomer draws the first refill placed on it. -/
def drawRefill (g : Nat) (s : State) : State :=
  match firstRefill s g with
  | some (_, c) => drawFor c g s
  | none => s

/-- RANDOM_REFILL_ARRIVAL: the bytes drawn for a core reach its buffer, which holds 64; one not yet drawn is drawn now.  A byte
that finds no room is lost (DESIGN CHOICE, log entry 80). -/
def refillArrives (c : Nat) (s : State) : State :=
  let s1 := (List.range 4).foldl (fun s g => drawFor c g s) (placeRefill c s)
  placeRefill c (resumeLoad c (modCore c (fun k => { k with buffer := (k.buffer ++ k.arriving).take 64, arriving := [] }) s1))

/-! ### The rows -/

/-- R344: an unknown number returns status 0x0001; a number that is known has a row of its own. -/
def execSvcUnknown (core : Nat) (number : BitVec 16) (s : State) : Host.Outcome State Fault Refusal :=
  .next (if serviceKnown number.toNat then s else service core (fun _ => returnStatus core 1) s)

def execWaitEvent (core : Nat) (s : State) : Host.Outcome State Fault Refusal := .next (service core (serveWait core) s)

def execYield (core : Nat) (s : State) : Host.Outcome State Fault Refusal := .next (service core (serveYield core) s)

def execRingConfig (core : Nat) (s : State) : Host.Outcome State Fault Refusal :=
  .next (service core (serveRingConfig core) s)

def execCtrRead (core : Nat) (s : State) : Host.Outcome State Fault Refusal :=
  .next (service core (serveCtrRead core) s)

def execCtrIncrement (core : Nat) (s : State) : Host.Outcome State Fault Refusal :=
  .next (service core (serveCtrIncrement core) s)

def execEventSignal (core : Nat) (s : State) : Host.Outcome State Fault Refusal :=
  .next (service core (serveEvent core) s)

def execTrkAppend (core : Nat) (s : State) : Host.Outcome State Fault Refusal :=
  .next (service core (serveTrkAppend core) s)

def execTimerSet (core : Nat) (s : State) : Host.Outcome State Fault Refusal :=
  .next (service core (serveTimer core) s)

/-- R342: a set timer expires once. -/
def execAppletTimerExpiry (n : Nat) (s : State) : Host.Outcome State Fault Refusal :=
  .next (if (applet s n).timer.isSome then
      postMail n 0x20 0 0 0 0 [] (modApplet n (fun a => { a with timer := none }) s)
    else s)

def execSliceEnd (core : Nat) (s : State) : Host.Outcome State Fault Refusal := .next (endSlice core s)

def execCoreDispatch (core : Nat) (s : State) : Host.Outcome State Fault Refusal := .next (dispatchCore core s)

def execAppletStartComplete (n : Nat) (readable : Bool) (s : State) : Host.Outcome State Fault Refusal :=
  .next (startComplete n readable s)

def execAppletRingDisabled (n : Nat) (s : State) : Host.Outcome State Fault Refusal := .next (ringDisabled n s)

def execRandomRefillArrival (core : Nat) (s : State) : Host.Outcome State Fault Refusal :=
  .next (if core < 8 then refillArrives core s else s)

end Sys2Proof.Machine
end

