-- ==== Sys2Proof/Machine/Powder.lean ====
section
/-!
DEFINITION. Sys2Proof/Machine/Powder.lean: Powder, its conditioner, the seeding of the Groomers, the masking generators and the
health failure (R293 to R320).
-/
namespace Sys2Proof.Machine

/-! ### The standing level (R412, R426) -/

/-- The PTL_EVT bits of a rise: GUARD when Guard or higher comes to stand, LOCK when Lock or higher does. -/
def riseBits (before after : Level) : Nat :=
  (if levelNum before < 1 then 2 else 0) + (if levelNum before < 2 && 2 ≤ levelNum after then 4 else 0)

/-- A change of the standing level since `before`: PTL_EVT.GUARD or LOCK and PTL_FIRST at a rise; a fall ends the record. -/
def noteLevel (src : Nat) (before : Level) (s : State) : State :=
  let after := standingLevel s
  if levelNum before < levelNum after then
    setPtlEvt (riseBits before after)
      { s with patrol := { s.patrol with firstValid := true, firstLevel := after, firstSource := src } }
  else if levelNum after < levelNum before then
    { s with patrol := { s.patrol with firstValid := false, firstLevel := .note, firstSource := 0 } }
  else s

/-! ### Groomer states and restarts (R312, R315) -/

/-- Every Groomer loses its state; GRM_EVT.ZEROISED, source 589. -/
def zeroiseGroomers (s : State) : State :=
  let s1 := { s with powder := { s.powder with
      grm := tblModAll Groomer.reset [0, 1, 2, 3] s.powder.grm (fun _ g =>
        { g with instantiated := false, k := [], v := [], count := 0, due := false, hardStall := false }),
      grmEvt := bvSet s.powder.grmEvt 1 } }
  raiseEvent 589 (s1.powder.grmEvt.zeroExtend 32) 0 s1

/-- R312: no state, no block, no seed. -/
def clearPowder (s : State) : State :=
  zeroiseGroomers { s with powder := { s.powder with seeded := false, pending := [], ready := [] } }

/-- Powder starts again, when it runs at all. -/
def restartPowder (s : State) : State :=
  if s.powder.state == .startup || s.powder.state == .seeding || s.powder.state == .running then
    clearPowder { s with powder := { s.powder with
      state := .startup,
      cells := tblModAll Cell.reset (List.range 8) s.powder.cells (fun _ x => { x with run := 0, seen := 0 }) } }
  else s

/-! ### Health failures (R312 to R316) -/

/-- The bit of PWD_CELLFAIL. -/
def cellFailBit (cell : Nat) (t : HealthTest) : BitVec 24 :=
  BitVec.ofNat 24 (2 ^ (cell + match t with
    | .startup => 0
    | .proportion => 8
    | .repetition => 16))

/-- R313: admitted jobs without their draw, a CURVE_LOAD from its admission on, and RNG_OUT jobs. -/
def needsDraw (j : Job) : Bool :=
  inFlight j && (drawDue j || j.op == .rngOut || (j.op == .critical .curveLoad && j.draw.isNone && j.stage != .prepared))

def failDraws (s : State) : State :=
  (s.rings.jobs.filter needsDraw).foldl (fun s j =>
    finishJob j.tag .rngFault (modJob j.tag (fun j => { j with noOutput := true }) s)) s

/-- R313: a stalled random-port load ends with a bus fault. -/
def failLoad (c : Nat) (s : State) : State :=
  match (rinkOf s c).stalled with
  | some (_, _, _, a) =>
    takeTrap c (trapAt 5 a) { s with powder := { s.powder with portFaultCnt := sat32 s.powder.portFaultCnt } }
  | none => s

def failLoads (s : State) : State :=
  (List.range 8).foldl (fun s c => modCore c (fun k => { k with arriving := [], refill := none }) (failLoad c s)) s

/-- PWD_CELLFAIL as a Tracks payload. -/
def cellFailBytes (s : State) : Bytes := bytesLE 4 s.powder.cellFail.toNat

/-- R316: degraded random service begins; `before` is the standing level until then. -/
def declareFailed (before : Level) (s : State) : State :=
  let s1 := setPwdEvt 4 { s with powder := { s.powder with state := .failed, confirming := false } }
  noteLevel 580 before (trkRequest (trkReq 0x0602 0 (cellFailBytes s1)) s1)

/-- A health failure of a cell: Powder restarts or is declared failed, and nothing that depends on it is delivered (R312 to
R316). -/
def healthFails (cell : Nat) (t : HealthTest) (s : State) : State :=
  let p := s.powder
  let fail := if p.confirming then p.failedRestarts + 1 else p.failedRestarts
  let lost := decide (3 ≤ fail)
  let s1 := { s with powder := { p with
    state := if lost then .failed else .startup, seeded := false, confirming := !lost,
    cellFail := cellFailBit cell (if p.state == .startup then .startup else t), failCnt := sat32 p.failCnt, failedRestarts := fail,
    cells := tblModAll Cell.reset (List.range 8) p.cells (fun c x =>
      { x with run := 0, seen := 0, maxRun := if c == cell && t == .repetition then max x.maxRun 41 else x.maxRun }) } }
  let s2 := raiseEvent (581 + cell) (s1.powder.cellFail.zeroExtend 32) 0 (setPwdEvt 2 s1)
  let s3 := failLoads (failDraws (clearPowder s2))
  let s4 := trkRequest (trkReq 0x0600 0 (cellFailBytes s3)) s3
  if lost then declareFailed (standingLevel s) s4 else s4

/-! ### Host samples under PATTERN (R296, R297, R317) -/

/-- One host sample of a cell through both tests: the repetition count test with cutoff 41, the adaptive proportion test with
cutoff 795 in a window of 1,024. -/
def cellSample (b : Bool) (x : Cell) : Cell × Option HealthTest :=
  let fresh := x.seen == 0
  let run := if x.run != 0 && b == x.last then x.run + 1 else 1
  let first := if fresh then b else x.first
  let same := (if fresh then 0 else x.same) + bitNat (b == first)
  ({ x with run := run, last := b, seen := x.seen + 1, first := first, same := same,
            tally := (if fresh then 0 else x.tally) + bitNat b, maxRun := min 0xFF (max x.maxRun run) },
   if 41 ≤ run then some .repetition else if 795 ≤ same then some .proportion else none)

/-- A list of samples, each of a cell, up to the first that fails a test. -/
def feedSamples : List (Nat × Bool) → Tbl Cell → Tbl Cell × Option (Nat × HealthTest)
  | [], t => (t, none)
  | (c, b) :: rest, t =>
    let r := cellSample b (tblGet Cell.reset t c)
    match r.2 with
    | some x => (tblSet Cell.reset t c r.1, some (c, x))
    | none => feedSamples rest (tblSet Cell.reset t c r.1)

/-- The cell that RAW disconnects from the tests and the conditioner. -/
def rawCell (p : Powder) : Option Nat := if p.raw then some p.cellSel else none

/-- The samples of a dword: bit j is the next of cell j mod 8. -/
def samplesOf (p : Powder) (w : Word) : List (Nat × Bool) :=
  ((List.range 32).map (fun j => (j % 8, w.getLsbD j))).filter (fun x => rawCell p != some x.1)

/-- Dwords of host data up to the first failure: the cells, the dwords that remain, and the failure. -/
def feedWords (p : Powder) : List Word → Tbl Cell → Tbl Cell × List Word × Option (Nat × HealthTest)
  | [], t => (t, [], none)
  | w :: rest, t =>
    match feedSamples (samplesOf p w) t with
    | (t1, some x) => (t1, rest, some x)
    | (t1, none) => feedWords p rest t1

/-- The next n dwords of host data pass through the tests. -/
def feedPattern (n : Nat) (s : State) : State × Option (Nat × HealthTest) :=
  let p := s.powder
  let r := feedWords p (p.patternBits.take n) p.cells
  ({ s with powder := { p with cells := r.1, patternBits := r.2.1 ++ p.patternBits.drop n } }, r.2.2)

/-- Dwords that the window in progress still lacks: four samples of each cell in a dword. -/
def windowLack (p : Powder) : Nat :=
  (1024 - (tblGet Cell.reset p.cells (if rawCell p = some 0 then 1 else 0)).seen) / 4

/-- The conditioner input that 64 dwords of pattern data make (R299, R317). -/
def patternRaw (ws : List Word) : Bytes :=
  (List.range 256).map (fun q =>
    BitVec.ofNat 8 ((List.range 8).foldl (fun v t =>
      let i := 8 * (q % 32) + t
      v + fbit ((ws.getD (i / 4) 0).getLsbD (q / 32 + 8 * (i % 4))) t) 0))

/-! ### Windows and blocks (R296 to R301) -/

/-- Powder runs and its cells are not stopped by a full ready pool (R297, R301). -/
def cellsRun (p : Powder) : Bool :=
  (p.state == .startup || p.state == .seeding || p.state == .running) &&
    !(decide (4 ≤ p.ready.length) && p.pending.isEmpty)

/-- A window ends: its ones are shown under PATTERN as counted, else as the cells report them. -/
def endWindow (ones maxRun : List Nat) (p : Powder) : Powder :=
  { p with cells := tblModAll Cell.reset (List.range 8) p.cells (fun c x =>
      if rawCell p == some c then x
      else if p.pattern then { x with ones := x.tally, seen := 0 }
      else { x with ones := min 0x7FF (ones.getD c x.ones), maxRun := min 0xFF (max x.maxRun (maxRun.getD c 0)) }) }

/-- POWDER_STARTUP_PASS; the samples of the start-up test are discarded. -/
def startupPass (s : State) : State :=
  if s.powder.state != .startup then s
  else if s.powder.pattern then
    if s.powder.patternBits.length < windowLack s.powder then s
    else match feedPattern (windowLack s.powder) s with
      | (s1, some (c, t)) => healthFails c t s1
      | (s1, none) => { s1 with powder := { endWindow [] [] s1.powder with state := .seeding } }
  else { s with powder := { s.powder with state := .seeding } }

/-- The conditioner may make a block: cells run, RAW is 0 and a place is free. -/
def conditions (p : Powder) : Bool :=
  cellsRun p && p.state != .startup && !p.raw && decide (p.pending.length < 4)

/-- CONDITIONING_DONE. -/
def conditioned (raw : Bytes) (s : State) : State :=
  let p := s.powder
  if !(conditions p) then s
  else if p.pattern then
    if p.patternBits.length < 64 || decide (windowLack p < 64) then s
    else match feedPattern 64 s with
      | (s1, some (c, t)) => healthFails c t s1
      | (s1, none) => { s1 with powder := { s1.powder with
          pending := p.pending ++ [sha3_256 (patternRaw (p.patternBits.take 64))] } }
  else { s with powder := { p with pending := p.pending ++ [sha3_256 (slice raw 0 256)] } }

/-- The pending blocks that the ready pool takes. -/
def releaseBlocks (p : Powder) : Powder :=
  let n := min p.pending.length (4 - p.ready.length)
  { p with ready := p.ready ++ p.pending.take n, pending := p.pending.drop n, blocks := min 0xFFFFFFFF (p.blocks + n) }

/-- APT_WINDOW_COMPLETE: window figures of the cells, and the pending blocks are released.  Under PATTERN the window takes the
host data that it still lacks, and waits where there is too little. -/
def windowDone (ones maxRun : List Nat) (s : State) : State :=
  let p := s.powder
  if !(cellsRun p) || (p.pattern && p.state == .startup) then s
  else if p.pattern then
    if p.patternBits.length < windowLack p then s
    else match feedPattern (windowLack p) s with
      | (s1, some (c, t)) => healthFails c t s1
      | (s1, none) => { s1 with powder := releaseBlocks (endWindow [] [] s1.powder) }
  else { s with powder := releaseBlocks (endWindow ones maxRun p) }

/-- HEALTH_FAILURE of a cell that delivers samples to the tests.  Under PATTERN the host's samples decide: those that stand
ready, up to the end of the window, hold a failure or nothing happens. -/
def healthFailed (cell : Nat) (t : HealthTest) (s : State) : State :=
  let p := s.powder
  if p.pattern then
    if !(cellsRun p) then s
    else match feedPattern (windowLack p) s with
      | (s1, some (c, t)) => healthFails c t s1
      | (_, none) => s
  else if decide (8 ≤ cell) || !(cellsRun p) || (t == .startup && p.state != .startup) || rawCell p == some cell then s
  else healthFails cell t s

/-- The next n released blocks and Powder without them. -/
def takeBlocks (n : Nat) (s : State) : Option (List Bytes × State) :=
  if s.powder.ready.length < n then none
  else some (s.powder.ready.take n, { s with powder := { s.powder with ready := s.powder.ready.drop n } })

/-! ### Groomers (R302 to R305) -/

/-- The personalisation string; the count takes this instantiation in (log entry 16). -/
def personalisation (s : State) (g : Nat) : Bytes :=
  bytesLE 8 s.life.serial.toNat ++ bytesLE 1 g ++ bytesLE 4 ((groomerOf s g).insts + 1)

def groomerFaulted (s : State) (g : Nat) : Bool := unitState s { kind := .groomer, num := g } == .faulted

/-- A Groomer is instantiated from two blocks. -/
def instantiate (g : Nat) (b0 b1 : Bytes) (s : State) : State :=
  let st := drbgInstantiate (b0 ++ b1.take 16 ++ personalisation s g)
  { s with powder := { s.powder with
      grm := tblMod Groomer.reset s.powder.grm g (fun x =>
        { x with instantiated := true, k := st.1, v := st.2, count := 0, due := false, hardStall := false,
                 seedAt := s.now, everSeeded := true, insts := x.insts + 1 }) } }

/-- All Groomers that are not FAULTED hold a state. -/
def allInstantiated (s : State) : Bool :=
  (List.range 4).all (fun g => groomerFaulted s g || (groomerOf s g).instantiated)

/-- R301: blocks that the instantiations to come take before any other consumer. -/
def blocksForStates (s : State) : Nat :=
  2 * ((List.range 4).filter (fun g => !(groomerFaulted s g) && !(groomerOf s g).instantiated)).length

/-- R301: blocks that due reseeds take before the masking generators. -/
def blocksForReseeds (s : State) : Nat :=
  ((List.range 4).filter (fun g => !(groomerFaulted s g) && (groomerOf s g).instantiated && (groomerOf s g).due)).length

/-- R304: SEEDED becomes 1, and Powder runs. -/
def firstSeed (s : State) : State :=
  resumeLoads (setPwdEvt 0 { s with powder := { s.powder with state := .running, seeded := true, seedAt := s.now } })

/-- SEEDING ends when all Groomers that are not FAULTED hold a state (R315). -/
def seedIfDone (s : State) : State := if s.powder.state == .seeding && allInstantiated s then firstSeed s else s

/-- A Groomer has become FAULTED: SEEDING may have ended with it, and so may a stall of the port (R304, R310, R315). -/
def groomerLost (s : State) : State := resumeLoads (seedIfDone s)

/-- GROOMER_INSTANTIATED. -/
def groomerSeeded (g : Nat) (s : State) : State :=
  if decide (4 ≤ g) || s.powder.state != .seeding || groomerFaulted s g || (groomerOf s g).instantiated then s
  else match takeBlocks 2 s with
    | none => s
    | some (bs, s1) =>
      seedIfDone (instantiate g (bs.getD 0 []) (bs.getD 1 []) s1)

/-- RESEED_DUE. -/
def markReseed (g : Nat) (s : State) : State :=
  if 4 ≤ g then s
  else { s with powder := { s.powder with
      grm := tblMod Groomer.reset s.powder.grm g (fun x => { x with due := x.due || x.instantiated }) } }

/-- FORCED_RESEED at 2^24 requests: the Groomer serves no request until the reseed ends. -/
def forceReseed (g : Nat) (s : State) : State :=
  if decide (4 ≤ g) || !(groomerOf s g).instantiated || decide ((groomerOf s g).count < 2 ^ 24) then s
  else setGrmEvt 2 g { s with powder := { s.powder with
      grm := tblMod Groomer.reset s.powder.grm g (fun x => { x with due := true, hardStall := true }) } }

/-- A released job waits on the Groomer: its draw, or its RNG_OUT work (R305). -/
def groomerWanted (s : State) (g : Nat) : Bool :=
  s.rings.jobs.any (fun j => inFlight j && (drawDue j || j.op == .rngOut) &&
    j.places.any (fun p => p.res == .unit { kind := .groomer, num := g } && decide (p.release ≤ tickTime s.now)))

/-- RESEED_DONE: one that is not forced runs only where no released job waits, and no reseed before an instantiation that lacks
its blocks. -/
def reseeded (g : Nat) (s : State) : State :=
  let r := groomerOf s g
  if decide (4 ≤ g) || groomerFaulted s g || !r.instantiated || !r.due || (!r.hardStall && groomerWanted s g) ||
      decide (s.powder.ready.length ≤ blocksForStates s) then s
  else match takeBlocks 1 s with
    | none => s
    | some (bs, s1) =>
      let st := drbgReseed (bs.getD 0 []) r.k r.v
      resumeLoads { s1 with powder := { s1.powder with
          grm := tblSet Groomer.reset s1.powder.grm g
            { r with k := st.1, v := st.2, count := 0, due := false, hardStall := false, seedAt := s.now },
          reseedCnt := sat32 s1.powder.reseedCnt } }

/-- RESTART_CONFIRMED. -/
def confirmRestart (s : State) : State :=
  if s.powder.confirming && s.powder.seeded then
    let s1 := setPwdEvt 3 { s with powder := { s.powder with confirming := false, failedRestarts := 0 } }
    trkRequest (trkReq 0x0601 0 (cellFailBytes s1)) s1
  else s

/-! ### Masking generators (R226, R255, R311) -/

/-- The unit number that enters a generator's seed: Blades 0 to 17, Edges 18 to 85 (log entry 17). -/
def maskSeed (block : Bytes) (time g : Nat) : Bytes := sha3_256 (block ++ bytesLE 8 time ++ bytesLE 1 g)

/-- Every generator seeded from one block or reserve. -/
def seedMasks (block : Bytes) (s : State) : State :=
  { s with units := { s.units with
      mask := tblModAll MaskGen.reset (List.range 86) s.units.mask (fun g _ =>
        { seeded := true, seed := maskSeed block s.hut.time g, drawn := 0, at_ := s.now }) } }

/-- The fallback of R311; a reserve that was never written reads as zero. -/
def seedMasksFromReserve (s : State) : State := seedMasks (slice s.powder.reserve 0 32) s

/-- MASKING_REFRESH of the generator whose turn it is, with a block that neither an instantiation nor a due reseed takes
(R301). -/
def refreshMask (g : Nat) (s : State) : State :=
  if decide (86 ≤ g) || g != s.powder.maskTurn || s.powder.state != .running ||
      decide (s.powder.ready.length ≤ blocksForStates s + blocksForReseeds s) then s
  else match takeBlocks 1 s with
    | none => s
    | some (bs, s1) => { s1 with
        units := { s1.units with
          mask := tblSet MaskGen.reset s1.units.mask g { seeded := true, seed := bs.getD 0 [], drawn := 0, at_ := s.now } },
        powder := { s1.powder with maskTurn := (g + 1) % 86 } }

/-! ### The servo and the test access (R294, R295, R317, R318) -/

/-- TRIM_SERVO_STEP: one step towards balance when the replica's ones lie outside 2,016 to 2,080. -/
def servoStep (cell ones : Nat) (s : State) : State :=
  if decide (8 ≤ cell) || (decide (2016 ≤ ones) && decide (ones ≤ 2080)) then s
  else
    let up := Config.trimRaises == decide (ones < 2016)
    { s with powder := { s.powder with
        cells := tblMod Cell.reset s.powder.cells cell (fun x =>
          { x with trim := if up then min 0x3F (x.trim + 1) else x.trim - 1 }) } }

/-- TRIM_LIMIT. -/
def trimAtLimit (cell : Nat) (s : State) : State :=
  let t := (tblGet Cell.reset s.powder.cells cell).trim
  if cell < 8 ∧ (t = 0 ∨ t = 0x3F) then setPwdEvt 1 s else s

/-- R509: K255 loses its provisioning key. -/
def dropProvisioningKey (s : State) : State :=
  { s with
    life := { s.life with provValid := false, provPub := [] },
    vault := { s.vault with
      priv := tblMod VSlot.reset s.vault.priv 255 (fun v => { v with
        cur := none,
        old := (match v.cur with
          | some m => [{ mat := m, revoked := true }]
          | none => []) ++ v.old }) } }

/-- A write of PWD_TEST; a change restarts Powder from each of its running states (log entry 87). -/
def writeTest (v : Word) (s : State) : State :=
  let pattern := v.getLsbD 0
  let raw := v.getLsbD 1
  if s.life.state != .factory || (pattern == s.powder.pattern && raw == s.powder.raw) then s
  else
    let s1 := restartPowder { s with powder := { s.powder with pattern := pattern, raw := raw } }
    if pattern || raw then dropProvisioningKey s1 else s1

/-- A write of PWD_TEST_DATA. -/
def writeTestData (v : Word) (s : State) : State :=
  if s.life.state == .factory && s.powder.pattern then
    { s with powder := { s.powder with patternBits := s.powder.patternBits ++ [v] } }
  else s

/-- A read of PWD_RAW. -/
def readRaw (sample : Word) (s : State) : State :=
  let v := if s.life.state == .factory && s.powder.raw then sample else 0
  { s with powder := { s.powder with rawLatch := v }, link := { s.link with readData := v } }

/-! ### The rows -/

def execPowderStartupPass (s : State) : Host.Outcome State Fault Refusal := .next (startupPass s)

def execHealthFailure (cell : Nat) (t : HealthTest) (s : State) : Host.Outcome State Fault Refusal :=
  .next (healthFailed cell t s)

def execAptWindowComplete (ones maxRun : List Nat) (s : State) : Host.Outcome State Fault Refusal :=
  .next (windowDone ones maxRun s)

def execConditioningDone (raw : Bytes) (s : State) : Host.Outcome State Fault Refusal := .next (conditioned raw s)

def execGroomerInstantiated (g : Nat) (s : State) : Host.Outcome State Fault Refusal := .next (groomerSeeded g s)

def execReseedDue (g : Nat) (s : State) : Host.Outcome State Fault Refusal := .next (markReseed g s)

def execForcedReseed (g : Nat) (s : State) : Host.Outcome State Fault Refusal := .next (forceReseed g s)

def execReseedDone (g : Nat) (s : State) : Host.Outcome State Fault Refusal := .next (reseeded g s)

def execRestartConfirmed (s : State) : Host.Outcome State Fault Refusal := .next (confirmRestart s)

def execMaskingRefresh (g : Nat) (s : State) : Host.Outcome State Fault Refusal := .next (refreshMask g s)

def execTrimServoStep (cell ones : Nat) (s : State) : Host.Outcome State Fault Refusal := .next (servoStep cell ones s)

def execTrimLimit (cell : Nat) (s : State) : Host.Outcome State Fault Refusal := .next (trimAtLimit cell s)

def execPwdTestWrite (v : Word) (s : State) : Host.Outcome State Fault Refusal := .next (writeTest v s)

def execPwdTestDataWrite (v : Word) (s : State) : Host.Outcome State Fault Refusal := .next (writeTestData v s)

def execPwdRawRead (sample : Word) (s : State) : Host.Outcome State Fault Refusal := .next (readRaw sample s)

/-- R306: the draw of a job, or a refill of a random buffer, whichever comes first on the Groomer in the order of R60. -/
def groomerDraws (g : Nat) (s0 : State) : State :=
  let s := placeRefills s0
  let u : UnitRef := { kind := .groomer, num := g }
  let job := firstToRun u (drawsOn s g)
  match firstRefill s g, job with
  | some (dl, _), some j => if dl < engineDl j u then drawRefill g s else (drawDone g s).1
  | some _, none => drawRefill g s
  | none, _ => (drawDone g s).1

def execGroomerDrawDone (g : Nat) (s : State) : Host.Outcome State Fault Refusal := .next (groomerDraws g s)

end Sys2Proof.Machine
end

