-- ==== Sys2Proof/Machine/Vault.lean ====
section
/-!
DEFINITION. Sys2Proof/Machine/Vault.lean: writing and erasing a generation of a Vault slot, draining and revoking its holders,
and the Vault's registers (R190 to R199, R204).
-/
namespace Sys2Proof.Machine

/-! ### Slots -/

def setVSlot (r : SlotRef) (v : VSlot) (s : State) : State :=
  { s with vault := { s.vault with
      root := match r with
        | .root n => tblSet VSlot.reset s.vault.root n v
        | .priv _ => s.vault.root,
      priv := match r with
        | .root _ => s.vault.priv
        | .priv n => tblSet VSlot.reset s.vault.priv n v } }

def modVSlot (r : SlotRef) (f : VSlot → VSlot) (s : State) : State := setVSlot r (f (slotOf s r)) s

/-- ORIGIN of the entry of an erased cell (R433). -/
def slotOrigin (r : SlotRef) : Nat :=
  match r with
  | .root n => n
  | .priv n => 0x100 + n

/-! ### Erasure of a generation that nothing holds (R195) -/

/-- The cell is cleared: ERASE_DONE, REVOKE_DONE with the slot's last revoked cell, and a Tracks entry. -/
def eraseCell (r : SlotRef) (gen : Nat) (s : State) : State :=
  match (slotOf s r).old.find? (fun x => x.mat.gen == gen) with
  | none => s
  | some x =>
    if !(holders s r gen).isEmpty then s
    else
      let left := (slotOf s r).old.filter (fun y => y.mat.gen != gen)
      let done := x.revoked && !(left.any (fun y => y.revoked))
      trkRequest (trkReq 0x0400 (slotOrigin r) (bytesLE 4 gen))
        (setVltEvt (2 + fbit done 2) (writeCell r gen (modVSlot r (fun v => { v with old := left }) s)))

/-- Every retiring or revoked generation of the slot that nothing holds is erased. -/
def eraseIdle (r : SlotRef) (s : State) : State :=
  (slotOf s r).old.foldl (fun s x => eraseCell r x.mat.gen s) s

/-! ### Revocation (R196) -/

/-- The job holds a revoked generation. -/
def holdsRevoked (s : State) (j : Job) : Bool :=
  j.holds.any (fun h => (slotOf s h.slot).old.any (fun x => x.revoked && x.mat.gen == h.gen))

/-- A holder ends with KEY_REVOKED, at once and without further output; a status already fixed stays. -/
def revokeJob (j : Job) (s : State) : State :=
  finishJob j.tag .keyRevoked (modJob j.tag (fun j => { j with noOutput := true, out := [] }) s)

/-- The holders of every revoked generation are dealt with. -/
def revokeHolders (s : State) : State :=
  (s.rings.jobs.filter (holdsRevoked s)).foldl (fun s j => revokeJob j s) s

/-! ### Writes and erases (R192, R195) -/

/-- The current generation joins the retiring ones, or the revoked ones with every other. -/
def retireCurrent (revoke : Bool) (v : VSlot) : List Retiring :=
  let old := match v.cur with
    | some m => { mat := m, revoked := revoke } :: v.old
    | none => v.old
  if revoke then old.map (fun x => { x with revoked := true }) else old

/-- A new generation becomes current; its number is one above the last. -/
def writeSlot (r : SlotRef) (revoke : Bool) (key : Bytes) (kek : Bool) (kind : BitVec 16) (digest : Bytes) (s : State) :
    State :=
  let v := slotOf s r
  let n := v.number + 1
  let s1 := setVSlot r { v with
    number := n, old := retireCurrent revoke v,
    cur := some { gen := n, key := key, kek := kek, kind := kind, digest := digest } } s
  let s2 := noteGenLimit n (writeCell r n s1)
  if revoke then revokeHolders s2 else s2

/-- The slot becomes EMPTY. -/
def eraseSlot (r : SlotRef) (revoke : Bool) (s : State) : State :=
  let v := slotOf s r
  let s1 := setVSlot r { v with cur := none, old := retireCurrent revoke v } s
  if revoke then revokeHolders s1 else s1

/-- R192, R195, R285: a write that stage 10 fails with reason 0x04. -/
def slotRefuses (s : State) (r : SlotRef) (revoke : Bool) : Bool :=
  let v := slotOf s r
  v.reserved || v.number == 0xFFFFFFFF ||
    (!revoke && v.old.any (fun x => !(holders s r x.mat.gen).isEmpty))

/-! ### Registers (R204) -/

/-- VLT_STAT. -/
def vltStat (v : VSlot) : Word :=
  let c := v.cur
  word ((c.map (fun m => m.kind.toNat)).getD 0 + fbit (v.old.any (fun x => x.revoked)) 27 + fbit v.reserved 28 +
    fbit ((c.map (fun m => m.kek)).getD false) 29 + fbit (v.old.any (fun x => !x.revoked)) 30 + fbit c.isSome 31)

/-- VLT_RET_GEN: the newest retiring generation. -/
def vltRetGen (v : VSlot) : Word :=
  word (((v.old.filter (fun x => !x.revoked)).map (fun x => x.mat.gen)).headD 0)

/-- VLT_HOLD. -/
def vltHold (s : State) (r : SlotRef) : Word :=
  let v := slotOf s r
  let cur := match v.cur with
    | some m => (holders s r m.gen).length
    | none => 0
  let old := v.old.foldl (fun n x => n + (holders s r x.mat.gen).length) 0
  word (min 0xFFF cur + min 0xFFF old * 2 ^ 16)

/-- The slot that VLT_SEL names. -/
def vltSlot (s : State) : Option SlotRef :=
  if s.vault.selPriv then some (.priv s.vault.selSlot)
  else if s.vault.selSlot < 32 then some (.root s.vault.selSlot) else none

/-- A read of VLT_STAT latches the four words of its slot. -/
def latchVault (s : State) : State :=
  { s with vault := { s.vault with
      statLatch := match vltSlot s with
        | some r => vltStat (slotOf s r)
        | none => 0,
      genLatch := match vltSlot s with
        | some r => word (slotOf s r).number
        | none => 0,
      retLatch := match vltSlot s with
        | some r => vltRetGen (slotOf s r)
        | none => 0,
      holdLatch := match vltSlot s with
        | some r => vltHold s r
        | none => 0 } }

/-! ### The rows -/

/-- VAULT_RETIRING_ERASE: the cell of a generation without a holder is erased. -/
def execVaultRetiringErase (r : SlotRef) (gen : Nat) (s : State) : Host.Outcome State Fault Refusal :=
  .next (eraseCell r gen s)

end Sys2Proof.Machine
end

