-- ==== Sys2Proof/Machine/Debug.lean ====
section
/-!
DEFINITION. Sys2Proof/Machine/Debug.lean: the Stavet debug port and rule changes (R353, R354, R364 to R375).
-/
namespace Sys2Proof.Machine

/-! ### Opening and closing (R372, R375) -/

/-- Applets held on a breakpoint go on at the instruction after it. -/
def resumeHeld (keep : Nat → Bool) (s : State) : State :=
  (List.range 32).foldl (fun s n =>
    if (applet s n).held && !(keep n) then
      (List.range 8).foldl (fun s c => if (rinkOf s c).applet == some n then modCore c nextPc s else s)
        (modApplet n (fun a => { a with held := false }) s)
    else s) s

/-- The port closes: held applets resume and PU_DBG_ARM clears. -/
def closeDebug (s : State) : State :=
  if s.prot.isOpen then
    let s1 := resumeHeld (fun _ => false) s
    setPuEvt (2 ^ 16) { s1 with prot := { s1.prot with isOpen := false, openUntil := none, arm := 0 } }
  else s

/-- DEBUG_UNLOCK opens the port for a number of minutes of Hut time. -/
def openDebug (minutes : Nat) (s : State) : State :=
  let s1 := { s with prot := { s.prot with isOpen := true, openUntil := some (s.hut.time + minutes * 60 * 32768) } }
  if s.prot.isOpen then s1 else setPuEvt (2 ^ 15) s1

/-- PU_DEBUG. -/
def puDebug (s : State) : Word :=
  let remain := match s.prot.openUntil with
    | some t => min 1440 (ceilDiv (t - s.hut.time) (60 * 32768))
    | none => 0
  word (remain + fbit (s.prot.isOpen && s.life.state == .factory) 30 + fbit s.prot.isOpen 31)

/-! ### Accesses (R371, R373) -/

/-- The payload of a 0x0701 entry that takes in one more denial. -/
def mergeDenial (a : Word) (p : Bytes) : Bytes :=
  bytesLE 4 (sat32 (natLE (p.take 4))) ++ slice p 4 4 ++ bytesLE 4 a.toNat

/-- A denied access: its entry, its count and its event. -/
def denyDebug (a : Word) (s : State) : State :=
  let r : TrkReq := { trkReq 0x0701 11 (bytesLE 4 1 ++ bytesLE 4 a.toNat ++ bytesLE 4 a.toNat) with
    hold := s.hut.time + 32768 }
  let s1 := trkMerge r (mergeDenial a) s
  setPuEvt (2 ^ 14) { s1 with prot := { s1.prot with denyCnt := sat32 s1.prot.denyCnt } }

def setDebugReg (write err : Bool) (a data : Word) (s : State) : State :=
  { s with prot := { s.prot with dbg := { pending := true, write := write, error := err, addr := a, data := data } } }

/-- A write that passed the check: PU_DBG_ARM, PU_DBG_RESUME, or memory and registers. -/
def debugStore (a data : Word) (s : State) : State :=
  if a = 0x50003000 then { s with prot := { s.prot with arm := data } }
  else if a = 0x50003004 then resumeHeld (fun n => !(data.getLsbD n)) s
  else storeValue a.toNat 4 data.toNat s

/-- One access of the port: 32 bits at an aligned address. -/
def accessDebug (write : Bool) (a data : Word) (s : State) : State :=
  let x : Acc := { unit := 11, user := false, applet := none, kind := if write then .write else .read, addr := a.toNat }
  let denied := fun (s : State) => setDebugReg write true a 0 (denyDebug a s)
  if a.toNat % 4 ≠ 0 then denied s
  else match checkAcc s x with
    | .deny r e t c => denied (captureFault x r e t c s)
    | .bus => denied s
    | .pass =>
      match badAt s a.toNat with
      | some (b, w) => setDebugReg write true a 0 (noteUe b w write s)
      | none =>
        let s1 := correctAt a.toNat s
        if write then setDebugReg write false a 0 (debugStore a data s1)
        else setDebugReg write false a (word (wordAt s1 a.toNat)) s1

/-! ### Rule changes (R367) -/

/-- A rule change behind which accesses checked under the old rule are still under way. -/
def noteDrain (inFlight : Bool) (s : State) : State :=
  { s with prot := { s.prot with
      draining := if inFlight then s.prot.draining ++ [s.now] else s.prot.draining } }

/-- The oldest rule change has drained: PU_DRAIN_MAX. -/
def drained (ticks : Nat) (s : State) : State :=
  match s.prot.draining with
  | [] => s
  | _ :: rest => { s with prot := { s.prot with draining := rest, drainMax := max s.prot.drainMax (min 0xFFFF ticks) } }

/-- Supervisor code runs on the core. -/
def supervisorOn (s : State) (c : Nat) : Bool := decide (c < 8) && (rinkOf s c).supervisor

/-- An entry of a unit or of a grant set is written; entries 0 to 7 of units 0 to 7 are the view of the grant set of the
core's applet.  A write that is ignored changes no rule, and nothing drains behind it. -/
def entryWrite (grant : Bool) (set e : Nat) (w0 w1 : Word) (inFlight : Bool) (s : State) : State :=
  if grant then
    if decide (32 ≤ set) || decide (8 ≤ e) then s
    else noteDrain (inFlight && entryLegal w0) (writeEntryWords true set e w0 w1 s)
  else if decide (12 ≤ set) || decide (16 ≤ e) then s
  else if decide (set < 8) && decide (e < 8) then
    match (rinkOf s set).applet with
    | some n => noteDrain (inFlight && entryLegal w0) (writeEntryWords true n e w0 w1 s)
    | none => s
  else noteDrain (inFlight && !(peLock (tblGet PuEntry.reset s.prot.units (16 * set + e))) && entryLegal w0)
    (writeEntryWords false set e w0 w1 s)

/-! ### The rows -/

def execDebugAccess (write : Bool) (addr data : Word) (s : State) : Host.Outcome State Fault Refusal :=
  .next (accessDebug write addr data s)

/-- R371: 10 µs without completion: the capture returns ERROR 1 and zero; the access itself has its effect. -/
def execDebugAccessTimeout (s : State) : Host.Outcome State Fault Refusal :=
  .next (if s.prot.dbg.pending then
      { s with prot := { s.prot with dbg := { s.prot.dbg with pending := false, error := true, data := 0 } } }
    else s)

/-- R372: the time of a DEBUG_UNLOCK has run out. -/
def execDebugUnlockExpiry (s : State) : Host.Outcome State Fault Refusal :=
  .next (if s.prot.openUntil.isSome then closeDebug s else s)

def execPuDbgArmWrite (value : Word) (s : State) : Host.Outcome State Fault Refusal :=
  .next (accessDebug true 0x50003000 value s)

def execPuDbgResumeWrite (value : Word) (s : State) : Host.Outcome State Fault Refusal :=
  .next (accessDebug true 0x50003004 value s)

def execProtectionEntryWrite (core : Nat) (grant : Bool) (set entry : Nat) (word0 word1 : Word) (inFlight : Bool)
    (s : State) : Host.Outcome State Fault Refusal :=
  .next (if supervisorOn s core then entryWrite grant set entry word0 word1 inFlight s else s)

/-- R368: the write of PU_TAG_COUNT starts the change of a range of tags. -/
def execPuTagCountWrite (core : Nat) (count : Word) (inFlight : Bool) (s : State) : Host.Outcome State Fault Refusal :=
  .next (if supervisorOn s core then
      let first := s.prot.puTag.toNat / 256 * 256
      noteDrain (inFlight && tagRangeOk first count.toNat) (writeTags first count.toNat (s.prot.puTag.toNat % 16) s)
    else s)

def execRuleChangeDrainComplete (ticks : Nat) (s : State) : Host.Outcome State Fault Refusal := .next (drained ticks s)

end Sys2Proof.Machine
end

