-- ==== Sys2Proof/Machine/Patrol.lean ====
section
/-!
DEFINITION. Sys2Proof/Machine/Patrol.lean: detectors, trips, the response levels and what they end, clear and erase (R402 to
R427).
-/
namespace Sys2Proof.Machine

/-! ### Jobs ended by a rise (R415, R486) -/

/-- R421: a job in flight that the carve-out keeps. -/
def carveKeeps (s : State) (j : Job) : Bool :=
  inWhiteout s && isSession j.op && j.cls == .L && (match j.sess with
    | some c => flagLifeSafety c.flags && (match (rootSlot s c.rootSlot).cur with
      | some m => m.gen == c.gen
      | none => false)
    | none => false)

/-- The job is on the card port. -/
def onCardPort (s : State) (j : Job) : Bool := s.card.job == some j.tag

/-- The rise leaves the job alone. -/
def riseKeeps (s : State) (lvl : Level) (j : Job) : Bool :=
  j.stage == .finished || j.stage == .built ||
    (match j.op with
     | .critical code => if j.counterSpent then lvl == .lock else code == .unlock
     | _ => lvl == .lock && carveKeeps s j)

/-- A job ends CANCELLED; a critical command gives reason 0x06; one on the card port stops at its next block boundary. -/
def endRise (j : Job) (s : State) : State :=
  if onCardPort s j then modJob j.tag (fun j => { j with status := some (j.status.getD .cancelled), noOutput := true }) s
  else endJob j.tag .cancelled (modJob j.tag (fun j =>
    { j with noOutput := true, out := [], result := if isCritical j.op then 6 else j.result }) s)

/-- What a rise to a level ends; units are left clear. -/
def endAtRise (lvl : Level) (s : State) : State :=
  let js := s.rings.jobs.filter (fun j => !(riseKeeps s lvl j))
  settleUnits (js.filterMap (fun j => j.unit)) (js.foldl (fun s j => endRise j s) s)

/-! ### Purge (R416, R418, R422) -/

/-- The session table after a Purge: in Whiteout the LIFE_SAFETY contexts stay, their chains closed. -/
def purgeSessions (s : State) : State :=
  let keep := inWhiteout s
  let bank := 4 * 0x40000
  { s with
    sess := { s.sess with
      table := if keep then
          tblModAll Session.reset (s.sess.table.map Prod.fst) s.sess.table (fun _ c =>
            if flagLifeSafety c.flags then { c with chainOpen := false, cont := 0 } else Session.reset)
        else [] },
    stored := { s.stored with
      marks := s.stored.marks.filter (fun p =>
        let c := tblGet Session.reset s.sess.table ((p.1 - bank) / 16)
        decide (p.1 < bank) || decide (bank + 0x40000 ≤ p.1) || (keep && flagLifeSafety c.flags)),
      clears := tblMod [] s.stored.clears 4 (fun l => if l.length < 16 then l ++ [(0, 0x80000)] else l) } }

/-- Applet SRAM is cleared through its valid bits. -/
def purgeSram (s : State) : State := (List.range 32).foldl (fun s n => clearWindow n s) s

/-- Random buffers and masking generators. -/
def purgeVolatile (s : State) : State :=
  { s with
    merya := { s.merya with
      cores := tblModAll Rink.reset (List.range 8) s.merya.cores (fun _ k => { k with buffer := [], arriving := [], refill := none }) },
    units := { s.units with mask := [] } }

/-- Powder and the Groomers lose their state (R416); one that runs restarts (R315). -/
def purgePowder (s : State) : State := if s.powder.state == .running then restartPowder s else clearPowder s

/-- The banks of the first group of R416, with their sizes: descriptor staging, Blade staging and Edge operand memory. -/
def purgedBanks : List (Nat × Nat) :=
  (0x0D, 0x80000) :: ((List.range 18).map (fun n => (0x10 + n, 0x10000)) ++ (List.range 68).map (fun n => (0x22 + n, 0x2000)))

/-- They are cleared through their valid bits, and their ranges queue for overwriting (R252, R392). -/
def purgeBanks (s : State) : State := purgedBanks.foldl (fun s p => clearRange p.1 0 p.2 s) s

/-- The clear of a Purge.  PTL_ZERO_TIME is measured: a free value within the 1.0 µs of R416. -/
def purgeClear (s : State) : State :=
  let wo := inWhiteout s
  let s1 := purgeSram (purgeSessions (purgePowder (purgeBanks (purgeVolatile s))))
  let s2 := if wo then seedMasksFromReserve s1 else s1
  let s3 := (List.range 32).foldl (fun s n => purgeApplet n s) s2
  setPtlEvt 8 { s3 with
    free := s3.free + 1,
    patrol := { s3.patrol with zeroTime := (Config.freeWord s3.free).toNat % 101 },
    hut := { s3.hut with purged := true, purgedMram := true } }

/-! ### Raze (R417) -/

/-- Every slot that is not blank, root slots first. -/
def usedSlots (s : State) : List SlotRef :=
  s.vault.root.map (fun p => SlotRef.root p.1) ++ s.vault.priv.map (fun p => SlotRef.priv p.1)

/-- Step 2 begins: every slot is EMPTY and every generation revoked; holders have ended with the rise. -/
def razeBegin (s : State) : State :=
  let s1 := (usedSlots s).foldl (fun s r =>
    modVSlot r (fun v => { v with cur := none, old := retireCurrent true v }) s) s
  { s1 with
    hut := { s1.hut with razePending := true, razeMram := true },
    patrol := { s1.patrol with erasing := true } }

/-- The erasure ends: Raze-pending clears, RAZE_DONE, and the Tracks entries; a Raze that found no cell leaves the entry
of V0 (log entry 18). -/
def razeEnd (s : State) : State :=
  let found := (usedSlots s).any (fun r => !(slotOf s r).old.isEmpty)
  let s1 := (usedSlots s).foldl (fun s r => (slotOf s r).old.foldl (fun s x =>
    trkRequest (trkReq 0x0400 (slotOrigin r) (bytesLE 4 x.mat.gen)) s) s) s
  let s2 := (usedSlots s).foldl (fun s r => modVSlot r (fun v => { v with old := [] }) s) s1
  let s3 := if found then setVltEvt 6 s2
    else trkRequest (trkReq 0x0400 0 (bytesLE 4 (rootSlot s 0).number)) s2
  setPtlEvt 16 { s3 with
    stored := { s3.stored with
      marks := s3.stored.marks.filter (fun p => decide (p.1 < markKey 3 0x10000) || decide (markKey 4 0 ≤ p.1)) },
    hut := { s3.hut with razePending := false, razeMram := false },
    patrol := { s3.patrol with erasing := false } }

/-! ### The response to a level (R408, R411 to R414, R423) -/

/-- The latches of a rise to Lock or higher, and its raise entry. -/
def latchRise (src : Nat) (lvl : Level) (s : State) : State :=
  let s1 := closeDebug { s with
    hut := { s.hut with locked := true }, patrol := { s.patrol with standing := lvl } }
  trkRequest { trkReq 0x0301 src [BitVec.ofNat 8 (levelNum lvl)] with raise := true } s1

/-- Patrol acts at a level for a source. -/
def respond (src : Nat) (level : Level) (s : State) : State :=
  let wo := inWhiteout s
  let lvl := if level == .raze && wo then .purge else level
  let s0 := { s with hut := { s.hut with razePending := s.hut.razePending || (level == .raze && wo) } }
  let before := standingLevel s
  if decide (levelNum lvl < 2) || decide (levelNum lvl ≤ levelNum before) || (s.life.state == .retired && lvl == .lock)
  then s0
  else
    let s1 := endAtRise lvl s0
    let s2 := if lvl == .raze then razeBegin s1 else s1
    let s3 := if decide (3 ≤ levelNum lvl) && decide (levelNum before < 3) then purgeClear s2 else s2
    if levelsAct s then latchRise src lvl s3 else s3

/-- The payload of a 0x0300 entry that takes in one more trip. -/
def mergeTrip (det lvl : Nat) (p : Bytes) : Bytes :=
  [p.getD 0 0 ||| BitVec.ofNat 8 det, BitVec.ofNat 8 lvl, 0, 0] ++ bytesLE 4 (natLE (p.drop 4) + 1)

/-- A trip: its own source, its Tracks entry, and the response; `before` is the standing level it met. -/
def tripActs (src : Nat) (before : Level) (s : State) : State :=
  let p := psource s src
  let lvl := effLevel s src
  let det := fbit p.detA 0 + fbit p.detB 1
  let s1 := raiseEvent src (ptlSrc s src) (BitVec.ofNat 64 s.hut.time) s
  let r : TrkReq := { trkReq 0x0300 src ([BitVec.ofNat 8 det, BitVec.ofNat 8 (levelNum lvl), 0, 0] ++ bytesLE 4 1) with
    hold := s.hut.time + 32768 }
  noteLevel src before (respond src lvl (trkMerge r (mergeTrip det (levelNum lvl)) s1))

/-- The two detectors of a source report; the first report of a clear pair is a trip. -/
def trip (src : Nat) (a b : Bool) (s : State) : State :=
  let p := psource s src
  let fresh := (a || b) && !(p.detA || p.detB)
  let s1 := { s with patrol := { s.patrol with
      sources := tblSet PSource.reset s.patrol.sources src
        { p with detA := a, detB := b, active := p.active || a || b, seen := p.seen || fresh,
                 trips := if fresh then sat16 p.trips else p.trips } } }
  if fresh then tripActs src (standingLevel s) s1 else s1

/-- A source that is still active acts as if it tripped now (R465, R511). -/
def tripAgain (src : Nat) (s : State) : State :=
  let p := psource s src
  let s1 := { s with patrol := { s.patrol with
      sources := tblSet PSource.reset s.patrol.sources src { p with seen := true, trips := sat16 p.trips } } }
  tripActs src (standingLevel s) s1

/-! ### Disagreement (R406, R407) -/

/-- The disagreement source of a source's quantity. -/
def quantitySource (src : Nat) : Option Nat :=
  if src < 128 then none
  else if src < 192 then some 239 else if src < 216 then some 240 else if src < 226 then some 241
  else if src < 229 then some 242 else if src < 231 then some 243 else if src < 233 then some 244
  else if src < 237 then some 245 else if src < 238 then some 246 else none

/-- The quantity's disagreement source follows its pairs. -/
def updateQuantity (q : Nat) (s : State) : State :=
  let want := s.patrol.sources.any (fun p => p.2.disagree && quantitySource p.1 == some q)
  if want == (psource s q).detA then s else trip q want false s

/-- A pair disagrees, or agrees again; PTL_EVT.DISAGREE. -/
def setDisagree (src : Nat) (on : Bool) (s : State) : State :=
  match quantitySource src with
  | none => s
  | some q =>
    let was := (psource s src).disagree
    let s1 := { s with patrol := { s.patrol with
        sources := tblMod PSource.reset s.patrol.sources src (fun p => { p with disagree := on }) } }
    updateQuantity q (if on && !was then setPtlEvt 1 s1 else s1)

/-- DETECTOR_TRIP: the pair reports, on main power (R445, R499); a pair that agrees disagrees no more. -/
def detectorReport (src : Nat) (a b : Bool) (s : State) : State :=
  if decide (src < 128) || decide (246 < src) || inReset s then s
  else
    let s1 := trip src a b s
    if a == b && (psource s1 src).disagree then setDisagree src false s1 else s1

/-- DISAGREEMENT: the agreement window has passed with one detector reporting. -/
def disagreement (src : Nat) (a b : Bool) (s : State) : State :=
  if decide (src < 128) || decide (238 < src) || inReset s then s
  else
    let s1 := trip src a b s
    setDisagree src (a != b) s1

/-- DETECTOR_STIMULUS: a detector that fails its self-test counts as a disagreement; a stimulated trip raises nothing. -/
def stimulus (failing : List Nat) (s : State) : State :=
  (List.range 110).foldl (fun s i =>
    let src := 128 + i
    let p := psource s src
    let on := failing.contains src || (p.disagree && p.detA != p.detB)
    if on == p.disagree then s else setDisagree src on s) s

/-! ### A source clears (R402, R412) -/

/-- SOURCE_CLEAR_EXPIRY: one second after both detectors cleared; Guard falls with its last source. -/
def sourceClears (src : Nat) (s : State) : State :=
  let p := psource s src
  if !p.active || (src != 238 && (p.detA || p.detB)) then s
  else
    let before := standingLevel s
    noteLevel src before { s with patrol := { s.patrol with
      sources := tblSet PSource.reset s.patrol.sources src { p with active := false, detA := false, detB := false } } }

/-- Source 238: four or more unit faults within one second. -/
def checkCluster (s : State) : State :=
  let n := (s.patrol.unitFaults.filter (fun t => decide (s.now < t + 100000000))).length
  if decide (4 ≤ n) && !((psource s 238).detA) then trip 238 true true s else s

/-! ### Unlock (R425) -/

/-- LOCKED clears; a source still active at Lock or higher raises it again under a new raise entry. -/
def unlockPart (both : Bool) (s : State) : State :=
  let before := standingLevel s
  let s1 := noteLevel 0 before (setPtlEvt 32 { s with
    hut := { s.hut with locked := false, purged := s.hut.purged && !both, purgedMram := s.hut.purgedMram && !both },
    patrol := { s.patrol with standing := .note } })
  match (activeSources s1).find? (fun n => decide (2 ≤ levelNum (effLevel s1 n))) with
  | some src => noteLevel src (standingLevel s1) (respond src .lock s1)
  | none => s1

/-! ### The rows -/

def execDetectorTrip (src : Nat) (a b : Bool) (s : State) : Host.Outcome State Fault Refusal :=
  .next (detectorReport src a b s)

/-- R417: the erasure of a Raze that is running has ended. -/
def execRazeComplete (s : State) : Host.Outcome State Fault Refusal :=
  .next (if s.patrol.erasing then razeEnd s else s)

def execSourceClearExpiry (src : Nat) (s : State) : Host.Outcome State Fault Refusal := .next (sourceClears src s)

def execDisagreement (src : Nat) (a b : Bool) (s : State) : Host.Outcome State Fault Refusal :=
  .next (disagreement src a b s)

def execDetectorStimulus (failing : List Nat) (s : State) : Host.Outcome State Fault Refusal := .next (stimulus failing s)

end Sys2Proof.Machine
end

