-- ==== Sys2Proof/Machine/Hut.lean ====
section
/-!
DEFINITION. Sys2Proof/Machine/Hut.lean: the Hut on backup power, its supply and its crystal, the alarm inputs and Whiteout (R444
to R468, R530, R531).
-/
namespace Sys2Proof.Machine

/-! ### The Hut buffer (R451, R452) -/

/-- A Hut entry of a first trip. -/
def newHutEntry (s : State) (kind src : Nat) (lvl : Level) (a b lock raze : Bool) (tj : Int) (v1 v2 : Nat) : HutEntry :=
  { seq := (s.hut.seq + 1) % 2 ^ 32, kind := kind, source := src - 128, level := lvl, detA := a, detB := b,
    lockSet := lock, razeSet := raze, whiteout := s.hut.whiteout, damaged := false, time := s.hut.time, count := 1,
    tj := tj, vbat1 := v1, vbat2 := v2, lastTime := s.hut.time }

/-- A further trip of an entry. -/
def moreHutEntry (s : State) (lvl : Level) (lock raze : Bool) (e : HutEntry) : HutEntry :=
  { e with count := sat16 e.count, lastTime := s.hut.time, lockSet := e.lockSet || lock, razeSet := e.razeSet || raze,
           level := if e.kind == 5 then levelMax e.level lvl else e.level }

/-- The entry of a trip: a new one, or one more of its source's, or of the overflow entry. -/
def writeHutEntry (e : HutEntry) (s : State) : State :=
  let mine := fun (x : HutEntry) => x.kind != 5 && x.source == e.source
  let more := moreHutEntry s e.level e.lockSet e.razeSet
  if s.hut.buffer.any mine then
    { s with hut := { s.hut with buffer := modFirst mine more s.hut.buffer } }
  else if s.hut.buffer.any (fun x => x.kind == 5) then
    { s with hut := { s.hut with buffer := modFirst (fun x => x.kind == 5) more s.hut.buffer } }
  else { s with hut := { s.hut with
      buffer := s.hut.buffer ++ [if s.hut.buffer.length < 63 then e else { e with kind := 5 }], seq := e.seq } }

/-- The 32 bytes of an entry. -/
def hutEntryBytes (e : HutEntry) : Bytes :=
  bytesLE 4 e.seq ++ bytesLE 1 e.kind ++ bytesLE 1 e.source ++
    bytesLE 1 (levelNum e.level + fbit e.detA 4 + fbit e.detB 5 + fbit e.lockSet 6 + fbit e.razeSet 7) ++
    bytesLE 1 (fbit e.whiteout 0 + fbit e.damaged 1) ++ bytesLE 8 e.time ++ bytesLE 2 e.count ++
    bytesLE 2 (BitVec.ofInt 16 e.tj).toNat ++ bytesLE 2 e.vbat1 ++ bytesLE 2 e.vbat2 ++ bytesLE 8 e.lastTime

/-! ### Trips on backup power (R449, R450) -/

/-- R445, R499: the Hut runs its detectors alone, from a cell or, while PERST_N alone is asserted, from VIO. -/
def onBackup (s : State) : Bool := inReset s

/-- R449: a source that the Hut keeps alive. -/
def hutWatches (src : Nat) : Bool :=
  (decide (128 ≤ src) && decide (src ≤ 215)) || src == 223 || src == 224 || (decide (226 ≤ src) && decide (src ≤ 228)) ||
    src == 232 || (decide (233 ≤ src) && decide (src ≤ 236)) || (decide (239 ≤ src) && decide (src ≤ 242)) ||
    src == 244 || src == 245

/-- HUT_TRIP. -/
def hutTrips (src : Nat) (a b : Bool) (tj : Int) (v1 v2 : Nat) (s : State) : State :=
  if !(onBackup s) || !(hutWatches src) || !(a || b) || s.hut.supply == .none then s
  else
    let lvl := effLevel s src
    let razes := lvl == .raze
    let locks := decide (2 ≤ levelNum lvl) && levelsAct s
    let kind := if 239 ≤ src then 2 else 1
    let e := newHutEntry s kind src lvl a b (locks && !s.hut.locked) (razes && !s.hut.razePending) tj v1 v2
    let s1 := writeHutEntry e s
    { s1 with hut := { s1.hut with
        locked := s1.hut.locked || locks, purged := s1.hut.purged || decide (3 ≤ levelNum lvl),
        razePending := s1.hut.razePending || razes } }

/-! ### Minutes above 125 °C (R447) -/

/-- An interval of so many milliseconds above 125 °C; the MRAM copy follows at each multiple of 60 on main power. -/
def addHot (ms : Nat) (s : State) : State :=
  let total := s.hut.hotRem + ms
  let n := min 0xFFFFF (s.hut.hotMin + total / 60000)
  { s with hut := { s.hut with
      hotRem := total % 60000, hotMin := n,
      hotMram := if inReset s then s.hut.hotMram else max s.hut.hotMram (n / 60 * 60) } }

/-! ### The supply and the crystal (R444, R448) -/

/-- The source that carries the Hut. -/
def chooseSupply (vio : Bool) (now : HutSupply) (v1 v2 : Nat) : HutSupply :=
  let best : HutSupply := if cellUsable v1 && (!(cellUsable v2) || decide (v2 ≤ v1)) then .cell1
    else if cellUsable v2 then .cell2 else .none
  if vio then .vio
  else match now with
    | .cell1 => if cellUsable v1 && (!(cellUsable v2) || decide (v2 < v1 + 100)) then .cell1 else best
    | .cell2 => if cellUsable v2 && (!(cellUsable v1) || decide (v1 < v2 + 100)) then .cell2 else best
    | _ => best

/-- A cell below 2.0 V. -/
def cellFails (s : State) (src old new v1 v2 : Nat) : State :=
  if cellUsable old && !(cellUsable new) && onBackup s then
    writeHutEntry (newHutEntry s 3 src .note false false false false 0 v1 v2) s
  else s

/-- HUT_SUPPLY_SWITCH: what the Hut measures of its supplies, and the source that carries it from now on. -/
def supplySwitch (vio : Bool) (v1 v2 : Nat) (s : State) : State :=
  let low := fun (v : Nat) => decide (2000 ≤ v) && decide (v < 2400)
  let s1 := cellFails s 223 s.hut.vbat1 v1 v1 v2
  let s2 := cellFails s1 224 s.hut.vbat2 v2 v1 v2
  setHutEvt (fbit (!(cellUsable v1) || !(cellUsable v2)) 0 + fbit (low v1 || low v2) 1)
    { s2 with hut := { s2.hut with
        vbat1 := min 0xFFFF v1, vbat2 := min 0xFFFF v2,
        supply := if s.hut.supply == .none && !vio then .none else chooseSupply (vio && !s.life.porst) s.hut.supply v1 v2 } }

/-- CRYSTAL_STOP: the timekeeper counts on from the RC oscillator. -/
def crystalStops (s : State) : State :=
  let s1 := if onBackup s then
      writeHutEntry (newHutEntry s 4 232 .note false false false false 0 s.hut.vbat1 s.hut.vbat2) s
    else s
  setHutEvt 16 { s1 with hut := { s1.hut with xtalStop := true } }

/-! ### Whiteout (R460 to R466) -/

/-- A group K command past stage 8: prepared, or a CURVE_LOAD at its checks. -/
def keyCommandPast (j : Job) : Bool :=
  j.counterSpent && j.stage != .finished && j.stage != .built && (match j.op with
    | .critical c => cmdGroup c == .key
    | _ => false)

/-- R463: group K commands past stage 8 end CANCELLED with reason 0x05. -/
def freezeKeys (s : State) : State :=
  let js := s.rings.jobs.filter keyCommandPast
  settleUnits (js.filterMap (fun j => j.unit)) (js.foldl (fun s j =>
    endJob j.tag .cancelled (modJob j.tag (fun j => { j with result := 5 }) s)) s)

/-- The latch is set, unless Whiteout holds: cause, entry time, and what R462 changes at entry. -/
def enterWhiteout (cause input : Nat) (zones reason : Word) (s : State) : State :=
  if inWhiteout s || !(levelsAct s) then s
  else
    let before := standingLevel s
    let s1 := { s with
      hut := { s.hut with whiteout := true, cause := cause, input := input, zones := zones, reason := reason,
                          woTime := s.hut.time },
      alarm := { s.alarm with resetSeen := false } }
    -- R462: admission above 125 °C is open from the next decision on
    let s2 := { s1 with gate := { s1.gate with
        envClosed := s1.gate.envClosed && (tjCond s1 || !s1.gate.railsOut.isEmpty || decide (s1.gate.tj ≤ 2000)) } }
    noteLevel 0 before (setWoEvt 4 (freezeKeys (closeDebug s2)))

/-- The latch clears; temperature sources still active act as if they tripped now. -/
def exitWhiteout (s : State) : State :=
  let s1 := setWoEvt 5 { s with hut := { s.hut with whiteout := false } }
  let s2 := { s1 with gate := { s1.gate with envClosed := s1.gate.envClosed || tjCond s1 } }
  [226, 227, 228].foldl (fun s n => if (psource s n).active then tripAgain n s else s) s2

/-! ### Alarm inputs (R455 to R458) -/

/-- The band of a sample; none in a gap. -/
def almBand (ratio : Nat) : Option AlmState :=
  if ratio ≤ 153 then some .short
  else if 205 ≤ ratio ∧ ratio ≤ 410 then some .active
  else if 461 ≤ ratio ∧ ratio ≤ 717 then some .normal
  else if 819 ≤ ratio then some .opened
  else none

/-- One sample of an input: the running count, and CHANGING. -/
def sampleInput (band : Option AlmState) (level : Nat) (i : AlmInput) : AlmInput :=
  match band with
  | none => { i with level := min 0x3FF level }
  | some b =>
    { i with level := min 0x3FF level, cand := b, count := if b == i.cand then min 20 (i.count + 1) else 1,
             changing := !i.settled || b != i.state }

/-- ALARM_INPUT_SAMPLE: every input takes a sample, on main power; outside 1.40 to 1.60 V of ALM_VREF each counts as open. -/
def alarmSample (levels : List Nat) (vref : Nat) (s : State) : State :=
  if s.life.porst then s
  else
    let good := decide (1400 ≤ vref) && decide (vref ≤ 1600)
    { s with alarm := { s.alarm with
        inputs := tblModAll AlmInput.reset [0, 1, 2, 3] s.alarm.inputs (fun n i =>
          let v := levels.getD n 0
          sampleInput (if good then almBand v else some .opened) v i) } }

/-- ALM_EVT bit n, source 512 + n. -/
def setAlmEvt (n : Nat) (s : State) : State :=
  let s1 := { s with alarm := { s.alarm with evt := bvSet s.alarm.evt n } }
  raiseEvent (512 + n) (almStateReg s1) (BitVec.ofNat 64 s1.hut.time) s1

/-- The function of an input whose state has become active. -/
def alarmActs (n : Nat) (s : State) : State :=
  let post := fun (sel : Word) => match handlerOf s 3 with
    | some h => postMail h 0x03 (word n) sel 0 0 [] s
    | none => s
  if !(levelsAct s) then s
  else match (almInput s n).func with
    | 1 => enterWhiteout 1 n 0 0 s
    | 2 => post 2
    | 3 => post 3
    | 4 =>
      let clear := !((List.range 4).any (fun k => (almInput s k).func == 1 && (almInput s k).wasActive))
      { s with alarm := { s.alarm with resetSeen := s.alarm.resetSeen || (inWhiteout s && clear) } }
    | _ => s

/-- ALARM_INPUT_STATE_CHANGE: twenty samples in a band have followed one another. -/
def alarmAccept (n : Nat) (s : State) : State :=
  let i := almInput s n
  if decide (4 ≤ n) || decide (i.count < 20) then s
  else
    let fault := i.cand == .opened || i.cand == .short
    let changed := i.cand != i.state
    let s1 := { s with alarm := { s.alarm with
        inputs := tblSet AlmInput.reset s.alarm.inputs n
          { i with state := i.cand, changing := false, settled := true,
                   wasActive := if i.cand == .active then true else if i.cand == .normal then false else i.wasActive },
        lineFaultCnt := if changed && fault then sat32 s.alarm.lineFaultCnt else s.alarm.lineFaultCnt } }
    if !changed then s1
    else
      let s2 := setAlmEvt n s1
      if i.cand == .active then alarmActs n s2 else s2

/-! ### Registers (R467) -/

def almCfg (s : State) : Word := word ((List.range 4).foldl (fun v n => v + (almInput s n).func * 2 ^ (8 * n)) 0)

/-! ### The rows -/

def execHutTrip (src : Nat) (a b : Bool) (tj : Int) (v1 v2 : Nat) (s : State) : Host.Outcome State Fault Refusal :=
  .next (hutTrips src a b tj v1 v2 s)

def execHutSupplySwitch (vio : Bool) (v1 v2 : Nat) (s : State) : Host.Outcome State Fault Refusal :=
  .next (supplySwitch vio v1 v2 s)

def execCrystalStop (s : State) : Host.Outcome State Fault Refusal := .next (crystalStops s)

/-- R448: the crystal has run within tolerance for 1 s. -/
def execCrystalResume (s : State) : Host.Outcome State Fault Refusal :=
  .next { s with hut := { s.hut with xtalStop := false } }

def execAlarmInputStateChange (n : Nat) (s : State) : Host.Outcome State Fault Refusal := .next (alarmAccept n s)

def execAlarmInputSample (levels : List Nat) (vref : Nat) (s : State) : Host.Outcome State Fault Refusal :=
  .next (alarmSample levels vref s)

/-- R449: on backup power Tj is read every second. -/
def execBackupTemperatureRead (tj : Int) (s : State) : Host.Outcome State Fault Refusal :=
  .next (if onBackup s && decide (2000 < tj) && s.hut.supply != .none then addHot 1000 s else s)

def execLongCreditRefill (s : State) : Host.Outcome State Fault Refusal := .next (refillLong s)

def execShortCreditRefill (s : State) : Host.Outcome State Fault Refusal := .next (refillShort s)

def execUnlockHalfExpiry (s : State) : Host.Outcome State Fault Refusal := .next (dropHalf s)

end Sys2Proof.Machine
end

