-- ==== Sys2Proof/Machine/Critical.lean ====
section
/-!
DEFINITION. Sys2Proof/Machine/Critical.lean: stages 3 to 11 of a critical command and every body (R154 to R169, R171, R180, R191,
R194, R288 to R291, R336, R372, R410, R425, R441, R457, R461, R464, R507 to R512).
-/
namespace Sys2Proof.Machine

/-! ### The barrier (R158) -/

/-- Jobs before this one in a list of jobs. -/
def earlierJobs (tag : Nat) : List Job → List Job
  | [] => []
  | j :: t => if j.tag == tag then [] else j :: earlierJobs tag t

/-- Every earlier admitted job on the same ring has had its entry built. -/
def barrierMet (s : State) (j : Job) : Bool :=
  (earlierJobs j.tag s.rings.jobs).all (fun k => k.ring != j.ring || !k.admitted || k.stage == .built)

/-! ### Stage 5: the authority's key (R154, R509) -/

/-- The command provisions a FACTORY part. -/
def provisions (s : State) (c : CmdCode) : Bool := c == .lcAdvance && s.life.state == .factory

/-- R509: the plaintext of W, or the status of a failure. -/
def provisioned (s : State) (src : Bytes) : Except Status Bytes :=
  match (privSlot s 255).cur with
  | none => .error .keyEmpty
  | some m =>
    if !s.life.provValid then .error .keyEmpty
    else if keyLost s { slot := .priv 255, gen := m.gen } then .error .memUncorrectable
    else
      let z := xdhOn [] 0 m.key (src.take 32)
      let kek := sha256 (z ++ s.life.provPub ++ src.take 32 ++ bytesLE 8 s.life.serial.toNat)
      if z.all (fun b => b == 0) then .error .authFail
      else match kwUnwrap kek (slice src 32 72) with
        | some p => .ok p
        | none => .error .authFail

/-- The key that seals the command: the held generation of V(24 + AUTH) while that slot holds a key and the authority is
enabled, or the provisioning key; MEM_UNCORRECTABLE where its words are lost (R390). -/
def sealKey (s : State) (j : Job) (c : CmdCode) : Except Status Bytes :=
  let a := dCmdAuth j.desc
  if provisions s c then (provisioned s (j.source.getD [])).map (fun p => p.take 32)
  else if !(slotLive (rootSlot s (24 + a))) || !(s.ctrs.enabled.getLsbD a) then .error .keyEmpty
  else match j.holds.findSome? (fun h => if h.slot == .root (24 + a) then matOf (rootSlot s (24 + a)) h.gen else none) with
    | some m => if keyLost s { slot := .root (24 + a), gen := m.gen } then .error .memUncorrectable else .ok m.key
    | none => .error .keyEmpty

/-! ### Stages 4 to 8 -/

/-- Where the first failing stage of 4 to 8 leaves a command: its status and RESULT[7:0].  At stage 8 LOCKED and Guard come
before Whiteout (DESIGN CHOICE, log entry 79). -/
def earlyStages (s : State) (j : Job) (c : CmdCode) (b : CmdBlock) : Option (Status × Nat) :=
  let a := dCmdAuth j.desc
  if !(blockFormatOk c b) || (provisions s c && dSrcLen j.desc != 104) then some (.inputInvalid, 1)
  else if cbAuth b != a || cbCode b != dCmdCode j.desc then some (.inputInvalid, 3)
  else if cbTarget b != 0 && cbTarget b != s.life.serial then some (.inputInvalid, 2)
  else match sealKey s j c with
    | .error st => some (st, 0)
    | .ok key =>
      if cmac key (sealedMessage j.desc b) != cbTag b then some (.authFail, 0)
      else if (cbCounter b).toNat ≤ (counter s a).value.toNat then some (.counterStale, 0)
      else
        let admin := cmdGroup c == .key || cmdGroup c == .policy
        if (isLocked s && c != .unlock) || (admin && guardUp s) then some (.cancelled, 6)
        else if cmdGroup c == .key && inWhiteout s then some (.cancelled, 5)
        else none

/-! ### Stage 10: what a body checks -/

/-- What stage 10 answers: OK with the key material that the commit installs, or a failure. -/
structure Prepared where
  status : Status
  reason : Nat
  key : Bytes
  deriving DecidableEq, Repr

def bodyOk : Prepared := { status := .ok, reason := 0, key := [] }
def bodyFails (r : Nat) : Prepared := { status := .inputInvalid, reason := r, key := [] }
def bodyStatus (st : Status) : Prepared := { status := st, reason := 0, key := [] }

/-- The generation of root slot n that the command holds (R193). -/
def heldRoot (s : State) (holds : List VaultHold) (n : Nat) : Option KeyMat :=
  holds.findSome? (fun h => if h.slot == .root n then matOf (rootSlot s n) h.gen else none)

/-- A key unwrapped under the generation of a KEK slot that the command holds (R167, R190, R191, R193). -/
def unwrapUnder (s : State) (holds : List VaultHold) (n : Nat) (wrapped : Bytes) (pad : Bool) (check : Bytes → Bool) :
    Prepared :=
  if 31 < n then bodyFails 9
  else if 24 ≤ n then bodyFails 0x0A
  else match heldRoot s holds n with
    | none => bodyFails 4
    | some m =>
      if !m.kek then bodyFails 4
      else if keyLost s { slot := .root n, gen := m.gen } then bodyStatus .memUncorrectable
      else match (if pad then kwpUnwrap m.key wrapped else kwUnwrap m.key wrapped) with
        | none => bodyStatus .tagMismatch
        | some p =>
          if check p then { status := .ok, reason := 0, key := p } else bodyFails 9

/-- R191: the plaintext length of a KIND; none outside the table, 0 for an empty curve entry. -/
def privLen (s : State) (kind : Nat) : Option Nat :=
  if 0x1000 ≤ kind ∧ kind < 0x1020 then
    if wEntryOk (kind % 32) then some (((curveAt s (kind % 32)).map (fun c => c.ln)).getD 0) else none
  else match kind with
    | 0x2000 => some 32 | 0x2001 => some 57 | 0x3000 => some 32 | 0x3001 => some 56
    | _ => if 0x4080 ≤ kind ∧ kind ≤ 0x4200 ∧ kind % 16 = 0 then some (5 * (kind % 0x400 / 2) + 4) else none

/-- R191: the values of a plaintext. -/
def privValuesOk (s : State) (kind n : Nat) (p : Bytes) : Bool :=
  let h := kind % 0x400 / 2
  let part := fun (i : Nat) => natBE (slice p (i * h) h)
  let e := natBE (slice p (5 * h) 4)
  p.length == n &&
    (if kind < 0x2000 then match curveAt s (kind % 32) with
        | some c => decide (1 ≤ natBE p) && decide (natBE p < c.n)
        | none => false
     else if kind < 0x4000 then true
     else part 0 % 2 == 1 && part 1 % 2 == 1 && decide (part 4 < part 0) && e % 2 == 1 && decide (3 ≤ e))

/-- GRANT has no range to break: the part ignores it for A0 to A4 (R150), and its bits above bit 1 are reserved, ignored under
R15 (log entry 74). -/
def prepAuthSet (s : State) (holds : List VaultHold) (b : CmdBlock) : Prepared :=
  let a := cbBody b 0 8
  if 7 < a then bodyFails 9
  else if slotRefuses s (.root (24 + a)) false then bodyFails 4
  else unwrapUnder s holds (cbBody b 1 8) (cbBytes b 8 40) false (fun p => p.length == 32)

def prepRootImport (s : State) (holds : List VaultHold) (b : CmdBlock) : Prepared :=
  let n := cbBody b 0 8
  let mode := cbBody b 2 8
  if decide (31 < n) || decide (3 < mode) then bodyFails 9
  else if 24 ≤ n then bodyFails 0x0A
  else if slotRefuses s (.root n) (mode % 2 == 1) then bodyFails 4
  else unwrapUnder s holds (cbBody b 1 8) (cbBytes b 8 40) false (fun p => p.length == 32)

def prepRootErase (b : CmdBlock) : Prepared :=
  if decide (31 < cbBody b 0 8) || decide (1 < cbBody b 2 8) then bodyFails 9
  else if 24 ≤ cbBody b 0 8 then bodyFails 0x0A else bodyOk

def prepPrivImport (s : State) (holds : List VaultHold) (b : CmdBlock) (src : Bytes) : Prepared :=
  let n := cbBody b 0 8
  let mode := cbBody b 2 8
  let kind := cbBody b 4 16
  match privLen s kind with
  | none => bodyFails 9
  | some len =>
    if 1 < mode then bodyFails 9
    else if sha256 src != cbBytes b 8 32 then bodyFails 7
    else if len == 0 || slotRefuses s (.priv n) (mode == 1) then bodyFails 4
    else if src.length != 8 * ceilDiv len 8 + 8 then bodyFails 9
    else unwrapUnder s holds (cbBody b 1 8) src (len % 8 != 0) (privValuesOk s kind len)

def prepPrivErase (s : State) (b : CmdBlock) : Prepared :=
  if 1 < cbBody b 2 8 then bodyFails 9
  else if (privSlot s (cbBody b 0 8)).reserved then bodyFails 4 else bodyOk

/-- R335: the header of an image of so many bytes. -/
def headerOk (im : Bytes) (len : Nat) : Bool :=
  let il := imgNat im 0x08 4
  let ce := imgNat im 0x0C 4
  let entry := imgNat im 0x10 4
  let bss := imgNat im 0x14 4
  let st := imgNat im 0x18 4
  imgNat im 0 4 == 0x4159524D && imgNat im 4 2 == 1 && decide (imgFlags im < 16) && il == len && decide (64 ≤ il) &&
    decide (il ≤ 0x1F000) && il % 4 == 0 && ce % 256 == 0 && decide (0x100 ≤ ce) && decide (ce ≤ il) &&
    entry % 4 == 0 && decide (0x40 ≤ entry) && decide (entry + 4 ≤ ce) && decide (il + bss ≤ 0x1F000) && st % 8 == 0 &&
    decide (il + bss ≤ st) && decide (st ≤ 0x1F000) && decide (1 ≤ imgNat im 0x1C 2) &&
    imgNat im 0x1E 1 / 16 % 8 == 0 && (slice im 0x1F 33).all (fun x => x == 0)

/-- The store's 4 KiB units in use. -/
def storeUnits (s : State) : Nat :=
  s.merya.apps.foldl (fun n p => n + if p.2.state == .empty then 0 else ceilDiv p.2.image.length 4096) 0

def prepAppletLoad (s : State) (d : Descriptor) (b : CmdBlock) (src : Bytes) : Prepared :=
  let n := cbBody b 0 8
  let clash := [1, 2, 3].any (fun i => imgHandles src i && (handlerOf s i).isSome)
  if decide (31 < n) || decide (3 < cbBody b 1 8) || !(headerOk src (dSrcLen d)) then bodyFails 9
  else if sha256 src != cbBytes b 8 32 then bodyFails 7
  else if (applet s n).state != .empty || clash || decide (512 < storeUnits s + ceilDiv src.length 4096) then bodyFails 4
  else bodyOk

def prepAppletRemove (s : State) (b : CmdBlock) : Prepared :=
  let n := cbBody b 0 8
  if 31 < n then bodyFails 9 else if (applet s n).state == .empty then bodyFails 4 else bodyOk

def prepLevelRaise (s : State) (b : CmdBlock) : Prepared :=
  let src := cbBody b 0 16
  let lvl := cbBody b 2 8
  if decide (src < 128) || decide (246 < src) || decide (4 < lvl) then bodyFails 9
  else if lvl < levelNum (configuredLevel s.patrol src) then bodyFails 4 else bodyOk

def prepCtrAssign (b : CmdBlock) : Prepared :=
  let a := cbBody b 1 8
  if decide (cbBody b 0 8 < 16) || (decide (31 < a) && a != 0xFF) then bodyFails 9 else bodyOk

def prepDebugUnlock (s : State) (b : CmdBlock) : Prepared :=
  let m := cbBody b 0 16
  if s.life.state != .deployed then bodyFails 8
  else if m == 0 || decide (1440 < m) then bodyFails 9
  else if inWhiteout s then bodyFails 4 else bodyOk

def prepLcAdvance (s : State) (b : CmdBlock) : Prepared :=
  let t := cbBody b 0 8
  let keyed := fun (a : Nat) => slotLive (rootSlot s (24 + a)) && s.ctrs.enabled.getLsbD a
  match s.life.state with
  | .factory => if t == 2 then bodyOk else bodyFails 9
  | .provisioned =>
    if t != 3 && t != 4 then bodyFails 9
    else if inWhiteout s || (t == 3 && !(s.life.isSealed && keyed 1 && keyed 4)) then bodyFails 4 else bodyOk
  | .deployed => if t != 4 then bodyFails 9 else if inWhiteout s then bodyFails 4 else bodyOk
  | _ => bodyFails 9

def prepReceipt (s : State) (b : CmdBlock) : Prepared :=
  match s.trk.pending with
  | none => bodyFails 4
  | some x =>
    if x.id == cbBody b 0 32 && x.last == cbBody b 8 64 && x.chain == cbBytes b 16 32 then bodyOk else bodyFails 4

def prepSesSet (s : State) (b : CmdBlock) : Prepared :=
  let n := cbBody b 0 16
  let slot := cbBody b 2 8
  let col := cbBody b 5 8
  let mate := tblGet Session.reset s.sess.table (if n % 2 = 0 then n + 1 else n - 1)
  if decide (4095 < n) || decide (31 < slot) || !(modeOk (BitVec.ofNat 8 (cbBody b 3 8))) || decide (7 < cbBody b 4 8) ||
      decide (15 < col) then bodyFails 9
  else if 24 ≤ slot then bodyFails 0x0A
  else match (rootSlot s slot).cur with
    | none => bodyFails 4
    | some m => if m.kek || (mate.isSet && mate.colour.toNat != col) then bodyFails 4 else bodyOk

/-- R168; the first SEQ is 1 (R430), so no TRK_SEQ fits a part whose Lock no entry has recorded. -/
def prepUnlock (s : State) (auth : Nat) (b : CmdBlock) : Prepared :=
  if s.patrol.lockSeq == 0 || cbBody b 0 64 != s.patrol.lockSeq.toNat || (!(isPurged s) && auth == 0) then bodyFails 4 else bodyOk

/-- R288: the format checks of CURVE_LOAD. -/
def prepCurveFormat (s : State) (j : Job) (b : CmdBlock) (src : Bytes) : Prepared :=
  let e := cbBody b 0 8
  let named := s.rings.jobs.any (fun k => k.tag != j.tag && k.admitted && namedEntry k.op k.desc == some e)
  if decide (e < 8) || decide (31 < e) || dSrcLen j.desc != 440 || !(curveFormatOk src) then bodyFails 9
  else if sha256 src != cbBytes b 8 32 then bodyFails 7
  else if named then bodyFails 4 else bodyOk

/-- R165, R507: the life-cycle state permits the command. -/
def lifePermits (s : State) (c : CmdCode) : Bool :=
  match s.life.state with
  | .blank => false
  | .factory => c == .lcAdvance
  | .provisioned => c != .debugUnlock
  | .deployed => true
  | .retired => c == .trkReceipt

/-- Stage 10 of every body; CURVE_LOAD goes on with its checks. -/
def prepare (s : State) (j : Job) (c : CmdCode) (b : CmdBlock) : Prepared :=
  let src := j.source.getD []
  if !(lifePermits s c) then bodyFails 8
  else match c with
    | .whiteoutEnter | .evacuate | .alert | .sesClear | .authDisable | .razeEnable | .alarmConfig =>
      (match c with
       | .sesClear => if 4095 < cbBody b 0 16 then bodyFails 9 else bodyOk
       | .authDisable => if 7 < cbBody b 0 8 then bodyFails 9 else if cbBody b 0 8 == 0 then bodyFails 4 else bodyOk
       | .razeEnable => if cbBody b 0 8 == 1 then bodyOk else bodyFails 9
       | .alarmConfig => if (cbBytes b 0 4).any (fun f => decide (4 < f.toNat)) then bodyFails 9 else bodyOk
       | _ => bodyOk)
    | .whiteoutExit => if exitReady s then bodyOk else bodyFails 4
    | .unlock => prepUnlock s (dCmdAuth j.desc) b
    | .authSet => prepAuthSet s j.holds b
    | .rootImport => prepRootImport s j.holds b
    | .rootErase => prepRootErase b
    | .privImport => prepPrivImport s j.holds b src
    | .privErase => prepPrivErase s b
    | .curveLoad => prepCurveFormat s j b src
    | .appletLoad => prepAppletLoad s j.desc b src
    | .appletRemove => prepAppletRemove s b
    | .levelRaise => prepLevelRaise s b
    | .ctrAssign => prepCtrAssign b
    | .debugUnlock => prepDebugUnlock s b
    | .lcAdvance => prepLcAdvance s b
    | .trkReceipt => prepReceipt s b
    | .sesSet => prepSesSet s b

/-! ### Stages 4 to 10 -/

/-- A command fails: status, reason, and its Tracks entry where R433 gives one. -/
def failCommand (j : Job) (b : CmdBlock) (st : Status) (reason : Nat) (s : State) : State :=
  let head := (vecBytes 1024 b).take 24
  let seen := cbAuth b % 16 * 0x1000 + cbCode b % 0x1000
  let s1 := if j.counterSpent then s
    else if st == .authFail then trkRequest (trkReq 0x0202 seen head) s
    else if st == .counterStale then trkRequest (trkReq 0x0203 seen head) s
    else s
  finishJob j.tag (statusOr s j st) (modJob j.tag (fun j => { j with result := BitVec.ofNat 64 reason }) (drawFree j s1))

/-- Stage 9: COUNTER is written and its credit spent. -/
def spendCounter (j : Job) (b : CmdBlock) (s : State) : State :=
  modJob j.tag (fun j => { j with counterSpent := true }) (writeCounter (dCmdAuth j.desc) (cbCounter b) s)

/-- A command past stage 10: its unit, if it has one, goes on without it (R154, R264). -/
def commandPrepared (j : Job) (key : Bytes) (s : State) : State :=
  let s1 := freeMemory j.tag (modJob j.tag (fun j => { j with stage := .prepared, key := key }) s)
  match j.unit with
  | some u => leaveUnit u s1
  | none => s1

/-- The lost key that key administration met is noted (R388, R390). -/
def noteLost (j : Job) (c : CmdCode) (st : Status) (s : State) : State :=
  if st != .memUncorrectable then s
  else if provisions s c then
    readHolds { j with holds := [{ slot := .priv 255, gen := (privSlot s 255).number }] } s
  else readHolds j s

/-- Stage 10 after stage 9: the command is prepared or has failed.  A CURVE_LOAD whose format holds goes on to its checks on its
Edge, or fails where it cannot draw (R289, R291). -/
def prepareCommand (j : Job) (c : CmdCode) (b : CmdBlock) (s : State) : State :=
  let p := prepare s j c b
  if p.status != .ok then failCommand j b p.status p.reason (noteLost j c p.status s)
  else if c == .curveLoad then
    if rngDegraded s then failCommand j b .rngFault 0 s
    else wakeJob j.tag (modJob j.tag (fun j => { j with stage := .ready }) s)
  else commandPrepared j p.key s

/-- EDGE_JOB_DONE of a CURVE_LOAD: its nine checks have ended. -/
def curveEnds (tag : Nat) (s : State) : State :=
  match findJob s tag with
  | none => s
  | some j =>
    match j.block with
    | none => s
    | some b =>
      if !(curveWork j) || j.stage != .running then s
      else if j.status.isSome then finishJob tag .ok s
      else
        let (s1, ok) := curveDone j (modJob tag (fun j => { j with steps := edgeSteps j }) s)
        if ok then curvePrepared j s1 else failCommand j b .inputInvalid 9 s1

/-- CRITICAL_BARRIER_RELEASE: once the barrier is met, stages 4 to 10. -/
def releaseBarrier (tag : Nat) (s : State) : State :=
  match findJob s tag with
  | none => s
  | some j =>
    match j.op, j.block with
    | .critical c, some b =>
      if j.stage != .barrier || !(barrierMet s j) then s
      else match earlyStages s j c b with
        | some (st, r) => failCommand j b st r (noteLost j c st s)
        | none =>
          let s1 := spendCounter j b s
          match findJob s1 tag with
          | some j1 => prepareCommand j1 c b s1
          | none => s1
    | _, _ => s

/-! ### Stage 11: effects -/

/-- All 16 words of a context are written, so that none stays poisoned (R389). -/
def rewriteContext (n : Nat) (s : State) : State := writeContextWords n 0 16 s

/-- R180: SES_SET. -/
def commitSesSet (b : CmdBlock) (s : State) : State :=
  let n := cbBody b 0 16
  let slot := cbBody b 2 8
  let col := cbBody b 5 8
  let gen := ((rootSlot s slot).cur.map (fun m => m.gen)).getD 0
  let s1 := rewriteContext n { s with
    sess := { s.sess with
      table := tblMod Session.reset s.sess.table n (fun c =>
        { label := BitVec.ofNat 256 (cbBody b 16 256), rootSlot := BitVec.ofNat 8 slot,
          mode := BitVec.ofNat 8 (cbBody b 3 8), flags := BitVec.ofNat 8 (cbBody b 4 8), colour := BitVec.ofNat 4 col,
          chainOpen := false, isSet := true, salt := BitVec.ofNat 32 (cbBody b 8 32), gen := BitVec.ofNat 32 gen,
          epoch := c.epoch + 1, txCtr := 0, rxHigh := 0, rxMap := 0, chainGen := 0, cont := 0 }) } }
  { s1 with prot := { s1.prot with tags := tblSet 0 s1.prot.tags ((0x30000000 + n * 0x80) / 256) col } }

def commitSesClear (b : CmdBlock) (s : State) : State :=
  let n := cbBody b 0 16
  rewriteContext n { s with
    sess := { s.sess with
      table := tblMod Session.reset s.sess.table n (fun c => { Session.reset with epoch := c.epoch + 1 }) } }

/-- R441: the receipt releases entries, and its own entry follows. -/
def commitReceipt (s : State) : State :=
  match s.trk.pending with
  | none => s
  | some x =>
    let gone := s.trk.entries.filter (fun e => decide (e.seq ≤ x.last))
    let s1 := { s with trk := { s.trk with
        entries := s.trk.entries.filter (fun e => decide (x.last < e.seq)),
        relSeq := if s.trk.relSeq ≤ x.last then x.last + 1 else s.trk.relSeq,
        relChain := match gone.getLast? with
          | some e => e.chain
          | none => s.trk.relChain,
        pending := none } }
    trkRequest (trkReq 0x0901 3 (bytesLE 4 x.id ++ bytesLE 8 x.last)) (setTrkEvt 16 s1)

/-- R512: retirement. -/
def retirePart (s : State) : State :=
  let s1 := (usedSlots s).foldl (fun s r => if r == .root 27 then s else eraseSlot r true s) s
  let s2 := { s1 with ctrs := { s1.ctrs with enabled := s1.ctrs.enabled &&& 8 } }
  let s3 := (List.range 32).foldl (fun s n =>
    if (applet s n).state == .empty then s
    else ringDisabled n (removeApplet n s)) s2
  purgeSessions s3

/-- R509, R511: the part leaves FACTORY. -/
def provisionPart (plain : Bytes) (s : State) : State :=
  let s1 := writeSlot (.root 24) false (plain.take 32) false 0 [] s
  let s2 := writeSlot (.root 0) false (slice plain 32 32) true 0 [] s1
  let s3 := dropProvisioningKey { s2 with ctrs := { s2.ctrs with enabled := bvSet s2.ctrs.enabled 0 } }
  let s4 := restartPowder { s3 with powder := { s3.powder with pattern := false, raw := false, patternBits := [] } }
  (activeSources s4).foldl (fun s n => tripAgain n s) s4

def lcOfCode (n : Nat) : LcState :=
  match n with
  | 0 => .blank | 1 => .factory | 2 => .provisioned | 3 => .deployed | _ => .retired

/-- R511: a transition: the record, counter 9, the Tracks entry and LC_EVT.TRANSITION. -/
def transition (next : LcState) (s : State) : State :=
  let old := s.life.state
  let s1 := writeCounter 9 ((counter s 9).value + 1) { s with life := { s.life with state := next } }
  setLcEvt 4 (trkRequest (trkReq 0x0102 (lcCode next)
    (bytesLE 1 (lcCode old) ++ bytesLE 1 (lcCode next) ++ [0, 0] ++ bytesLE 8 (counter s1 9).value.toNat)) s1)

def commitLcAdvance (b : CmdBlock) (plain : Bytes) (s : State) : State :=
  let next := lcOfCode (cbBody b 0 8)
  let s1 := closeDebug (transition next s)
  match next with
  | .provisioned => provisionPart plain s1
  | .retired => retirePart s1
  | _ => s1

/-- R336: the image enters the store and the applet starts.  It is kept in Applet.image, apart from the bytes of the store's
window at 0x2000_0000 (DESIGN CHOICE, log entry 85). -/
def commitAppletLoad (b : CmdBlock) (src : Bytes) (s : State) : State :=
  let n := cbBody b 0 8
  let cls := clsOfCode (cbBody b 1 8)
  moveApplet n .starting (modRing (.internal n) (fun x => { x with cls := cls }) (modApplet n (fun a =>
    { Applet.reset with cls := cls, image := src, sha := sha256 src, restarts := a.restarts }) s))

/-- R168: UNLOCK and its RESULT[63:48]. -/
def commitUnlock (auth : Nat) (s : State) : State × Nat :=
  let noHalf := { s with ctrs := { s.ctrs with half := none } }
  if !(isPurged s) then
    if s.hut.locked then (unlockPart false noHalf, 1) else (noHalf, 0)
  else match unlockHalf s with
    | some (a, _) =>
      if a == auth then ({ s with ctrs := { s.ctrs with half := some (auth, s.hut.time) } }, 2)
      else (unlockPart true noHalf, 1)
    | none => ({ s with ctrs := { s.ctrs with half := some (auth, s.hut.time) } }, 2)

/-- The effect of a prepared body, and RESULT[63:48]. -/
def commitBody (j : Job) (c : CmdCode) (b : CmdBlock) (s : State) : State × Nat :=
  let src := j.source.getD []
  let slot := cbBody b 0 8
  let revoke := cbBody b 2 8 % 2 == 1
  match c with
  | .whiteoutEnter => (enterWhiteout 2 0 (word (cbBody b 0 32)) (word (cbBody b 4 32)) s, 0)
  | .evacuate | .alert => (s, 0)
  | .whiteoutExit => (exitWhiteout s, 0)
  | .unlock => commitUnlock (dCmdAuth j.desc) s
  | .authSet =>
    let s1 := writeSlot (.root (24 + slot)) false j.key false 0 [] s
    ({ s1 with ctrs := { s1.ctrs with
        enabled := bvSet s1.ctrs.enabled slot, grant := tblSet 0 s1.ctrs.grant slot (word (cbBody b 4 32)) } }, 0)
  | .authDisable =>
    let s1 := eraseSlot (.root (24 + slot)) false s
    ({ s1 with ctrs := { s1.ctrs with enabled := bvClear s1.ctrs.enabled slot } }, 0)
  | .rootImport => (writeSlot (.root slot) revoke j.key (decide (2 ≤ cbBody b 2 8)) 0 [] s, 0)
  | .rootErase => (eraseSlot (.root slot) revoke s, 0)
  | .privImport =>
    let kind := cbBody b 4 16
    (writeSlot (.priv slot) revoke j.key false (BitVec.ofNat 16 kind)
      (if kind < 0x2000 then curveDigest s (kind % 32) else []) s, 0)
  | .privErase => (eraseSlot (.priv slot) revoke s, 0)
  | .curveLoad =>
    (writtenWords 2 (curveWord slot) 61 { s with curves := { s.curves with
        table := tblSet Curve.reset s.curves.table slot { loaded := true, image := src, digest := sha256 src } } }, 0)
  | .appletLoad => (commitAppletLoad b src s, 0)
  | .appletRemove => (removeApplet slot s, 0)
  | .levelRaise =>
    let n := cbBody b 0 16
    (noteLevel n (standingLevel s) { s with patrol := { s.patrol with
        levels := tblSet .note s.patrol.levels n (levelMax (configuredLevel s.patrol n) (levelOfNum (cbBody b 2 8))) } }, 0)
  | .razeEnable => ({ s with patrol := { s.patrol with razeEnabled := true } }, 0)
  | .alarmConfig =>
    ({ s with alarm := { s.alarm with
        inputs := tblModAll AlmInput.reset [0, 1, 2, 3] s.alarm.inputs (fun n i => { i with func := cbBody b n 8 }) } }, 0)
  | .ctrAssign =>
    let a := cbBody b 1 8
    (modCounter slot (fun x => { x with owner := if a = 0xFF then 0xFF else 0x20 + a }) s, 0)
  | .debugUnlock => (openDebug (cbBody b 0 16) s, 0)
  | .lcAdvance => (commitLcAdvance b j.key s, 0)
  | .trkReceipt => (commitReceipt s, 0)
  | .sesSet => (commitSesSet b s, 0)
  | .sesClear => (commitSesClear b s, 0)

/-- R166: the hand-over of EVACUATE and ALERT, after their entry.  It raises the applet's source: 640 + 4n, once, where it wakes
the applet, with its state as it stands otherwise (log entry 79). -/
def handOver (j : Job) (c : CmdCode) (b : CmdBlock) (seq : Nat) (s : State) : State :=
  let i := if c == .evacuate then 1 else 2
  if c == .evacuate || c == .alert then
    match handlerOf s i with
    | some h =>
      let s1 := postMail h i (word (cbBody b 0 32)) (word (cbBody b 4 32)) (BitVec.ofNat 64 seq) (dCmdAuth j.desc)
        (cbBytes b 8 (cbBodyLen b - 8)) s
      raiseIf (mailOpen (applet s h) && (applet s1 h).state == (applet s h).state) (640 + 4 * h)
        (word (appCode (applet s1 h).state)) 0 s1
    | none => s
  else s

/-- Stage 11: references are released and the command's status is fixed, the effect commits, the command's Tracks entry is
the last act, and RESULT names it.  A response that the effect itself brings about (R425, R465, R511) meets a command that
has committed. -/
def commitCommand (j : Job) (c : CmdCode) (b : CmdBlock) (s : State) : State :=
  let s0 := modJob j.tag (fun j => { j with holds := [], status := some .ok, stage := .finished }) s
  let (s1, v) := commitBody j c b s0
  let alarm := cmdGroup c == .alarm || cmdGroup c == .unlock
  let r := trkReq 0x0200 (dCmdAuth j.desc * 0x1000 + dCmdCode j.desc) ((vecBytes 1024 b).take 0x70) alarm
  let (s2, seq) := appendCommit r s1
  finishJob j.tag .ok
    (modJob j.tag (fun k => { k with
      result := BitVec.ofNat 64 (seq % 2 ^ 48 + v * 2 ^ 48), status := some (statusOr s j .ok) }) (handOver j c b seq (drawFree j s2)))

/-- Another command may have moved the life cycle since stage 10: a command that the state no longer permits, or an LC_ADVANCE
that would not go forward, fails as at stage 10 (R8, R507, log entry 79). -/
def overtaken (s : State) (c : CmdCode) (b : CmdBlock) : Option Nat :=
  if !(lifePermits s c) then some 8
  else if c == .lcAdvance && (prepLcAdvance s b).status != .ok then some (prepLcAdvance s b).reason
  else none

/-- COMPLETION_ENTRY_WRITE: a prepared command commits; then the entry is built and written. -/
def completeEntry (tag : Nat) (s : State) : State :=
  match findJob s tag with
  | none => s
  | some j =>
    match j.op, j.block with
    | .critical c, some b =>
      if j.stage != .prepared then writeCompletion tag s
      else match overtaken s c b with
        | some r => writeCompletion tag (failCommand j b .inputInvalid r s)
        | none => writeCompletion tag (commitCommand j c b s)
    | _, _ => writeCompletion tag s

/-! ### The rows -/

def execCriticalBarrierRelease (tag : Nat) (s : State) : Host.Outcome State Fault Refusal := .next (releaseBarrier tag s)

end Sys2Proof.Machine
end

