-- ==== Sys2Proof/Machine/Export.lean ====
section
/-!
DEFINITION. Sys2Proof/Machine/Export.lean: TRK_EXPORT on Tracks: the image, its checkpoint and tag, the read-back, and the
pending export (R436 to R440, R492, R493).
-/
namespace Sys2Proof.Machine

/-! ### The entries as read from MRAM -/

/-- Unreleased entries with the address of their first unit, oldest first. -/
def placedEntries (t : Tracks) : List (TrkEntry × Nat) :=
  (t.entries.reverse.foldl (fun (st : Nat × List (TrkEntry × Nat)) e =>
    let start := (st.1 + 32768 - e.units) % 32768
    (start, (e, 0x20200000 + 64 * start) :: st.2)) (t.headUnit, [])).2

/-- An entry's bytes as read: a word that reads as uncorrectable is zero (R437). -/
def readEntry (s : State) (e : TrkEntry) (addr : Nat) : Bytes :=
  (chunks 8 (entryImage e)).zipIdx.flatMap (fun p =>
    if (badWordIn s (addr + 8 * p.2) 8).isSome then List.replicate p.1.length 0 else p.1)

/-- The images of entries, oldest first, with the count of those that fail their CHAIN check; `prev` is the CHAIN
before the first. -/
def chainCheck (prev : Bytes) : List Bytes → Nat
  | [] => 0
  | im :: t =>
    let body := im.take (im.length - 32)
    let chain := im.drop (im.length - 32)
    (if sha256 (prev ++ body) == chain then 0 else 1) + chainCheck chain t

/-- The entries that fit in `room` bytes, from the oldest on. -/
def fittingEntries : Nat → List (TrkEntry × Nat) → List (TrkEntry × Nat)
  | _, [] => []
  | room, p :: t => if 64 * p.1.units ≤ room then p :: fittingEntries (room - 64 * p.1.units) t else []

/-- Reading the entries corrects and poisons words of the log (R380, R388). -/
def readEntries (l : List (TrkEntry × Nat)) (s : State) : State :=
  l.foldl (fun s p => readWords p.2 (64 * p.1.units) s) s

/-! ### The image (R438) -/

/-- The CHAIN of the entry before the oldest unreleased one. -/
def startChain (s : State) : Bytes := if s.trk.relChain.isEmpty then genesisChain s.life.serial else s.trk.relChain

/-- A card-port DMA read of the entries that the protection check of unit 10 fails (R492). -/
def cardDmaDenied (s : State) (l : List (TrkEntry × Nat)) : Option (Acc × Verdict) :=
  let accs := l.flatMap (fun p => (pieceStarts p.2 (64 * p.1.units)).map (fun a =>
    ({ unit := 10, user := false, applet := none, kind := .read, addr := a } : Acc)))
  (accs.map (fun x => (x, checkAcc s x))).find? (fun v => v.2 != .pass)

/-- The checkpoint entry as exported: the one just appended, or one with SEQ 0 when it found no room (log entry 19). -/
def checkpointImage (s : State) (seq : Nat) (payload : Bytes) : Bytes :=
  match s.trk.entries.getLast? with
  | some e =>
    if seq != 0 && e.seq == seq then entryImage e
    else entryImage { e with seq := 0, time := s.hut.time, kind := 0x0900, origin := 0, units := 2, flags := 0,
                             payload := payload, chain := zeros 32 }
  | none => zeros 128

/-- Steps 1 to 5 of R437 with the fitting entries: the image, or none when not even the first fits. -/
def buildImage (l : List (TrkEntry × Nat)) (id : Nat) (s : State) : Option Bytes × State :=
  match l.head?, l.getLast? with
  | some (first, _), some (last, _) =>
    let ims := l.map (fun p => readEntry s p.1 p.2)
    let damaged := chainCheck (startChain s) ims
    let payload := bytesLE 4 id ++ bytesLE 4 (last.seq + 1 - first.seq) ++ bytesLE 8 first.seq ++ bytesLE 8 last.seq ++
      bytesLE 4 damaged ++ zeros 4 ++ last.chain
    let start := startChain s
    let (s1, seq) := appendCommit (trkReq 0x0900 0 payload) (readEntries l s)
    let cp := checkpointImage s1 seq payload
    let uns := trkUnsigned s1
    let header := bytesLE 4 0x534B5254 ++ bytesLE 2 1 ++ bytesLE 2 (fbit uns 0 + fbit (decide (0 < damaged)) 1) ++
      bytesLE 4 id ++ bytesLE 4 (last.seq + 1 - first.seq) ++ bytesLE 8 s.life.serial.toNat ++ bytesLE 8 first.seq ++ start
    let key := ((rootSlot s1 27).cur.map (fun m => m.key)).getD []
    let tag := if uns then zeros 16 else cmac key (header ++ cp)
    let s2 := { s1 with trk := { s1.trk with damagedCnt := satAdd 0xFFFFFFFF s1.trk.damagedCnt damaged } }
    (some (header ++ ims.flatten ++ cp ++ tag), if 0 < damaged then setTrkEvt 8 s2 else s2)
  | _, _ => (none, s)

/-- The generation of A3's key that signs an export (R438); a job whose export it cannot sign, since its words are lost, ends
with MEM_UNCORRECTABLE (R390). -/
def signKey (s : State) : Option VaultHold :=
  if trkUnsigned s then none else (rootSlot s 27).cur.map (fun m => { slot := .root 27, gen := m.gen })

/-! ### The course of an export -/

/-- The export writes to the seated card. -/
def cardTarget (j : Job) : Bool := j.op == .trkExport && dAux j.desc % 2 == 1

/-- R439: once its output has been issued, an export to the host issues the reads of the read-back. -/
def requestBack (tag : Nat) (s : State) : State :=
  match findJob s tag with
  | none => s
  | some j =>
    if j.op != .trkExport || cardTarget j || j.stage != .running || !j.out.isEmpty || j.noOutput then s
    else requestReads ((spread (dstSegs j) 0 (j.source.getD [])).map (fun g => (g.1, g.2.length))) s

/-- R437: an export starts on Tracks; `toCard` hands the image to the card port. -/
def startExport (toCard : State → State) (tag : Nat) (s : State) : State :=
  match findJob s tag with
  | none => s
  | some j =>
    let v := (counter s 8).value + 1
    let id := v.toNat % 2 ^ 32
    let s1 := modJob tag (fun j => { j with counterSpent := true, stage := .running })
      (writeCounter 8 v { s with trk := { s.trk with exportId := id } })
    let l := fittingEntries (dDstLen j.desc - 0xD0) (if dDstLen j.desc < 0xD0 then [] else placedEntries s1.trk)
    match cardTarget j, cardDmaDenied s1 l with
    | true, some (x, v) =>
      let s2 := match v with
        | .deny r e t c => captureFault x r e t c s1
        | _ => s1
      finishJob tag .hostReadFault s2
    | _, _ =>
      if (signKey s1).any (keyLost s1) then
        finishJob tag .memUncorrectable (readHolds { j with holds := (signKey s1).toList } s1)
      else match buildImage l id s1 with
      | (none, s2) => finishJob tag .inputInvalid s2
      | (some im, s2) =>
        let s3 := modJob tag (fun j => { j with source := some im }) s2
        if cardTarget j then toCard (modJob tag (fun j => { j with stage := .ready }) s3)
        else requestBack tag (giveOutput tag (outputOr s3 j im) (drawFree j s3))

/-- The exports that wait for Tracks. -/
def waitingExports (s : State) : List Job :=
  s.rings.jobs.filter (fun j => j.op == .trkExport && j.stage == .ready && j.source.isNone && j.status.isNone)

/-- Tracks is working on an export. -/
def exportRunning (s : State) : Bool :=
  s.rings.jobs.any (fun j => j.op == .trkExport && j.admitted && j.source.isSome && j.stage != .finished && j.stage != .built)

/-- The exports that wait run one at a time, in the order of R60. -/
def exportsFuel (toCard : State → State) : Nat → State → State
  | 0, s => s
  | n + 1, s =>
    if exportRunning s then s
    else match (sortBy (fun (a b : Job) =>
        decide (a.deadline < b.deadline) || (a.deadline == b.deadline && !(tieBefore b a))) (waitingExports s)).head? with
      | some j => exportsFuel toCard n (startExport toCard j.tag s)
      | none => s

def runExports (toCard : State → State) (s : State) : State := exportsFuel toCard (waitingExports s).length s

/-- R439: the read-back matched: RESULT, and the pending export. -/
def exportVerified (tag : Nat) (s : State) : State :=
  match findJob s tag with
  | none => s
  | some j =>
    let im := j.source.getD []
    let n := natLE (slice im 0x0C 4)
    let id := natLE (slice im 0x08 4)
    let first := natLE (slice im 0x18 8)
    let cp := im.drop (im.length - 144)
    finishJob tag (statusOr s j .ok) (modJob tag (fun j => { j with result := BitVec.ofNat 64 (id + n * 2 ^ 32), bytes := im.length })
      { s with trk := { s.trk with
          pending := some { id := id, first := first, last := first + n - 1, chain := slice cp (24 + 32) 32 } } })

/-- The read-back of a host target arrives (R439). -/
def hostReadBack (toCard : State → State) (tag : Nat) (data : Bytes) (s : State) : State :=
  match findJob s tag with
  | none => s
  | some j =>
    if j.op != .trkExport || cardTarget j || j.stage != .running || !j.out.isEmpty then s
    else runExports toCard
      (if j.status.isSome then finishJob tag .ok s
       else if sha256 data == sha256 (j.source.getD []) then exportVerified tag s
       else finishJob tag (statusOr s j .hostWriteFault) s)

end Sys2Proof.Machine
end

