-- ==== Sys2Proof/Machine/Card.lean ====
section
/-!
DEFINITION. Sys2Proof/Machine/Card.lean: the card port: power, identification, the block exchanges of CARD_XFER and of an export,
the mailbox, and the unlock flow (R469 to R494).
-/
namespace Sys2Proof.Machine

def modCard (f : Card → Card) (s : State) : State := { s with card := f s.card }

def mbxBase : Nat := 0x10000

/-! ### The command on the bus (R469, R473, R476, R483, R487) -/

/-- The exchange is the write of an export. -/
def cardJob (s : State) : Option Job := s.card.job.bind (findJob s)

/-- First block of the job on the port. -/
def firstBlock (s : State) : Nat :=
  match cardJob s with
  | some j => if j.op == .trkExport then dDstAddr j.desc else (dXparam j.desc).toNat % 2 ^ 32
  | none => 0

/-- The argument that addresses a block: a byte address on SDSC cards (R476). -/
def blockArg (c : Card) (n : Nat) : Word := word (if c.hc then n else 512 * n)

/-- The SD command that the port has on the bus, with its argument; ACMD commands carry 0x80 in their index. -/
def busCommand (s : State) : Option (Nat × Word) :=
  let c := s.card
  let rca : Word := c.rca.zeroExtend 32 <<< 16
  match c.phase with
  | .ident 1 _ => some (8, 0x1AA)
  | .ident 2 0 => some (55, 0)
  | .ident 2 1 => some (0x80 + 41, 0x40300000)
  | .ident 3 _ => some (2, 0)
  | .ident 4 _ => some (7, rca)
  | .ident 5 _ => some (16, 512)
  | .ident 6 0 | .ident 7 0 => some (55, rca)
  | .ident 6 1 => some (0x80 + 51, 0)
  | .ident 7 1 => some (0x80 + 6, 2)
  | .ident 8 0 => some (6, 0x00FFFFF1)
  | .ident 8 2 => some (6, 0x80FFFFF1)
  | .probe 0 | .mbxIdent 0 => some (17, blockArg c mbxBase)
  | .readCmd => some (if c.total ≤ 1 then 17 else 18, blockArg c (firstBlock s))
  | .readBackCmd => some (if c.total ≤ 1 then 17 else 18, blockArg c (firstBlock s))
  | .readStop | .readBackStop | .writeStop => some (12, 0)
  | .writeCmd 0 | .confirm 1 => some (55, rca)
  | .writeCmd 1 => some (0x80 + 23, word c.total)
  | .writeCmd 2 => some (25, blockArg c (firstBlock s))
  | .confirm 0 | .mbxWrite 2 => some (13, rca)
  | .confirm 2 => some (0x80 + 22, 0)
  | .mbxWrite 0 => some (24, blockArg c (mbxBase + 1))
  | .mbxResp 0 => some (17, blockArg c (mbxBase + 2))
  | _ => none

/-- The port waits for a response, a data block, or the end of busy. -/
def awaitsResponse (s : State) : Bool := (busCommand s).isSome

def awaitsData (p : CardPhase) : Bool :=
  match p with
  | .ident 6 2 | .ident 8 1 | .ident 8 3 | .probe 1 | .readData | .confirm 3 | .mbxIdent 1 | .mbxResp 1 | .readBackData => true
  | _ => false

def awaitsBusy (p : CardPhase) : Bool :=
  match p with
  | .writeBusy | .finalBusy | .confirm 4 | .mbxWrite 1 | .mbxWrite 3 => true
  | _ => false

/-- The next command or wait of the exchange. -/
def toPhase (p : CardPhase) (s : State) : State := modCard (fun c => { c with phase := p, retriedCmd := false }) s

/-! ### Port states and card power (R470 to R475) -/

def noteReason (r : Nat) (s : State) : State := modCard (fun c => { c with reason := r }) s

/-- What the port knew of the card that has left it. -/
def forgetCard (s : State) : State :=
  modCard (fun c => { c with
    terja := false, hs := false, wide := false, hc := false, capacity := 0, cid := 0, csd := 0, scr := 0, ocr := 0,
    rca := 0, token := 0, authMap := 0, identSeq := 0, identSerial := 0, served := false, phase := .idle,
    retriedCmd := false }) s

/-- CD_PWR_EN is deasserted, and the minimum off time starts (R471). -/
def cutPower (state : CardState) (s : State) : State :=
  modCard (fun c => { c with power := false, state := state, offSince := s.now, offRunning := true }) (forgetCard s)

/-- R472: the port powers a card while it is ENABLED, a card is present and the off time has ended. -/
def tryPower (s : State) : State :=
  let c := s.card
  if c.port == .enabled && c.present && !c.offRunning && !c.power && c.state != .rejected then
    modCard (fun c => { c with power := true, state := .powerUp }) s
  else s

def setPort (p : PortState) (s : State) : State := setCardEvt 5 (modCard (fun c => { c with port := p }) s)

/-- Jobs placed on the port whose entries are not built. -/
def portJobs (s : State) : List Job :=
  s.rings.jobs.filter (fun j => j.admitted && (isCard j.op || cardTarget j) && j.stage != .built)

/-- DRAINING ends with the last placed job's entry and any unlock flow (R474). -/
def settlePort (s : State) : State :=
  let c := s.card
  if c.port == .draining && (portJobs s).isEmpty && c.job.isNone && c.flow == .idle then
    let off := if c.power then cutPower .offWait s else forgetCard s
    if c.restartPending then tryPower (setPort .enabled (modCard (fun c => { c with restartPending := false }) off))
    else setPort .disabled (modCard (fun c => { c with state := if c.state == .rejected || c.state == .offWait then c.state else .none }) off)
  else s

/-! ### The end of an exchange (R477, R479, R484, R491) -/

/-- RESULT of a card-port job (R477); an export's holds only its reason (log entry 20). -/
def cardResult (c : Card) (o : Op) (reason : Nat) : DWord :=
  BitVec.ofNat 64 (match o with
    | .cardRead | .cardWrite => reason + c.respState * 2 ^ 8 + c.blocks * 2 ^ 32
    | .cardMailbox => reason + c.mbxStatus * 2 ^ 8 + c.mbxLen * 2 ^ 16 + c.jobSeq * 2 ^ 32
    | _ => reason)

/-- A failed job: its reason, CARD_LAST while JOB_ERR is 0, JOB_ERR, and UNKNOWN with its count. -/
def noteFailure (st : Status) (reason : Nat) (s : State) : State :=
  let c := s.card
  let s1 := modCard (fun c => { c with
    reason := reason,
    last := if c.evt.getLsbD 2 then c.last else word (2 ^ 31 + statusCode st * 2 ^ 16 + c.respState * 2 ^ 8 + reason),
    unknownCnt := if st == .unknownOutcome then sat32 c.unknownCnt else c.unknownCnt }) s
  let s2 := setCardEvt 2 s1
  if st == .unknownOutcome then setCardEvt 3 s2 else s2

/-- A job's status is fixed by the port: UNKNOWN_OUTCOME before every other, else what was fixed before, else `st`. -/
def fixCardJob (j : Job) (st : Status) (reason : Nat) (bytes : Option Nat) (s : State) : State :=
  let final := if st == .unknownOutcome then st else j.status.getD st
  let r := if final == .cancelled && reason == 0 then 0x0E else reason
  let s1 := modJob j.tag (fun k => { k with
    status := some final, result := cardResult s.card j.op r, bytes := bytes.getD k.bytes,
    noOutput := k.noOutput || !(okStatus final) }) s
  let s2 := finishJob j.tag final s1
  if okStatus final then s2 else noteFailure final r s2

/-- The port is free again. -/
def freePort (s : State) : State :=
  modCard (fun c => { c with
    job := none, phase := .idle, retriedCmd := false, blocks := 0, total := 0, started := false, data := [],
    state := if c.state == .transfer then .ready else c.state }) s

/-- The unlock flow ends: CARD_UNLOCK and its event. -/
def endFlow (reason : Nat) (s : State) : State :=
  let out := s.card.flowOut.getD (0, 0xFF, reason)
  let s1 := freePort (modCard (fun c => { c with
    flow := .idle, flowReq := [], flowOut := none, unlockValid := true, unlockAuth := out.1, unlockStatus := out.2.1,
    unlockReason := out.2.2, reason := if reason = 0 then c.reason else reason }) s)
  setCardEvt 4 s1

/-- The exchange on the port ends with this outcome, whoever asked for it. -/
def endExchange (st : Status) (reason : Nat) (bytes : Option Nat) (s : State) : State :=
  if s.card.flow != .idle then endFlow reason s
  else match cardJob s with
    | some j => freePort (fixCardJob j st reason bytes s)
    | none => freePort s

/-- The exchange is asked to stop: its job has a fixed status, or a reset has ended it (R486, R101). -/
def stopAsked (s : State) : Bool :=
  s.card.job.isSome && (match cardJob s with
    | some j => j.status.isSome
    | none => true)

/-- The first failure met. -/
def recordFailure (reason : Nat) (s : State) : State :=
  modCard (fun c => { c with failReason := if c.failReason = 0 then reason else c.failReason }) s

/-! ### The mailbox (R487 to R490) -/

/-- The request block. -/
def requestBlock (serial : BitVec 64) (seq kind : Nat) (payload : Bytes) : Bytes :=
  bytesLE 4 0x5145524D ++ bytesLE 4 seq ++ bytesLE 8 serial.toNat ++ bytesLE 2 kind ++ bytesLE 2 payload.length ++
    zeros 12 ++ slice payload 0 480

/-- R491: the payload of UNLOCK_REQ. -/
def unlockPayload (s : State) : Bytes :=
  let u := (ctrUnlock s).toNat
  bytesLE 8 s.patrol.lockSeq.toNat ++ bytesLE 8 (counter s 4).value.toNat ++ bytesLE 8 (counter s 0).value.toNat ++
    bytesLE 1 (bitNat (isPurged s)) ++ bytesLE 1 (if (unlockHalf s).isSome then u / 2 ^ 16 % 8 else 0xFF) ++
    bytesLE 1 (u % 64) ++ zeros 5

/-- The request of the exchange on the port under a sequence number. -/
def exchangeRequest (s : State) (seq : Nat) : Bytes :=
  match s.card.flow with
  | .request => requestBlock s.life.serial seq 0x1000 s.card.flowReq
  | .answer => requestBlock s.life.serial seq 0x1001 s.card.flowReq
  | .idle => match cardJob s with
    | some j => requestBlock s.life.serial seq ((dXparam j.desc).toNat % 2 ^ 16) (j.source.getD [])
    | none => requestBlock s.life.serial seq 0 []

/-- R490: the exchange is to continue the open transaction. -/
def resumes (s : State) : Bool :=
  match s.card.flow with
  | .request => s.card.mbx.isOpen && s.card.mbxFlow && s.card.mbx.token == s.card.token
  | .answer => false
  | .idle => (cardJob s).any (fun j => dAux j.desc / 16 % 2 == 1)

/-- The transaction stands open in CARD_MBX. -/
def openMbx (s : State) : State :=
  modCard (fun c => { c with
    mbx := { isOpen := true, token := c.token, seq := word c.jobSeq, sha := sha256 (exchangeRequest s c.jobSeq) },
    mbxFlow := c.flow == .request }) s

def closeMbx (s : State) : State := modCard (fun c => { c with mbx := { c.mbx with isOpen := false } }) s

/-- R487: the block is an identity block. -/
def identityOk (b : Bytes) : Bool :=
  natLE (slice b 0 4) == 0x4A524554 && sha256 (slice b 0 0x1E0) == slice b 0x1E0 32

/-- What the identity block says of the card. -/
def readIdentity (b : Bytes) (s : State) : State :=
  modCard (fun c => { c with
    token := BitVec.ofNat 64 (natLE (slice b 8 8)), authMap := BitVec.ofNat 8 (natLE (slice b 0x10 1)),
    identSeq := word (natLE (slice b 0x14 4)), identSerial := BitVec.ofNat 64 (natLE (slice b 0x18 8)) }) s

/-- Steps 1 and 2 of R489, or R490's three cases, once the identity block is read. -/
def afterIdentity (s : State) : State :=
  let c := s.card
  if resumes s then
    let s1 := modCard (fun c => { c with jobSeq := c.mbx.seq.toNat }) s
    if c.identSeq == c.mbx.seq && c.identSerial == s.life.serial then toPhase (.mbxResp 0) s1
    else if c.identSeq + 1 == c.mbx.seq then toPhase (.mbxWrite 0) s1
    else endExchange .inputInvalid 0x0C none (closeMbx s1)
  else toPhase (.mbxWrite 0) (modCard (fun c => { c with jobSeq := (c.identSeq + 1).toNat }) s)

/-- A failure from the request write to its confirmation: the outcome is unknown and the transaction stays open (R485). -/
def requestUnknown (reason : Nat) (s : State) : State := endExchange .unknownOutcome reason (some 0) (openMbx s)

/-- The flow's exchange goes on to its answer: the identity block is read for the next SEQ. -/
def startAnswer (st : Nat) (result : DWord) (s : State) : State :=
  toPhase (.mbxIdent 0) (modCard (fun c => { c with
    flow := .answer, flowReq := bytesLE 1 st ++ zeros 7 ++ bytesLE 8 result.toNat, mbxStatus := 0xFF, mbxLen := 0 }) s)

/-! ### The command that a card sends (R491) -/

/-- The descriptor that the port builds around a command block. -/
def flowDesc (auth code seq : Nat) : Descriptor :=
  BitVec.ofNat 512
    (0x140 + 2 ^ (8 * 6) * ((auth * 0x1000 + code) % 0x10000) + 2 ^ (8 * 0x38) * (0xFFFF000000000000 + seq))

/-- The stand-in for the tag of the flow's command, which no ring holds. -/
def flowTag : Nat := 0x900000

/-- The pseudo-ring of the flow's command: class P, and no ring of the host or of an applet. -/
def flowRing : Ring := { Ring.reset with cls := .P }

/-- The flow's command as a job at the barrier of R158. -/
def flowJob (s : State) (o : Op) (d : Descriptor) (b : CmdBlock) : Job :=
  let q : Slot := { index := 0, phase := true, t0 := s.now, arrived := true, tag := some flowTag, written := false,
                    doomed := false, quiet := true }
  { newJob s (.host 64) flowRing q flowTag o d with
    holds := holdsOf s o d, stage := .barrier, block := some b, source := some [] }

/-- The commit of the flow's command, when its check has passed. -/
def flowCommit (b : CmdBlock) (s : State) : State :=
  match findJob s flowTag with
  | some k => if k.stage == .prepared then commitCommand k .unlock b s else s
  | none => s

/-- The flow's command leaves the part with its status and RESULT. -/
def flowEnd (s : State) : State × Status × DWord :=
  match findJob s flowTag with
  | some k =>
    let s1 := countStatus k (k.status.getD .ok) (giveBackCredit k s)
    ({ s1 with rings := { s1.rings with jobs := s1.rings.jobs.filter (fun j => j.tag != flowTag) } },
      k.status.getD .ok, k.result)
  | none => (s, .cancelled, 0)

/-- The flow's command runs through the stages of R154 in class P, with t0 now; the answer is its status and RESULT. -/
def runFlowCommand (b : CmdBlock) (s : State) : State × Status × DWord :=
  let d := flowDesc (cbAuth b) (cbCode b) s.card.jobSeq
  match decideOn s (.host 64) flowRing s.now d true with
  | .refuse st =>
    let credit := refusedForCredit s (.host 64) flowRing s.now d true
    ({ s with ctrs := { s.ctrs with refuseCnt := if credit then sat32 s.ctrs.refuseCnt else s.ctrs.refuseCnt } }, st, 0)
  | .fixed _ st => (s, st, 0)
  | .admitJob o _ =>
    flowEnd (flowCommit b (releaseBarrier flowTag (joinJobs (flowJob s o d b) (takeCredit (dCmdAuth d) s))))

/-- The flow's command has run: its answer is due. -/
def flowRan (auth : Nat) (st : Status) (res : DWord) (s : State) : State :=
  let reason := if st == .inputInvalid || st == .cancelled then res.toNat % 256 else 0
  startAnswer (statusCode st) res (modCard (fun c => { c with flowOut := some (auth % 8, statusCode st, reason) }) s)

/-- The answer to UNLOCK_REQ: a command block runs, anything else ends the flow. -/
def flowResponse (len : Nat) (payload : Bytes) (s : State) : State :=
  let b : CmdBlock := BitVec.ofNat 1024 (natLE (slice payload 0 128))
  if len != 128 || cbCode b != 0x020 then endFlow 0x0B s
  else
    let r := runFlowCommand b s
    flowRan (cbAuth b) r.2.1 r.2.2 r.1

/-- A response block has arrived (R489 steps 4 and 5). -/
def mailboxResponse (b : Bytes) (s : State) : State :=
  let seq := natLE (slice b 4 4)
  let st := natLE (slice b 8 1)
  let len := min 480 (natLE (slice b 0x0A 2))
  let payload := slice b 0x20 480
  if stopAsked s then endExchange .cancelled 0x0E (some 0) s
  else if seq != s.card.jobSeq || st == 1 then toPhase .mbxWait s
  else
    let s1 := closeMbx (modCard (fun c => { c with mbxStatus := st, mbxLen := len }) s)
    if st != 0 then endExchange .cancelled 0x0B (some 0) s1
    else match s.card.flow with
      | .request => flowResponse len payload s1
      | .answer => endFlow 0 s1
      | .idle => match cardJob s1 with
        | some j => endExchange .ok 0 none (giveOutput j.tag (payload.take len) s1)
        | none => freePort s1

/-! ### Identification (R473) -/

def rejectCard (reason : Nat) (s : State) : State :=
  setCardEvt 1 (noteReason reason (cutPower .rejected s))

/-- Identification ends: the card is READY. -/
def cardReady (s : State) : State :=
  setCardEvt 1 (modCard (fun c => { c with state := .ready, phase := .idle, retriedCmd := false }) s)

/-- The steps after the SCR: width, speed, probe. -/
def identProbe (s : State) : State := if s.card.hc then toPhase (.probe 0) s else cardReady s
def identSpeed (s : State) : State := if s.card.hsEn then toPhase (.ident 8 0) s else identProbe s

/-- The reason that the table of R473 gives for a failure in a step; none where the step rejects nothing. -/
def identReason (step reason : Nat) : Option Nat :=
  match step with
  | 1 | 2 => some 9
  | 3 => some (if reason = 4 then 4 else 3)
  | 4 | 5 | 7 => some 7
  | 6 => some (if reason = 4 || reason = 5 then 5 else 6)
  | _ => none

/-- A failure during identification. -/
def identFails (step reason : Nat) (s : State) : State :=
  match identReason step reason with
  | some r => rejectCard r s
  | none => identProbe (toPhase .idle s)

/-- A correct response during identification. -/
def identResponse (step sub : Nat) (error : Bool) (arg : Word) (s : State) : State :=
  match step, sub with
  | 1, _ => if arg.toNat % 0x1000 = 0x1AA then toPhase (.ident 2 0) (modCard (fun c => { c with acmdSince := s.now }) s)
      else rejectCard 9 s
  | 2, 0 => if error then rejectCard 9 s else toPhase (.ident 2 1) s
  | 2, _ =>
    if arg.getLsbD 31 && decide (s.now ≤ s.card.acmdSince + 100000000) then
      toPhase (.ident 3 0) (modCard (fun c => { c with ocr := arg, hc := arg.getLsbD 30 }) s)
    else toPhase (.ident 2 2) s
  | 4, _ => if error then rejectCard 7 s else toPhase (if s.card.hc then .ident 6 0 else .ident 5 0) s
  | 5, _ => if error then rejectCard 7 s else toPhase (.ident 6 0) s
  | 6, 0 => if error then rejectCard 6 s else toPhase (.ident 6 1) s
  | 6, _ => if error then rejectCard 6 s else toPhase (.ident 6 2) s
  | 7, 0 => if error then rejectCard 7 s else toPhase (.ident 7 1) s
  | 7, _ => if error then rejectCard 7 s else identSpeed (modCard (fun c => { c with wide := true }) s)
  | 8, 0 => if error then identProbe s else toPhase (.ident 8 1) s
  | 8, _ => if error then identProbe s else toPhase (.ident 8 3) s
  | _, _ => s

/-! ### Writes (R483, R484) -/

/-- N well-written blocks confirmed. -/
def writeConfirmed (n : Nat) (s : State) : State :=
  let c := s.card
  let good := min n c.total
  let done := decide (c.total ≤ n) && c.failReason == 0 && !(stopAsked s)
  match done, (cardJob s).any cardTarget with
  | true, true => toPhase .readBackCmd (modCard (fun c => { c with blocks := 0, data := [] }) s)
  | true, false => endExchange .ok 0 (some (512 * c.total)) s
  | false, _ =>
    let reason := if c.failReason != 0 then c.failReason else if stopAsked s then 0 else 8
    endExchange .cancelled reason (some (512 * good)) s

/-- The confirmation fails: the outcome is unknown when a block has been sent. -/
def confirmFails (reason : Nat) (s : State) : State :=
  let r := if s.card.failReason != 0 then s.card.failReason else reason
  if s.card.started then endExchange .unknownOutcome r (some 0) s
  else endExchange .cancelled r (some 0) s

/-- The bytes that the port sends: the job's source as gathered so far, or an export's padded image. -/
def sendBytes (j : Job) : Bytes :=
  let bs := j.source.getD []
  if cardTarget j then bs ++ zeros ((512 - bs.length % 512) % 512) else bs

/-- Between two blocks of a write: it stops, or sends the next block once its 512 bytes are in the buffer. -/
def nextBlock (s : State) : State :=
  if s.card.phase != .writeCmd 3 then s
  else if stopAsked s || s.card.failReason != 0 then toPhase .writeStop s
  else match cardJob s with
    | none => s
    | some j =>
      if 512 * (s.card.blocks + 1) ≤ (sendBytes j).length then
        toPhase .writeBusy (modCard (fun c => { c with
          blocks := c.blocks + 1, started := true, data := slice (sendBytes j) (512 * c.blocks) 512 }) s)
      else s

/-- A written block has been programmed. -/
def blockDone (s : State) : State :=
  if s.card.total ≤ s.card.blocks || stopAsked s then toPhase .writeStop s else nextBlock (toPhase (.writeCmd 3) s)

/-- CMD13 of a confirmation: tran and ready, or prg, or an error. -/
def confirmState (state : Nat) (ready error : Bool) (s : State) : State :=
  if error then toPhase (.confirm 1) (recordFailure 7 s)
  else if state = 7 then toPhase (.confirm 4) s
  else if state = 4 && ready then toPhase (.confirm 1) s
  else toPhase (.confirm 1) (recordFailure 7 s)

/-- CMD13 after a request. -/
def mbxState (state : Nat) (ready error : Bool) (s : State) : State :=
  if error then endExchange .cancelled 7 (some 0) s
  else if state = 7 then toPhase (.mbxWrite 3) s
  else if state = 4 && ready then toPhase (.mbxResp 0) (openMbx s)
  else endExchange .cancelled 7 (some 0) s

/-! ### Reads (R480, R493) -/

/-- A read ends: OK, its first failure, or the stop it was asked for. -/
def readEnds (s : State) : State :=
  let r := s.card.failReason
  if r != 0 then endExchange .cancelled r none s
  else if stopAsked s then endExchange .cancelled 0 none s
  else endExchange .ok 0 none s

/-- The read-back of an export ends (R493). -/
def readBackEnds (s : State) : State :=
  match cardJob s with
  | none => freePort s
  | some j =>
    let im := j.source.getD []
    if s.card.failReason == 0 && sha256 (s.card.data.take im.length) == sha256 im && j.status.isNone then
      freePort (exportVerified j.tag s)
    else endExchange .unknownOutcome s.card.failReason (some 0) s

/-- A data block of a read has arrived. -/
def readBlock (data : Bytes) (s : State) : State :=
  let s1 := modCard (fun c => { c with blocks := c.blocks + 1 }) s
  let s2 := match cardJob s1 with
    | some j => giveOutput j.tag (slice data 0 512) s1
    | none => s1
  if s2.card.total ≤ s2.card.blocks || stopAsked s2 then
    (if s2.card.total ≤ 1 then readEnds s2 else toPhase .readStop s2)
  else s2

def readBackBlock (data : Bytes) (s : State) : State :=
  let s1 := modCard (fun c => { c with blocks := c.blocks + 1, data := c.data ++ slice data 0 512 }) s
  if s1.card.total ≤ s1.card.blocks then (if s1.card.total ≤ 1 then readBackEnds s1 else toPhase .readBackStop s1) else s1

/-! ### Failures in an exchange (R482 to R485) -/

/-- A command, a block or a wait of the exchange fails with a bus reason. -/
def busFails (reason : Nat) (s : State) : State :=
  match s.card.phase with
  | .ident step _ => identFails step reason s
  | .probe _ => cardReady s
  | .readCmd => endExchange .cancelled reason none s
  | .readData =>
    let s1 := recordFailure reason s
    if s.card.total ≤ 1 then readEnds s1 else toPhase .readStop s1
  | .readStop => readEnds (recordFailure reason s)
  | .writeCmd _ => endExchange .cancelled reason (some 0) s
  | .writeBusy => toPhase .writeStop (recordFailure reason s)
  | .writeStop => toPhase (.confirm 0) (recordFailure reason s)
  | .finalBusy => toPhase (.confirm 0) (recordFailure reason s)
  | .confirm _ => confirmFails reason s
  | .mbxIdent _ | .mbxResp _ | .mbxWait => endExchange .cancelled reason (some 0) s
  | .mbxWrite _ => requestUnknown reason s
  | .readBackCmd => readBackEnds (recordFailure reason s)
  | .readBackData =>
    let s1 := recordFailure reason s
    if s.card.total ≤ 1 then readBackEnds s1 else toPhase .readBackStop s1
  | .readBackStop => readBackEnds (recordFailure reason s)
  | .idle => s

/-- A job or flow whose port has lost its card, or has faulted: R484, R485. -/
def exchangeLost (reason : Nat) (s : State) : State :=
  let c := s.card
  let r := if c.failReason != 0 then c.failReason else reason
  if c.job.isNone && c.flow == .idle then s
  else match c.phase with
    | .writeBusy | .writeStop | .finalBusy | .confirm _ =>
      if c.started then endExchange .unknownOutcome r (some 0) s else endExchange .cancelled r (some 0) s
    | .writeCmd _ =>
      if c.started then endExchange .unknownOutcome r (some 0) s else endExchange .cancelled r (some 0) s
    | .readBackCmd | .readBackData | .readBackStop => endExchange .unknownOutcome r (some 0) s
    | .mbxWrite _ => requestUnknown r s
    | .mbxIdent _ | .mbxResp _ | .mbxWait => endExchange .cancelled r (some 0) s
    | _ => endExchange .cancelled r none s

/-! ### Jobs on the port (R478, R480) -/

/-- Deadline on the port. -/
def portDl (j : Job) : Pico :=
  match j.places.find? (fun p => p.res == .cardPort) with
  | some p => p.deadline
  | none => j.deadline

/-- The first of a list in the order of R60. -/
def firstPortJob : List Job → Option Job
  | [] => none
  | j :: t => match firstPortJob t with
    | some k => if decide (portDl k < portDl j) || (portDl k == portDl j && tieBefore k j) then some k else some j
    | none => some j

/-- First block and count of a job that addresses the medium. -/
def blockRange (j : Job) : Option (Nat × Nat) :=
  let first := (dXparam j.desc).toNat % 2 ^ 32
  match j.op with
  | .cardRead => some (first, dDstLen j.desc / 512)
  | .cardWrite => some (first, dSrcLen j.desc / 512)
  | .trkExport => some (dDstAddr j.desc, ceilDiv (j.source.getD []).length 512)
  | _ => none

/-- R478: the first check that fails. -/
def startFails (s : State) (j : Job) : Option (Status × Nat) :=
  let c := s.card
  let resume := dAux j.desc / 16 % 2 == 1
  if c.port != .enabled || c.state != .ready then some (.cancelled, 1)
  else match blockRange j with
    | some (a, n) =>
      if decide (c.capacity < a + n) || (c.terja && decide (a < mbxBase + 3) && decide (mbxBase < a + n)) then
        some (.inputInvalid, 0x0A)
      else none
    | none =>
      if j.op != .cardMailbox then none
      else if !c.terja then some (.inputInvalid, 0x0A)
      else if resume && !(c.mbx.isOpen && c.mbx.token == c.token &&
          c.mbx.sha == sha256 (requestBlock s.life.serial c.mbx.seq.toNat ((dXparam j.desc).toNat % 2 ^ 16) (j.source.getD [])))
        then some (.inputInvalid, 0x0C)
      else none

/-- R477: what INFO writes. -/
def infoBytes (c : Card) : Bytes :=
  bytesLE 16 c.cid.toNat ++ bytesLE 16 c.csd.toNat ++ bytesLE 8 c.scr.toNat ++ bytesLE 4 c.ocr.toNat ++
    bytesLE 2 c.rca.toNat ++ bytesLE 2 (fbit c.hc 0 + fbit c.wide 1 + fbit c.hs 2 + fbit c.terja 3) ++
    bytesLE 8 c.capacity ++ bytesLE 8 (if c.terja then c.token.toNat else 0)

/-- A job starts on the port. -/
def startOnPort (j : Job) (s : State) : State :=
  let s0 := modCard (fun c => { c with
    blocks := 0, total := ((blockRange j).map Prod.snd).getD 0, started := false, data := [], respState := 0xFF,
    failReason := 0, mbxStatus := 0xFF, mbxLen := 0, jobSeq := 0 }) s
  match startFails s0 j with
  | some (st, r) => fixCardJob j st r (some 0) s0
  | none =>
    let s1 := modCard (fun c => { c with job := some j.tag, state := .transfer })
      (modJob j.tag (fun j => { j with stage := .running }) s0)
    match j.op with
    | .cardRead => toPhase .readCmd s1
    | .cardMailbox => toPhase (.mbxIdent 0) s1
    | .cardInfo => endExchange .ok 0 none (giveOutput j.tag (infoBytes s1.card) s1)
    | _ => toPhase (.writeCmd 0) s1

/-- The port takes the next job that waits for it, until one occupies it. -/
def portFuel : Nat → State → State
  | 0, s => s
  | n + 1, s =>
    if s.card.job.isSome || s.card.flow != .idle then s
    else match firstPortJob ((portJobs s).filter (fun j => j.stage == .ready && j.status.isNone &&
        (j.op != .trkExport || j.source.isSome))) with
      | some j => portFuel n (startOnPort j s)
      | none => s

def runPort (s : State) : State := portFuel (portJobs s).length s

/-- What follows an event on the port: the next jobs, Tracks' next export, the end of DRAINING. -/
def portNext (s : State) : State := settlePort (runPort (runExports runPort (runPort s)))

/-! ### The bus (R473, R483, R487 to R493) -/

/-- CARD_CRC_CNT. -/
def countCrc (s : State) : State := modCard (fun c => { c with crcCnt := sat32 c.crcCnt }) s

/-- A command has no good response: it is sent once more, and fails the second time (R473). -/
def commandFails (reason : Nat) (s : State) : State :=
  if s.card.retriedCmd then busFails reason s else modCard (fun c => { c with retriedCmd := true }) s

/-- A correct response to the command on the bus. -/
def goodResponse (state : Nat) (ready error : Bool) (arg : Word) (s0 : State) : State :=
  let s := match s0.card.phase with
    | .ident 1 _ | .ident 2 1 => s0
    | _ => modCard (fun c => { c with respState := state }) s0
  match s.card.phase with
  | .ident step sub => identResponse step sub error arg s
  | .probe _ => if error then cardReady s else toPhase (.probe 1) s
  | .readCmd => if error then busFails 7 s else toPhase .readData s
  | .readStop => readEnds (if error then recordFailure 7 s else s)
  | .writeCmd 0 => if error then busFails 7 s else toPhase (.writeCmd 1) s
  | .writeCmd 1 => if error then busFails 7 s else toPhase (.writeCmd 2) s
  | .writeCmd _ => if error then busFails 7 s else nextBlock (toPhase (.writeCmd 3) s)
  | .writeStop => toPhase .finalBusy (if error then recordFailure 7 s else s)
  | .confirm 0 => confirmState state ready error s
  | .confirm 1 => toPhase (.confirm 2) (if error then recordFailure 7 s else s)
  | .confirm _ => toPhase (.confirm 3) (if error then recordFailure 7 s else s)
  | .mbxIdent _ => if error then busFails 7 s else toPhase (.mbxIdent 1) s
  | .mbxWrite 0 => if error then endExchange .cancelled 7 (some 0) s else toPhase (.mbxWrite 1) s
  | .mbxWrite _ => mbxState state ready error s
  | .mbxResp _ => if error then busFails 7 s else toPhase (.mbxResp 1) s
  | .readBackCmd => if error then busFails 7 s else toPhase .readBackData s
  | .readBackStop => readBackEnds (if error then recordFailure 7 s else s)
  | _ => s

/-- A correct 512-byte block. -/
def goodBlock (data : Bytes) (s : State) : State :=
  match s.card.phase with
  | .probe 1 =>
    if identityOk data then cardReady (modCard (fun c => { c with terja := true }) (readIdentity data s)) else cardReady s
  | .readData => readBlock data s
  | .readBackData => readBackBlock data s
  | .mbxIdent 1 =>
    if stopAsked s then endExchange .cancelled 0x0E (some 0) s else afterIdentity (readIdentity data s)
  | .mbxResp 1 => mailboxResponse data s
  | _ => s

/-- CARD_COMMAND_RESPONSE: what the bus brings to the command or wait in progress; anything else is ignored. -/
def cardResponse (r : CardResp) (s : State) : State :=
  match r with
  | .response state ready error arg =>
    if awaitsResponse s && s.card.phase != .ident 3 0 then goodResponse state ready error arg s else s
  | .badCrc => if awaitsResponse s then commandFails 4 (countCrc s) else s
  | .ident cid rca csd blocks =>
    if s.card.phase == .ident 3 0 then
      toPhase (.ident 4 0) (modCard (fun c => { c with cid := cid, rca := rca, csd := csd, capacity := blocks }) s)
    else s
  | .scr scr wide =>
    if s.card.phase == .ident 6 2 then
      let s1 := modCard (fun c => { c with scr := scr }) s
      if wide && s.card.wideEn then toPhase (.ident 7 0) s1 else identSpeed s1
    else s
  | .switchStatus offered switched => match s.card.phase with
    | .ident 8 1 => if offered then toPhase (.ident 8 2) s else identProbe s
    | .ident 8 3 => identProbe (modCard (fun c => { c with hs := switched }) s)
    | _ => s
  | .block data => if awaitsData s.card.phase then goodBlock data s else s
  | .dataError =>
    if awaitsData s.card.phase || s.card.phase == .writeBusy || s.card.phase == .mbxWrite 1 then busFails 5 (countCrc s)
    else s
  | .wellWritten n => if s.card.phase == .confirm 3 then writeConfirmed n s else s

/-- CARD_BUSY_RELEASE. -/
def busyReleased (s : State) : State :=
  match s.card.phase with
  | .writeBusy => blockDone s
  | .finalBusy => toPhase (.confirm 0) s
  | .confirm 4 => toPhase (.confirm 0) s
  | .mbxWrite 1 | .mbxWrite 3 => toPhase (.mbxWrite 2) s
  | _ => s

/-- CARD_ALLOWANCE_EXPIRY: a wait for data, for the end of busy or for the mailbox has run out (R482). -/
def allowanceExpires (s : State) : State :=
  if awaitsData s.card.phase || awaitsBusy s.card.phase || s.card.phase == .mbxWait then busFails 6 s else s

/-- ACMD41_REPEAT_INTERVAL: CMD55 and ACMD41 again within the second of step 2, else rejection. -/
def repeatAcmd (s : State) : State :=
  if s.card.phase != .ident 2 2 then s
  else if s.card.acmdSince + 100000000 ≤ s.now then rejectCard 9 s
  else toPhase (.ident 2 0) s

/-! ### Card detect and power (R470 to R473) -/

/-- CARD_REMOVAL: power is cut; the exchange in progress ends as R485 says. -/
def cardRemoved (s : State) : State :=
  if !s.card.present then s
  else
    let s1 := exchangeLost 2 s
    setCardEvt 0 (noteReason 2 (cutPower .offWait (modCard (fun c => { c with present := false }) s1)))

/-- CARD_INSERTION. -/
def cardInserted (s : State) : State :=
  if s.card.present then s
  else tryPower (setCardEvt 0 (modCard (fun c => { c with present := true }) s))

/-- CARD_OFF_TIME_END. -/
def offTimeEnds (s : State) : State :=
  if !s.card.offRunning then s
  else tryPower (modCard (fun c => { c with
    offRunning := false, state := if c.state == .offWait then .none else c.state }) s)

/-- CARD_POWER_RAMP_END: 400 clocks, CMD0, and identification begins with CMD8. -/
def rampEnds (s : State) : State :=
  if s.card.state == .powerUp && s.card.power && s.card.phase == .idle then
    toPhase (.ident 1 0) (modCard (fun c => { useSettings c with state := .ident }) s)
  else s

/-! ### The unlock flow (R491) -/

/-- CARD_UNLOCK_FLOW: a Terja card that is READY meets a LOCKED part. -/
def startFlow (s : State) : State :=
  let c := s.card
  if c.terja && c.state == .ready && isLocked s && c.use.unlockEn && c.job.isNone && c.flow == .idle && !c.served then
    toPhase (.mbxIdent 0) (modCard (fun c => { c with
      flow := .request, flowReq := unlockPayload s, flowOut := none, flowSince := s.now, served := true,
      state := .transfer, respState := 0xFF, failReason := 0, mbxStatus := 0xFF, mbxLen := 0, jobSeq := 0 }) s)
  else s

/-! ### Enable, disable, fault (R474, R484, R506) -/

def enablePort (s : State) : State :=
  let c := s.card
  if c.fault then s
  else match c.port with
    | .disabled => tryPower (setPort .enabled s)
    | .draining => modCard (fun c => { c with restartPending := true }) s
    | .enabled => s

def disablePort (s : State) : State :=
  match s.card.port with
  | .enabled => settlePort (setPort .draining s)
  | .draining => modCard (fun c => { c with restartPending := false }) s
  | .disabled => s

/-- CARD_PORT_FAULT: every placed job ends with reason 0x0F, one with blocks sent under R484; the port is DISABLED. -/
def portFaults (s : State) : State :=
  if s.card.port == .disabled then modCard (fun c => { c with fault := true, restartPending := false, reason := 0x0F }) s
  else
    let s1 := exchangeLost 0x0F s
    let s1 := modCard (fun c => { c with respState := 0xFF, mbxStatus := 0xFF, mbxLen := 0, jobSeq := 0 }) s1
    let s2 := ((portJobs s1).filter (fun j => j.stage != .finished)).foldl
      (fun s j => fixCardJob j .cancelled 0x0F none s) s1
    let s3 := if s2.card.power then cutPower (if s2.card.present then .offWait else s2.card.state) s2 else s2
    setPort .disabled (modCard (fun c => { c with
      fault := true, restartPending := false, reason := 0x0F }) s3)

/-! ### The rows -/

def execCardEnable (s : State) : Host.Outcome State Fault Refusal := .next (enablePort s)

def execCardDisable (s : State) : Host.Outcome State Fault Refusal := .next (disablePort s)

def execCardRemoval (s : State) : Host.Outcome State Fault Refusal := .next (portNext (cardRemoved s))

def execCardInsertion (s : State) : Host.Outcome State Fault Refusal := .next (cardInserted s)

def execCardOffTimeEnd (s : State) : Host.Outcome State Fault Refusal := .next (offTimeEnds s)

def execCardPowerRampEnd (s : State) : Host.Outcome State Fault Refusal := .next (rampEnds s)

def execCardCommandResponse (r : CardResp) (s : State) : Host.Outcome State Fault Refusal :=
  .next (portNext (cardResponse r s))

def execCardResponseTimeout (s : State) : Host.Outcome State Fault Refusal :=
  .next (portNext (if awaitsResponse s then commandFails 3 s else s))

def execCardBusyRelease (s : State) : Host.Outcome State Fault Refusal := .next (portNext (busyReleased s))

def execCardAllowanceExpiry (s : State) : Host.Outcome State Fault Refusal := .next (portNext (allowanceExpires s))

/-- R489 step 4: the response block is read again. -/
def execMailboxPoll (s : State) : Host.Outcome State Fault Refusal :=
  .next (portNext (if s.card.phase == .mbxWait then
      (if stopAsked s then endExchange .cancelled 0x0E (some 0) s else toPhase (.mbxResp 0) s) else s))

def execCardUnlockFlow (s : State) : Host.Outcome State Fault Refusal := .next (startFlow s)

def execCardPortFault (s : State) : Host.Outcome State Fault Refusal := .next (portFaults s)

def execAcmd41RepeatInterval (s : State) : Host.Outcome State Fault Refusal := .next (repeatAcmd s)

/-- COMPLETION_ENTRY_WRITE: the job's entry; a DRAINING card port may thereby settle, and Tracks takes its next export. -/
def execCompletionEntryWrite (tag : Nat) (s : State) : Host.Outcome State Fault Refusal :=
  .next (portNext (completeEntry tag s))

end Sys2Proof.Machine
end

