-- ==== Sys2Proof/Machine/Stored.lean ====
section
/-!
DEFINITION. Sys2Proof/Machine/Stored.lean: the Resurfacer, write-backs, retirement, wear counts and the retention age, with the
registers they show (R377 to R401), and the Tracks writer's own row (R431).
-/
namespace Sys2Proof.Machine

/-! ### Scrubbing (R380, R388, R391) -/

/-- RSF_STATUS.SRAM_PASS_MS: the Resurfacer reads a bank from its first word to its last (DESIGN CHOICE, log entry 84), and the
slowest SRAM bank's last completed pass is shown, in milliseconds. -/
def notePass (bank w : Nat) (s : State) : State :=
  if bank < 4 then s
  else
    let begun := if w = 0 then tblSet 0 s.stored.passBegun bank s.now else s.stored.passBegun
    let last := if w + 1 = bankWords bank then
        tblSet 0 s.stored.passTook bank (((s.now + 2 ^ 64 - tblGet 0 begun bank) % 2 ^ 64) / 100000)
      else s.stored.passTook
    { s with stored := { s.stored with passBegun := begun, passTook := last,
                                       passMs := min 0xFFFF (maxOf (last.map Prod.snd)) } }

/-- The Resurfacer reads one word.  A word that it finds clear stays clear and poisoned words are left alone; a word that a
read has already settled as poisoned is found so. -/
def scrub (bank w : Nat) (found : WordCond) (s : State) : State :=
  if decide (0x65 < bank) || decide (bankWords bank ≤ w) then s
  else
    let s1 := notePass bank w s
    if wordCond s bank w == .poisoned then s1
    else match found with
      | .clear | .good | .poisoned => s1
      | .correctable => noteCorrected bank w (setCond bank w .correctable s1)
      | .writing | .uncorrectable => noteUe bank w false s1

/-- R382: the corrected word is written back, unless a newer write has dropped the write-back. -/
def writeBack (bank w : Nat) (s : State) : State :=
  if s.stored.writeBacks.contains (bank, w) then
    noteWritten bank w (if wordCond s bank w == .correctable then setCond bank w .good s else s)
  else s

/-! ### Retirement (R385, R396) -/

/-- A mark of a correctable word of the row. -/
def correctedIn (bank row : Nat) (p : Nat × WordCond) : Bool :=
  decide (markKey bank (row * bankRowWords bank) ≤ p.1) && decide (p.1 < markKey bank ((row + 1) * bankRowWords bank)) &&
    p.2 == .correctable

/-- The copy has ended: the spare row takes the address, its words corrected, having been written once. -/
def retirementEnds (bank row : Nat) (s0 : State) : State :=
  let s := { s0 with stored := { s0.stored with
    marks := if s0.stored.retiring.contains (bank, row) then s0.stored.marks.filter (fun p => !(correctedIn bank row p))
      else s0.stored.marks } }
  if s.stored.retiring.contains (bank, row) then
    let s1 := rowRetired bank row s
    if bank < 4 then { s1 with stored := { s1.stored with
        rowWrites := tblSet 0 s1.stored.rowWrites (bank * 0x10000 + row) 1 } }
    else s1
  else s

/-! ### The clear queue (R392) -/

/-- The oldest queued range is overwritten: its cleared words hold zeros, which they already read as. -/
def overwriteRange (bank : Nat) (s : State) : State :=
  { s with stored := { s.stored with clears := tblMod [] s.stored.clears bank (fun l => l.drop 1) } }

/-! ### Wear (R397) -/

def wearLimit : Nat := 50000000

/-- The counts are saved; a row that has come to the limit since the last save is retired. -/
def saveWear (s : State) : State :=
  let worn := (s.stored.rowWrites.filter (fun p => decide (wearLimit ≤ p.2) &&
    decide (tblGet 0 s.stored.saved p.1 < wearLimit))).map Prod.fst
  let s1 := { s with stored := { s.stored with saved := s.stored.rowWrites } }
  worn.foldl (fun s k => retireRow (k / 0x10000) (k % 0x10000)
    (setRsfEvt 0x40 (k / 0x10000) (k % 0x10000 * bankRowWords (k / 0x10000)) s)) s1

/-! ### Retention age (R398, R399) -/

/-- The rows of R398: junction temperature in 1/16 °C, AF in thousandths. -/
def afTable : List (Int × Nat) :=
  [(1120, 80), (1360, 380), (1520, 1000), (1680, 2500), (2000, 13600), (2400, 90700)]

/-- The AF of the table's greatest temperature up to Tj, and of its least from Tj on; no bound stands above the table. -/
def afBelow (tj : Int) : Nat := ((afTable.filter (fun p => decide (p.1 ≤ tj))).map Prod.snd).foldl max 0
def afAbove (tj : Int) : Nat := ((afTable.find? (fun p => decide (tj ≤ p.1))).map Prod.snd).getD (afBelow tj + 0xFFFFFFFF)

/-- One minute: AF of the table, or a free value between its neighbours, or above the last row, where the table has none (log
entry 21). -/
def ageMinute (s : State) : State :=
  let lo := afBelow s.gate.tj
  let hi := afAbove s.gate.tj
  { s with
    free := if lo = hi then s.free else s.free + 1,
    stored := { s.stored with
      retAge := s.stored.retAge + (if lo = hi then lo else lo + (Config.freeWord s.free).toNat % (hi - lo + 1)) } }

/-- The total, in whole hours, goes to RSF_RET_AGE. -/
def ageHour (s : State) : State :=
  { s with stored := { s.stored with retAgeReg := s.stored.retAge / 60000 } }

/-! ### Registers (R400) -/

def rsfStatus (x : Stored) : Word := word (x.passMs + x.weak.length * 2 ^ 16 + fbit x.passOk 31)

/-- RSF_BANK of a bank. -/
def rsfBank (s : State) (bank : Nat) : Word :=
  word (tblGet 0 s.stored.ce bank + (s.stored.retired.filter (fun p => p.1 == bank)).length * 2 ^ 16 +
    (if bank ≤ 0x65 then sparesLeft s bank * 2 ^ 24 else 0))

/-- RSF_WEAK of an entry. -/
def rsfWeak (s : State) (i : Nat) : Word :=
  match s.stored.weak[i]? with
  | some c => word (c.word + c.bank * 2 ^ 18 + c.count * 2 ^ 29 + fbit true 31)
  | none => 0

def rsfFaultReg (f : RsfFault) : Word :=
  word (f.word + f.bank * 2 ^ 18 + fbit f.dup 29 + fbit f.part 30 + fbit f.valid 31)

/-- RSF_WEAR. -/
def rsfWear (x : Stored) : Word :=
  word (min 0x7FF (maxOf (x.rowWrites.map Prod.snd) / 65536) + min 0x7FF (maxOf (x.ctrWrites.map Prod.snd) / 65536) * 2 ^ 16)

/-- A read of RSF_BSEL latches RSF_BANK. -/
def latchBank (s : State) : State := { s with stored := { s.stored with bankLatch := rsfBank s s.stored.bsel } }

/-- A read of RSF_WSEL latches RSF_WEAK. -/
def latchWeak (s : State) : State := { s with stored := { s.stored with weakLatch := rsfWeak s s.stored.wsel } }

/-! ### The rows -/

def execScrubWord (bank w : Nat) (found : WordCond) (s : State) : Host.Outcome State Fault Refusal :=
  .next (scrub bank w found s)

def execCorrectionWriteBack (bank w : Nat) (s : State) : Host.Outcome State Fault Refusal := .next (writeBack bank w s)

def execRetirementComplete (bank row : Nat) (s : State) : Host.Outcome State Fault Refusal :=
  .next (retirementEnds bank row s)

def execClearQueueOverwrite (bank : Nat) (s : State) : Host.Outcome State Fault Refusal := .next (overwriteRange bank s)

def execWearCountSave (s : State) : Host.Outcome State Fault Refusal := .next (saveWear s)

def execRetentionAgeTick (s : State) : Host.Outcome State Fault Refusal := .next (ageMinute s)

def execRetentionAgeHourly (s : State) : Host.Outcome State Fault Refusal := .next (ageHour s)

/-- R431: the writer appends one waiting request. -/
def execTracksAppend (s : State) : Host.Outcome State Fault Refusal := .next (appendOne s)

end Sys2Proof.Machine
end

