-- ==== Sys2Proof/Machine/Gather.lean ====
section
/-!
DEFINITION. Sys2Proof/Machine/Gather.lean: what a job reads (R43, R87, R118, R119, R137 to R140), the rows in which descriptors
arrive, and the rows in which the work of a job ends or is interrupted.
-/
namespace Sys2Proof.Machine

/-! ### The items of a job -/

/-- The port streams the source of a CARD_XFER write (R480). -/
def streamsSource (j : Job) : Bool := j.op == .cardWrite

/-- Bytes of the source that must be there before the job leaves the gather: a Blade or hash job begins on its first segment
(R139, log entry 76); the others need all of it. -/
def sourceNeed (j : Job) : Nat :=
  if isSession j.op || j.op == .hash then min (dSrcLen j.desc) 16384 else dSrcLen j.desc

/-- Every item that the job waits for before it can run has arrived. -/
def gatheredAll (j : Job) : Bool :=
  (!(srcListed j.op j.desc) || j.srcList.isSome) && (!(dstListed j.op j.desc) || j.dstList.isSome) &&
    (!(takesSource j.op) || streamsSource j || decide (sourceNeed j ≤ (j.source.getD []).length)) &&
    (!(isCritical j.op) || j.block.isSome)

/-- R193: the reference that AUTH_SET, ROOT_IMPORT and PRIV_IMPORT take on KEK_SLOT once their block names it (log entry 47). -/
def kekHold (s : State) (j : Job) : List VaultHold :=
  match j.op, j.block with
  | .critical c, some b =>
    let n := cbBody b 1 8
    if (c == .authSet || c == .rootImport || c == .privImport) && decide (n < 24) then
      match (rootSlot s n).cur with
      | some m => [{ slot := .root n, gen := m.gen }]
      | none => []
    else []
  | _, _ => []

/-- Once the source is whole, the job leaves the read channel. -/
def leaveChannel (tag : Nat) (s : State) : State :=
  modJob tag (fun j =>
    { j with places := if sourceWhole j then j.places.filter (fun p => p.res != .linkRead) else j.places }) s

/-- R245, R291: a CURVE_LOAD whose image has come keeps the slots of its own length row; one that has too few of them fits no Edge,
which is known only now (log entry 35). -/
def fitCurve (tag : Nat) (s : State) : State :=
  match findJob s tag with
  | none => s
  | some j =>
    let src := j.source.getD []
    if j.op != .critical .curveLoad || !(curveFormatOk src) then s
    else
      let n := operandSlots s.units (8 * wRow (curveOfImage src).pBits) 28
      if j.slots.length < n then finishJob tag .refusedCapacity (modJob tag (fun j => { j with noOutput := true }) s)
      else modJob tag (fun j => { j with slots := j.slots.take n }) s

/-- A job whose inputs are there: a critical command waits at the barrier, the others become ready. -/
def gathered (tag : Nat) (s : State) : State :=
  match findJob s tag with
  | none => s
  | some j =>
    if isCritical j.op then
      if j.counterSpent then wakeJob tag (modJob tag (fun j => { j with stage := .ready }) s)
      else fitCurve tag (modJob tag (fun j => { j with stage := .barrier, holds := j.holds ++ kekHold s j }) s)
    else
      let s1 := modJob tag (fun j => { j with stage := .ready }) s
      if isCard j.op || j.op == .trkExport then portNext s1 else wakeJob tag s1

/-- A job that fails R119 runs on no unit and writes nothing. -/
def inputBad (tag : Nat) (s : State) : State :=
  finishJob tag .inputInvalid (modJob tag (fun j => { j with noOutput := true }) s)

/-- What follows an arrival: the check of the lists, and the start of the job once nothing is missing; a message hash may
begin. -/
def afterArrival (tag : Nat) (s : State) : State :=
  match findJob s tag with
  | none => s
  | some j =>
    if j.status.isSome then s
    else if listsBad j then inputBad tag s
    else
      let s1 := leaveChannel tag s
      if j.stage == .gathering && gatheredAll j then gathered tag s1 else feedSides s1

/-! ### Reads from applet SRAM (R140, R347) -/

/-- One read of an internal job: its bytes, or a failure that ends the job. -/
def sramRead (n tag a len : Nat) (s : State) : Except State Bytes :=
  let fails := fun (st : Status) (s : State) =>
    finishJob tag st (modJob tag (fun j => { j with noOutput := true }) s)
  match dmaVerdict s n .read a len with
  | some (x, v) => .error (fails .hostReadFault (faultDma n tag x v s))
  | none =>
    if (badWordIn s a len).isSome then .error (fails .memUncorrectable (readWords a len s))
    else .ok (mapBytes s a len)

/-- A string of segments. -/
def sramSegs (n tag : Nat) : List (Nat × Nat) → State → Except State Bytes
  | [], _ => .ok []
  | g :: t, s => match sramRead n tag g.1 g.2 s with
    | .error s1 => .error s1
    | .ok bs => (sramSegs n tag t (readWords g.1 g.2 s)).map (fun rest => bs ++ rest)

/-- An internal job's source is read at once. -/
def sramSource (n tag : Nat) (s : State) : State :=
  match findJob s tag with
  | none => s
  | some j =>
    if !(takesSource j.op) || dSrcLen j.desc = 0 then afterArrival tag s
    else match sramSegs n tag (srcSegs j) s with
      | .error s1 => s1
      | .ok bs =>
        let s1 := (srcSegs j).foldl (fun s g => readWords g.1 g.2 s) s
        afterArrival tag (modJob tag (fun j => { j with source := some bs }) s1)

/-- An internal job's lists and source are read at once. -/
def sramGather (n tag : Nat) (s : State) : State :=
  match findJob s tag with
  | none => s
  | some j =>
    let list := fun (want : Bool) (a k : Nat) => if want then (sramRead n tag a (16 * k) s).map some else .ok none
    match list (srcListed j.op j.desc) (dSrcAddr j.desc) (dSrcNent j.desc),
        list (dstListed j.op j.desc) (dDstAddr j.desc) (dDstNent j.desc) with
    | .error s1, _ => s1
    | _, .error s1 => s1
    | .ok sl, .ok dl =>
      let s1 := modJob tag (fun j => { j with srcList := sl, dstList := dl }) s
      if listsBad { j with srcList := sl, dstList := dl } then inputBad tag s1 else sramSource n tag s1

/-- R221, R276: the source is read again for a second pass. -/
def secondGather (tag : Nat) (s : State) : State :=
  match findJob s tag with
  | none => s
  | some j =>
    if j.status.isSome || j.source.isSome || dSrcLen j.desc = 0 then s
    else match j.ring with
      | .internal n => sramSource n tag s
      | .host _ => requestSource tag s

/-- An admitted job's reads begin. -/
def go (tag : Nat) (s : State) : State :=
  match findJob s tag with
  | none => s
  | some j =>
    if directBad j then inputBad tag s
    else match j.ring with
      | .internal n => sramGather n tag s
      | .host _ => afterArrival tag (requestNamed tag s)

/-! ### Arrivals of read data -/

/-- The source has not arrived whole, and the job is on its way. -/
def sourcePending (j : Job) : Bool :=
  takesSource j.op && decide ((j.source.getD []).length < dSrcLen j.desc) &&
    (j.stage == .ready || j.stage == .waitingKey || j.stage == .running || j.stage == .suspended || j.stage == .copying)

/-- The job still waits for data of a read that it has issued. -/
def readPending (j : Job) : Bool :=
  isHost j.ring && j.admitted && j.status.isNone &&
    (j.stage == .gathering || sourcePending j || (j.op == .trkExport && !(cardTarget j) && j.stage == .running))

/-- Source bytes join those that have come before. -/
def keepSource (data : Bytes) (j : Job) : Job :=
  let bs := j.source.getD [] ++ data
  if takesSource j.op && !data.isEmpty && decide (bs.length ≤ dSrcLen j.desc) &&
      (!(srcListed j.op j.desc) || j.srcList.isSome) then { j with source := some bs } else j

/-- The bytes of an item as the job keeps them. -/
def keepItem (item : GatherItem) (data : Bytes) (j : Job) : Job :=
  match item with
  | .srcList =>
    if srcListed j.op j.desc && data.length == 16 * dSrcNent j.desc then { j with srcList := some data } else j
  | .dstList =>
    if dstListed j.op j.desc && data.length == 16 * dDstNent j.desc then { j with dstList := some data } else j
  | .source => keepSource data j
  | .block => if isCritical j.op && data.length == 128 then { j with block := some (BitVec.ofNat 1024 (natLE data)) } else j
  | .readback => j

/-- Data for a request whose PCI Express timeout has expired: an Unexpected Completion (R87). -/
def unexpectedData (tag : Nat) (s : State) : State :=
  if s.link.expired.contains tag then
    setPcieErr 2 { s with link := { s.link with
      aer := s.link.aer ||| 0x10000, expired := s.link.expired.filter (fun t => t != tag) } }
  else s

/-- The source list brings the addresses of the source's reads. -/
def listBrings (item : GatherItem) (tag : Nat) (before : Job) (s : State) : State :=
  match findJob s tag with
  | none => s
  | some j =>
    if item == .srcList && before.srcList.isNone && j.srcList.isSome && !(listsBad j) then requestSource tag s else s

/-- GATHER_DATA_ARRIVAL: data of a read that has not timed out; data for an ended job is discarded (R43). -/
def dataArrives (tag : Nat) (item : GatherItem) (data : Bytes) (s : State) : State :=
  match findJob s tag with
  | none => unexpectedData tag s
  | some j =>
    match j.ring with
    | .internal n => if j.stage == .gathering && j.status.isNone then sramGather n tag s else s
    | .host _ =>
      if item == .readback then portNext (hostReadBack runPort tag data s)
      else if !(readPending j) then unexpectedData tag s
      else
        let staged := if item == .block then stageWords tag 8 16 s else s
        let s1 := afterArrival tag (listBrings item tag j (modJob tag (keepItem item data) staged))
        if streamsSource j && s1.card.job == some tag then portNext (nextBlock s1) else s1

/-! ### Failed reads and writes (R43, R87, R137, R138) -/

/-- A read fault ends the job: at once, or at the next block boundary of the card port. -/
def readFaults (tag : Nat) (k : ReadFault) (addr : DWord) (s : State) : State :=
  match findJob s tag with
  | none => s
  | some j =>
    match j.ring with
    | .internal _ => s
    | .host n =>
      if !(readPending j) then s
      else
        let s1 := modJob tag (fun j => { j with noOutput := true }) (hostReadFailed n tag k addr s)
        if s1.card.job == some tag then
          portNext (nextBlock (modJob tag (fun j => { j with status := some .hostReadFault }) s1))
        else portNext (finishJob tag .hostReadFault s1)

/-- Request tags in use (R83). -/
def requestTags (l : Link) : Nat := if l.extendedTag then 256 else 32

/-- The part keeps the tag of a request that has timed out (R87). -/
def holdRequest (tag req : Nat) (s : State) : State :=
  { s with link := { s.link with
      heldTags := if s.link.heldTags.any (fun p => p.1 == req) then s.link.heldTags else s.link.heldTags ++ [(req, tag)] } }

/-- READ_COMPLETION_TIMEOUT: the part keeps the request's tag until the PCI Express timeout (R87). -/
def readTimesOut (tag req : Nat) (addr : DWord) (s : State) : State :=
  match findJob s tag with
  | none => s
  | some j =>
    if readPending j then readFaults tag .timeout addr (holdRequest tag (req % requestTags s.link) s) else s

/-- PCIE_COMPLETION_TIMEOUT: the request's tag is free again, and AER alone reports a Completion Timeout; a completion that
still comes is unexpected (R87).  With the timeout disabled in Device Control 2 none expires. -/
def releaseRequest (req : Nat) (s : State) : State :=
  if s.link.devctl2.getLsbD 4 then s
  else
  let held := s.link.heldTags.filter (fun p => p.1 == req)
  { s with link := { s.link with
      heldTags := s.link.heldTags.filter (fun p => p.1 != req),
      expired := s.link.expired ++ held.map Prod.snd,
      aer := if held.isEmpty then s.link.aer else s.link.aer ||| 0x4000 } }

/-- WRITE_CREDIT_TIMEOUT: output that has found no credit for 8.0 µs fails the job (R138).  The event itself shows that the
link gives no posted-write credit, and it gives none until POSTED_WRITE_CREDIT_RETURN. -/
def writeTimesOut (tag : Nat) (addr : DWord) (s : State) : State :=
  match findJob s tag with
  | none => s
  | some j =>
    match j.ring with
    | .internal _ => s
    | .host n =>
      if dDstLen j.desc = 0 ∨ j.stage == .built ∨
          !(j.stage == .running || j.stage == .suspended || !j.out.isEmpty) then s
      else
        let fixed := if okStatus (j.status.getD .ok) || j.status == some .okUnverifiedReleased then Status.hostWriteFault
          else j.status.getD .hostWriteFault
        let s1 := captureHost true n tag 5 addr { s with link := { s.link with creditStalled := true } }
        outputGone tag (modJob tag (fun j => { j with out := [], noOutput := true, status := some fixed }) s1)

/-- A failed read of a descriptor: its entry carries HOST_READ_FAULT and COOKIE 0 (R137); one that timed out keeps a request
tag, the lowest that is free (R87, log entry 78). -/
def descriptorFails (r : RingId) (index : Nat) (k : ReadFault) (addr : DWord) (pick : Nat) (s : State) : State :=
  match r, openSlot s r index with
  | .host n, some q =>
    let x := getRing s r
    let tag := (takeTag s pick).getD (noTag r index)
    let s0 := if k == .timeout then
        holdRequest tag ((firstBelow 256 (fun t => !(s.link.heldTags.any (fun p => p.1 == t)))).getD 0) s else s
    let s1 := noteStatus r index .hostReadFault (hostReadFailed n tag k addr s0)
    fixedDesc r x q 0 0 tag .hostReadFault s1
  | _, _ => s

/-! ### Critical commands whose block is at hand -/

/-- The command block and the source of a critical command arrive together: it stands at its barrier. -/
def gatherWhole (c : CritData) (tag : Nat) (s : State) : State :=
  let s1 := modJob tag (fun j => { j with
    block := some c.block,
    source := if dSrcLen j.desc = 0 then none else some (slice c.source 0 (dSrcLen j.desc)) }) s
  fitCurve tag (modJob tag (fun j => { j with stage := .barrier, holds := j.holds ++ kekHold s j }) s1)

/-- The command gathers `g`, and, once its barrier is met, runs to its entry within the step. -/
def goCritical (g : Option CritData) (tag : Nat) (s : State) : State :=
  match g with
  | none => go tag s
  | some c =>
    match findJob s tag with
    | none => s
    | some j =>
      if directBad j then inputBad tag s
      else portNext (completeEntry tag (releaseBarrier tag (gatherWhole c tag s)))

/-- A descriptor of one critical command arrives. -/
def arriveCritical (c : CmdCode) (a : Arrival) (g : Option CritData) (s : State) : State :=
  arrive (goCritical g) (fun o => o == some (.critical c)) a s

/-- A descriptor of one other operation arrives. -/
def arriveOp (o : Op) (a : Arrival) (s : State) : State := arrive go (fun x => x == some o) a s

/-! ### Pre-emption points (R61, R62, R134, R228, R249) -/

/-- The unit's running job stands at a pre-emption point of R61 that is not its end: a step boundary of an Edge, a 16 KiB
boundary of a Blade or hash unit, the end of a request of a Groomer.  A Lift has none before its end. -/
def atPoint (u : UnitRef) (j : Job) : Bool :=
  match u.kind with
  | .edge => decide (j.steps + 1 < edgeSteps j)
  | .blade | .hash => atBoundary j
  | .groomer => true
  | .lift => false

/-- The job is suspended; a Blade keeps its mode state, clears its key register and releases its segment unless output waits
there (R220, R228); an Edge job keeps its slots (R249). -/
def suspendJob (u : UnitRef) (tag : Nat) (s : State) : State :=
  match findJob s tag with
  | none => s
  | some j =>
    if u.kind == .blade then
      let s1 := if j.out.isEmpty then freeMemory tag s else s
      feedSides (modJob tag (fun j => { j with
        stage := .suspended, saved := some (modeState j), keyLoaded := false, key := [] }) s1)
    else modJob tag (fun j => { j with stage := .suspended }) s

/-- Side work whose message goes on past 16 KiB gives way to an earlier engine deadline (R61). -/
def preemptSide (u : UnitRef) (s : State) : State :=
  match s.rings.jobs.find? (fun j => j.sideOn && sideUnit j == some u), firstToRun u (unitChoices s u) with
  | some j, some k =>
    if u.kind == .hash && decide (16384 < messageLen j.op j.desc j.facts) && runsBefore u k j then
      dispatchUnit u (modJob j.tag (fun j => { j with sideOn := false }) s)
    else s
  | _, _ => s

/-- PREEMPTION_POINT of a unit: the running job's step, segment or request has ended; a cancelled job stops, an EDDSA_SIGN that
waits for its challenge hash is suspended (R276), and a job whose engine deadline is earlier takes the unit. -/
def preempt (u : UnitRef) (s : State) : State :=
  match (jobsOn s u).find? (fun j => j.stage == .running) with
  | none => preemptSide u s
  | some j =>
    if !(atPoint u j) then s
    else
      let s1 := if u.kind == .groomer then s else modJob j.tag (fun j => { j with steps := j.steps + 1 }) s
      let s2 := if u.kind == .blade then bladeBoundary j.tag s1 else s1
      match findJob s2 j.tag with
      | none => s2
      | some j1 =>
        if j1.stage != .running then s2
        else if j1.status.isSome then finishJob j.tag .cancelled s2
        else
          let waits := u.kind == .edge && challengeDue j1
          let earlier := match firstToRun u (s2.rings.jobs.filter (fun k =>
              (onUnit k u && wouldStart s2 u k) || (sideUnit k == some u && sideReady s2 k))) with
            | some k => runsBefore u k j1
            | none => false
          if waits || earlier then dispatchUnit u (suspendJob u j.tag s2) else s2

/-! ### Accesses that a BAR does not take (R89, R109) -/

def badAccess (s : State) : State := setPcieErr 1 s

/-! ### The rows -/

def execDoorbell (ring : Nat) (value : Word) (s : State) : Host.Outcome State Fault Refusal :=
  .next (if decide (64 ≤ ring) || s.link.d3hot then s else doorbellRing (.host ring) value s)

def execBar2BadAccess (write : Bool) (s : State) : Host.Outcome State Fault Refusal :=
  .next (if write then badAccess s else { s with link := { s.link with readData := 0 } })

/-- R89: it writes nothing, and a read returns zero. -/
def execBar0BadAccess (s : State) : Host.Outcome State Fault Refusal :=
  .next (badAccess { s with link := { s.link with readData := 0 } })

def execFetchAllowanceFreed (s : State) : Host.Outcome State Fault Refusal := .next (fetchAll s)

def execDescriptorReadFault (r : RingId) (index : Nat) (k : ReadFault) (addr : DWord) (pick : Nat) (s : State) :
    Host.Outcome State Fault Refusal := .next (descriptorFails r index k addr pick s)

def execSesEncrypt (a : Arrival) (s : State) : Host.Outcome State Fault Refusal := .next (arriveOp .sesEncrypt a s)
def execSesDecrypt (a : Arrival) (s : State) : Host.Outcome State Fault Refusal := .next (arriveOp .sesDecrypt a s)
def execSesMacGen (a : Arrival) (s : State) : Host.Outcome State Fault Refusal := .next (arriveOp .sesMacGen a s)
def execSesMacVerify (a : Arrival) (s : State) : Host.Outcome State Fault Refusal := .next (arriveOp .sesMacVerify a s)
def execHash (a : Arrival) (s : State) : Host.Outcome State Fault Refusal := .next (arriveOp .hash a s)
def execRngOut (a : Arrival) (s : State) : Host.Outcome State Fault Refusal := .next (arriveOp .rngOut a s)
def execEcdsaSign (a : Arrival) (s : State) : Host.Outcome State Fault Refusal := .next (arriveOp .ecdsaSign a s)
def execEcdsaVerify (a : Arrival) (s : State) : Host.Outcome State Fault Refusal := .next (arriveOp .ecdsaVerify a s)
def execEcKeygen (a : Arrival) (s : State) : Host.Outcome State Fault Refusal := .next (arriveOp .ecKeygen a s)
def execEcdh (a : Arrival) (s : State) : Host.Outcome State Fault Refusal := .next (arriveOp .ecdh a s)
def execEddsaSign (a : Arrival) (s : State) : Host.Outcome State Fault Refusal := .next (arriveOp .eddsaSign a s)
def execEddsaVerify (a : Arrival) (s : State) : Host.Outcome State Fault Refusal := .next (arriveOp .eddsaVerify a s)
def execXdh (a : Arrival) (s : State) : Host.Outcome State Fault Refusal := .next (arriveOp .xdh a s)
def execRsaVerify (a : Arrival) (s : State) : Host.Outcome State Fault Refusal := .next (arriveOp .rsaVerify a s)
def execRsaSign (a : Arrival) (s : State) : Host.Outcome State Fault Refusal := .next (arriveOp .rsaSign a s)
def execCardRead (a : Arrival) (s : State) : Host.Outcome State Fault Refusal := .next (arriveOp .cardRead a s)
def execCardWrite (a : Arrival) (s : State) : Host.Outcome State Fault Refusal := .next (arriveOp .cardWrite a s)
def execCardMailbox (a : Arrival) (s : State) : Host.Outcome State Fault Refusal := .next (arriveOp .cardMailbox a s)
def execCardInfo (a : Arrival) (s : State) : Host.Outcome State Fault Refusal := .next (arriveOp .cardInfo a s)
def execTrkExport (a : Arrival) (s : State) : Host.Outcome State Fault Refusal := .next (arriveOp .trkExport a s)

/-- R114: an opcode or command code that no row of R115 or R165 names. -/
def execOpcodeAbsentDescriptor (a : Arrival) (s : State) : Host.Outcome State Fault Refusal :=
  .next (arrive go (fun o => o.isNone) a s)

def execWhiteoutEnter (a : Arrival) (g : Option CritData) (s : State) : Host.Outcome State Fault Refusal :=
  .next (arriveCritical .whiteoutEnter a g s)
def execEvacuate (a : Arrival) (g : Option CritData) (s : State) : Host.Outcome State Fault Refusal :=
  .next (arriveCritical .evacuate a g s)
def execAlert (a : Arrival) (g : Option CritData) (s : State) : Host.Outcome State Fault Refusal :=
  .next (arriveCritical .alert a g s)
def execWhiteoutExit (a : Arrival) (g : Option CritData) (s : State) : Host.Outcome State Fault Refusal :=
  .next (arriveCritical .whiteoutExit a g s)
def execUnlock (a : Arrival) (g : Option CritData) (s : State) : Host.Outcome State Fault Refusal :=
  .next (arriveCritical .unlock a g s)
def execAuthSet (a : Arrival) (g : Option CritData) (s : State) : Host.Outcome State Fault Refusal :=
  .next (arriveCritical .authSet a g s)
def execAuthDisable (a : Arrival) (g : Option CritData) (s : State) : Host.Outcome State Fault Refusal :=
  .next (arriveCritical .authDisable a g s)
def execRootImport (a : Arrival) (g : Option CritData) (s : State) : Host.Outcome State Fault Refusal :=
  .next (arriveCritical .rootImport a g s)
def execRootErase (a : Arrival) (g : Option CritData) (s : State) : Host.Outcome State Fault Refusal :=
  .next (arriveCritical .rootErase a g s)
def execPrivImport (a : Arrival) (g : Option CritData) (s : State) : Host.Outcome State Fault Refusal :=
  .next (arriveCritical .privImport a g s)
def execPrivErase (a : Arrival) (g : Option CritData) (s : State) : Host.Outcome State Fault Refusal :=
  .next (arriveCritical .privErase a g s)
def execCurveLoad (a : Arrival) (g : Option CritData) (s : State) : Host.Outcome State Fault Refusal :=
  .next (arriveCritical .curveLoad a g s)
def execAppletLoad (a : Arrival) (g : Option CritData) (s : State) : Host.Outcome State Fault Refusal :=
  .next (arriveCritical .appletLoad a g s)
def execAppletRemove (a : Arrival) (g : Option CritData) (s : State) : Host.Outcome State Fault Refusal :=
  .next (arriveCritical .appletRemove a g s)
def execLevelRaise (a : Arrival) (g : Option CritData) (s : State) : Host.Outcome State Fault Refusal :=
  .next (arriveCritical .levelRaise a g s)
def execRazeEnable (a : Arrival) (g : Option CritData) (s : State) : Host.Outcome State Fault Refusal :=
  .next (arriveCritical .razeEnable a g s)
def execAlarmConfig (a : Arrival) (g : Option CritData) (s : State) : Host.Outcome State Fault Refusal :=
  .next (arriveCritical .alarmConfig a g s)
def execCtrAssign (a : Arrival) (g : Option CritData) (s : State) : Host.Outcome State Fault Refusal :=
  .next (arriveCritical .ctrAssign a g s)
def execDebugUnlock (a : Arrival) (g : Option CritData) (s : State) : Host.Outcome State Fault Refusal :=
  .next (arriveCritical .debugUnlock a g s)
def execLcAdvance (a : Arrival) (g : Option CritData) (s : State) : Host.Outcome State Fault Refusal :=
  .next (arriveCritical .lcAdvance a g s)
def execTrkReceipt (a : Arrival) (g : Option CritData) (s : State) : Host.Outcome State Fault Refusal :=
  .next (arriveCritical .trkReceipt a g s)
def execSesSet (a : Arrival) (g : Option CritData) (s : State) : Host.Outcome State Fault Refusal :=
  .next (arriveCritical .sesSet a g s)
def execSesClear (a : Arrival) (g : Option CritData) (s : State) : Host.Outcome State Fault Refusal :=
  .next (arriveCritical .sesClear a g s)

def execGatherDataArrival (tag : Nat) (item : GatherItem) (data : Bytes) (s : State) : Host.Outcome State Fault Refusal :=
  .next (dataArrives tag item data s)

def execReadCompletionTimeout (tag req : Nat) (addr : DWord) (s : State) : Host.Outcome State Fault Refusal :=
  .next (readTimesOut tag req addr s)

def execReadFailed (tag : Nat) (k : ReadFault) (addr : DWord) (s : State) : Host.Outcome State Fault Refusal :=
  .next (readFaults tag k addr s)

def execPcieCompletionTimeout (req : Nat) (s : State) : Host.Outcome State Fault Refusal := .next (releaseRequest req s)

def execWriteCreditTimeout (tag : Nat) (addr : DWord) (s : State) : Host.Outcome State Fault Refusal :=
  .next (writeTimesOut tag addr s)

def execLiftDerivationDone (tag : Nat) (s : State) : Host.Outcome State Fault Refusal := .next (liftDone tag s)

def execVaultArbiterGrant (tag : Nat) (s : State) : Host.Outcome State Fault Refusal := .next (arbiterGrant tag s)

def execPreemptionPoint (u : UnitRef) (s : State) : Host.Outcome State Fault Refusal := .next (preempt u s)

/-- A unit's end of pass after which the job may read its source again. -/
def passEnds (ends : State → State) (tag : Nat) (s : State) : State :=
  if (findJob s tag).any sourceWhole then secondGather tag (ends s) else ends s

def execBladeJobDone (tag : Nat) (s : State) : Host.Outcome State Fault Refusal := .next (passEnds (bladeDone tag) tag s)

/-- The nine checks of a CURVE_LOAD end as any Edge program does (R289). -/
def edgeEnds (tag : Nat) (s : State) : State :=
  match findJob s tag with
  | none => s
  | some j => if isCritical j.op then curveEnds tag s else edgeDone tag s

def execEdgeJobDone (tag : Nat) (s : State) : Host.Outcome State Fault Refusal := .next (edgeEnds tag s)

def execHashJobDone (tag : Nat) (s : State) : Host.Outcome State Fault Refusal := .next (passEnds (hashDone tag) tag s)

end Sys2Proof.Machine
end

