-- ==== Sys2Proof/Machine/Speed.lean ====
section
/-!
DEFINITION. Sys2Proof/Machine/Speed.lean: the 1 ms evaluations of temperature and speed, the envelope (R46 to R51, R69, R71, R77,
R403), and the rows of units: stalls, slips, vectors, enable and disable (R64, R229 to R234, R241, R248, R257 to R266).
-/
namespace Sys2Proof.Machine

/-! ### Bands (R46) -/

def bandNum (b : Band) : Nat :=
  match b with
  | .s0 => 0 | .s1 => 1 | .s2 => 2

/-- The band whose row a temperature selects, in 1/16 °C. -/
def bandOf (tj : Int) : Band := if tj ≤ 1360 then .s0 else if tj ≤ 2000 then .s1 else .s2

/-- At least 5 K below the lower band's limit. -/
def coolEnough (b : Band) (tj : Int) : Bool :=
  match b with
  | .s2 => decide (tj ≤ 1920)
  | .s1 => decide (tj ≤ 1280)
  | .s0 => false

/-- The band after an evaluation, and the hold of a step down. -/
def evaluateBand (tj : Int) (s : State) : State :=
  let b := s.gate.band
  let want := bandOf tj
  if bandNum b < bandNum want then
    setGateEvt 64 { s with gate := { s.gate with band := want, downSince := none } }
  else
    { s with gate := { s.gate with
        downSince := if coolEnough b tj then some (s.gate.downSince.getD s.now) else none } }

/-- BAND_DOWN_HOLD_EXPIRY: the unbroken second has passed, and the band moves down by one. -/
def bandDown (s : State) : State :=
  if s.gate.downSince.isNone || s.gate.band == .s0 then s
  else setGateEvt 64 { s with gate := { s.gate with
    band := if s.gate.band == .s2 then .s1 else .s0, downSince := none } }

/-! ### The envelope (R69, R403) -/

/-- ENV_EXIT when a condition begins to hold. -/
def noteExit (before : Bool) (s : State) : State := if !before && envCond s then setGateEvt 4 s else s

/-- The slew over the last 100 ms, in 1/16 K/s, with the 1 s below the limit that reopens admission. -/
def evaluateSlew (slew : Nat) (s : State) : State :=
  { s with gate := { s.gate with
      slew := min 0xFFFF slew,
      slewClosed := s.gate.slewClosed || decide (160 < slew),
      slewLowSince := if 160 < slew then none
        else if s.gate.slewClosed then some (s.gate.slewLowSince.getD s.now) else none } }

/-- R71: 500 hours above 125 °C. -/
def checkHours (s : State) : State :=
  if decide (30000 ≤ s.hut.hotMin) && !s.gate.hoursExceeded then
    setGateEvt 32 { s with gate := { s.gate with hoursExceeded := true } }
  else s

/-- TJ_EVALUATION, on main power: Tj, slew, band, hot minutes, and the envelope, which reopens at the first evaluation
that finds no condition. -/
def evaluateTj (tj : Int) (slew : Nat) (s : State) : State :=
  if inReset s then s
  else
    let before := envCond s
    let s1 := evaluateSlew slew (evaluateBand tj { s with gate := { s.gate with tj := tj } })
    let s2 := checkHours (if 2000 < tj then addHot 1 s1 else s1)
    noteExit before { s2 with gate := { s2.gate with envClosed := envCond s2 } }

/-- SLEW_REOPEN_EXPIRY: the slew has stayed at 10 K/s or below for 1 s. -/
def slewReopens (s : State) : State :=
  if s.gate.slewLowSince.isNone then s
  else
    let s1 := { s with gate := { s.gate with slewClosed := false, slewLowSince := none } }
    { s1 with gate := { s1.gate with envClosed := envCond s1 } }

/-- RAIL_ENVELOPE_CHANGE: a rail leaves its operating range, or is back in it. -/
def railChanges (r : Rail) (inRange : Bool) (s : State) : State :=
  if inReset s then s
  else if inRange then
    { s with gate := { s.gate with railsOut := s.gate.railsOut.filter (fun x => x != r) } }
  else
    let before := envCond s
    noteExit before { s with gate := { s.gate with
      railsOut := if s.gate.railsOut.contains r then s.gate.railsOut else s.gate.railsOut ++ [r], envClosed := true } }

/-! ### Speed (R49, R50) -/

/-- The lowest reading with the monitor that gave it: of several, the one that stands first in the list. -/
def lowestOf : List (Nat × Nat) → Nat × Nat
  | [] => (128, 0)
  | [p] => p
  | p :: t => let q := lowestOf t; if q.1 < p.1 then q else p

/-- D of R50. -/
def derateOf (siMin : Nat) : Nat := max 64 (ceilDiv (64 * 96) (max siMin 1))

/-- The target takes effect at once, holds, or breaks the hold. -/
def applyTarget (target : Nat) (s : State) : State :=
  let d := s.gate.derate
  if d < target then setGateEvt 8 { s with gate := { s.gate with derate := target, derateHold := none } }
  else if target < d then
    { s with gate := { s.gate with derateHold := match s.gate.derateHold with
        | some (since, m) => some (since, max m target)
        | none => some (s.now, target) } }
  else { s with gate := { s.gate with derateHold := none } }

/-- SPLIT_MONITOR_MEASUREMENT: the sixteen speed indices of one evaluation; a monitor that the list leaves out reads 128.
Where several readings of the window are the lowest, SI_MIN_MON names the newest evaluation's, and of that the
lowest-numbered monitor (DESIGN CHOICE, log entry 68). -/
def measureSpeed (si : List Nat) (s : State) : State :=
  if inReset s then s
  else
    let v := fun (n : Nat) => min 255 (si.getD n 128)
    let mons := List.range 16
    let low := lowestOf (mons.map (fun n => (v n, n)))
    let window := (low :: s.gate.siWindow).take 64
    let m := lowestOf window
    let s1 := { s with
      gate := { s.gate with
        siLatest := mons.foldl (fun t n => tblSet 128 t n (v n)) s.gate.siLatest,
        siLow := mons.foldl (fun t n => tblMod 128 t n (fun x => if s.gate.siSeen then min x (v n) else v n)) s.gate.siLow,
        siSeen := true,
        siWindow := window, siMin := m.1, siMinMon := m.2 },
      tel := { s.tel with siLowSec := mons.foldl (fun t n => tblMod 255 t n (fun x => min x (v n))) s.tel.siLowSec } }
    applyTarget (derateOf m.1) s1

/-- DERATE_HOLD_EXPIRY: 10 s of smaller targets have passed; the largest of them takes effect. -/
def derateFalls (s : State) : State :=
  match s.gate.derateHold with
  | some (_, m) => { s with gate := { s.gate with derate := m, derateHold := none } }
  | none => s

/-! ### Unit faults (R64, R229, R241, R257) -/

/-- The unit exists and can fault. -/
def mayFault (s : State) (u : UnitRef) : Bool :=
  decide (u.num < unitCount u.kind) && unitState s u != .off && unitState s u != .faulted

/-- UNIT_WATCHDOG_STALL: a stall, or an Edge step that read an uncorrectable operand word.  `bad` names the placed jobs
whose slots or store entry read as illegal. -/
def unitStalls (u : UnitRef) (place : Nat) (operand : Bool) (bad : List Nat) (s : State) : State :=
  if !(mayFault s u) then s
  else if u.kind == .edge && operand then checkCluster (faultUnit u 5 4 bad s)
  else
    let s1 := faultUnit u 1 (place % 8) bad s
    checkCluster (if u.kind == .groomer then groomerLost s1 else s1)

/-- PACE_SLIP of an Edge. -/
def edgeSlips (n : Nat) (bad : List Nat) (s : State) : State :=
  let u : UnitRef := { kind := .edge, num := n }
  if !(mayFault s u) then s
  else
    let s1 := faultUnit u 4 6 bad { s with units := { s.units with slipCnt := sat32 s.units.slipCnt } }
    checkCluster (setEdgeEvt 1 n s1)

/-- EDGE_SLOT_COPY_DONE: the copied jobs go on at their step index (R258, R259). -/
def slotsCopied (n : Nat) (s : State) : State :=
  let u : UnitRef := { kind := .edge, num := n }
  dispatchUnit u { s with rings := { s.rings with
    jobs := s.rings.jobs.map (fun j => if j.unit == some u && j.stage == .copying then { j with stage := .suspended } else j) } }

/-- A write to EDGE_CFG.SLOT_LEN (R248); one that is ignored names no valid unit, and so raises source 358. -/
def writeSlotLen (v : Nat) (s : State) : State :=
  let held := (List.range 68).any (fun n => !(slotsHeld s { kind := .edge, num := n }).isEmpty)
  if s.life.isSealed || held || decide (32 < v) then setEdgeEvt 4 68 s
  else { s with units := { s.units with slotLen := v } }

/-! ### The rows -/

def execTjEvaluation (tj : Int) (slew : Nat) (s : State) : Host.Outcome State Fault Refusal := .next (evaluateTj tj slew s)

def execBandDownHoldExpiry (s : State) : Host.Outcome State Fault Refusal := .next (bandDown s)

def execSlewReopenExpiry (s : State) : Host.Outcome State Fault Refusal := .next (slewReopens s)

def execHoursExceeded (s : State) : Host.Outcome State Fault Refusal := .next (checkHours s)

def execSplitMonitorMeasurement (si : List Nat) (s : State) : Host.Outcome State Fault Refusal := .next (measureSpeed si s)

def execDerateHoldExpiry (s : State) : Host.Outcome State Fault Refusal := .next (derateFalls s)

def execRailEnvelopeChange (r : Rail) (inRange : Bool) (s : State) : Host.Outcome State Fault Refusal :=
  .next (railChanges r inRange s)

def execUnitWatchdogStall (u : UnitRef) (place : Nat) (operand : Bool) (bad : List Nat) (s : State) :
    Host.Outcome State Fault Refusal := .next (unitStalls u place operand bad s)

def execPaceSlip (n : Nat) (bad : List Nat) (s : State) : Host.Outcome State Fault Refusal := .next (edgeSlips n bad s)

def execEdgeSlotCopyDone (n : Nat) (s : State) : Host.Outcome State Fault Refusal := .next (slotsCopied n s)

def execUnitVectorsDone (u : UnitRef) (pass : Bool) (s : State) : Host.Outcome State Fault Refusal :=
  .next (vectorsDone u pass s)

def execBladeEnable (n : Nat) (s : State) : Host.Outcome State Fault Refusal := .next (enableUnit .blade n s)

def execBladeDisable (n : Nat) (s : State) : Host.Outcome State Fault Refusal := .next (disableUnit .blade n s)

def execEdgeEnable (n : Nat) (s : State) : Host.Outcome State Fault Refusal := .next (enableUnit .edge n s)

def execEdgeDisable (n : Nat) (s : State) : Host.Outcome State Fault Refusal := .next (disableUnit .edge n s)

def execSlotLenWrite (v : Nat) (s : State) : Host.Outcome State Fault Refusal := .next (writeSlotLen v s)

end Sys2Proof.Machine
end

