-- ==== Sys2Proof/Machine/Registers.lean ====
section
/-!
DEFINITION. Sys2Proof/Machine/Registers.lean: BAR0 as a read view of the state and as the writes it takes (R12 to R14, R77,
R81, R91 to R98, R146, R148, R174, R204, R235, R267, R292, R319, R376, R400, R426, R443, R467, R494, R513, R515, R523), and
the peripheral registers that a write reaches without a row of its own (R353, R368).
-/
namespace Sys2Proof.Machine

/-- A map from a list of bits, bit i set where p holds. -/
def bitMap (n : Nat) (p : Nat → Bool) : Word := word ((List.range n).foldl (fun v i => v + fbit (p i) i) 0)

def loWord (v : Nat) : Word := word (v % 2 ^ 32)
def hiWord (v : Nat) : Word := word (v / 2 ^ 32 % 2 ^ 32)

/-- Register i of a byte string shown four bytes at a time. -/
def byteReg (bs : Bytes) (i : Nat) : Word := word (natLE (slice bs (4 * i) 4))

/-! ### The read view -/

/-- 0x0000 to 0x00FF (R92, R513). -/
def readLc (s : State) (off : Nat) : Word :=
  match off with
  | 0x000 => 0x40961F6E
  | 0x004 => word (0x20 + Config.runtimeVersion.toNat * 2 ^ 8)
  | 0x008 => loWord s.life.serial.toNat
  | 0x00C => hiWord s.life.serial.toNat
  | 0x010 => lcState s
  | 0x014 => lcStart s.life
  | 0x018 => 0x40441220
  | 0x01C => 0x10000800
  | 0x040 => word (s.life.cause + fbit s.life.aborted 8)
  | 0x044 => word s.life.startTime
  | 0x048 => loWord (counter s 9).value.toNat
  | 0x04C => word (fbit s.life.provValid 31)
  | 0x070 => s.life.evt.zeroExtend 32
  | _ => if 0x050 ≤ off ∧ off < 0x070 then byteReg s.life.provLatch ((off - 0x050) / 4) else 0

/-- RING_PCIE_STATUS (R93).  SMALL_TLP is what R84 says, so 1 at the reset Max_Payload_Size, where R93's table shows 0
(DESIGN CHOICE, log entry 78). -/
def pcieStatus (l : Link) : Word :=
  word (l.mps * 2 ^ 4 + l.mrrs * 2 ^ 8 + fbit (l.dataRo && l.relaxedOrdering) 27 + fbit (smallTlp l) 28 +
    fbit (l.msixEnable && !l.functionMask) 29 + fbit l.bme 30 + fbit l.up 31)

/-- RING_PCIE_FAULT (R93). -/
def pcieFaultReg (f : PcieFault) : Word :=
  word (f.kind + f.tag * 2 ^ 8 + f.ring * 2 ^ 24 + fbit f.write 30 + fbit f.valid 31)

/-- 0x0100 to 0x01FF (R93). -/
def readPcie (l : Link) (off : Nat) : Word :=
  match off with
  | 0x100 => word (bitNat l.dataRo)
  | 0x104 => pcieStatus l
  | 0x108 => pcieErr l
  | 0x10C => pcieFaultReg l.fault
  | 0x110 => loWord l.fault.addr.toNat
  | 0x114 => hiWord l.fault.addr.toNat
  | _ => 0

/-- 0x0200 to 0x03FF (R148). -/
def readRings (s : State) (off : Nat) : Word :=
  let st := fun (n : Nat) => (getRing s (.host n)).state
  match off with
  | 0x200 => bitMap 32 (fun i => st i != .disabled)
  | 0x204 => bitMap 32 (fun i => st (32 + i) != .disabled)
  | 0x208 => bitMap 32 (fun i => st i == .halted)
  | 0x20C => bitMap 32 (fun i => st (32 + i) == .halted)
  | 0x210 => word (2048 - (tagsHeld s).length)
  | 0x214 => word s.rings.noTagCnt
  | 0x218 => word s.rings.cancelCnt
  | _ => 0

/-- Context dword 0x20 (R175, R204). -/
def sesSum (c : Session) : Word := word (natLE (slice (contextBytes c) 0x20 4))

/-- 0x0400 to 0x04FF (R204). -/
def readSessions (s : State) (off : Nat) : Word :=
  let c := s.sess.latch
  match off with
  | 0x400 => word s.sess.sel
  | 0x404 => sesSum (tblGet Session.reset s.sess.table s.sess.sel)
  | 0x408 => c.salt
  | 0x40C => c.gen
  | 0x410 => c.epoch
  | 0x414 => loWord c.txCtr.toNat
  | 0x418 => hiWord c.txCtr.toNat
  | 0x41C => loWord c.rxHigh.toNat
  | 0x420 => hiWord c.rxHigh.toNat
  | 0x424 => loWord c.rxMap.toNat
  | 0x428 => hiWord c.rxMap.toNat
  | 0x42C => c.chainGen
  | 0x450 => word (s.sess.table.filter (fun p => p.2.isSet)).length
  | 0x454 => word s.sess.replayCnt
  | 0x460 => word (s.vault.selSlot + fbit s.vault.selPriv 15)
  | 0x464 => match vltSlot s with
    | some r => vltStat (slotOf s r)
    | none => 0
  | 0x468 => if (vltSlot s).isSome then s.vault.genLatch else 0
  | 0x46C => if (vltSlot s).isSome then s.vault.retLatch else 0
  | 0x470 => if (vltSlot s).isSome then s.vault.holdLatch else 0
  | 0x474 => bitMap 32 (fun i => slotLive (rootSlot s i))
  | 0x498 => s.vault.evt.zeroExtend 32
  | 0x4A0 => liftStatus s
  | 0x4A4 => word s.units.deriveCnt
  | 0x4A8 => word (bitNat s.units.liftEvt)
  | _ =>
    if 0x430 ≤ off ∧ off < 0x450 then byteReg (vecBytes 256 c.label) ((off - 0x430) / 4)
    else if 0x478 ≤ off ∧ off < 0x498 then bitMap 32 (fun i => slotLive (privSlot s ((off - 0x478) / 4 * 32 + i)))
    else 0

/-- SEEDED and AGE of a range of masking generators: the age of the oldest seed (R235, R267). -/
def maskReg (s : State) (first n : Nat) : Word :=
  let gs := (List.range n).map (fun i => tblGet MaskGen.reset s.units.mask (first + i))
  if gs.all (fun g => g.seeded) then word (maxOf (gs.map (fun g => ageMs s.now g.at_)) + 2 ^ 31)
  else word 0xFFFF

/-- EDGE_CURVE_STAT of an entry (R292). -/
def curveStat (s : State) (e : Nat) : Word :=
  let fields := fun (c : WCurve) (st : Nat) =>
    word (c.pBits + c.nBits * 2 ^ 10 + c.h * 2 ^ 20 + (if e = 6 ∨ e = 7 then 0 else wRow c.pBits) * 2 ^ 24 + st * 2 ^ 30)
  if e < 8 then fields (builtInCurve e) 1
  else if (loadingEntries s).contains e then word (3 * 2 ^ 30)
  else
    let c := tblGet Curve.reset s.curves.table e
    if c.loaded then fields (curveOfImage c.image) 2 else 0

/-- EDGE_CURVE_LAST. -/
def curveLast (c : Curves) : Word :=
  word (c.lastFailed.toNat + c.lastFirst * 2 ^ 20 + c.lastEntry * 2 ^ 24 + fbit c.lastValid 31)

/-- 0x0500 to 0x06FF (R267, R292). -/
def readEdges (s : State) (off : Nat) : Word :=
  match off with
  | 0x610 => word (s.units.slotLen + slotCount s.units * 2 ^ 16)
  | 0x618 => s.units.edgeEvt.zeroExtend 32
  | 0x61C => unitFaultReg s.units.edgeFault
  | 0x620 => word s.units.edgeSel
  | 0x624 => loWord s.units.slotsLatch.toNat
  | 0x628 => hiWord s.units.slotsLatch.toNat
  | 0x62C => word s.units.arbMax
  | 0x630 => maskReg s 18 68
  | 0x634 => word s.units.paddedCnt
  | 0x638 => word s.units.slipCnt
  | 0x640 => word s.curves.sel
  | 0x644 => curveStat s s.curves.sel
  | 0x648 => bitMap 32 (fun e => decide (e < 8) || (tblGet Curve.reset s.curves.table e).loaded)
  | 0x66C => curveLast s.curves
  | 0x670 => word s.units.invalidCnt
  | 0x674 => word s.units.vfailCnt
  | 0x678 => word s.units.rngfailCnt
  | _ =>
    if 0x500 ≤ off ∧ off < 0x610 then edgeUnitReg s ((off - 0x500) / 4)
    else if 0x64C ≤ off ∧ off < 0x66C then byteReg s.curves.digLatch ((off - 0x64C) / 4)
    else 0

/-- 0x0700 to 0x077F (R235). -/
def readBlades (s : State) (off : Nat) : Word :=
  match off with
  | 0x74C => s.units.bladeEvt.zeroExtend 32
  | 0x750 => unitFaultReg s.units.bladeFault
  | 0x754 => word s.units.tagfailCnt
  | 0x758 => word s.units.unverCnt
  | 0x75C => maskReg s 0 18
  | _ => if 0x700 ≤ off ∧ off < 0x748 then bladeUnitReg s ((off - 0x700) / 4) else 0

/-- PWD_CELL of a cell. -/
def pwdCell (c : Cell) : Word := word (c.trim + c.maxRun * 2 ^ 8 + c.ones * 2 ^ 16)

/-- 0x0780 to 0x07FF (R319). -/
def readPowder (s : State) (off : Nat) : Word :=
  let p := s.powder
  match off with
  | 0x780 => pwdStatus p
  | 0x784 => p.cellFail.zeroExtend 32
  | 0x788 => word p.cellSel
  | 0x78C => pwdCell (tblGet Cell.reset p.cells p.cellSel)
  | 0x790 => word p.blocks
  | 0x794 => word p.failCnt
  | 0x798 => p.evt.zeroExtend 32
  | 0x79C => word (bitNat p.pattern + fbit p.raw 1)
  | 0x7A4 => if s.life.state == .factory then p.rawLatch else 0
  | 0x7E0 => word p.reseedCnt
  | 0x7E4 => word p.rngFaultCnt
  | 0x7E8 => p.grmEvt.zeroExtend 32
  | 0x7EC => word p.portFaultCnt
  | _ =>
    if 0x7C0 ≤ off ∧ off < 0x7E0 then
      (if off % 8 = 0 then grmStat s ((off - 0x7C0) / 8) else word (groomerOf s ((off - 0x7C0) / 8)).count)
    else 0

/-- 0x0800 to 0x08FF (R77). -/
def readGate (s : State) (off : Nat) : Word :=
  let g := s.gate
  match off with
  | 0x800 => gateStatus s
  | 0x804 => gateTj g
  | 0x808 => word (g.siMin + g.siMinMon * 2 ^ 8 + g.derate * 2 ^ 16)
  | 0x80C => word g.rdLat
  | 0x810 => word (s.link.gen + s.link.width * 2 ^ 4 + fetchAllowance s.link * 2 ^ 8)
  | 0x814 => word (plannedCount s .edge + reserveCount s .edge * 2 ^ 8 + plannedCount s .blade * 2 ^ 16 +
      reserveCount s .blade * 2 ^ 24)
  | 0x818 => word (plannedCount s .lift + reserveCount s .lift * 2 ^ 4 + plannedCount s .hash * 2 ^ 8 +
      reserveCount s .hash * 2 ^ 12 + plannedCount s .groomer * 2 ^ 16 + reserveCount s .groomer * 2 ^ 20)
  | 0x81C => word (tagsHeld s).length
  | 0x830 => word g.lateCnt
  | 0x834 => word g.retryCnt
  | 0x838 => g.evt.zeroExtend 32
  | 0x83C => word s.hut.hotMin
  | _ =>
    if 0x820 ≤ off ∧ off < 0x830 then word (tblGet 0 g.refused ((off - 0x820) / 4))
    else if 0x840 ≤ off ∧ off < 0x880 then
      word (tblGet 128 g.siLatest ((off - 0x840) / 4) + tblGet 128 g.siLow ((off - 0x840) / 4) * 2 ^ 8)
    else 0

/-- PTL_FIRST. -/
def ptlFirst (p : Patrol) : Word := word (p.firstSource + levelNum p.firstLevel * 2 ^ 24 + fbit p.firstValid 31)

/-- 0x0900 to 0x09FF (R426). -/
def readPatrol (s : State) (off : Nat) : Word :=
  match off with
  | 0x900 => ptlStatus s
  | 0x924 => word s.patrol.sel
  | 0x928 => s.patrol.selLatch
  | 0x92C => loWord s.patrol.lockSeq.toNat
  | 0x930 => s.patrol.lockSeqHi
  | 0x934 => ptlFirst s.patrol
  | 0x938 => word s.patrol.zeroTime
  | 0x93C => s.patrol.evt.zeroExtend 32
  | _ =>
    if 0x904 ≤ off ∧ off < 0x914 then bitMap 32 (fun i => (psource s (128 + (off - 0x904) / 4 * 32 + i)).active)
    else if 0x914 ≤ off ∧ off < 0x924 then bitMap 32 (fun i => (psource s (128 + (off - 0x914) / 4 * 32 + i)).seen)
    else 0

/-- 0x0A00 to 0x0AFF (R467). -/
def readHut (s : State) (off : Nat) : Word :=
  match off with
  | 0xA00 => hutStatus s.hut
  | 0xA04 => hutVbat s.hut
  | 0xA08 => loWord s.hut.time
  | 0xA0C => s.hut.timeHi
  | 0xA10 => word s.hut.seq
  | 0xA14 => s.hut.evt.zeroExtend 32
  | 0xA40 => almCfg s
  | 0xA44 => almStateReg s
  | 0xA60 => almWo s
  | 0xA64 => s.hut.zones
  | 0xA68 => s.hut.reason
  | 0xA6C => loWord s.hut.woTime
  | 0xA70 => s.alarm.woTimeHi
  | 0xA74 => almOut s
  | 0xA78 => s.alarm.evt.zeroExtend 32
  | 0xA7C => word s.alarm.lineFaultCnt
  | _ => if 0xA50 ≤ off ∧ off < 0xA60 then word (almInput s ((off - 0xA50) / 4)).level else 0

/-- CARD_OFF_REMAIN: milliseconds left of the 50 ms of R471. -/
def cardOffRemain (s : State) : Nat :=
  if s.card.offRunning then ceilDiv (s.card.offSince + 5000000 - s.now) 100000 else 0

/-- 0x0B00 to 0x0BFF (R494). -/
def readCard (s : State) (off : Nat) : Word :=
  let c := s.card
  match off with
  | 0xB00 => cardStatus c
  | 0xB04 => word (bitNat c.wideEn + fbit c.hsEn 1 + fbit c.unlockEn 4)
  | 0xB0C => word (c.mbxTmo + c.final * 2 ^ 8 + c.busyBlk * 2 ^ 16 + c.readAcc * 2 ^ 24)
  | 0xB10 => loWord c.capacity
  | 0xB14 => hiWord c.capacity
  | 0xB28 => loWord c.token.toNat
  | 0xB2C => hiWord c.token.toNat
  | 0xB30 => c.mbx.seq
  | 0xB34 => word (c.unlockReason + c.unlockStatus * 2 ^ 16 + c.unlockAuth * 2 ^ 24 + fbit c.unlockValid 31)
  | 0xB38 => c.last
  | 0xB3C => c.evt.zeroExtend 32
  | 0xB40 => word c.unknownCnt
  | 0xB44 => word c.crcCnt
  | 0xB48 => word (cardOffRemain s)
  | _ => if 0xB18 ≤ off ∧ off < 0xB28 then byteReg (vecBytes 128 c.cid) ((off - 0xB18) / 4) else 0

/-- 0x0C00 to 0x0CFF (R174, R443, R400). -/
def readStores (s : State) (off : Nat) : Word :=
  match off with
  | 0xC00 => word s.ctrs.sel
  | 0xC04 => loWord (counter s s.ctrs.sel).value.toNat
  | 0xC08 => s.ctrs.valueLatch
  | 0xC0C => ctrCredit (counter s s.ctrs.sel)
  | 0xC10 => ctrPos s s.ctrs.sel
  | 0xC14 => ctrAuth s
  | 0xC18 => ctrLast s.ctrs
  | 0xC1C => ctrUnlock s
  | 0xC20 => word s.ctrs.refuseCnt
  | 0xC24 => word s.ctrs.authFailCnt
  | 0xC28 => s.ctrs.evt.zeroExtend 32
  | 0xC40 => trkStatus s
  | 0xC44 => loWord s.trk.headSeq
  | 0xC48 => s.trk.headHi
  | 0xC4C => loWord s.trk.relSeq
  | 0xC50 => s.trk.relHi
  | 0xC54 => word ((s.trk.pending.map (fun e => e.id)).getD 0)
  | 0xC58 => loWord ((s.trk.pending.map (fun e => e.last)).getD 0)
  | 0xC5C => s.trk.lastHi
  | 0xC60 => word (s.trk.lostGeneral + s.trk.lostReserve * 2 ^ 16)
  | 0xC64 => word s.trk.damagedCnt
  | 0xC68 => s.trk.evt.zeroExtend 32
  | 0xC80 => rsfStatus s.stored
  | 0xC84 => word s.stored.ceCnt
  | 0xC88 => word s.stored.ueCnt
  | 0xC8C => word s.stored.retireCnt
  | 0xC90 => word s.stored.tornCnt
  | 0xC94 => word s.stored.bsel
  | 0xC98 => s.stored.bankLatch
  | 0xC9C => word s.stored.wsel
  | 0xCA0 => s.stored.weakLatch
  | 0xCA4 => rsfFaultReg s.stored.fault
  | 0xCA8 => s.stored.evt.zeroExtend 32
  | 0xCAC => word s.stored.retAgeReg
  | 0xCB0 => rsfWear s.stored
  | _ => 0

/-- 0x0D00 to 0x0FFF (R523). -/
def readEvents (s : State) (off : Nat) : Word :=
  match off with
  | 0xD00 => loWord s.tel.base.toNat
  | 0xD04 => hiWord s.tel.base.toNat
  | 0xD08 => word (s.tel.depthLog2 + fbit s.tel.enabled 31)
  | 0xD0C => word s.tel.head
  | 0xD10 => word s.tel.tail
  | 0xD14 => word s.tel.lost
  | 0xE00 => loWord s.evts.base.toNat
  | 0xE04 => hiWord s.evts.base.toNat
  | 0xE08 => word (s.evts.depthLog2 + fbit s.evts.enabled 31)
  | 0xE0C => word s.evts.head
  | 0xE10 => word s.evts.tail
  | 0xE14 => word (s.evts.queue.length + fbit (evtFull s.evts) 31)
  | 0xE18 => word s.evts.lost
  | 0xE1C => word s.evts.seq
  | 0xE20 => word (s.evts.coalLow + s.evts.coalHigh * 2 ^ 16)
  | _ =>
    if 0xE40 ≤ off ∧ off < 0xEC0 then bitMap 32 (fun i => tblGet false s.evts.mask ((off - 0xE40) / 4 * 32 + i))
    else if 0xEC0 ≤ off ∧ off < 0xF40 then bitMap 32 (fun i => tblGet false s.evts.pend ((off - 0xEC0) / 4 * 32 + i))
    else 0

/-- 0x1000 to 0x17FF (R146). -/
def readRing (s : State) (off : Nat) : Word :=
  let x := getRing s (.host ((off - 0x1000) / 0x20))
  match off % 0x20 with
  | 0x00 => loWord x.sqBase.toNat
  | 0x04 => hiWord x.sqBase.toNat
  | 0x08 => loWord x.cqBase.toNat
  | 0x0C => hiWord x.cqBase.toNat
  | 0x10 => ringCfg x
  | 0x18 => ringStatus x
  | 0x1C => ringPos x
  | _ => 0

/-- 0x1800 to 0x1FFF: the protection block without its tag interface, and PU_DEBUG (R353, R376). -/
def readPu (s : State) (off : Nat) : Word := if off = 0x1F04 then puDebug s else protRead s (off - 0x1800)

/-- EVT_MAPk (R515). -/
def readMap (e : Events) (off : Nat) : Word :=
  let k := (off - 0x2000) / 4
  word ((mapEntry e (2 * k)).toNat + (mapEntry e (2 * k + 1)).toNat * 2 ^ 16)

/-- The MSI-X table and PBA (R81). -/
def readMsix (l : Link) (off : Nat) : Word :=
  let m := tblGet MsixEntry.reset l.msix ((off - 0x3000) / 16)
  if off < 0x3800 then
    match off % 16 with
    | 0 => loWord m.addr.toNat
    | 4 => hiWord m.addr.toNat
    | 8 => m.data
    | _ => m.control
  else bitMap 32 (fun i => tblGet false l.pba ((off - 0x3800) / 4 * 32 + i))

/-- The dword at a BAR0 offset that is a multiple of 4 (R14: an unassigned one reads as zero). -/
def bar0Read (s : State) (off : Nat) : Word :=
  if off < 0x100 then readLc s off
  else if off < 0x200 then readPcie s.link off
  else if off < 0x400 then readRings s off
  else if off < 0x500 then readSessions s off
  else if off < 0x700 then readEdges s off
  else if off < 0x780 then readBlades s off
  else if off < 0x800 then readPowder s off
  else if off < 0x900 then readGate s off
  else if off < 0xA00 then readPatrol s off
  else if off < 0xB00 then readHut s off
  else if off < 0xC00 then readCard s off
  else if off < 0xD00 then readStores s off
  else if off < 0x1000 then readEvents s off
  else if off < 0x1800 then readRing s off
  else if off < 0x2000 then readPu s off
  else if off < 0x2800 then readMap s.evts off
  else if 0x3000 ≤ off ∧ off < 0x3810 then readMsix s.link off
  else 0

/-! ### Reads that latch -/

/-- A register read returns its value to the link. -/
def returns (v : Word) (s : State) : State := { s with link := { s.link with readData := v } }

/-- R174: CTR_VALUE_LO latches the upper half. -/
def latchCounter (s : State) : State :=
  let v := (counter s s.ctrs.sel).value.toNat
  returns (loWord v) { s with ctrs := { s.ctrs with valueLatch := hiWord v } }

/-- R204: SES_SUM latches the selected context. -/
def latchSession (s : State) : State :=
  let c := tblGet Session.reset s.sess.table s.sess.sel
  returns (sesSum c) { s with sess := { s.sess with latch := c, latchSum := sesSum c } }

/-- R204: VLT_STAT latches the selected slot's registers. -/
def readVltStat (s : State) : State := returns (latchVault s).vault.statLatch (latchVault s)

/-- R267: EDGE_SEL latches the slot map of the selected Edge; an Edge above 67 holds no slot. -/
def latchSlots (s : State) : State :=
  let held := slotsHeld s { kind := .edge, num := s.units.edgeSel }
  returns (word s.units.edgeSel) { s with units := { s.units with
    slotsLatch := BitVec.ofNat 64 ((List.range 64).foldl (fun v i => v + fbit (held.contains i) i) 0) } }

/-- R292: EDGE_CURVE_STAT latches the digest of the selected entry, zero for one that is EMPTY or LOADING. -/
def latchDigest (s : State) : State :=
  returns (curveStat s s.curves.sel) { s with curves := { s.curves with
    digLatch := if (curveStat s s.curves.sel).toNat / 2 ^ 30 % 4 = 1 ∨ (curveStat s s.curves.sel).toNat / 2 ^ 30 % 4 = 2
      then curveDigest s s.curves.sel else [] } }

/-- R426: PTL_SRC_SEL latches PTL_SRC. -/
def latchSource (s : State) : State :=
  returns (word s.patrol.sel) { s with patrol := { s.patrol with selLatch := ptlSrc s (128 + s.patrol.sel) } }

/-- R426, R443, R467: the low half of a 64-bit value latches its high half. -/
def latchHigh (w : HiLo) (s : State) : State :=
  match w with
  | .trkHead => returns (loWord s.trk.headSeq) { s with trk := { s.trk with headHi := hiWord s.trk.headSeq } }
  | .trkRel => returns (loWord s.trk.relSeq) { s with trk := { s.trk with relHi := hiWord s.trk.relSeq } }
  | .trkExportLast =>
    let v := (s.trk.pending.map (fun e => e.last)).getD 0
    returns (loWord v) { s with trk := { s.trk with lastHi := hiWord v } }
  | .hutTime => returns (loWord s.hut.time) { s with hut := { s.hut with timeHi := hiWord s.hut.time } }
  | .almWoTime => returns (loWord s.hut.woTime) { s with alarm := { s.alarm with woTimeHi := hiWord s.hut.woTime } }
  | .ptlLockSeq =>
    returns (loWord s.patrol.lockSeq.toNat) { s with patrol := { s.patrol with
      lockSeqHi := hiWord s.patrol.lockSeq.toNat } }

/-- R400: RSF_BSEL and RSF_WSEL latch their registers. -/
def readRsfSel (weak : Bool) (s : State) : State :=
  if weak then returns (word s.stored.wsel) (latchWeak s) else returns (word s.stored.bsel) (latchBank s)

/-- R513: LC_PROV_STAT latches the public value, zero while VALID is 0. -/
def latchProvision (s : State) : State :=
  returns (word (fbit s.life.provValid 31)) { s with life := { s.life with
    provLatch := if s.life.provValid then s.life.provPub else [] } }

/-! ### The seal (R95 to R97) -/

/-- A write of LC_SEAL. -/
def writeSeal (v : Word) (s : State) : State :=
  { s with life := { s.life with isSealed := s.life.isSealed || v == 0x5EA10001 } }

/-- A write to RWS fields: it acts until the part is sealed. -/
def rws (f : State → State) (s : State) : State := if s.life.isSealed then s else f s

/-! ### Writes of the chapters -/

/-- RING_PCIE_ERR: once its bits [5:1] are all zero, the capture is free again (R94). -/
def clearPcieErr (v : Word) (s : State) : State :=
  let e := w1c s.link.err v.toNat
  { s with link := { s.link with
      err := e, fault := if e &&& 0x3E == 0 then PcieFault.reset else s.link.fault } }

/-- VLT_SEL. -/
def writeVltSel (v : Word) (s : State) : State :=
  { s with vault := { s.vault with selPriv := v.getLsbD 15, selSlot := v.toNat % 256 } }

/-- EDGE_EVT and its capture (R267). -/
def clearEdgeEvt (v : Word) (s : State) : State :=
  { s with units := { s.units with
      edgeEvt := w1c s.units.edgeEvt v.toNat,
      edgeFault := if v.getLsbD 0 then UnitFault.reset else s.units.edgeFault } }

/-- BLADE_EVT and its capture (R235). -/
def clearBladeEvt (v : Word) (s : State) : State :=
  { s with units := { s.units with
      bladeEvt := w1c s.units.bladeEvt v.toNat,
      bladeFault := if v.getLsbD 0 then UnitFault.reset else s.units.bladeFault } }

/-- EDGE_CTRL and BLADE_CTRL: DISABLE takes precedence; a unit out of range sets CMD_IGNORED. -/
def unitCtrl (k : UnitKind) (n : Nat) (v : Word) (s : State) : State :=
  if unitCount k ≤ n then unitCmdIgnored k n s
  else if v.getLsbD 1 then disableUnit k n s
  else if v.getLsbD 0 then enableUnit k n s
  else s

/-- PTL_SEEN of register j. -/
def clearSeen (j : Nat) (v : Word) (s : State) : State :=
  { s with patrol := { s.patrol with
      sources := (List.range 32).foldl (fun t i =>
        if v.getLsbD i then tblMod PSource.reset t (128 + 32 * j + i) (fun p => { p with seen := false }) else t)
        s.patrol.sources } }

/-- CARD_CTRL. -/
def cardCtrl (v : Word) (s : State) : State :=
  if v.getLsbD 1 then disablePort s else if v.getLsbD 0 then enablePort s else s

/-- A field that takes values of a range only. -/
def inRange (lo hi v old : Nat) : Nat := if lo ≤ v ∧ v ≤ hi then v else old

/-- CARD_TMO. -/
def writeCardTmo (v : Word) (s : State) : State :=
  let n := v.toNat
  { s with card := settingsWritten { s.card with
      readAcc := inRange 1 100 (n / 2 ^ 24) s.card.readAcc, busyBlk := inRange 1 255 (n / 2 ^ 16 % 256) s.card.busyBlk,
      final := inRange 1 50 (n / 2 ^ 8 % 256) s.card.final, mbxTmo := inRange 1 255 (n % 256) s.card.mbxTmo } }

/-- RSF_EVT and its capture (R400). -/
def clearRsfEvt (v : Word) (s : State) : State :=
  { s with stored := { s.stored with
      evt := w1c s.stored.evt v.toNat,
      fault := if v.getLsbD 1 then Stored.reset.fault else s.stored.fault } }

/-- PU_EVT and its captures (R364). -/
def clearPuEvt (v : Word) (s : State) : State :=
  { s with prot := { s.prot with
      evt := w1c s.prot.evt v.toNat,
      faults := (List.range 12).foldl (fun t n => if v.getLsbD n then tblSet PuFault.reset t n PuFault.reset else t)
        s.prot.faults } }

/-- The low or high half of a ring base: bits [11:0] are zero (R146, R523). -/
def withLow (b : DWord) (v : Word) : DWord := BitVec.ofNat 64 (b.toNat / 2 ^ 32 * 2 ^ 32 + v.toNat / 4096 * 4096)
def withHigh (b : DWord) (v : Word) : DWord := BitVec.ofNat 64 (b.toNat % 2 ^ 32 + v.toNat * 2 ^ 32)

/-! ### Event and telemetry rings (R518, R523) -/

/-- EVT_RING_CFG: ENABLE starts the ring afresh; DEPTH_LOG2 is fixed while it is ENABLED. -/
def writeEvtCfg (v : Word) (s : State) : State :=
  let e := s.evts
  let on := v.getLsbD 31
  let fresh := on && !e.enabled
  { s with evts := { e with
      enabled := on,
      depthLog2 := if e.enabled then e.depthLog2 else inRange 6 16 (v.toNat % 32) e.depthLog2,
      head := if fresh then 0 else e.head, tail := if fresh then 0 else e.tail, phase := fresh || e.phase } }

/-- TEL_CFG. -/
def writeTelCfg (v : Word) (s : State) : State :=
  let t := s.tel
  let on := v.getLsbD 31
  let fresh := on && !t.enabled
  { s with tel := { t with
      enabled := on,
      depthLog2 := if t.enabled then t.depthLog2 else inRange 3 12 (v.toNat % 32) t.depthLog2,
      head := if fresh then 0 else t.head, tail := if fresh then 0 else t.tail, phase := fresh || t.phase } }

/-- EVT_RING_HEAD, accepted only while the ring is ENABLED and below its depth. -/
def writeEvtHead (v : Word) (s : State) : State :=
  let n := v.toNat % 2 ^ 16
  { s with evts := { s.evts with head := if s.evts.enabled && decide (n < evtDepth s.evts) then n else s.evts.head } }

/-- TEL_HEAD. -/
def writeTelHead (v : Word) (s : State) : State :=
  let n := v.toNat % 2 ^ 12
  { s with tel := { s.tel with head := if s.tel.enabled && decide (n < 2 ^ s.tel.depthLog2) then n else s.tel.head } }

/-- A map entry as written: RECORD reads 1 from source 64 on (R515). -/
def mapWritten (src v : Nat) : BitVec 16 :=
  BitVec.ofNat 16 (v % 128 + (if 64 ≤ src then 2 ^ 8 else v / 2 ^ 8 % 2 * 2 ^ 8) + v / 2 ^ 9 % 2 * 2 ^ 9)

/-- One entry of the map: what equals the reset entry is not listed. -/
def setMap (src v : Nat) (e : Events) : Events :=
  let m := mapWritten src v
  { e with map := if m = mapReset src then e.map.filter (fun p => p.1 != src)
      else tblSet (mapReset src) e.map src m }

/-- EVT_MAPk. -/
def writeMap (k : Nat) (v : Word) (s : State) : State :=
  { s with evts := setMap (2 * k + 1) (v.toNat / 2 ^ 16) (setMap (2 * k) (v.toNat % 2 ^ 16) s.evts) }

/-- A bit table of register j set to a word. -/
def setBits (t : Tbl Bool) (j : Nat) (v : Word) : Tbl Bool :=
  (List.range 32).foldl (fun t i => tblSet false t (32 * j + i) (v.getLsbD i)) t

/-- A bit table of register j cleared where a word is 1. -/
def clearBits (t : Tbl Bool) (j : Nat) (v : Word) : Tbl Bool :=
  (List.range 32).foldl (fun t i => if v.getLsbD i then tblSet false t (32 * j + i) false else t) t

/-- 0x0D00 to 0x0FFF. -/
def writeEvents (off : Nat) (v : Word) (s : State) : State :=
  match off with
  | 0xD00 => rws (fun s => { s with tel := { s.tel with base := if s.tel.enabled then s.tel.base else withLow s.tel.base v } }) s
  | 0xD04 => rws (fun s => { s with tel := { s.tel with base := if s.tel.enabled then s.tel.base else withHigh s.tel.base v } }) s
  | 0xD08 => rws (writeTelCfg v) s
  | 0xD0C => writeTelHead v s
  | 0xE00 =>
    rws (fun s => { s with evts := { s.evts with base := if s.evts.enabled then s.evts.base else withLow s.evts.base v } }) s
  | 0xE04 =>
    rws (fun s => { s with evts := { s.evts with base := if s.evts.enabled then s.evts.base else withHigh s.evts.base v } }) s
  | 0xE08 => rws (writeEvtCfg v) s
  | 0xE0C => writeEvtHead v s
  | 0xE20 => { s with evts := { s.evts with coalLow := v.toNat % 2 ^ 16, coalHigh := v.toNat / 2 ^ 16 } }
  | _ =>
    if 0xE40 ≤ off ∧ off < 0xEC0 then
      { s with evts := { s.evts with mask := setBits s.evts.mask ((off - 0xE40) / 4) v } }
    else if 0xEC0 ≤ off ∧ off < 0xF40 then
      { s with evts := { s.evts with pend := clearBits s.evts.pend ((off - 0xEC0) / 4) v } }
    else s

/-! ### Rings and MSI-X -/

/-- An RWS field of a host ring: ignored after seal and while the ring is not DISABLED (R146). -/
def ringField (n : Nat) (f : Ring → Ring) (s : State) : State :=
  rws (modRing (.host n) (fun x => if x.state == .disabled then f x else x)) s

/-- RING_CFG. -/
def withRingCfg (v : Word) (x : Ring) : Ring :=
  { x with depthLog2 := inRange 6 16 (v.toNat % 32) x.depthLog2, cls := clsOfCode (v.toNat / 2 ^ 8 % 4),
           haltMode := v.getLsbD 12 }

/-- 0x1000 to 0x17FF. -/
def writeRing (off : Nat) (v : Word) (s : State) : State :=
  let n := (off - 0x1000) / 0x20
  match off % 0x20 with
  | 0x00 => ringField n (fun x => { x with sqBase := withLow x.sqBase v }) s
  | 0x04 => ringField n (fun x => { x with sqBase := withHigh x.sqBase v }) s
  | 0x08 => ringField n (fun x => { x with cqBase := withLow x.cqBase v }) s
  | 0x0C => ringField n (fun x => { x with cqBase := withHigh x.cqBase v }) s
  | 0x10 => ringField n (withRingCfg v) s
  | 0x14 => ringCtrl (.host n) v [] s
  | 0x18 => ringStatusClear (.host n) v s
  | _ => s

/-- One dword of the MSI-X table; a message that was pending behind a mask bit now cleared leaves (R90). -/
def writeMsix (off : Nat) (v : Word) (s : State) : State :=
  { s with link := releaseMsix { s.link with
      msix := tblMod MsixEntry.reset s.link.msix ((off - 0x3000) / 16) (fun m =>
        match off % 16 with
        | 0 => { m with addr := BitVec.ofNat 64 (m.addr.toNat / 2 ^ 32 * 2 ^ 32 + v.toNat) }
        | 4 => { m with addr := withHigh m.addr v }
        | 8 => { m with data := v }
        | _ => { m with control := v &&& 1 }) } }

/-! ### BAR0 writes -/

/-- 0x0000 to 0x0CFF, by offset. -/
def writeBlock (off : Nat) (v : Word) (s : State) : State :=
  match off with
  | 0x020 => writeSeal v s
  | 0x070 => { s with life := { s.life with evt := w1c s.life.evt v.toNat } }
  | 0x100 => rws (fun s => { s with link := { s.link with dataRo := v.getLsbD 0 } }) s
  | 0x108 => clearPcieErr v s
  | 0x400 => { s with sess := { s.sess with sel := v.toNat % 2 ^ 12 } }
  | 0x460 => writeVltSel v s
  | 0x498 => { s with vault := { s.vault with evt := w1c s.vault.evt v.toNat } }
  | 0x4A8 => { s with units := { s.units with liftEvt := s.units.liftEvt && !(v.getLsbD 0) } }
  | 0x610 => writeSlotLen (v.toNat % 64) s
  | 0x614 => unitCtrl .edge (v.toNat / 2 ^ 8 % 128) v s
  | 0x618 => clearEdgeEvt v s
  | 0x620 => { s with units := { s.units with edgeSel := v.toNat % 128 } }
  | 0x640 => { s with curves := { s.curves with sel := v.toNat % 32 } }
  | 0x748 => unitCtrl .blade (v.toNat / 2 ^ 8 % 32) v s
  | 0x74C => clearBladeEvt v s
  | 0x788 => { s with powder := { s.powder with cellSel := v.toNat % 8 } }
  | 0x798 => { s with powder := { s.powder with evt := w1c s.powder.evt v.toNat } }
  | 0x79C => writeTest v s
  | 0x7A0 => writeTestData v s
  | 0x7E8 => { s with powder := { s.powder with grmEvt := w1c s.powder.grmEvt v.toNat } }
  | 0x80C => rws (fun s => { s with gate := { s.gate with rdLat := inRange 2 16 (v.toNat % 32) s.gate.rdLat } }) s
  | 0x838 => { s with gate := { s.gate with evt := w1c s.gate.evt v.toNat } }
  | 0x914 => clearSeen 0 v s
  | 0x918 => clearSeen 1 v s
  | 0x91C => clearSeen 2 v s
  | 0x920 => clearSeen 3 v s
  | 0x924 => { s with patrol := { s.patrol with sel := v.toNat % 128 } }
  | 0x93C => { s with patrol := { s.patrol with evt := w1c s.patrol.evt v.toNat } }
  | 0xA14 => { s with hut := { s.hut with evt := w1c s.hut.evt v.toNat } }
  | 0xA78 => { s with alarm := { s.alarm with evt := w1c s.alarm.evt v.toNat } }
  | 0xB04 => rws (fun s => { s with card := settingsWritten { s.card with
      wideEn := v.getLsbD 0, hsEn := v.getLsbD 1, unlockEn := v.getLsbD 4 } }) s
  | 0xB08 => cardCtrl v s
  | 0xB0C => rws (writeCardTmo v) s
  | 0xB3C => { s with card := { s.card with evt := w1c s.card.evt v.toNat } }
  | 0xC00 => { s with ctrs := { s.ctrs with sel := v.toNat % 256 } }
  | 0xC28 => { s with ctrs := { s.ctrs with evt := w1c s.ctrs.evt v.toNat } }
  | 0xC68 => { s with trk := { s.trk with evt := w1c s.trk.evt v.toNat } }
  | 0xC94 => { s with stored := { s.stored with bsel := v.toNat % 128 } }
  | 0xC9C => { s with stored := { s.stored with wsel := v.toNat % 64 } }
  | 0xCA8 => clearRsfEvt v s
  | _ => s

/-- A one-DWORD write of BAR0 (R12 to R14, R89).  A write of the MSI-X PBA changes nothing (DESIGN CHOICE, log entry 78). -/
def bar0Write (off : Nat) (v : Word) (s : State) : State :=
  if off < 0xD00 then writeBlock off v s
  else if off < 0x1000 then writeEvents off v s
  else if off < 0x1800 then writeRing off v s
  else if off = 0x1E00 then { s with prot := { s.prot with gsel := v.toNat % 32 } }
  else if off = 0x1F00 then clearPuEvt v s
  else if 0x2000 ≤ off ∧ off < 0x2800 then rws (writeMap ((off - 0x2000) / 4) v) s
  else if 0x3000 ≤ off ∧ off < 0x3800 then writeMsix off v s
  else s

/-- A write by supervisor code to the protection block, offsets from 0x5000_0000 (R353, R368). -/
def peripheralWrite (off : Nat) (v : Word) (s : State) : State :=
  if 0x2000 ≤ off ∧ off < 0x2900 then protWrite (off - 0x2000) v s else s

/-- A write of configuration space (R80, R81, R87, R102): Memory Space Enable, the base addresses, Device Control 2 and the
error status of AER; Bus Master Enable, MSI-X, Device Control and the power state have rows of their own. -/
def configWrite (off : Nat) (v : Word) (s : State) : State :=
  let l := s.link
  { s with link := match off with
    | 0x04 => { l with mse := v.getLsbD 1 }
    | 0x10 => { l with bar0 := BitVec.ofNat 64 (l.bar0.toNat / 2 ^ 32 * 2 ^ 32 + v.toNat / 0x4000 * 0x4000) }
    | 0x14 => { l with bar0 := BitVec.ofNat 64 (v.toNat * 2 ^ 32 + l.bar0.toNat % 2 ^ 32) }
    | 0x18 => { l with bar2 := BitVec.ofNat 64 (l.bar2.toNat / 2 ^ 32 * 2 ^ 32 + v.toNat / 0x40000 * 0x40000) }
    | 0x1C => { l with bar2 := BitVec.ofNat 64 (v.toNat * 2 ^ 32 + l.bar2.toNat % 2 ^ 32) }
    | 0x98 => { l with devctl2 := v.truncate 5 }
    | 0x104 => { l with aer := l.aer &&& ~~~ v }
    | _ => l }

/-- A register write in any space; an offset that is no multiple of 4 addresses no register (R89). -/
def writeRegister (space : RegSpace) (off : Nat) (v : Word) (s : State) : State :=
  match space with
  | .bar0 => if off % 4 = 0 then bar0Write off v s else badAccess s
  | .peripheral => if off % 4 = 0 then peripheralWrite off v s else s
  | .config => if off % 4 = 0 then configWrite off v s else s

/-! ### Telemetry (R521, R522) -/

/-- The totals that the per-second counts grow from. -/
def totalsNow (s : State) : Totals :=
  { admitted := s.tel.admitted, refused := s.gate.refused, retried := s.gate.retryCnt, late := s.gate.lateCnt,
    ce := s.stored.ceCnt, ue := s.stored.ueCnt, incs := s.ctrs.incs, blocks := s.powder.blocks,
    fails := s.powder.failCnt, reseeds := s.powder.reseedCnt }

/-- The fewest spare rows of any bank, and that bank: the lowest where several share them. -/
def sparesMin (s : State) : Nat × Nat :=
  (List.range 102).foldl (fun best b => if sparesLeft s b < best.1 then (sparesLeft s b, b) else best) (sparesLeft s 0, 0)

/-- The lowest long credit of an assigned counter, and that counter. -/
def creditMin (s : State) : Nat × Nat :=
  ((List.range 256).filter (fun n => counterOwner s n != 0xFF)).foldl
    (fun best n => if (counter s n).long < best.1 then ((counter s n).long, n) else best) ((counter s 0).long, 0)

/-- STATE of a telemetry record. -/
def telState (s : State) : Nat :=
  bandCode s.gate.band + bandCode (planBand s.gate.band) * 2 ^ 2 + fbit (inWhiteout s) 4 + fbit (isLocked s) 5 +
    fbit (rngDegraded s) 6 + fbit s.life.isSealed 7

/-- The growth of a table of four counts. -/
def grown (now before : Tbl Nat) : Bytes :=
  (List.range 4).flatMap (fun i => bytesLE 4 (tblGet 0 now i - tblGet 0 before i))

/-- The 256 bytes of a record; `busy` is the measured share of units busy. -/
def telemetryRaw (s : State) (busy : List Nat) : Bytes :=
  let t := totalsNow s
  let p := s.tel.prev
  let cell := fun (n : Nat) => tblGet Cell.reset s.powder.cells n
  bytesLE 8 s.hut.time ++ bytesLE 4 (s.tel.seq + 1) ++ bytesLE 4 (1 + telState s * 2 ^ 16) ++
  bytesLE 4 (gateTj s.gate).toNat ++
  bytesLE 4 (s.gate.derate + s.gate.siMin * 2 ^ 16 + s.gate.siMinMon * 2 ^ 24) ++
  (List.range 16).map (fun n => BitVec.ofNat 8 (tblGet 128 s.gate.siLatest n)) ++
  (List.range 16).map (fun n => BitVec.ofNat 8 (tblGet (tblGet 128 s.gate.siLatest n) s.tel.siLowSec n)) ++
  grown t.admitted p.admitted ++ grown t.refused p.refused ++ bytesLE 4 s.tel.inflightMax ++
  (List.range 6).map (fun n => BitVec.ofNat 8 (busy.getD n 0)) ++ [0, 0] ++
  bytesLE 4 (t.retried - p.retried) ++ bytesLE 4 (t.late - p.late) ++ bytesLE 4 (t.ce - p.ce) ++
  bytesLE 4 (t.ue - p.ue) ++ bytesLE 4 (s.stored.weak.length + s.stored.retireCnt % 2 ^ 16 * 2 ^ 16) ++
  bytesLE 4 s.stored.retAgeReg ++ bytesLE 4 ((sparesMin s).1 + (sparesMin s).2 * 2 ^ 8) ++
  bytesLE 4 (rsfWear s.stored).toNat ++ bytesLE 4 (t.incs - p.incs) ++
  bytesLE 4 ((creditMin s).1 + (creditMin s).2 * 2 ^ 24) ++ bytesLE 4 (t.blocks - p.blocks) ++
  bytesLE 4 (min 0xFFFF (t.fails - p.fails) + s.powder.failedRestarts * 2 ^ 16 + powderCode s.powder.state * 2 ^ 24) ++
  (List.range 8).flatMap (fun n => bytesLE 2 (cell n).ones) ++
  (List.range 8).map (fun n => BitVec.ofNat 8 (cell n).trim) ++ bytesLE 4 (t.reseeds - p.reseeds) ++
  bytesLE 4 (hutVbat s.hut).toNat ++ bytesLE 4 s.hut.hotMin ++ bytesLE 4 (ptlStatus s).toNat ++
  bytesLE 4 s.evts.lost ++ List.replicate 60 0 ++ bytesLE 4 (if s.tel.phase then 2 ^ 31 else 0)

/-- The telemetry DMA's read of the peripheral registers, as unit 9 checks it: one access at their base, since the manual does
not say which it reads (DESIGN CHOICE, log entry 82). -/
def telemetryAcc : Acc := { unit := 9, user := false, applet := none, kind := .read, addr := 0x50000000 }

/-- R365: a read that unit 9 denies is captured and recorded in Tracks, and the record is not written. -/
def telemetryRead (s : State) : State :=
  match checkAcc s telemetryAcc with
  | .deny r e t c => traceFault 9 (captureFault telemetryAcc r e t c s)
  | _ => s

/-- TELEMETRY_RECORD: the record is built; it is written, or lost for want of room, of the ring or of the bus. -/
def recordSecond (busy : List Nat) (s0 : State) : State :=
  let s := telemetryRead s0
  let t := s.tel
  let full := (t.tail + 1) % 2 ^ t.depthLog2 == t.head
  let write := t.enabled && s.link.bme && !full && checkAcc s0 telemetryAcc == .pass
  let wraps := t.tail + 1 == 2 ^ t.depthLog2
  let s1 := { s with
    link := { s.link with posted := if write then s.link.posted ++ [.telemetry t.tail (telemetryRaw s busy)]
      else s.link.posted },
    tel := { t with
      seq := (t.seq + 1) % 2 ^ 32, prev := totalsNow s, siLowSec := [], inflightMax := (tagsHeld s).length,
      tail := if !write then t.tail else if wraps then 0 else t.tail + 1,
      phase := t.phase != (write && wraps), lost := if write then t.lost else sat32 t.lost } }
  if write then s1 else raiseLost s1

/-! ### The rows -/

def execRegisterWrite (space : RegSpace) (off : Nat) (v : Word) (s : State) : Host.Outcome State Fault Refusal :=
  .next (writeRegister space off v s)

/-- R95. -/
def execLcSeal (v : Word) (s : State) : Host.Outcome State Fault Refusal := .next (writeSeal v s)

/-- RING_CTRL of R143 to R145, one row for each bit. -/
def execRingEnable (n : Nat) (s : State) : Host.Outcome State Fault Refusal := .next (enableRing (.host n) s)

def execRingDisable (n : Nat) (s : State) : Host.Outcome State Fault Refusal := .next (disableRing (.host n) s)

def execRingRearm (n : Nat) (s : State) : Host.Outcome State Fault Refusal := .next (rearmCommand (.host n) none s)

/-- REARM with FLUSH; `reads` is what its reads of the flushed descriptors bring (R136). -/
def execRingRearmFlush (n : Nat) (reads : List FlushRead) (s : State) : Host.Outcome State Fault Refusal :=
  .next (rearmCommand (.host n) (some reads) s)

/-- R349: an applet's stores to its ring port. -/
def execRingPortDb (n : Nat) (v : Word) (s : State) : Host.Outcome State Fault Refusal := .next (portWrite n 0x000 v s)

def execRingPortEnable (n : Nat) (s : State) : Host.Outcome State Fault Refusal := .next (portWrite n 0x004 1 s)

def execRingPortDisable (n : Nat) (s : State) : Host.Outcome State Fault Refusal := .next (portWrite n 0x004 2 s)

def execRingPortRearm (n : Nat) (s : State) : Host.Outcome State Fault Refusal := .next (portWrite n 0x004 4 s)

def execRingPortRearmFlush (n : Nat) (s : State) : Host.Outcome State Fault Refusal := .next (portWrite n 0x004 12 s)

def execCtrValueRead (s : State) : Host.Outcome State Fault Refusal := .next (latchCounter s)

def execSesSumRead (s : State) : Host.Outcome State Fault Refusal := .next (latchSession s)

def execVltStatRead (s : State) : Host.Outcome State Fault Refusal := .next (readVltStat s)

def execEdgeSelRead (s : State) : Host.Outcome State Fault Refusal := .next (latchSlots s)

def execEdgeCurveStatRead (s : State) : Host.Outcome State Fault Refusal := .next (latchDigest s)

def execPtlSrcSelRead (s : State) : Host.Outcome State Fault Refusal := .next (latchSource s)

def execHiHalfLatchRead (w : HiLo) (s : State) : Host.Outcome State Fault Refusal := .next (latchHigh w s)

def execRsfSelRead (weak : Bool) (s : State) : Host.Outcome State Fault Refusal := .next (readRsfSel weak s)

def execLcProvStatRead (s : State) : Host.Outcome State Fault Refusal := .next (latchProvision s)

def execEvtRingHeadWrite (v : Word) (s : State) : Host.Outcome State Fault Refusal := .next (writeEvtHead v s)

def execTelHeadWrite (v : Word) (s : State) : Host.Outcome State Fault Refusal := .next (writeTelHead v s)

/-- A write of EVT_RING_CFG with ENABLE 1 and a depth. -/
def execEvtRingEnable (depthLog2 : Nat) (s : State) : Host.Outcome State Fault Refusal :=
  .next (rws (writeEvtCfg (word (depthLog2 % 32 + 2 ^ 31))) s)

/-- A write of TEL_CFG with ENABLE 1 and a depth. -/
def execTelRingEnable (depthLog2 : Nat) (s : State) : Host.Outcome State Fault Refusal :=
  .next (rws (writeTelCfg (word (depthLog2 % 32 + 2 ^ 31))) s)

/-- R517: the ring DMA writes the next record. -/
def execEventRecordWrite (s : State) : Host.Outcome State Fault Refusal := .next (writeRecord s)

/-- R517: a hold ends, and the ring DMA goes on. -/
def execEventHoldExpiry (src : Nat) (s : State) : Host.Outcome State Fault Refusal := .next (writeRecord (expireHold src s))

/-- R520. -/
def execCoalesceIntervalEnd (v : Nat) (s : State) : Host.Outcome State Fault Refusal := .next (endInterval v s)

/-- R521. -/
def execTelemetryRecord (busy : List Nat) (s : State) : Host.Outcome State Fault Refusal := .next (recordSecond busy s)

end Sys2Proof.Machine
end

