-- ==== Sys2Proof/Machine/Link.lean ====
section
/-!
DEFINITION. Sys2Proof/Machine/Link.lean: what the link brings besides register accesses: its training, the configuration writes
that the part acts on, Bus Master Enable, and the resets of R99 that re-run no start-up (R79 to R90, R99 to R101, R138).
-/
namespace Sys2Proof.Machine

/-! ### Jobs that a reset ends (R101) -/

/-- A tag that no job holds: it stands on the card port for a job that a reset has ended, until the port stops. -/
def goneTag : Nat := 0xFFFFFFFF

/-- Units that the jobs were placed on. -/
def unitsOf (js : List Job) : List UnitRef :=
  (js.flatMap (fun j => j.places.filterMap (fun p => match p.res with
    | .unit u => some u
    | _ => none) ++ j.unit.toList)).eraseDups

/-- Jobs end without an entry: they leave the part, their references, reservations and memory with them; a transfer on the card
stops at its next block boundary (R486). -/
def endJobs (ends : Job → Bool) (s : State) : State :=
  let js := s.rings.jobs.filter ends
  let s1 := js.foldl (fun s j => giveBackCredit j s) s
  let s0 := js.foldl (fun s j => releaseStaging j.tag (clearJobMemory j s)) s1
  let s2 := releaseKeygen (js.filter (fun j => j.stage != .finished && j.stage != .built)) { s0 with
    rings := { s0.rings with jobs := s0.rings.jobs.filter (fun j => !(ends j)) },
    units := { s0.units with arbSince := s0.units.arbSince.filter (fun p => !(js.any (fun j => j.tag == p.1))) },
    card := { s0.card with job := if js.any (fun j => s0.card.job == some j.tag) then some goneTag else s0.card.job } }
  settleUnits (unitsOf js) s2

/-- A host ring after a reset of R99: DISABLED, its RWS fields at their reset values, its other fields as they stand. -/
def resetRing (x : Ring) : Ring :=
  { disabledRing x with sqBase := 0, cqBase := 0, haltMode := false, cls := .L, depthLog2 := 6 }

/-- Every host ring changed by f, and every host job ended. -/
def dropHost (f : Ring → Ring) (s : State) : State :=
  let s1 := endJobs (fun j => isHost j.ring) s
  { s1 with
    rings := { s1.rings with host := tblModAll Ring.reset (s1.rings.host.map Prod.fst) s1.rings.host (fun _ x => f x) },
    link := { s1.link with heldEntries := [] } }

/-- Host jobs in flight: those that hold a tag. -/
def hostJobs (s : State) : Nat := (s.rings.jobs.filter (fun j => isHost j.ring && decide (j.tag < 2048))).length

/-- The one Tracks entry of R101. -/
def traceEnded (origin n : Nat) (s : State) : State := trkRequest (trkReq 0x0101 origin (bytesLE 4 n)) s

/-! ### Resets of R99 that re-run no start-up -/

/-- R99: the RWS fields of BAR0 outside the rings at their reset values, and the seal cleared. -/
def resetRws (s : State) : State :=
  { s with
    life := { s.life with isSealed := false },
    link := { s.link with dataRo := false },
    gate := { s.gate with rdLat := 12 },
    units := { s.units with slotLen := 3 },
    card := settingsWritten { s.card with
      unlockEn := true, hsEn := true, wideEn := true, readAcc := 0x0A, busyBlk := 0x05, final := 0x19, mbxTmo := 0x14 },
    evts := { s.evts with base := 0, enabled := false, depthLog2 := 6, map := [] },
    tel := { s.tel with base := 0, enabled := false, depthLog2 := 3 } }

/-- Configuration space, MSI-X table and PBA, as the Base Specification resets them (log entry 22). -/
def resetConfig (keepPayload : Bool) (s : State) : State :=
  { s with link := { s.link with
      mps := if keepPayload then s.link.mps else 0, mrrs := 2, extendedTag := true, relaxedOrdering := true,
      bme := false, mse := false, bar0 := 0, bar2 := 0, devctl2 := 0, msixEnable := false, functionMask := false, d3hot := false,
      msix := [], pba := [] } }

/-- A hot reset, link down, Function Level Reset or D3hot-to-D0 transition (R99 to R101). -/
def functionReset (origin : Nat) (keepPayload : Bool) (s : State) : State :=
  if inReset s then s
  else
    let n := hostJobs s
    let s1 := resetConfig keepPayload (resetRws (dropHost resetRing s))
    portNext (setPcieErr 0x80 (traceEnded origin n s1))

/-! ### Bus Master Enable (R88, R90) -/

/-- Host rings of jobs, each once, in rising order. -/
def jobRings (js : List Job) : List Nat :=
  (List.range 64).filter (fun n => js.any (fun j => j.ring == .host n))

/-- BME_CLEAR; BME_DROP raises the error sources of the rings whose jobs it ends (R88, R94). -/
def clearBme (s : State) : State :=
  if !s.link.bme then s
  else
    let s1 := { s with link := { s.link with bme := false } }
    if s.rings.host.any (fun p => p.2.state != .disabled) then
      let s2 := setPcieErr 0x40 (traceEnded 4 (hostJobs s) (dropHost disabledRing s1))
      portNext ((jobRings s.rings.jobs).foldl (fun s n => raiseRing (.host n) s) s2)
    else s1

/-- BUS_MASTER_ENABLE_SET: pending messages may leave.  Step 2 of R102 sets Memory Space Enable with it (log entry 77). -/
def setBme (s : State) : State := { s with link := releaseMsix { s.link with bme := true, mse := true } }

/-- MSIX_UNMASK. -/
def unmaskMsix (op : MsixOp) (l : Link) : Link :=
  releaseMsix (match op with
    | .unmaskVector v => { l with msix := tblMod MsixEntry.reset l.msix v (fun m => { m with control := m.control &&& ~~~ 1 }) }
    | .clearFunctionMask => { l with functionMask := false }
    | .setEnable => { l with msixEnable := true }
    | .setFunctionMask => { l with functionMask := true }
    | .clearEnable => { l with msixEnable := false })

/-! ### Posted-write credit (R126, R138) -/

/-- Output and entries that wait for credit leave, and the entries and flushes of every host ring go on. -/
def releaseHeld (s : State) : State :=
  let s1 := (s.rings.jobs.filter (fun j => isHost j.ring && !j.out.isEmpty)).foldl
    (fun s j => requestBack j.tag (releaseOutput j.tag s)) s
  let s2 := s.link.heldEntries.foldl (fun s e => entryNow (.host e.1) e.2.1 e.2.2 s)
    { s1 with link := { s1.link with heldEntries := [] } }
  (s.rings.host.map Prod.fst).foldl (fun s n => advanceRing (.host n) s) s2

/-- POSTED_WRITE_CREDIT_RETURN. -/
def returnWriteCredit (s : State) : State := releaseHeld { s with link := { s.link with creditStalled := false } }

/-! ### The rows -/

def execMsixUnmask (op : MsixOp) (s : State) : Host.Outcome State Fault Refusal :=
  .next { s with link := unmaskMsix op s.link }

def execBmeClear (s : State) : Host.Outcome State Fault Refusal := .next (clearBme s)

/-- R82: the function is in D3hot. -/
def execD3hotEntry (s : State) : Host.Outcome State Fault Refusal :=
  .next { s with link := { s.link with d3hot := true } }

/-- R82, R100: a write of D0 from D3hot performs the function reset. -/
def execD3hotToD0 (s : State) : Host.Outcome State Fault Refusal :=
  .next (if s.link.d3hot then functionReset 3 true s else s)

def execFunctionLevelReset (s : State) : Host.Outcome State Fault Refusal := .next (functionReset 3 true s)

def execHotReset (linkDown : Bool) (s : State) : Host.Outcome State Fault Refusal :=
  .next (functionReset 2 false { s with link := { s.link with up := s.link.up && !linkDown } })

/-- R82: the link reaches L0. -/
def execLinkUp (gen width : Nat) (s : State) : Host.Outcome State Fault Refusal :=
  .next { s with link := { s.link with up := true, gen := gen, width := width } }

/-- R85: the Gate plans at the rates of the new generation and width. -/
def execLinkChange (gen width : Nat) (s : State) : Host.Outcome State Fault Refusal :=
  .next { s with link := { s.link with gen := gen, width := width } }

/-- R83, R84: Device Control. -/
def execDeviceControlWrite (mps mrrs : Nat) (extendedTag relaxedOrdering : Bool) (s : State) :
    Host.Outcome State Fault Refusal :=
  .next { s with link := { s.link with
    mps := mps, mrrs := mrrs, extendedTag := extendedTag, relaxedOrdering := relaxedOrdering } }

def execPostedWriteCreditReturn (s : State) : Host.Outcome State Fault Refusal := .next (returnWriteCredit s)

def execBusMasterEnableSet (s : State) : Host.Outcome State Fault Refusal := .next (setBme s)

end Sys2Proof.Machine
end

