-- ==== Sys2Proof/Machine/Power.lean ====
section
/-!
DEFINITION. Sys2Proof/Machine/Power.lean: the two resets of the part and the start-up order (R23, R365 to R372, R381, R394, R395,
R407, R432, R446, R453, R454, R495 to R513).
-/
namespace Sys2Proof.Machine

/-! ### Assertion of PORST_N or PERST_N (R497 to R501, R506) -/

/-- What a reset leaves of an applet: its store image; one that was being removed is gone.  Nothing acts on the rest until
step 9 (log entry 23).  Its restarts count from power-on, that is PORST_N (R337, R498). -/
def appletAtReset (por : Bool) (old : Applet) : Applet :=
  let a := if por then { old with restarts := 0 } else old
  if a.state == .empty || a.state == .removing then { Applet.reset with restarts := a.restarts }
  else { Applet.reset with state := .faulted, cls := a.cls, image := a.image, sha := a.sha, restarts := a.restarts }

/-- Counters that belonged to applets whose removal the reset completes go back to nobody (R338). -/
def releaseRemoved (s : State) (c : Counter) : Counter :=
  if 0x20 ≤ c.owner ∧ c.owner < 0x40 ∧ (applet s (c.owner - 0x20)).state = .removing then { c with owner := 0xFF } else c

/-- The words of SRAM banks are clear; those of the MRAM banks and of the Hut's SRAM keep their condition. -/
def keepMarks (marks : Tbl WordCond) : Tbl WordCond :=
  marks.filter (fun p => decide (p.1 < 4 * 0x40000) || (decide (0xF * 0x40000 ≤ p.1) && decide (p.1 < 0x10 * 0x40000)))

/-- The stored-data records after a reset; a loss of power also loses the wear counts since their last save. -/
def storedAtReset (por : Bool) (x : Stored) : Stored :=
  { Stored.reset with
    marks := keepMarks x.marks, retired := x.retired, retireCnt := x.retireCnt, retAge := x.retAge,
    retAgeReg := x.retAgeReg, rowWrites := if por then x.saved else x.rowWrites, saved := x.saved, ctrWrites := x.ctrWrites }

/-- The card port after a reset: the card powered off, its off time running, CARD_MBX cleared (R500). -/
def cardAtReset (s : State) : Card :=
  { Card.reset with
    offSince := if s.card.power then s.now else s.card.offSince, offRunning := s.card.power || s.card.offRunning,
    state := if s.card.power || s.card.offRunning then .offWait else .none }

/-- An alarm input after a reset that re-runs start-up (R456). -/
def inputAtReset (i : AlmInput) : AlmInput := { AlmInput.reset with func := i.func }

/-- A Groomer after a reset: nothing but its count of instantiations, which runs from power-on (R302, R498). -/
def groomerAtReset (por : Bool) (g : Groomer) : Groomer := { Groomer.reset with insts := if por then 0 else g.insts }

/-- Everything that a reset of R498 clears (R500); every field of BAR0 returns to its reset value (R99). -/
def clearForReset (por : Bool) (s : State) : State :=
  let s1 := s.rings.jobs.foldl (fun s j => giveBackCredit j s) s
  { s1 with
    life := { s1.life with
      isSealed := false, startDone := false, startFail := false, startStep := 0, startCode := 0, aborted := false, cause := 0,
      startTime := 0, evt := 0, provValid := false, provPub := [], provLatch := [] },
    link := { Link.reset with posted := s1.link.posted, requests := s1.link.requests },
    gate := Gate.reset,
    rings := RingBlock.reset,
    units := Units.reset,
    curves := { Curves.reset with table := s1.curves.table },
    sess := Sessions.reset,
    vault := { Vault.reset with
      root := s1.vault.root,
      priv := tblModAll VSlot.reset (s1.vault.priv.map Prod.fst) s1.vault.priv (fun _ v => { v with reserved := false }) },
    ctrs := { Counters.reset with
      enabled := s1.ctrs.enabled, grant := s1.ctrs.grant,
      table := tblModAll Counter.reset (s1.ctrs.table.map Prod.fst) s1.ctrs.table
        (fun _ c => { releaseRemoved s c with short := 1000 }) },
    powder := { Powder.reset with
      reserve := s1.powder.reserve,
      grm := tblModAll Groomer.reset [0, 1, 2, 3] s1.powder.grm (fun _ g => groomerAtReset por g) },
    merya := { Merya.reset with
      apps := tblModAll Applet.reset (s1.merya.apps.map Prod.fst) s1.merya.apps (fun _ a => appletAtReset por a) },
    prot := Protection.reset,
    mem := memErase s1.mem 0x10000000 0x400000,
    stored := storedAtReset por s1.stored,
    patrol := { s1.patrol with
      sources := [], firstValid := false, firstLevel := .note, firstSource := 0, evt := 0, lockSeqHi := 0, sel := 0,
      selLatch := 0, zeroTime := 0, erasing := false, unitFaults := [] },
    trk := { s1.trk with
      ready := false, queue := [], damagedCnt := 0, evt := 0, headHi := 0, relHi := 0, lastHi := 0 },
    hut := { s1.hut with evt := 0, timeHi := 0 },
    alarm := { Alarm.reset with
      inputs := tblModAll AlmInput.reset (s1.alarm.inputs.map Prod.fst) s1.alarm.inputs (fun _ i => inputAtReset i),
      resetSeen := s1.alarm.resetSeen },
    card := cardAtReset s1,
    evts := { Events.reset with seq := if por then 0 else s1.evts.seq },
    tel := { Telemetry.reset with seq := if por then 0 else s1.tel.seq } }

/-- A reset is asserted; the first assertion remembers how far the start-up had come (R433, R501). -/
def assertReset (por : Bool) (s : State) : State :=
  let s1 := clearForReset por (flushTracks s)
  { s1 with
    life := { s1.life with
      prior := if inReset s then s.life.prior else s.life.startStep,
      porst := s.life.porst || por, perst := s.life.perst || !por, porstSeen := s.life.porstSeen || por },
    hut := { s1.hut with
      supply := if por then chooseSupply false s1.hut.supply s1.hut.vbat1 s1.hut.vbat2 else s1.hut.supply } }

/-! ### Step 1: the Hut's handover (R446, R454) -/

/-- A latch without a majority reads as set; Raze-pending only where Raze is enabled. -/
def splitLatch (s : State) (n : Nat) : State :=
  { s with hut := { s.hut with
      locked := s.hut.locked || n == 0, purged := s.hut.purged || n == 1,
      razePending := s.hut.razePending || (n == 2 && s.patrol.razeEnabled), whiteout := s.hut.whiteout || n == 3 } }

/-- The standing level that the latches give. -/
def latchedLevel (s : State) : Level :=
  if !(isLocked s) then .note else if s.hut.razePending then .raze else if isPurged s then .purge else .lock

/-- The Hut held nothing while it was dead; what has an MRAM copy comes from there.  Long credits restart at zero, below the
mark of CTR_EVT.CREDIT_LOW (R173, R174). -/
def loseHut (s0 : State) : State :=
  let s := setCtrEvt 4 s0
  let last := match s.trk.entries.getLast? with
    | some e => e.time
    | none => 0
  { s with
    hut := { s.hut with
      time := last + 1, frac := 0, locked := false, purged := s.hut.purgedMram,
      razePending := s.hut.razeMram || s.patrol.razeEnabled, whiteout := false, hotMin := s.hut.hotMram, hotRem := 0,
      cause := 0, input := 0, zones := 0, reason := 0, woTime := 0, buffer := [], hutLost := true },
    ctrs := { s.ctrs with
      table := tblModAll Counter.reset (List.range 256) s.ctrs.table (fun _ c => { c with long := 0 }) },
    alarm := { s.alarm with resetSeen := false },
    trk := { s.trk with timeRestart := true } }

/-- The loss acts as a trip of source 223: no detector reports, and the source clears one second later. -/
def tripLost (s : State) : State :=
  tripActs 223 (standingLevel s) { s with patrol := { s.patrol with
    sources := tblMod PSource.reset s.patrol.sources 223 (fun p => { p with active := true, seen := true, trips := sat16 p.trips }) } }

def stepHut (i : StartInputs) (s : State) : State × Nat :=
  if !i.hutAnswers then (s, 0x01)
  else
    let lost := s.life.cause == 1 && s.hut.supply == .none
    let s1 := if lost then loseHut s
      else i.splitLatches.foldl splitLatch { s with hut := { s.hut with hutLost := s.hut.hutLost && s.life.cause != 1 } }
    let s2 := { s1 with hut := { s1.hut with supply := .vio }, patrol := { s1.patrol with standing := latchedLevel s1 } }
    (if lost then tripLost (setHutEvt 8 s2) else s2, 0)

/-! ### Step 2: the integrity pass (R394, R395) -/

/-- A torn word is erased, or restored from its copy where the area is duplicated. -/
def eraseTorn (s : State) (w : Nat × Nat) : State :=
  if 4 ≤ w.1 ∨ bankWords w.1 ≤ w.2 then s
  else
    let dup := duplicated w.1 w.2
    let counterWord := w.1 == 2 && decide (w.2 < 0xA000)
    let n := w.2 / 160
    let s1 := setRsfEvt 1 w.1 w.2 (setCond w.1 w.2 (if dup then .good else .clear) (wearWrite w.1 w.2 s))
    let s2 := { s1 with
      stored := { s1.stored with tornCnt := sat16 s1.stored.tornCnt },
      mem := if dup then s1.mem else memErase s1.mem (0x20000000 + w.1 * 0x200000 + 8 * w.2) 8 }
    if counterWord then
      setCtrEvt 1 (modCounter n (fun c => { c with words := tblSet 0 c.words (w.2 % 160) 0 }) s2)
    else s2

/-- An uncorrectable word is poisoned; one of a duplicated area is restored from its copy. -/
def poisonWord (s : State) (w : Nat × Nat) : State :=
  if 4 ≤ w.1 ∨ bankWords w.1 ≤ w.2 ∨ duplicated w.1 w.2 ∨ wordCond s w.1 w.2 = .poisoned then s else noteUe w.1 w.2 false s

/-- R172: the head is the word with the largest value among those that decode. -/
def findHead (s : State) (n : Nat) : Counter :=
  let c := counter s n
  let best := (List.range 160).foldl (fun (b : Nat × Nat) p =>
    let v := (tblGet 0 c.words p).toNat
    if condBad (wordCond s 2 (counterWord n p)) || decide (v ≤ b.2) then b else (p, v)) (0, 0)
  { c with head := best.1, value := BitVec.ofNat 64 best.2 }

/-- R395: a counter whose word after the head is uncorrectable jumps by 2^32, without a credit; no counter ever falls (R155), so
that one within 2^32 of its end stops there (DESIGN CHOICE, log entry 81). -/
def jumpCounter (s : State) (n : Nat) : State :=
  let c := findHead s n
  let s1 := modCounter n (fun _ => c) s
  let p := (c.head + 1) % 160
  if condBad (wordCond s1 2 (counterWord n p)) then
    let s2 := writeCounter n (BitVec.ofNat 64 (min (2 ^ 64 - 1) (c.value.toNat + 0x100000000))) s1
    trkRequest (trkReq 0x0501 2 (bytesLE 4 n)) (setRsfEvt 0x80 2 (counterWord n p)
      { s2 with ctrs := { s2.ctrs with incs := s1.ctrs.incs } })
  else s1

/-- Counters that have a word in other than good condition, or a torn one. -/
def countersTouched (s : State) (i : StartInputs) : List Nat :=
  let marked : List (Nat × Nat) := s.stored.marks.map (fun p => (p.1 / 0x40000, p.1 % 0x40000))
  (((marked ++ i.tornWords).filter (fun w => w.1 == 2 && decide (w.2 < 0xA000))).map (fun w => w.2 / 160)).eraseDups

/-- The latched registers that reset "from MRAM" show the records as the pass leaves them: VLT_GEN of V0 (R204), CTR_VALUE_HI of
counter 0 (R174), the high halves of R443 and of PTL_LOCK_SEQ (R426), PTL_SRC of source 128 (R426) and RSF_BANK of bank 0
(R400). -/
def loadLatches (s : State) : State :=
  let v := latchVault s
  { v with
    ctrs := { v.ctrs with valueLatch := hiWord (counter s 0).value.toNat },
    stored := { v.stored with bankLatch := rsfBank v v.stored.bsel },
    patrol := { v.patrol with lockSeqHi := hiWord v.patrol.lockSeq.toNat, selLatch := ptlSrc v (128 + v.patrol.sel) },
    trk := { v.trk with
      headHi := hiWord v.trk.headSeq, relHi := hiWord v.trk.relSeq,
      lastHi := hiWord ((v.trk.pending.map (fun x => x.last)).getD 0) } }

def stepIntegrity (i : StartInputs) (s : State) : State × Nat :=
  if i.mapsDisagree then (s, 0x22)
  else
    let s1 := i.badWords.foldl poisonWord (i.tornWords.foldl eraseTorn s)
    if i.recordLost then (s1, 0x21)
    else
      let s2 := (countersTouched s1 i).foldl jumpCounter s1
      (loadLatches { s2 with stored := { s2.stored with passOk := true } }, 0)

/-! ### Step 3: a pending Raze (R417, R504) -/

def stepRaze (i : StartInputs) (s : State) : State × Nat :=
  if s.life.state == .blank || !s.hut.razePending then (s, 0)
  else if i.razeReadBackFails then (razeBegin s, 0x31)
  else
    let t := razeEnd (razeBegin s)
    ({ t with patrol := { t.patrol with standing := latchedLevel t } }, 0)

/-! ### Step 4: Tracks (R432, R453) -/

/-- The payload of a Hut entry: words that read uncorrectable are zero, and DAMAGED is set. -/
def hutPayload (bad : List Nat) (index : Nat) (e : HutEntry) : Bytes :=
  let words := (List.range 4).filter (fun w => bad.contains (4 * index + w))
  let bs := (List.range 32).map (fun k =>
    if words.contains (k / 8) then (0 : Byte) else (hutEntryBytes e).getD k 0)
  if words.isEmpty then bs else (bs.take 7) ++ [bs.getD 7 0 ||| 2] ++ bs.drop 8

/-- Hut entries that are not yet in Tracks, with their indices. -/
def freshHut (h : Hut) : List (Nat × HutEntry) :=
  ((List.range h.buffer.length).zip h.buffer).filter (fun p => decide (h.appendedSeq < p.2.seq))

/-- One Hut entry reaches Tracks; one that set the LOCKED latch is the entry that an UNLOCK names (log entry 24). -/
def appendHut (bad : List Nat) (s : State) (p : Nat × HutEntry) : State :=
  let s1 := appendReq { trkReq 0x0800 p.1 (hutPayload bad p.1 p.2) with raise := p.2.lockSet } s
  { s1 with hut := { s1.hut with appendedSeq := p.2.seq } }

def stepTracks (i : StartInputs) (s : State) : State × Nat :=
  let es := freshHut s.hut
  let s1 := es.foldl (appendHut i.damagedHut) s
  let s2 := setHutEvt 4 { s1 with hut := { s1.hut with
    buffer := [], appended := es.length, overflow := es.any (fun p => p.2.kind == 5) } }
  let payload := bytesLE 1 es.length ++ bytesLE 1 i.tornEntries ++ bytesLE 2 s2.stored.tornCnt ++ bytesLE 1 s2.life.prior
  let s3 := if s2.life.state == .blank then s2 else appendReq (trkReq 0x0100 (s2.life.cause - 1) payload) s2
  (appendAll { s3 with trk := { s3.trk with ready := true } }, 0)

/-! ### Steps 5 to 7: detectors, Powder and the Groomers (R303, R304, R311, R407) -/

def stepDetectors (i : StartInputs) (s : State) : State × Nat := (stimulus i.detectorsFailing s, 0)

/-- Units of a kind that fail their vectors. -/
def failing (i : StartInputs) (k : UnitKind) : List Nat :=
  (i.katFails.filter (fun u => u.kind == k)).map (fun u => u.num)

/-- A unit's record after its vectors. -/
def vectorRecord (bad : Bool) (st : UnitState) : UnitRec :=
  { state := if bad then .faulted else st, faultCode := if bad then 2 else 0, restartPending := false, afterEnable := false }

/-- Step 6: the Groomers' and the conditioner's vectors, and the start-up test with the health failures it meets. -/
def stepPowder (i : StartInputs) (s : State) : State × Nat :=
  let bad := failing i .groomer
  let s1 := (List.range 4).foldl (fun s g =>
    setUnitRec { kind := .groomer, num := g } { vectorRecord (bad.contains g) .inService with faultCode := 0 } s) s
  let s2 := ((List.range 4).filter (fun g => bad.contains g)).foldl (fun s g => setGrmEvt 0 g s) s1
  let s3 := { s2 with powder := { s2.powder with state := .startup } }
  if i.conditionerFails || (List.range 4).all (fun g => bad.contains g) then (declareFailed (standingLevel s3) s3, 0)
  else (startupPass (i.healthFailures.foldl (fun s h => healthFailed h.1 h.2 s) s3), 0)

/-- Released blocks join the ready pool as far as it has room; the rest are released later (R301, R319). -/
def poolBlocks (st : State × List Bytes) : State × List Bytes :=
  let p := st.1.powder
  let n := min st.2.length (4 - p.ready.length)
  ({ st.1 with powder := { p with ready := p.ready ++ st.2.take n, blocks := min 0xFFFFFFFF (p.blocks + n) } }, st.2.drop n)

/-- The next two released blocks instantiate Groomer g. -/
def startGroomer (st : State × List Bytes) (g : Nat) : State × List Bytes :=
  if st.1.powder.state != .seeding then st
  else
    let r := poolBlocks st
    (groomerSeeded g r.1, r.2)

/-- Step 7: the Groomers' instantiation; one further block for the masking reserve and every masking generator. -/
def stepSeeds (i : StartInputs) (s : State) : State × Nat :=
  let st := poolBlocks ((List.range 4).foldl startGroomer (s, i.blocks))
  let s1 := if s.powder.state == .seeding then st.1 else s
  if s1.powder.seeded && !(rngDegraded s1) then
    match takeBlocks 1 s1 with
    | some (bs, s2) =>
      let b := bs.getD 0 []
      let s3 := seedMasks b { s2 with powder := { s2.powder with reserve := slice b 0 32 } }
      ((poolBlocks (s3, st.2)).1, 0)
    | none => (seedMasksFromReserve s1, 0)
  else (seedMasksFromReserve s1, 0)

/-! ### Step 8: known-answer vectors (R66, R230, R262, R263, R503) -/

/-- Units of a kind: the lowest-numbered that pass serve, up to `limit`, the rest are spares. -/
def startKind (i : StartInputs) (k : UnitKind) (limit : Nat) (s : State) : State :=
  let bad := failing i k
  let pass := (List.range (unitCount k)).filter (fun n => !(bad.contains n))
  let serve := pass.take limit
  let s1 := pass.foldl (fun s n =>
    setUnitRec { kind := k, num := n } (vectorRecord false (if serve.contains n then .inService else .spare)) s) s
  ((List.range (unitCount k)).filter (fun n => bad.contains n)).foldl (fun s n =>
    vectorsDone { kind := k, num := n } false
      (setUnitRec { kind := k, num := n } { UnitRec.reset with state := .testing } s)) s1

/-- No unit of a kind passes. -/
def noneServes (s : State) (k : UnitKind) : Bool := (unitsIn s k (fun x => x == .inService)).isEmpty

def stepVectors (i : StartInputs) (s : State) : State × Nat :=
  let s1 := startKind i .hash 8 (startKind i .lift 8 (startKind i .edge 64 (startKind i .blade 16 s)))
  if noneServes s1 .blade then (s1, 0x81)
  else if noneServes s1 .edge then (s1, 0x82)
  else if noneServes s1 .lift then (s1, 0x83)
  else if noneServes s1 .hash then (s1, 0x84)
  else (allKinds.foldl (fun s k => rebalance k s) s1, 0)

/-! ### Step 9: the runtime (R337, R370, R509) -/

/-- An entry of R370: a region of 2^log2 bytes for supervisor accesses, locked. -/
def lockedEntry (base log2 perm : Nat) : PuEntry :=
  { w0 := word (base + log2 * 2 ^ 5), w1 := word (perm * 2 ^ 12 + 2 * 2 ^ 28 + 2 ^ 30 + 2 ^ 31) }

/-- Unit 11: entries 0 to 12 invalid and locked, 13 to 15 as R370 lists them. -/
def debugEntries (t : Tbl PuEntry) : Tbl PuEntry :=
  let t1 := (List.range 13).foldl (fun t e => tblSet PuEntry.reset t (16 * 11 + e) { w0 := 0, w1 := 0x40000000 }) t
  tblSet PuEntry.reset (tblSet PuEntry.reset (tblSet PuEntry.reset t1 (16 * 11 + 13) (lockedEntry 0x40000000 17 1))
    (16 * 11 + 14) (lockedEntry 0x20600000 19 0)) (16 * 11 + 15) (lockedEntry 0x30000000 19 0)

/-- FACTORY with a first seed: the provisioning key in K255 and its public value. -/
def makeProvisioning (i : StartInputs) (s : State) : State :=
  if s.life.state == .factory && s.powder.seeded then
    let k := slice i.provisioningKey 0 32
    let s1 := writeSlot (.priv 255) false k false 0x3000 [] s
    { s1 with life := { s1.life with provValid := true, provPub := xdhOn [] 0 k (bytesLE 32 9) } }
  else s

/-- Every applet whose image the store holds enters STARTING, in the states that run applets. -/
def startApplets (s : State) : State :=
  (List.range 32).foldl (fun s n =>
    if levelsAct s && (applet s n).state != .empty then moveApplet n .starting s else s) s

def stepRuntime (i : StartInputs) (s : State) : State × Nat :=
  if s.life.state == .blank then (s, 0)
  else if !i.romMatches then (s, 0x91)
  else
    let s1 := { s with prot := { s.prot with units := debugEntries s.prot.units } }
    let s2 := if s1.life.state == .factory then
        setPuEvt (2 ^ 15) { s1 with prot := { s1.prot with isOpen := true, openUntil := none } }
      else s1
    (startApplets (makeProvisioning i s2), 0)

/-! ### Step 10: the Gate opens -/

def stepOpen (i : StartInputs) (s : State) : State × Nat :=
  let s1 := { s with
    gate := { s.gate with isOpen := true },
    life := { s.life with startDone := true, startStep := 10, starting := false, startTime := min 0xFFFF i.tenMicros } }
  (releaseDoorbells (tryPower (setPort .enabled (checkHours (setLcEvt 1 s1)))), 0)

/-! ### The order (R501 to R504) -/

def startSteps (i : StartInputs) : List (Nat × (State → State × Nat)) :=
  [(1, stepHut i), (2, stepIntegrity i), (3, stepRaze i), (4, stepTracks i), (5, stepDetectors i), (6, stepPowder i),
   (7, stepSeeds i), (8, stepVectors i), (9, stepRuntime i), (10, stepOpen i)]

/-- R503: start-up stops; from step 5 on the failure has a Tracks entry. -/
def stopStart (step code : Nat) (s : State) : State :=
  let s1 := setLcEvt 2 { s with life := { s.life with startFail := true, startCode := code } }
  if 4 < step then appendAll (trkRequest (trkReq 0x0100 (0x8000 + code) []) s1) else s1

/-- The steps in order, as far as a reset or a failure lets them. -/
def runStart (stop : Option Nat) : List (Nat × (State → State × Nat)) → State → State
  | [], s => s
  | (n, f) :: rest, s =>
    if stop.any (fun k => decide (k < n)) then s
    else
      let r := f s
      if r.2 ≠ 0 then stopStart n r.2 r.1
      else runStart stop rest { r.1 with life := { r.1.life with startStep := n } }

/-- RESET_DEASSERT: the later of the two deassertions. -/
def beginStart (i : StartInputs) (s : State) : State :=
  if !(inReset s) then s
  else runStart i.interrupted (startSteps i) { s with life := { s.life with
    porst := false, perst := false, cause := if s.life.porstSeen then 1 else 2, aborted := s.life.starting,
    porstSeen := false, starting := true, startFail := false, startStep := 0, startCode := 0 } }

/-! ### LC_INIT (R508) -/

/-- A BLANK part becomes FACTORY, records it at once, and runs a core reset.  The transition is Tracks entry 1 of a new
part, since start-up in BLANK appends no power-up entry (log 25, DEDUCED). -/
def initPart (v : Byte) (s : State) : State :=
  if s.life.state == .blank && v == 0xA5 && !s.life.porst then
    let t := transition .factory s
    assertReset false (appendAll { t with trk := { t.trk with ready := true } })
  else s

/-! ### The rows -/

/-- R536: a pulse shorter than 1 µs is ignored. -/
def execPorstNAssert (micros : Nat) (s : State) : Host.Outcome State Fault Refusal :=
  .next (if micros < 1 then s else assertReset true s)

def execPerstNAssert (micros : Nat) (s : State) : Host.Outcome State Fault Refusal :=
  .next (if micros < 1 then s else assertReset false s)

def execResetDeassert (i : StartInputs) (s : State) : Host.Outcome State Fault Refusal := .next (beginStart i s)

def execLcInit (v : Byte) (s : State) : Host.Outcome State Fault Refusal := .next (initPart v s)

end Sys2Proof.Machine
end

