-- ==== Sys2Proof/Machine/Dispatch.lean ====
section
/-! DEFINITION. Sys2Proof/Machine/Dispatch.lean: one arm per command, each one call of its meaning. -/
namespace Sys2Proof.Machine

def exec (i : Instr) (s : State) : Host.Outcome State Fault Refusal :=
  match i with
  | .doorbell ring value => Sys2Proof.Machine.execDoorbell ring value s
  | .bar2BadAccess write => Sys2Proof.Machine.execBar2BadAccess write s
  | .bar0BadAccess => Sys2Proof.Machine.execBar0BadAccess s
  | .registerWrite space offset value => Sys2Proof.Machine.execRegisterWrite space offset value s
  | .fetchAllowanceFreed => Sys2Proof.Machine.execFetchAllowanceFreed s
  | .descriptorReadFault ring index kind addr pick => Sys2Proof.Machine.execDescriptorReadFault ring index kind addr pick s
  | .sesEncrypt a => Sys2Proof.Machine.execSesEncrypt a s
  | .sesDecrypt a => Sys2Proof.Machine.execSesDecrypt a s
  | .sesMacGen a => Sys2Proof.Machine.execSesMacGen a s
  | .sesMacVerify a => Sys2Proof.Machine.execSesMacVerify a s
  | .hash a => Sys2Proof.Machine.execHash a s
  | .rngOut a => Sys2Proof.Machine.execRngOut a s
  | .ecdsaSign a => Sys2Proof.Machine.execEcdsaSign a s
  | .ecdsaVerify a => Sys2Proof.Machine.execEcdsaVerify a s
  | .ecKeygen a => Sys2Proof.Machine.execEcKeygen a s
  | .ecdh a => Sys2Proof.Machine.execEcdh a s
  | .eddsaSign a => Sys2Proof.Machine.execEddsaSign a s
  | .eddsaVerify a => Sys2Proof.Machine.execEddsaVerify a s
  | .xdh a => Sys2Proof.Machine.execXdh a s
  | .rsaVerify a => Sys2Proof.Machine.execRsaVerify a s
  | .rsaSign a => Sys2Proof.Machine.execRsaSign a s
  | .cardRead a => Sys2Proof.Machine.execCardRead a s
  | .cardWrite a => Sys2Proof.Machine.execCardWrite a s
  | .cardMailbox a => Sys2Proof.Machine.execCardMailbox a s
  | .cardInfo a => Sys2Proof.Machine.execCardInfo a s
  | .trkExport a => Sys2Proof.Machine.execTrkExport a s
  | .whiteoutEnter a g => Sys2Proof.Machine.execWhiteoutEnter a g s
  | .evacuate a g => Sys2Proof.Machine.execEvacuate a g s
  | .alert a g => Sys2Proof.Machine.execAlert a g s
  | .whiteoutExit a g => Sys2Proof.Machine.execWhiteoutExit a g s
  | .unlock a g => Sys2Proof.Machine.execUnlock a g s
  | .authSet a g => Sys2Proof.Machine.execAuthSet a g s
  | .authDisable a g => Sys2Proof.Machine.execAuthDisable a g s
  | .rootImport a g => Sys2Proof.Machine.execRootImport a g s
  | .rootErase a g => Sys2Proof.Machine.execRootErase a g s
  | .privImport a g => Sys2Proof.Machine.execPrivImport a g s
  | .privErase a g => Sys2Proof.Machine.execPrivErase a g s
  | .curveLoad a g => Sys2Proof.Machine.execCurveLoad a g s
  | .appletLoad a g => Sys2Proof.Machine.execAppletLoad a g s
  | .appletRemove a g => Sys2Proof.Machine.execAppletRemove a g s
  | .levelRaise a g => Sys2Proof.Machine.execLevelRaise a g s
  | .razeEnable a g => Sys2Proof.Machine.execRazeEnable a g s
  | .alarmConfig a g => Sys2Proof.Machine.execAlarmConfig a g s
  | .ctrAssign a g => Sys2Proof.Machine.execCtrAssign a g s
  | .debugUnlock a g => Sys2Proof.Machine.execDebugUnlock a g s
  | .lcAdvance a g => Sys2Proof.Machine.execLcAdvance a g s
  | .trkReceipt a g => Sys2Proof.Machine.execTrkReceipt a g s
  | .sesSet a g => Sys2Proof.Machine.execSesSet a g s
  | .sesClear a g => Sys2Proof.Machine.execSesClear a g s
  | .criticalBarrierRelease tag => Sys2Proof.Machine.execCriticalBarrierRelease tag s
  | .gatherDataArrival tag item data => Sys2Proof.Machine.execGatherDataArrival tag item data s
  | .readCompletionTimeout tag req addr => Sys2Proof.Machine.execReadCompletionTimeout tag req addr s
  | .readFailed tag kind addr => Sys2Proof.Machine.execReadFailed tag kind addr s
  | .pcieCompletionTimeout req => Sys2Proof.Machine.execPcieCompletionTimeout req s
  | .writeCreditTimeout tag addr => Sys2Proof.Machine.execWriteCreditTimeout tag addr s
  | .liftDerivationDone tag => Sys2Proof.Machine.execLiftDerivationDone tag s
  | .vaultArbiterGrant tag => Sys2Proof.Machine.execVaultArbiterGrant tag s
  | .preemptionPoint u => Sys2Proof.Machine.execPreemptionPoint u s
  | .bladeJobDone tag => Sys2Proof.Machine.execBladeJobDone tag s
  | .edgeJobDone tag => Sys2Proof.Machine.execEdgeJobDone tag s
  | .hashJobDone tag => Sys2Proof.Machine.execHashJobDone tag s
  | .groomerDrawDone groomer => Sys2Proof.Machine.execGroomerDrawDone groomer s
  | .completionEntryWrite tag => Sys2Proof.Machine.execCompletionEntryWrite tag s
  | .unitWatchdogStall u place operand badSlots => Sys2Proof.Machine.execUnitWatchdogStall u place operand badSlots s
  | .paceSlip edge badSlots => Sys2Proof.Machine.execPaceSlip edge badSlots s
  | .edgeSlotCopyDone edge => Sys2Proof.Machine.execEdgeSlotCopyDone edge s
  | .unitVectorsDone u pass => Sys2Proof.Machine.execUnitVectorsDone u pass s
  | .vaultRetiringErase slot gen => Sys2Proof.Machine.execVaultRetiringErase slot gen s
  | .tjEvaluation tj slew => Sys2Proof.Machine.execTjEvaluation tj slew s
  | .bandDownHoldExpiry => Sys2Proof.Machine.execBandDownHoldExpiry s
  | .slewReopenExpiry => Sys2Proof.Machine.execSlewReopenExpiry s
  | .hoursExceeded => Sys2Proof.Machine.execHoursExceeded s
  | .splitMonitorMeasurement si => Sys2Proof.Machine.execSplitMonitorMeasurement si s
  | .derateHoldExpiry => Sys2Proof.Machine.execDerateHoldExpiry s
  | .lcSeal value => Sys2Proof.Machine.execLcSeal value s
  | .ringEnable ring => Sys2Proof.Machine.execRingEnable ring s
  | .ringDisable ring => Sys2Proof.Machine.execRingDisable ring s
  | .ringRearm ring => Sys2Proof.Machine.execRingRearm ring s
  | .ringRearmFlush ring reads => Sys2Proof.Machine.execRingRearmFlush ring reads s
  | .ringPortDb applet value => Sys2Proof.Machine.execRingPortDb applet value s
  | .ringPortEnable applet => Sys2Proof.Machine.execRingPortEnable applet s
  | .ringPortDisable applet => Sys2Proof.Machine.execRingPortDisable applet s
  | .ringPortRearm applet => Sys2Proof.Machine.execRingPortRearm applet s
  | .ringPortRearmFlush applet => Sys2Proof.Machine.execRingPortRearmFlush applet s
  | .bladeEnable num => Sys2Proof.Machine.execBladeEnable num s
  | .bladeDisable num => Sys2Proof.Machine.execBladeDisable num s
  | .edgeEnable num => Sys2Proof.Machine.execEdgeEnable num s
  | .edgeDisable num => Sys2Proof.Machine.execEdgeDisable num s
  | .slotLenWrite value => Sys2Proof.Machine.execSlotLenWrite value s
  | .cardEnable => Sys2Proof.Machine.execCardEnable s
  | .cardDisable => Sys2Proof.Machine.execCardDisable s
  | .pwdTestWrite value => Sys2Proof.Machine.execPwdTestWrite value s
  | .pwdTestDataWrite value => Sys2Proof.Machine.execPwdTestDataWrite value s
  | .pwdRawRead sample => Sys2Proof.Machine.execPwdRawRead sample s
  | .ctrValueRead => Sys2Proof.Machine.execCtrValueRead s
  | .sesSumRead => Sys2Proof.Machine.execSesSumRead s
  | .vltStatRead => Sys2Proof.Machine.execVltStatRead s
  | .edgeSelRead => Sys2Proof.Machine.execEdgeSelRead s
  | .edgeCurveStatRead => Sys2Proof.Machine.execEdgeCurveStatRead s
  | .ptlSrcSelRead => Sys2Proof.Machine.execPtlSrcSelRead s
  | .hiHalfLatchRead which => Sys2Proof.Machine.execHiHalfLatchRead which s
  | .rsfSelRead weak => Sys2Proof.Machine.execRsfSelRead weak s
  | .lcProvStatRead => Sys2Proof.Machine.execLcProvStatRead s
  | .evtRingHeadWrite value => Sys2Proof.Machine.execEvtRingHeadWrite value s
  | .telHeadWrite value => Sys2Proof.Machine.execTelHeadWrite value s
  | .evtRingEnable depthLog2 => Sys2Proof.Machine.execEvtRingEnable depthLog2 s
  | .telRingEnable depthLog2 => Sys2Proof.Machine.execTelRingEnable depthLog2 s
  | .msixUnmask op => Sys2Proof.Machine.execMsixUnmask op s
  | .bmeClear => Sys2Proof.Machine.execBmeClear s
  | .d3hotEntry => Sys2Proof.Machine.execD3hotEntry s
  | .d3hotToD0 => Sys2Proof.Machine.execD3hotToD0 s
  | .functionLevelReset => Sys2Proof.Machine.execFunctionLevelReset s
  | .hotReset linkDown => Sys2Proof.Machine.execHotReset linkDown s
  | .linkUp gen width => Sys2Proof.Machine.execLinkUp gen width s
  | .linkChange gen width => Sys2Proof.Machine.execLinkChange gen width s
  | .porstNAssert micros => Sys2Proof.Machine.execPorstNAssert micros s
  | .perstNAssert micros => Sys2Proof.Machine.execPerstNAssert micros s
  | .resetDeassert inputs => Sys2Proof.Machine.execResetDeassert inputs s
  | .lcInit value => Sys2Proof.Machine.execLcInit value s
  | .debugAccess write addr data => Sys2Proof.Machine.execDebugAccess write addr data s
  | .debugAccessTimeout => Sys2Proof.Machine.execDebugAccessTimeout s
  | .debugUnlockExpiry => Sys2Proof.Machine.execDebugUnlockExpiry s
  | .puDbgArmWrite value => Sys2Proof.Machine.execPuDbgArmWrite value s
  | .puDbgResumeWrite value => Sys2Proof.Machine.execPuDbgResumeWrite value s
  | .protectionEntryWrite core grant set entry word0 word1 inFlight => Sys2Proof.Machine.execProtectionEntryWrite core grant set entry word0 word1 inFlight s
  | .puTagCountWrite core count inFlight => Sys2Proof.Machine.execPuTagCountWrite core count inFlight s
  | .ruleChangeDrainComplete ticks => Sys2Proof.Machine.execRuleChangeDrainComplete ticks s
  | .add core rd rs1 rs2 => Sys2Proof.Machine.execAdd core rd rs1 rs2 s
  | .sub core rd rs1 rs2 => Sys2Proof.Machine.execSub core rd rs1 rs2 s
  | .and core rd rs1 rs2 => Sys2Proof.Machine.execAnd core rd rs1 rs2 s
  | .or core rd rs1 rs2 => Sys2Proof.Machine.execOr core rd rs1 rs2 s
  | .xor core rd rs1 rs2 => Sys2Proof.Machine.execXor core rd rs1 rs2 s
  | .sll core rd rs1 rs2 => Sys2Proof.Machine.execSll core rd rs1 rs2 s
  | .srl core rd rs1 rs2 => Sys2Proof.Machine.execSrl core rd rs1 rs2 s
  | .sra core rd rs1 rs2 => Sys2Proof.Machine.execSra core rd rs1 rs2 s
  | .mul core rd rs1 rs2 => Sys2Proof.Machine.execMul core rd rs1 rs2 s
  | .mulhu core rd rs1 rs2 => Sys2Proof.Machine.execMulhu core rd rs1 rs2 s
  | .divu core rd rs1 rs2 => Sys2Proof.Machine.execDivu core rd rs1 rs2 s
  | .remu core rd rs1 rs2 => Sys2Proof.Machine.execRemu core rd rs1 rs2 s
  | .slt core rd rs1 rs2 => Sys2Proof.Machine.execSlt core rd rs1 rs2 s
  | .sltu core rd rs1 rs2 => Sys2Proof.Machine.execSltu core rd rs1 rs2 s
  | .csel core rd rs1 rs2 rs3 => Sys2Proof.Machine.execCsel core rd rs1 rs2 rs3 s
  | .mask core rd rs1 => Sys2Proof.Machine.execMask core rd rs1 s
  | .addi core rd rs1 imm => Sys2Proof.Machine.execAddi core rd rs1 imm s
  | .andi core rd rs1 imm => Sys2Proof.Machine.execAndi core rd rs1 imm s
  | .ori core rd rs1 imm => Sys2Proof.Machine.execOri core rd rs1 imm s
  | .xori core rd rs1 imm => Sys2Proof.Machine.execXori core rd rs1 imm s
  | .slli core rd rs1 imm => Sys2Proof.Machine.execSlli core rd rs1 imm s
  | .srli core rd rs1 imm => Sys2Proof.Machine.execSrli core rd rs1 imm s
  | .srai core rd rs1 imm => Sys2Proof.Machine.execSrai core rd rs1 imm s
  | .slti core rd rs1 imm => Sys2Proof.Machine.execSlti core rd rs1 imm s
  | .sltiu core rd rs1 imm => Sys2Proof.Machine.execSltiu core rd rs1 imm s
  | .lui core rd imm => Sys2Proof.Machine.execLui core rd imm s
  | .lb core rd rs1 imm => Sys2Proof.Machine.execLb core rd rs1 imm s
  | .lbu core rd rs1 imm => Sys2Proof.Machine.execLbu core rd rs1 imm s
  | .lh core rd rs1 imm => Sys2Proof.Machine.execLh core rd rs1 imm s
  | .lhu core rd rs1 imm => Sys2Proof.Machine.execLhu core rd rs1 imm s
  | .lw core rd rs1 imm => Sys2Proof.Machine.execLw core rd rs1 imm s
  | .ldd core rd rs1 imm => Sys2Proof.Machine.execLdd core rd rs1 imm s
  | .sb core rt rs1 imm => Sys2Proof.Machine.execSb core rt rs1 imm s
  | .sh core rt rs1 imm => Sys2Proof.Machine.execSh core rt rs1 imm s
  | .sw core rt rs1 imm => Sys2Proof.Machine.execSw core rt rs1 imm s
  | .sdd core rt rs1 imm => Sys2Proof.Machine.execSdd core rt rs1 imm s
  | .beq core rs1 rs2 off => Sys2Proof.Machine.execBeq core rs1 rs2 off s
  | .bne core rs1 rs2 off => Sys2Proof.Machine.execBne core rs1 rs2 off s
  | .blt core rs1 rs2 off => Sys2Proof.Machine.execBlt core rs1 rs2 off s
  | .bge core rs1 rs2 off => Sys2Proof.Machine.execBge core rs1 rs2 off s
  | .bltu core rs1 rs2 off => Sys2Proof.Machine.execBltu core rs1 rs2 off s
  | .bgeu core rs1 rs2 off => Sys2Proof.Machine.execBgeu core rs1 rs2 off s
  | .wait core => Sys2Proof.Machine.execWait core s
  | .jal core off => Sys2Proof.Machine.execJal core off s
  | .jalr core rd rs1 imm => Sys2Proof.Machine.execJalr core rd rs1 imm s
  | .brk core imm => Sys2Proof.Machine.execBrk core imm s
  | .mfs core rd imm => Sys2Proof.Machine.execMfs core rd imm s
  | .mts core rs1 imm => Sys2Proof.Machine.execMts core rs1 imm s
  | .fence core => Sys2Proof.Machine.execFence core s
  | .eret core => Sys2Proof.Machine.execEret core s
  | .illegalInstruction core word => Sys2Proof.Machine.execIllegalInstruction core word s
  | .svcUnknown core number => Sys2Proof.Machine.execSvcUnknown core number s
  | .waitEvent core => Sys2Proof.Machine.execWaitEvent core s
  | .yield core => Sys2Proof.Machine.execYield core s
  | .ringConfig core => Sys2Proof.Machine.execRingConfig core s
  | .ctrRead core => Sys2Proof.Machine.execCtrRead core s
  | .ctrIncrement core => Sys2Proof.Machine.execCtrIncrement core s
  | .eventSignal core => Sys2Proof.Machine.execEventSignal core s
  | .trkAppend core => Sys2Proof.Machine.execTrkAppend core s
  | .timerSet core => Sys2Proof.Machine.execTimerSet core s
  | .appletTimerExpiry applet => Sys2Proof.Machine.execAppletTimerExpiry applet s
  | .sliceEnd core => Sys2Proof.Machine.execSliceEnd core s
  | .coreDispatch core => Sys2Proof.Machine.execCoreDispatch core s
  | .appletStartComplete applet imageReadable => Sys2Proof.Machine.execAppletStartComplete applet imageReadable s
  | .appletRingDisabled applet => Sys2Proof.Machine.execAppletRingDisabled applet s
  | .randomRefillArrival core => Sys2Proof.Machine.execRandomRefillArrival core s
  | .detectorTrip source detA detB => Sys2Proof.Machine.execDetectorTrip source detA detB s
  | .razeComplete => Sys2Proof.Machine.execRazeComplete s
  | .sourceClearExpiry source => Sys2Proof.Machine.execSourceClearExpiry source s
  | .disagreement source detA detB => Sys2Proof.Machine.execDisagreement source detA detB s
  | .detectorStimulus failing => Sys2Proof.Machine.execDetectorStimulus failing s
  | .railEnvelopeChange rail inRange => Sys2Proof.Machine.execRailEnvelopeChange rail inRange s
  | .hutTrip source detA detB tj vbat1 vbat2 => Sys2Proof.Machine.execHutTrip source detA detB tj vbat1 vbat2 s
  | .hutSupplySwitch vio vbat1 vbat2 => Sys2Proof.Machine.execHutSupplySwitch vio vbat1 vbat2 s
  | .crystalStop => Sys2Proof.Machine.execCrystalStop s
  | .crystalResume => Sys2Proof.Machine.execCrystalResume s
  | .alarmInputStateChange input => Sys2Proof.Machine.execAlarmInputStateChange input s
  | .longCreditRefill => Sys2Proof.Machine.execLongCreditRefill s
  | .shortCreditRefill => Sys2Proof.Machine.execShortCreditRefill s
  | .unlockHalfExpiry => Sys2Proof.Machine.execUnlockHalfExpiry s
  | .powderStartupPass => Sys2Proof.Machine.execPowderStartupPass s
  | .healthFailure cell test => Sys2Proof.Machine.execHealthFailure cell test s
  | .aptWindowComplete ones maxRun => Sys2Proof.Machine.execAptWindowComplete ones maxRun s
  | .conditioningDone raw => Sys2Proof.Machine.execConditioningDone raw s
  | .groomerInstantiated groomer => Sys2Proof.Machine.execGroomerInstantiated groomer s
  | .reseedDue groomer => Sys2Proof.Machine.execReseedDue groomer s
  | .forcedReseed groomer => Sys2Proof.Machine.execForcedReseed groomer s
  | .reseedDone groomer => Sys2Proof.Machine.execReseedDone groomer s
  | .restartConfirmed => Sys2Proof.Machine.execRestartConfirmed s
  | .maskingRefresh generator => Sys2Proof.Machine.execMaskingRefresh generator s
  | .trimServoStep cell ones => Sys2Proof.Machine.execTrimServoStep cell ones s
  | .trimLimit cell => Sys2Proof.Machine.execTrimLimit cell s
  | .scrubWord bank word found => Sys2Proof.Machine.execScrubWord bank word found s
  | .correctionWriteBack bank word => Sys2Proof.Machine.execCorrectionWriteBack bank word s
  | .retirementComplete bank row => Sys2Proof.Machine.execRetirementComplete bank row s
  | .clearQueueOverwrite bank => Sys2Proof.Machine.execClearQueueOverwrite bank s
  | .wearCountSave => Sys2Proof.Machine.execWearCountSave s
  | .retentionAgeTick => Sys2Proof.Machine.execRetentionAgeTick s
  | .retentionAgeHourly => Sys2Proof.Machine.execRetentionAgeHourly s
  | .tracksAppend => Sys2Proof.Machine.execTracksAppend s
  | .cardRemoval => Sys2Proof.Machine.execCardRemoval s
  | .cardInsertion => Sys2Proof.Machine.execCardInsertion s
  | .cardOffTimeEnd => Sys2Proof.Machine.execCardOffTimeEnd s
  | .cardPowerRampEnd => Sys2Proof.Machine.execCardPowerRampEnd s
  | .cardCommandResponse r => Sys2Proof.Machine.execCardCommandResponse r s
  | .cardResponseTimeout => Sys2Proof.Machine.execCardResponseTimeout s
  | .cardBusyRelease => Sys2Proof.Machine.execCardBusyRelease s
  | .cardAllowanceExpiry => Sys2Proof.Machine.execCardAllowanceExpiry s
  | .mailboxPoll => Sys2Proof.Machine.execMailboxPoll s
  | .cardUnlockFlow => Sys2Proof.Machine.execCardUnlockFlow s
  | .cardPortFault => Sys2Proof.Machine.execCardPortFault s
  | .eventRecordWrite => Sys2Proof.Machine.execEventRecordWrite s
  | .eventHoldExpiry source => Sys2Proof.Machine.execEventHoldExpiry source s
  | .coalesceIntervalEnd vector => Sys2Proof.Machine.execCoalesceIntervalEnd vector s
  | .telemetryRecord busy => Sys2Proof.Machine.execTelemetryRecord busy s
  | .opcodeAbsentDescriptor a => Sys2Proof.Machine.execOpcodeAbsentDescriptor a s
  | .busMasterEnableSet => Sys2Proof.Machine.execBusMasterEnableSet s
  | .deviceControlWrite mps mrrs extendedTag relaxedOrdering => Sys2Proof.Machine.execDeviceControlWrite mps mrrs extendedTag relaxedOrdering s
  | .postedWriteCreditReturn => Sys2Proof.Machine.execPostedWriteCreditReturn s
  | .alarmInputSample levels vrefMillivolts => Sys2Proof.Machine.execAlarmInputSample levels vrefMillivolts s
  | .backupTemperatureRead tj => Sys2Proof.Machine.execBackupTemperatureRead tj s
  | .acmd41RepeatInterval => Sys2Proof.Machine.execAcmd41RepeatInterval s

end Sys2Proof.Machine
end

