-- ==== Sys2Proof/Machine/ConfigSpace.lean ====
section
/-!
DEFINITION. Sys2Proof/Machine/ConfigSpace.lean: what configuration space shows (R80, R81, R83, R87): the Type 0 header and the
capabilities of the function, as views of the Link record.  Capability identifiers and the places of fields inside a capability
are those of the PCI Express Base Specification (PRESUMED, log entry 77).
-/
namespace Sys2Proof.Machine

def fieldAt (b : Bool) (i : Nat) : Nat := if b then 2 ^ i else 0

/-- The Type 0 header, 0x00 to 0x3F (R80). -/
def headerWord (l : Link) (off : Nat) : Nat :=
  match off with
  | 0x00 => 0x40961F6E
  | 0x04 => fieldAt l.mse 1 + fieldAt l.bme 2 + 2 ^ 20
  | 0x08 => 0x10800020
  | 0x10 => l.bar0.toNat % 2 ^ 32 + 4
  | 0x14 => l.bar0.toNat / 2 ^ 32
  | 0x18 => l.bar2.toNat % 2 ^ 32 + 4
  | 0x1C => l.bar2.toNat / 2 ^ 32
  | 0x2C => 0x40961F6E
  | 0x34 => 0x40
  | _ => 0

/-- The capabilities of R81 at their offsets. -/
def capabilityWord (s : State) (off : Nat) : Nat :=
  let l := s.link
  match off with
  | 0x40 => 0x00035001                                        -- Power Management: no PME
  | 0x44 => if l.d3hot then 3 else 0                          -- No_Soft_Reset 0
  | 0x50 => 0x11 + 0x70 * 2 ^ 8 + 127 * 2 ^ 16 + fieldAt l.functionMask 30 + fieldAt l.msixEnable 31
  | 0x54 => 0x3000
  | 0x58 => 0x3800
  | 0x70 => 0x00020010                                        -- PCI Express: endpoint
  | 0x74 => 2 + 2 ^ 5 + 2 ^ 15 + 2 ^ 28                       -- 512 bytes, Extended Tag, Function Level Reset
  | 0x78 => fieldAt l.relaxedOrdering 4 + l.mps * 2 ^ 5 + fieldAt l.extendedTag 8 + l.mrrs * 2 ^ 12
  | 0x7C => 4 + 4 * 2 ^ 4                                     -- 16.0 GT/s, x4, no ASPM
  | 0x80 => (l.gen + l.width * 2 ^ 4) * 2 ^ 16
  | 0x94 => 3 + 2 ^ 4 + 2 ^ 16                                -- timeout ranges A and B, disable, 10-Bit Tag Completer
  | 0x98 => l.devctl2.toNat
  | 0x100 => 0x15020001                                       -- Advanced Error Reporting
  | 0x104 => l.aer.toNat
  | 0x150 => 0x16010003                                       -- Device Serial Number
  | 0x154 => s.life.serial.toNat % 2 ^ 32
  | 0x158 => s.life.serial.toNat / 2 ^ 32
  | 0x160 => 0x18010019                                       -- Secondary PCI Express
  | 0x180 => 0x1B010026                                       -- Physical Layer 16.0 GT/s
  | 0x1B0 => 0x00010027                                       -- Lane Margining at the Receiver
  | _ => 0

/-- A dword of configuration space. -/
def configWord (s : State) (off : Nat) : Word :=
  BitVec.ofNat 32 (if off < 0x40 then headerWord s.link off else capabilityWord s off)

end Sys2Proof.Machine
end

