-- ==== Sys2Proof/WellFormed.lean ====
section
/-!
DEFINITION. Sys2Proof/WellFormed.lean: the ranges of a command's operands: the numbers that name a thing the part has.
The meanings are total and do not lean on these checks; a command whose subject the part does not have changes nothing.
-/
namespace Sys2Proof

/-- R103, R347: 64 host rings and 32 internal rings. -/
def RingId.wf : RingId → Bool
  | .host n => decide (n < 64)
  | .internal n => decide (n < 32)

/-- R22: how many units of each kind there are. -/
def UnitKind.number : UnitKind → Nat
  | .edge => 68 | .blade => 18 | .lift => 8 | .hash => 8 | .groomer => 4

def UnitRef.wf (u : UnitRef) : Bool := decide (u.num < u.kind.number)

/-- R190, R191: 32 root slots and 256 private-key slots. -/
def SlotRef.wf : SlotRef → Bool
  | .root n => decide (n < 32)
  | .priv n => decide (n < 256)

/-- R103: the deepest ring has 65,536 descriptors. -/
def Arrival.wf (a : Arrival) : Bool := a.ring.wf && decide (a.index < 65536)

/-- R33 and the tags of jobs that hold none: below 2^24 (Machine/Jobs.lean, noTag). -/
def tagWf (tag : Nat) : Bool := decide (tag < 2 ^ 24)

/-- R35, R80: BAR0 is 16 KiB, the peripheral registers 64 KiB, configuration space 4 KiB. -/
def offsetWf : RegSpace → Nat → Bool
  | .bar0, off => decide (off < 0x4000) && decide (off % 4 = 0)
  | .peripheral, off => decide (off < 0x10000) && decide (off % 4 = 0)
  | .config, off => decide (off < 0x1000) && decide (off % 4 = 0)

def MsixOp.wf : MsixOp → Bool
  | .unmaskVector v => decide (v < 128)
  | .clearFunctionMask => true
  | .setEnable => true
  | .setFunctionMask => true
  | .clearEnable => true

/-- R384: banks 0x00 to 0x65. -/
def bankWf (b : Nat) : Bool := decide (b < 102)

/-- R402: Patrol sources 128 to 247. -/
def patrolWf (n : Nat) : Bool := decide (128 ≤ n) && decide (n < 248)

/-- R474, R487: a card response whose state fits its field, or a block of 512 bytes. -/
def CardResp.wf : CardResp → Bool
  | .response st _ _ _ => decide (st < 16)
  | .badCrc => true
  | .ident _ _ _ _ => true
  | .scr _ _ => true
  | .switchStatus _ _ => true
  | .block data => decide (data.length = 512)
  | .dataError => true
  | .wellWritten _ => true

/-- R82, R85: generations 1 to 4, widths 1, 2 and 4. -/
def linkWf (gen width : Nat) : Bool :=
  decide (1 ≤ gen) && decide (gen ≤ 4) && (width == 1 || width == 2 || width == 4)

def StartInputs.wf (i : StartInputs) : Bool :=
  i.splitLatches.all (fun n => decide (n < 4)) && i.tornWords.all (fun p => bankWf p.1) &&
  i.badWords.all (fun p => bankWf p.1) && i.detectorsFailing.all patrolWf && i.katFails.all UnitRef.wf &&
  i.healthFailures.all (fun p => decide (p.1 < 8)) && i.blocks.all (fun b => decide (b.length = 32)) &&
  i.interrupted.all (fun n => decide (n ≤ 10)) && decide (i.tenMicros < 2 ^ 32)

/-- Every operand that names a thing names one the part has. -/
def Instr.wf : Instr → Bool
  | .doorbell ring _ => decide (ring < 64)
  | .bar2BadAccess _ => true
  | .bar0BadAccess => true
  | .registerWrite space offset _ => offsetWf space offset
  | .fetchAllowanceFreed => true
  | .descriptorReadFault ring index _ _ _ => ring.wf && decide (index < 65536)
  | .sesEncrypt a => a.wf
  | .sesDecrypt a => a.wf
  | .sesMacGen a => a.wf
  | .sesMacVerify a => a.wf
  | .hash a => a.wf
  | .rngOut a => a.wf
  | .ecdsaSign a => a.wf
  | .ecdsaVerify a => a.wf
  | .ecKeygen a => a.wf
  | .ecdh a => a.wf
  | .eddsaSign a => a.wf
  | .eddsaVerify a => a.wf
  | .xdh a => a.wf
  | .rsaVerify a => a.wf
  | .rsaSign a => a.wf
  | .cardRead a => a.wf
  | .cardWrite a => a.wf
  | .cardMailbox a => a.wf
  | .cardInfo a => a.wf
  | .trkExport a => a.wf
  | .opcodeAbsentDescriptor a => a.wf
  | .whiteoutEnter a _ => a.wf
  | .evacuate a _ => a.wf
  | .alert a _ => a.wf
  | .whiteoutExit a _ => a.wf
  | .unlock a _ => a.wf
  | .authSet a _ => a.wf
  | .authDisable a _ => a.wf
  | .rootImport a _ => a.wf
  | .rootErase a _ => a.wf
  | .privImport a _ => a.wf
  | .privErase a _ => a.wf
  | .curveLoad a _ => a.wf
  | .appletLoad a _ => a.wf
  | .appletRemove a _ => a.wf
  | .levelRaise a _ => a.wf
  | .razeEnable a _ => a.wf
  | .alarmConfig a _ => a.wf
  | .ctrAssign a _ => a.wf
  | .debugUnlock a _ => a.wf
  | .lcAdvance a _ => a.wf
  | .trkReceipt a _ => a.wf
  | .sesSet a _ => a.wf
  | .sesClear a _ => a.wf
  | .criticalBarrierRelease tag => tagWf tag
  | .gatherDataArrival tag _ _ => tagWf tag
  | .readCompletionTimeout tag _ _ => tagWf tag
  | .readFailed tag _ _ => tagWf tag
  | .pcieCompletionTimeout _ => true
  | .writeCreditTimeout tag _ => tagWf tag
  | .liftDerivationDone tag => tagWf tag
  | .vaultArbiterGrant tag => tagWf tag
  | .preemptionPoint u => u.wf
  | .bladeJobDone tag => tagWf tag
  | .edgeJobDone tag => tagWf tag
  | .hashJobDone tag => tagWf tag
  | .groomerDrawDone g => decide (g < 4)
  | .completionEntryWrite tag => tagWf tag
  | .unitWatchdogStall u place _ _ => u.wf && decide (place < 8)
  | .paceSlip edge _ => decide (edge < 68)
  | .edgeSlotCopyDone edge => decide (edge < 68)
  | .unitVectorsDone u _ => u.wf
  | .vaultRetiringErase slot _ => slot.wf
  | .tjEvaluation _ _ => true
  | .bandDownHoldExpiry => true
  | .slewReopenExpiry => true
  | .hoursExceeded => true
  | .splitMonitorMeasurement si => decide (si.length = 16) && si.all (fun v => decide (v < 256))
  | .derateHoldExpiry => true
  | .lcSeal _ => true
  | .ringEnable ring => decide (ring < 64)
  | .ringDisable ring => decide (ring < 64)
  | .ringRearm ring => decide (ring < 64)
  | .ringRearmFlush ring _ => decide (ring < 64)
  | .ringPortDb applet _ => decide (applet < 32)
  | .ringPortEnable applet => decide (applet < 32)
  | .ringPortDisable applet => decide (applet < 32)
  | .ringPortRearm applet => decide (applet < 32)
  | .ringPortRearmFlush applet => decide (applet < 32)
  | .bladeEnable num => decide (num < 18)
  | .bladeDisable num => decide (num < 18)
  | .edgeEnable num => decide (num < 68)
  | .edgeDisable num => decide (num < 68)
  | .slotLenWrite value => decide (value < 64)
  | .cardEnable => true
  | .cardDisable => true
  | .pwdTestWrite _ => true
  | .pwdTestDataWrite _ => true
  | .pwdRawRead _ => true
  | .ctrValueRead => true
  | .sesSumRead => true
  | .vltStatRead => true
  | .edgeSelRead => true
  | .edgeCurveStatRead => true
  | .ptlSrcSelRead => true
  | .hiHalfLatchRead _ => true
  | .rsfSelRead _ => true
  | .lcProvStatRead => true
  | .evtRingHeadWrite _ => true
  | .telHeadWrite _ => true
  | .evtRingEnable depthLog2 => decide (depthLog2 < 32)
  | .telRingEnable depthLog2 => decide (depthLog2 < 32)
  | .msixUnmask op => op.wf
  | .bmeClear => true
  | .d3hotEntry => true
  | .d3hotToD0 => true
  | .functionLevelReset => true
  | .hotReset _ => true
  | .linkUp gen width => linkWf gen width
  | .linkChange gen width => linkWf gen width
  | .porstNAssert _ => true
  | .perstNAssert _ => true
  | .resetDeassert inputs => inputs.wf
  | .lcInit _ => true
  | .debugAccess _ _ _ => true
  | .debugAccessTimeout => true
  | .debugUnlockExpiry => true
  | .puDbgArmWrite _ => true
  | .puDbgResumeWrite _ => true
  | .protectionEntryWrite core grant set entry _ _ _ =>
    decide (core < 8) && (if grant then decide (set < 32) && decide (entry < 8) else decide (set < 12) && decide (entry < 16))
  | .puTagCountWrite core _ _ => decide (core < 8)
  | .ruleChangeDrainComplete _ => true
  | .add core _ _ _ => decide (core < 8)
  | .sub core _ _ _ => decide (core < 8)
  | .and core _ _ _ => decide (core < 8)
  | .or core _ _ _ => decide (core < 8)
  | .xor core _ _ _ => decide (core < 8)
  | .sll core _ _ _ => decide (core < 8)
  | .srl core _ _ _ => decide (core < 8)
  | .sra core _ _ _ => decide (core < 8)
  | .mul core _ _ _ => decide (core < 8)
  | .mulhu core _ _ _ => decide (core < 8)
  | .divu core _ _ _ => decide (core < 8)
  | .remu core _ _ _ => decide (core < 8)
  | .slt core _ _ _ => decide (core < 8)
  | .sltu core _ _ _ => decide (core < 8)
  | .csel core _ _ _ _ => decide (core < 8)
  | .mask core _ _ => decide (core < 8)
  | .addi core _ _ _ => decide (core < 8)
  | .andi core _ _ _ => decide (core < 8)
  | .ori core _ _ _ => decide (core < 8)
  | .xori core _ _ _ => decide (core < 8)
  | .slli core _ _ _ => decide (core < 8)
  | .srli core _ _ _ => decide (core < 8)
  | .srai core _ _ _ => decide (core < 8)
  | .slti core _ _ _ => decide (core < 8)
  | .sltiu core _ _ _ => decide (core < 8)
  | .lui core _ _ => decide (core < 8)
  | .lb core _ _ _ => decide (core < 8)
  | .lbu core _ _ _ => decide (core < 8)
  | .lh core _ _ _ => decide (core < 8)
  | .lhu core _ _ _ => decide (core < 8)
  | .lw core _ _ _ => decide (core < 8)
  | .ldd core _ _ _ => decide (core < 8)
  | .sb core _ _ _ => decide (core < 8)
  | .sh core _ _ _ => decide (core < 8)
  | .sw core _ _ _ => decide (core < 8)
  | .sdd core _ _ _ => decide (core < 8)
  | .beq core _ _ _ => decide (core < 8)
  | .bne core _ _ _ => decide (core < 8)
  | .blt core _ _ _ => decide (core < 8)
  | .bge core _ _ _ => decide (core < 8)
  | .bltu core _ _ _ => decide (core < 8)
  | .bgeu core _ _ _ => decide (core < 8)
  | .wait core => decide (core < 8)
  | .jal core _ => decide (core < 8)
  | .jalr core _ _ _ => decide (core < 8)
  | .brk core _ => decide (core < 8)
  | .mfs core _ _ => decide (core < 8)
  | .mts core _ _ => decide (core < 8)
  | .fence core => decide (core < 8)
  | .eret core => decide (core < 8)
  | .illegalInstruction core _ => decide (core < 8)
  | .svcUnknown core _ => decide (core < 8)
  | .waitEvent core => decide (core < 8)
  | .yield core => decide (core < 8)
  | .ringConfig core => decide (core < 8)
  | .ctrRead core => decide (core < 8)
  | .ctrIncrement core => decide (core < 8)
  | .eventSignal core => decide (core < 8)
  | .trkAppend core => decide (core < 8)
  | .timerSet core => decide (core < 8)
  | .sliceEnd core => decide (core < 8)
  | .coreDispatch core => decide (core < 8)
  | .randomRefillArrival core => decide (core < 8)
  | .appletTimerExpiry applet => decide (applet < 32)
  | .appletStartComplete applet _ => decide (applet < 32)
  | .appletRingDisabled applet => decide (applet < 32)
  | .detectorTrip source _ _ => patrolWf source
  | .razeComplete => true
  | .sourceClearExpiry source => patrolWf source
  | .disagreement source _ _ => patrolWf source
  | .detectorStimulus failing => failing.all patrolWf
  | .railEnvelopeChange _ _ => true
  | .hutTrip source _ _ _ _ _ => patrolWf source
  | .hutSupplySwitch _ _ _ => true
  | .crystalStop => true
  | .crystalResume => true
  | .alarmInputStateChange input => decide (input < 4)
  | .longCreditRefill => true
  | .shortCreditRefill => true
  | .unlockHalfExpiry => true
  | .powderStartupPass => true
  | .healthFailure cell _ => decide (cell < 8)
  | .aptWindowComplete ones maxRun => decide (ones.length = 8) && decide (maxRun.length = 8)
  | .conditioningDone raw => decide (raw.length = 256)
  | .groomerInstantiated groomer => decide (groomer < 4)
  | .reseedDue groomer => decide (groomer < 4)
  | .forcedReseed groomer => decide (groomer < 4)
  | .reseedDone groomer => decide (groomer < 4)
  | .restartConfirmed => true
  | .maskingRefresh generator => decide (generator < 86)
  | .trimServoStep cell ones => decide (cell < 8) && decide (ones ≤ 4096)
  | .trimLimit cell => decide (cell < 8)
  | .scrubWord bank _ _ => bankWf bank
  | .correctionWriteBack bank _ => bankWf bank
  | .retirementComplete bank _ => bankWf bank
  | .clearQueueOverwrite bank => bankWf bank
  | .wearCountSave => true
  | .retentionAgeTick => true
  | .retentionAgeHourly => true
  | .tracksAppend => true
  | .cardRemoval => true
  | .cardInsertion => true
  | .cardOffTimeEnd => true
  | .cardPowerRampEnd => true
  | .cardCommandResponse r => r.wf
  | .cardResponseTimeout => true
  | .cardBusyRelease => true
  | .cardAllowanceExpiry => true
  | .mailboxPoll => true
  | .cardUnlockFlow => true
  | .cardPortFault => true
  | .eventRecordWrite => true
  | .eventHoldExpiry source => decide (source < 1024)
  | .coalesceIntervalEnd vector => decide (vector < 128)
  | .telemetryRecord busy => busy.all (fun v => decide (v < 256))
  | .busMasterEnableSet => true
  | .deviceControlWrite mps mrrs _ _ => decide (mps < 6) && decide (mrrs < 6)
  | .postedWriteCreditReturn => true
  | .alarmInputSample levels _ => decide (levels.length = 4)
  | .backupTemperatureRead _ => true
  | .acmd41RepeatInterval => true

end Sys2Proof
end

