-- ==== Sys2Proof/Safety.lean ====
section
/-!
DEFINITION. Sys2Proof/Safety.lean: the terms in which the statements speak of the part: which states are sound, and what a
command changes and keeps.
-/
namespace Sys2Proof.Machine

/-- Applet SRAM, the applet store and the site configuration are held in canonical form. -/
def State.memOk (s : State) : Prop := Memory.wf s.mem

/-- A run of the part: the commands in order, as far as each answers a next state. -/
def runs : List Instr → State → Option State
  | [], s => some s
  | c :: cs, s => match exec c s with
    | .next t => runs cs t
    | .fault _ => none
    | .refused _ => none

/-! ### Rink cores -/

/-- Core c executes, and the fetch at its PC passes every check. -/
def fetches (s : State) (c : Nat) : Prop := executing s c = true ∧ accTrap s c .exec (rinkOf s c).pc 4 = none

/-- The state after that fetch: a correctable word that it read is corrected (R380, R382). -/
def fetched (s : State) (c : Nat) : State := correctAt (rinkOf s c).pc.toNat s

/-- Nothing but core c changes. -/
def onlyCore (c : Nat) (s t : State) : Prop :=
  t = { s with merya := t.merya } ∧ t.merya.apps = s.merya.apps ∧ ∀ d, d ≠ c → rinkOf t d = rinkOf s d

/-- Nothing but core c's PC and general registers changes: PC is pc, and register r reads as val r. -/
def coreGoes (c : Nat) (pc : Word) (val : Fin 16 → Word) (s t : State) : Prop :=
  onlyCore c s t ∧ rinkOf t c = { rinkOf s c with pc := pc, regs := (rinkOf t c).regs } ∧ ∀ r, reg (rinkOf t c) r = val r

/-- Register values after rd has taken v: w0 discards it (R324). -/
def wrote (k : Rink) (rd : Fin 16) (v : Word) (r : Fin 16) : Word :=
  if r = 0 then 0 else if r = rd then v else reg k r

/-- Address T + 4 times a sign-extended offset. -/
def jumpTo {w : Nat} (k : Rink) (off : BitVec w) : Word := BitVec.ofInt 32 (k.pc.toNat + 4 * off.toInt)

/-- The address rs1 + sext(imm16). -/
def indexed (k : Rink) (rs1 : Fin 16) (imm : BitVec 16) : Word := BitVec.ofInt 32 ((reg k rs1).toNat + imm.toInt)

/-- The rows of R328 that compute a register from registers and immediates: core, rd and its new value. -/
def aluResult (s : State) : Instr → Option (Nat × Fin 16 × Word)
  | .add c rd a b => let k := rinkOf s c; some (c, rd, BitVec.ofNat 32 ((reg k a).toNat + (reg k b).toNat))
  | .sub c rd a b => let k := rinkOf s c; some (c, rd, BitVec.ofInt 32 ((reg k a).toNat - (reg k b).toNat : Int))
  | .and c rd a b => let k := rinkOf s c; some (c, rd, reg k a &&& reg k b)
  | .or c rd a b => let k := rinkOf s c; some (c, rd, reg k a ||| reg k b)
  | .xor c rd a b => let k := rinkOf s c; some (c, rd, reg k a ^^^ reg k b)
  | .sll c rd a b => let k := rinkOf s c; some (c, rd, BitVec.ofNat 32 ((reg k a).toNat * 2 ^ ((reg k b).toNat % 32)))
  | .srl c rd a b => let k := rinkOf s c; some (c, rd, BitVec.ofNat 32 ((reg k a).toNat / 2 ^ ((reg k b).toNat % 32)))
  | .sra c rd a b => let k := rinkOf s c; some (c, rd, BitVec.ofInt 32 ((reg k a).toInt / 2 ^ ((reg k b).toNat % 32)))
  | .mul c rd a b => let k := rinkOf s c; some (c, rd, BitVec.ofNat 32 ((reg k a).toNat * (reg k b).toNat))
  | .mulhu c rd a b => let k := rinkOf s c; some (c, rd, BitVec.ofNat 32 ((reg k a).toNat * (reg k b).toNat / 2 ^ 32))
  | .divu c rd a b => let k := rinkOf s c
    some (c, rd, if reg k b = 0 then 0xFFFFFFFF else BitVec.ofNat 32 ((reg k a).toNat / (reg k b).toNat))
  | .remu c rd a b => let k := rinkOf s c
    some (c, rd, if reg k b = 0 then reg k a else BitVec.ofNat 32 ((reg k a).toNat % (reg k b).toNat))
  | .slt c rd a b => let k := rinkOf s c; some (c, rd, if (reg k a).toInt < (reg k b).toInt then 1 else 0)
  | .sltu c rd a b => let k := rinkOf s c; some (c, rd, if (reg k a).toNat < (reg k b).toNat then 1 else 0)
  | .csel c rd a b x => let k := rinkOf s c; some (c, rd, if reg k x = 0 then reg k b else reg k a)
  | .mask c rd a => let k := rinkOf s c; some (c, rd, if reg k a = 0 then 0 else 0xFFFFFFFF)
  | .addi c rd a imm => let k := rinkOf s c; some (c, rd, BitVec.ofInt 32 ((reg k a).toNat + imm.toInt))
  | .andi c rd a imm => let k := rinkOf s c; some (c, rd, reg k a &&& BitVec.ofNat 32 imm.toNat)
  | .ori c rd a imm => let k := rinkOf s c; some (c, rd, reg k a ||| BitVec.ofNat 32 imm.toNat)
  | .xori c rd a imm => let k := rinkOf s c; some (c, rd, reg k a ^^^ BitVec.ofNat 32 imm.toNat)
  | .slli c rd a imm => let k := rinkOf s c
    if imm.toNat < 32 then some (c, rd, BitVec.ofNat 32 ((reg k a).toNat * 2 ^ imm.toNat)) else none
  | .srli c rd a imm => let k := rinkOf s c
    if imm.toNat < 32 then some (c, rd, BitVec.ofNat 32 ((reg k a).toNat / 2 ^ imm.toNat)) else none
  | .srai c rd a imm => let k := rinkOf s c
    if imm.toNat < 32 then some (c, rd, BitVec.ofInt 32 ((reg k a).toInt / 2 ^ imm.toNat)) else none
  | .slti c rd a imm => let k := rinkOf s c; some (c, rd, if (reg k a).toInt < imm.toInt then 1 else 0)
  | .sltiu c rd a imm => let k := rinkOf s c
    some (c, rd, if ((reg k a).toNat : Int) < imm.toInt % 2 ^ 32 then 1 else 0)
  | .lui c rd imm => some (c, rd, BitVec.ofNat 32 (imm.toNat * 0x10000))
  | _ => none

/-- The rows of R328 that choose the next PC: core, PC, and the register written with its value (w0 for none). -/
def jumpResult (s : State) : Instr → Option (Nat × Word × Fin 16 × Word)
  | .beq c a b off => let k := rinkOf s c
    some (c, if reg k a = reg k b then jumpTo k off else k.pc + 4, 0, 0)
  | .bne c a b off => let k := rinkOf s c
    some (c, if reg k a = reg k b then k.pc + 4 else jumpTo k off, 0, 0)
  | .blt c a b off => let k := rinkOf s c
    some (c, if (reg k a).toInt < (reg k b).toInt then jumpTo k off else k.pc + 4, 0, 0)
  | .bge c a b off => let k := rinkOf s c
    some (c, if (reg k b).toInt ≤ (reg k a).toInt then jumpTo k off else k.pc + 4, 0, 0)
  | .bltu c a b off => let k := rinkOf s c
    some (c, if (reg k a).toNat < (reg k b).toNat then jumpTo k off else k.pc + 4, 0, 0)
  | .bgeu c a b off => let k := rinkOf s c
    some (c, if (reg k b).toNat ≤ (reg k a).toNat then jumpTo k off else k.pc + 4, 0, 0)
  | .jal c off => let k := rinkOf s c; some (c, jumpTo k off, 15, k.pc + 4)
  | .jalr c rd a imm => let k := rinkOf s c
    if (indexed k a imm).toNat % 4 = 0 then some (c, indexed k a imm, rd, k.pc + 4) else none
  | .fence c => some (c, (rinkOf s c).pc + 4, 0, 0)
  | _ => none

/-- The loads of R328: core, rd, address, bytes, and whether the value is sign-extended. -/
def loadForm (s : State) : Instr → Option (Nat × Fin 16 × Word × Nat × Bool)
  | .lb c rd a imm => some (c, rd, indexed (rinkOf s c) a imm, 1, true)
  | .lbu c rd a imm => some (c, rd, indexed (rinkOf s c) a imm, 1, false)
  | .lh c rd a imm => some (c, rd, indexed (rinkOf s c) a imm, 2, true)
  | .lhu c rd a imm => some (c, rd, indexed (rinkOf s c) a imm, 2, false)
  | .lw c rd a imm => some (c, rd, indexed (rinkOf s c) a imm, 4, false)
  | .ldd c rd a imm => if rd.val % 2 = 0 then some (c, rd, indexed (rinkOf s c) a imm, 8, false) else none
  | _ => none

/-- The stores of R328: core, address, bytes and the value stored. -/
def storeForm (s : State) : Instr → Option (Nat × Word × Nat × Nat)
  | .sb c rt a imm => some (c, indexed (rinkOf s c) a imm, 1, (reg (rinkOf s c) rt).toNat % 2 ^ 8)
  | .sh c rt a imm => some (c, indexed (rinkOf s c) a imm, 2, (reg (rinkOf s c) rt).toNat % 2 ^ 16)
  | .sw c rt a imm => some (c, indexed (rinkOf s c) a imm, 4, (reg (rinkOf s c) rt).toNat)
  | .sdd c rt a imm =>
    if rt.val % 2 = 0 then
      some (c, indexed (rinkOf s c) a imm, 8, (reg (rinkOf s c) rt).toNat + 2 ^ 32 * (reg (rinkOf s c) (rt + 1)).toNat)
    else none
  | _ => none

/-- Register values after a load of n bytes with the value v: rd takes it, extended; for 8 bytes rd and rd + 1. -/
def loaded (k : Rink) (rd : Fin 16) (n : Nat) (signed : Bool) (v : Nat) (r : Fin 16) : Word :=
  if n = 8 then
    (if r = 0 then 0 else if r = rd then word (v % 2 ^ 32) else if r = rd + 1 then word (v / 2 ^ 32) else reg k r)
  else wrote k rd (if signed && decide (2 ^ (8 * n - 1) ≤ v) then BitVec.ofInt 32 ((v : Int) - 2 ^ (8 * n)) else word v) r

/-- The number that n bytes of the stored memory hold, the first byte lowest (R10). -/
def storedNat (s : State) (a n : Nat) : Nat := natLE (mapBytes s a n)

/-- Core c has entered an exception of the cause with that EADDR (R333): PC and STAT are saved, the general registers keep
their values, and no other core changes. -/
def excepted (c cause : Nat) (eaddr : Word) (s t : State) : Prop :=
  let k := rinkOf s c
  let k' := rinkOf t c
  k'.epc = k.pc ∧ k'.estat = statOf s c ∧ k'.ecause = word cause ∧ k'.eaddr = eaddr ∧ k'.supervisor = true ∧
    k'.pc = Config.exceptionEntry cause ∧ (∀ r, reg k' r = reg k r) ∧ (∀ d, d ≠ c → rinkOf t d = rinkOf s d)

/-- A fault of a user-mode instruction has stopped applet n and freed core c; in supervisor mode the core keeps its applet
(R334). -/
def stops (c : Nat) (s t : State) : Prop :=
  match (rinkOf s c).applet, (rinkOf s c).supervisor with
  | some n, false => (applet t n).state = .stopping ∧ (rinkOf t c).applet = none
  | x, _ => (rinkOf t c).applet = x

/-- What an exception entry leaves unchanged: no memory, no ring but that of the stopped applet, and no part but these. -/
def excFrame (c : Nat) (s t : State) : Prop :=
  t = { s with link := t.link, rings := t.rings, merya := t.merya, prot := t.prot, stored := t.stored, trk := t.trk,
               evts := t.evts } ∧
    t.rings.host = s.rings.host ∧ t.rings.jobs = s.rings.jobs ∧
    (∀ n, some n ≠ (rinkOf s c).applet → applet t n = applet s n ∧ getRing t (.internal n) = getRing s (.internal n))

/-- A service-call row (R344). -/
def serviceCore : Instr → Option Nat
  | .svcUnknown c n => if serviceKnown n.toNat then none else some c
  | .waitEvent c | .yield c | .ringConfig c | .ctrRead c | .ctrIncrement c | .eventSignal c | .trkAppend c
  | .timerSet c => some c
  | _ => none

/-- The instructions that raise an exception by themselves (R325, R327, R329, R333): core, cause and the address for EADDR. -/
def raisedBy (s : State) : Instr → Option (Nat × Nat × Option Word)
  | .slli c _ _ imm | .srli c _ _ imm | .srai c _ _ imm => if 32 ≤ imm.toNat then some (c, 1, none) else none
  | .jalr c _ a imm =>
    if (indexed (rinkOf s c) a imm).toNat % 4 = 0 then none else some (c, 2, some (indexed (rinkOf s c) a imm))
  | .lh c _ a imm | .lhu c _ a imm | .sh c _ a imm =>
    if (indexed (rinkOf s c) a imm).toNat % 2 = 0 then none else some (c, 3, some (indexed (rinkOf s c) a imm))
  | .lw c _ a imm | .sw c _ a imm =>
    if (indexed (rinkOf s c) a imm).toNat % 4 = 0 then none else some (c, 3, some (indexed (rinkOf s c) a imm))
  | .ldd c r a imm | .sdd c r a imm =>
    if r.val % 2 = 1 then some (c, 1, none)
    else if (indexed (rinkOf s c) a imm).toNat % 8 = 0 then none
    else some (c, 3, some (indexed (rinkOf s c) a imm))
  | .brk c _ =>
    match (rinkOf s c).applet, (rinkOf s c).supervisor with
    | some n, false => if s.prot.isOpen = true ∧ s.prot.arm.getLsbD n = true then none else some (c, 7, none)
    | _, _ => some (c, 7, none)
  | .wait c | .eret c => if (rinkOf s c).supervisor then none else some (c, 1, none)
  | .mts c _ imm =>
    if (rinkOf s c).supervisor = true ∧ (imm.toNat ≤ 4 ∨ 0x10 ≤ imm.toNat ∧ imm.toNat ≤ 0x14) then none
    else some (c, 1, none)
  | .mfs c _ imm =>
    if imm.toNat = 0 ∨ 0x10 ≤ imm.toNat ∧ imm.toNat ≤ 0x14 ∨ (rinkOf s c).supervisor = true ∧ imm.toNat ≤ 4 then none
    else some (c, 1, none)
  | .illegalInstruction c w => if wordIllegal (!(rinkOf s c).supervisor) w then some (c, 1, none) else none
  | i => match serviceCore i with
    | some c =>
      (match (rinkOf s c).applet, (rinkOf s c).supervisor with
       | some _, false => none
       | _, _ => some (c, 9, none))
    | none => none

/-- The core of a row that a Rink core executes; an ILLEGAL_INSTRUCTION row whose word is legal is no occurrence. -/
def rinkCore (s : State) (i : Instr) : Option Nat :=
  match aluResult s i, jumpResult s i, loadForm s i, storeForm s i, raisedBy s i, serviceCore i, i with
  | some (c, _), _, _, _, _, _, _ | _, some (c, _), _, _, _, _, _ | _, _, some (c, _), _, _, _, _
  | _, _, _, some (c, _), _, _, _ | _, _, _, _, some (c, _), _, _ | _, _, _, _, _, some c, _ => some c
  | _, _, _, _, _, _, .brk c _ | _, _, _, _, _, _, .wait c | _, _, _, _, _, _, .eret c | _, _, _, _, _, _, .mts c _ _
  | _, _, _, _, _, _, .mfs c _ _ => some c
  | _, _, _, _, _, _, _ => none

/-- R326: a T word, an I or S word, a B word and a J word of an opcode. -/
def wordT (op : Nat) (rd a b : Fin 16) (x : Nat) : Word :=
  BitVec.ofNat 32 (op * 2 ^ 26 + rd.val * 2 ^ 22 + a.val * 2 ^ 18 + b.val * 2 ^ 14 + x * 2 ^ 10)
def wordI (op : Nat) (rd a : Fin 16) (imm : BitVec 16) : Word :=
  BitVec.ofNat 32 (op * 2 ^ 26 + rd.val * 2 ^ 22 + a.val * 2 ^ 18 + imm.toNat)
def wordB (op : Nat) (a b : Fin 16) (off : BitVec 18) : Word :=
  BitVec.ofNat 32 (op * 2 ^ 26 + a.val * 2 ^ 22 + b.val * 2 ^ 18 + off.toNat)
def wordJ (op : Nat) (off : BitVec 26) : Word := BitVec.ofNat 32 (op * 2 ^ 26 + off.toNat)

/-- The core and the word of an instruction, by the opcodes of R328 and the service numbers of R344; the shifts that R327
makes illegal, odd LDD and SDD pairs and absent system registers have none, and the supervisor's alone none in user mode. -/
def rinkWord (user : Bool) : Instr → Option (Nat × Word)
  | .add c d a b => some (c, wordT 0x01 d a b 0) | .sub c d a b => some (c, wordT 0x02 d a b 0)
  | .and c d a b => some (c, wordT 0x03 d a b 0) | .or c d a b => some (c, wordT 0x04 d a b 0)
  | .xor c d a b => some (c, wordT 0x05 d a b 0) | .sll c d a b => some (c, wordT 0x06 d a b 0)
  | .srl c d a b => some (c, wordT 0x07 d a b 0) | .sra c d a b => some (c, wordT 0x08 d a b 0)
  | .mul c d a b => some (c, wordT 0x09 d a b 0) | .mulhu c d a b => some (c, wordT 0x0A d a b 0)
  | .divu c d a b => some (c, wordT 0x0B d a b 0) | .remu c d a b => some (c, wordT 0x0C d a b 0)
  | .slt c d a b => some (c, wordT 0x0D d a b 0) | .sltu c d a b => some (c, wordT 0x0E d a b 0)
  | .csel c d a b x => some (c, wordT 0x0F d a b x.val) | .mask c d a => some (c, wordT 0x10 d a 0 0)
  | .addi c d a i => some (c, wordI 0x11 d a i) | .andi c d a i => some (c, wordI 0x12 d a i)
  | .ori c d a i => some (c, wordI 0x13 d a i) | .xori c d a i => some (c, wordI 0x14 d a i)
  | .slli c d a i => if i.toNat < 32 then some (c, wordI 0x15 d a i) else none
  | .srli c d a i => if i.toNat < 32 then some (c, wordI 0x16 d a i) else none
  | .srai c d a i => if i.toNat < 32 then some (c, wordI 0x17 d a i) else none
  | .slti c d a i => some (c, wordI 0x18 d a i) | .sltiu c d a i => some (c, wordI 0x19 d a i)
  | .lui c d i => some (c, wordI 0x1A d 0 i)
  | .lb c d a i => some (c, wordI 0x20 d a i) | .lbu c d a i => some (c, wordI 0x21 d a i)
  | .lh c d a i => some (c, wordI 0x22 d a i) | .lhu c d a i => some (c, wordI 0x23 d a i)
  | .lw c d a i => some (c, wordI 0x24 d a i)
  | .ldd c d a i => if d.val % 2 = 0 then some (c, wordI 0x25 d a i) else none
  | .sb c d a i => some (c, wordI 0x28 d a i) | .sh c d a i => some (c, wordI 0x29 d a i)
  | .sw c d a i => some (c, wordI 0x2A d a i)
  | .sdd c d a i => if d.val % 2 = 0 then some (c, wordI 0x2B d a i) else none
  | .beq c a b o => some (c, wordB 0x30 a b o) | .bne c a b o => some (c, wordB 0x31 a b o)
  | .blt c a b o => some (c, wordB 0x32 a b o) | .bge c a b o => some (c, wordB 0x33 a b o)
  | .bltu c a b o => some (c, wordB 0x34 a b o) | .bgeu c a b o => some (c, wordB 0x35 a b o)
  | .wait c => if user then none else some (c, wordI 0x36 0 0 0)
  | .jal c o => some (c, wordJ 0x38 o)
  | .jalr c d a i => some (c, wordI 0x39 d a i)
  | .waitEvent c => some (c, wordI 0x3A 0 0 0x0001) | .yield c => some (c, wordI 0x3A 0 0 0x0002)
  | .ringConfig c => some (c, wordI 0x3A 0 0 0x0003) | .ctrRead c => some (c, wordI 0x3A 0 0 0x0010)
  | .ctrIncrement c => some (c, wordI 0x3A 0 0 0x0011) | .eventSignal c => some (c, wordI 0x3A 0 0 0x0020)
  | .trkAppend c => some (c, wordI 0x3A 0 0 0x0030) | .timerSet c => some (c, wordI 0x3A 0 0 0x0040)
  | .svcUnknown c i => if serviceKnown i.toNat then none else some (c, wordI 0x3A 0 0 i)
  | .brk c i => some (c, wordI 0x3B 0 0 i)
  | .mfs c d i =>
    if (if user then sysUser i.toNat else sysKnown i.toNat) then some (c, wordI 0x3C d 0 i) else none
  | .mts c a i => if !user && sysKnown i.toNat then some (c, wordI 0x3D 0 a i) else none
  | .fence c => some (c, wordI 0x3E 0 0 0)
  | .eret c => if user then none else some (c, wordI 0x3F 0 0 0)
  | _ => none

/-- STAT (R325), field by field. -/
def statFields (s : State) (c : Nat) : Word :=
  let k := rinkOf s c
  let n := k.applet.getD 0
  let cls : Nat := match k.applet with
    | some n => (match (applet s n).cls with | .L => 0 | .P => 1 | .R => 2 | .B => 3)
    | none => 0
  (0#7 ++ BitVec.ofBool (s.powder.seeded && !(rngDegraded s)) ++ 0#1 ++ BitVec.ofNat 3 c ++ 0#2 ++ BitVec.ofNat 2 cls ++
    0#3 ++ BitVec.ofNat 5 n ++ 0#7 ++ BitVec.ofBool k.supervisor).setWidth 32

/-! ### Service calls and applets -/

/-- Core c has returned from a service call (R333, R344): EPC, ESTAT and ECAUSE hold the SVC, PC has moved on, the listed
registers hold these values, every other register keeps its own, and no other core changes. -/
def returned (c : Nat) (vals : List (Fin 16 × Word)) (s t : State) : Prop :=
  let k := rinkOf s c
  rinkOf t c = { k with pc := k.pc + 4, epc := k.pc, estat := statFields s c, ecause := 9, regs := (rinkOf t c).regs } ∧
    (∀ r, reg (rinkOf t c) r = match vals.lookup r with | some v => v | none => reg k r) ∧
    ∀ d, d ≠ c → rinkOf t d = rinkOf s d

/-- The service call has left core c free: applet n holds the registers with which it will go on. -/
def leftCore (c n : Nat) (vals : List (Fin 16 × Word)) (s t : State) : Prop :=
  let k := rinkOf s c
  (rinkOf t c).applet = none ∧ (rinkOf t c).idle = true ∧ (rinkOf t c).supervisor = true ∧
    (applet t n).pc = k.pc + 4 ∧
    (∀ r : Fin 16, r ≠ 0 → tblGet 0 (applet t n).regs r.val = match vals.lookup r with | some v => v | none => reg k r) ∧
    ∀ d, d ≠ c → rinkOf t d = rinkOf s d

/-- Applet n is as before but for the fields that g writes, and no other applet changes. -/
def onlyApplet (n : Nat) (a : Applet) (s t : State) : Prop := applet t n = a ∧ ∀ m, m ≠ n → applet t m = applet s m

/-- The counters but counter n are as before (R171). -/
def otherCounters (n : Nat) (s t : State) : Prop := ∀ m, m ≠ n → counter t m = counter s m

/-- The service call of user code of applet n on core c. -/
def calls (s : State) (c n : Nat) : Prop :=
  fetches s c ∧ (rinkOf s c).applet = some n ∧ (rinkOf s c).supervisor = false

/-- Bytes o to o + m - 1 of applet n's image header (R335), little-endian. -/
def headerField (s : State) (n o m : Nat) : Nat := natLE (((applet s n).image.drop o).take m)

/-- R346, R323: a RING_CONFIG whose offsets are multiples of 256 in the data region, whose depth is 8 to 1,024 and whose
rings overlap neither each other nor the mailbox. -/
abbrev ringConfigFits (s : State) (n sq cq log2 : Nat) : Prop :=
  3 ≤ log2 ∧ log2 ≤ 10 ∧ sq % 256 = 0 ∧ cq % 256 = 0 ∧ headerField s n 0x0C 4 ≤ sq ∧ headerField s n 0x0C 4 ≤ cq ∧
    sq + 64 * 2 ^ log2 ≤ 0x1F000 ∧ cq + 32 * 2 ^ log2 ≤ 0x1F000 ∧
    (sq + 64 * 2 ^ log2 ≤ cq ∨ cq + 32 * 2 ^ log2 ≤ sq)

/-- R339: applet m is READY with the earliest activation deadline, the lower number first. -/
def isEarliest (s : State) (m : Nat) : Prop :=
  m < 32 ∧ (applet s m).state = .ready ∧ ∀ x, x < 32 → (applet s x).state = .ready →
    (applet s m).deadline < (applet s x).deadline ∨ (applet s m).deadline = (applet s x).deadline ∧ m ≤ x

/-- Applet m runs on core c in user mode from where it left off, in a new slice. -/
def runsOn (c m : Nat) (s t : State) : Prop :=
  let a := applet s m
  let k' := rinkOf t c
  k'.applet = some m ∧ k'.idle = false ∧ k'.supervisor = false ∧ k'.stalled = none ∧ k'.pc = a.pc ∧ k'.regs = a.regs ∧
    k'.sliceAt = s.now ∧ applet t m = { a with state := .running, slices := a.slices + 1 }

/-- The slice limit of R340 leaves applet m another slice. -/
def mayBegin (s : State) (m : Nat) : Prop := (applet s m).slices + 1 ≤ headerField s m 0x1C 2

/-- Nothing but applets, cores and events changes. -/
def schedFrame (s t : State) : Prop := t = { s with merya := t.merya, evts := t.evts, link := t.link }

/-! ### Descriptors -/

/-- The row of a critical command (R165). -/
def criticalRow (c : CmdCode) (a : Arrival) (g : Option CritData) : Instr :=
  match c with
  | .whiteoutEnter => .whiteoutEnter a g | .evacuate => .evacuate a g | .alert => .alert a g
  | .whiteoutExit => .whiteoutExit a g | .unlock => .unlock a g | .authSet => .authSet a g
  | .authDisable => .authDisable a g | .rootImport => .rootImport a g | .rootErase => .rootErase a g
  | .privImport => .privImport a g | .privErase => .privErase a g | .curveLoad => .curveLoad a g
  | .appletLoad => .appletLoad a g | .appletRemove => .appletRemove a g | .levelRaise => .levelRaise a g
  | .razeEnable => .razeEnable a g | .alarmConfig => .alarmConfig a g | .ctrAssign => .ctrAssign a g
  | .debugUnlock => .debugUnlock a g | .lcAdvance => .lcAdvance a g | .trkReceipt => .trkReceipt a g
  | .sesSet => .sesSet a g | .sesClear => .sesClear a g

/-- The row in which a descriptor of an operation arrives (R115, R165). -/
def arrivalRow (o : Op) (a : Arrival) : Instr :=
  match o with
  | .sesEncrypt => .sesEncrypt a | .sesDecrypt => .sesDecrypt a | .sesMacGen => .sesMacGen a
  | .sesMacVerify => .sesMacVerify a | .hash => .hash a | .rngOut => .rngOut a | .ecdsaSign => .ecdsaSign a
  | .ecdsaVerify => .ecdsaVerify a | .ecKeygen => .ecKeygen a | .ecdh => .ecdh a | .eddsaSign => .eddsaSign a
  | .eddsaVerify => .eddsaVerify a | .xdh => .xdh a | .rsaVerify => .rsaVerify a | .rsaSign => .rsaSign a
  | .cardRead => .cardRead a | .cardWrite => .cardWrite a | .cardMailbox => .cardMailbox a | .cardInfo => .cardInfo a
  | .trkExport => .trkExport a
  | .critical c => criticalRow c a none

/-- A descriptor comes into staging for slot q and reaches the Gate: its slot waits for it, its read is not denied and a
halt has not cancelled it (R117, R133, R140). -/
def reachesGate (s : State) (a : Arrival) (q : Slot) : Prop :=
  openSlot s a.ring a.index = some q ∧ descDenied s a = none ∧ cancelledOnArrival s a.ring a.index = false

/-- The state in which the Gate decides: a descriptor of OPCODE 0x40 on a host ring has been charged twice more (R45), the
words of its staging slot are written (R23), and the context of a session job is read (R389). -/
def atGate (s : State) (a : Arrival) : State :=
  gateReads a.ring (getRing s a.ring) (stagedDesc s a) (decide (tagFor s a < 2048))
    (stageWords (tagFor s a) 0 32 (charge (if dOpcode (stagedDesc s a) == 0x40 && isHost a.ring then 2 else 0) s))

/-- The Gate's decision on the descriptor (R52, R546). -/
def decision (s : State) (a : Arrival) (q : Slot) : Decision :=
  decideOn (atGate s a) a.ring (getRing s a.ring) q.t0 (stagedDesc s a) (decide (tagFor s a < 2048))

/-- The budget of R38 in picoseconds. -/
def budgetOf (c : Cls) : Nat :=
  match c with
  | .L => 2000000000 | .P => 25000000000 | .R => 250000000000 | .B => 2500000000000

/-- What a job admitted from the descriptor is (jobId of Laws/JobIds.lean): tag, ring, index, phase, operation, class, t0,
descriptor and deadline. -/
def admittedId (s : State) (a : Arrival) (q : Slot) (o : Op) :
    Nat × RingId × Nat × Bool × Op × Cls × Nat × Descriptor × Pico :=
  let x := getRing s a.ring
  (tagFor s a, a.ring, q.index, q.phase, o, x.cls, q.t0, stagedDesc s a, q.t0 * 10000 + budgetOf x.cls)

/-- The jobs that hold a tag, each by what it is. -/
def jobsHeld (s : State) : List (Nat × RingId × Nat × Bool × Op × Cls × Nat × Descriptor × Pico) :=
  s.rings.jobs.map (fun j => (j.tag, j.ring, j.index, j.phase, j.op, j.cls, j.t0, j.desc, j.deadline))

/-- The part has issued p on the link since state s. -/
def posts (s t : State) (p : Posted) : Prop := ∃ l, t.link.posted = s.link.posted ++ l ∧ p ∈ l

/-- The fields of a completion entry (R121). -/
structure EntryFields where
  cookie : DWord
  result : DWord
  bytes : Nat
  jobTag : Nat
  tagValid : Bool
  ring : Nat
  inner : Bool
  status : Nat
  unitNum : Nat
  unitKind : Nat
  retried : Bool
  planBand : Nat
  unverified : Bool
  sqIndex : Nat
  phase : Bool
  deriving DecidableEq, Repr

/-- The 32 bytes of an entry read by the table of R121; byte i stands in bits 8i + 7 to 8i. -/
def readEntryFields (e : BitVec 256) : EntryFields :=
  { cookie := e.extractLsb' 0 64, result := e.extractLsb' 64 64, bytes := (e.extractLsb' 128 32).toNat,
    jobTag := (e.extractLsb' 160 11).toNat, tagValid := e.getLsbD 171, ring := (e.extractLsb' 176 6).toNat,
    inner := e.getLsbD 182, status := (e.extractLsb' 184 8).toNat, unitNum := (e.extractLsb' 192 7).toNat,
    unitKind := (e.extractLsb' 200 3).toNat, retried := e.getLsbD 203, planBand := (e.extractLsb' 204 2).toNat,
    unverified := e.getLsbD 206, sqIndex := (e.extractLsb' 208 16).toNat, phase := e.getLsbD 255 }

/-- The fields that every refusal entry carries (R122). -/
def refusalEntry (s : State) (a : Arrival) (q : Slot) (st : Status) : EntryFields :=
  { cookie := (stagedDesc s a).extractLsb' 448 64, result := 0, bytes := 0,
    jobTag := if tagFor s a < 2048 then tagFor s a else 0, tagValid := decide (tagFor s a < 2048),
    ring := (match a.ring with | .host n => n | .internal n => n), inner := !(isHost a.ring), status := statusCode st,
    unitNum := 0, unitKind := 0, retried := false, planBand := bandCode (planBand s.gate.band), unverified := false,
    sqIndex := q.index, phase := q.phase }

/-- The parts of the state that the arrival of a descriptor never touches. -/
def arrivalFrame (s t : State) : Prop :=
  t.now = s.now ∧ t.life = s.life ∧ t.curves = s.curves ∧ t.powder = s.powder ∧ t.hut = s.hut ∧
    t.alarm = s.alarm ∧ t.pending = s.pending

/-! ### Critical commands -/

/-- Stages 1 to 3 of a critical command whose row brings its data g: it is admitted, its block and source are there and
its barrier is met; k is the command in state w (R154, R158). -/
def atStage4 (c : CmdCode) (a : Arrival) (g : CritData) (s w : State) (k : Job) : Prop :=
  ∃ q p, reachesGate s a q ∧ opOf (stagedDesc s a) = some (.critical c) ∧ decision s a q = .admitJob (.critical c) p ∧
    w = gatherWhole g (tagFor s a)
      (admitted a.ring (getRing s a.ring) q (stagedDesc s a) (tagFor s a) (.critical c) p (atGate s a)) ∧
    findJob w (tagFor s a) = some k ∧ k.stage = .barrier ∧ directBad k = false ∧ barrierMet w k = true

/-- Stages 4 to 10 have ended well: j is the prepared command in state u. -/
def readyToCommit (c : CmdCode) (a : Arrival) (g : CritData) (s u : State) (j : Job) : Prop :=
  ∃ w k, atStage4 c a g s w k ∧ u = releaseBarrier (tagFor s a) w ∧ findJob u (tagFor s a) = some j ∧ j.stage = .prepared

/-- The row completes: from state v, in which the command is over, its completion entry is written, the card port goes on, and
refills that a core has asked for are placed. -/
def rowEnds (c : CmdCode) (a : Arrival) (g : CritData) (s v : State) : Prop :=
  exec (criticalRow c a (some g)) s = .next (placeRefills (portNext (writeCompletion (tagFor s a) v)))

/-- Stages 4 to 10 of a command have ended in an earlier step, and no other command has overtaken it: j waits for its commit. -/
def awaitsCommit (c : CmdCode) (s : State) (tag : Nat) (j : Job) (b : CmdBlock) : Prop :=
  (s.rings.jobs.map (fun j => j.tag)).Nodup ∧ findJob s tag = some j ∧ j.op = .critical c ∧ j.block = some b ∧
    j.stage = .prepared ∧ overtaken s c b = none

/-- COMPLETION_ENTRY_WRITE of such a command completes: from state v, in which the command is over, its entry is written. -/
def entryEnds (s : State) (tag : Nat) (v : State) : Prop :=
  exec (.completionEntryWrite tag) s = .next (portNext (writeCompletion tag v))

/-- A slot keeps its current generation and its number. -/
def sameSlot (u v : State) (r : SlotRef) : Prop :=
  (slotOf v r).cur = (slotOf u r).cur ∧ (slotOf v r).number = (slotOf u r).number

/-- What a command leaves that has no effect of its own: everything but its own job, what a job's end sets going, Tracks
and the events. -/
def sameParts (u v : State) : Prop :=
  v.now = u.now ∧ v.life = u.life ∧ v.gate = u.gate ∧ v.curves = u.curves ∧ v.sess = u.sess ∧ v.ctrs = u.ctrs ∧
    v.powder = u.powder ∧ v.merya = u.merya ∧ v.prot = u.prot ∧ v.mem = u.mem ∧ v.hut = u.hut ∧ v.alarm = u.alarm ∧
    v.card = u.card ∧ v.tel = u.tel ∧ { v.patrol with lockSeq := u.patrol.lockSeq } = u.patrol

/-- No slot changes its current generation. -/
def sameSlots (u v : State) : Prop := ∀ r, sameSlot u v r

/-- R192, R195: slot r takes a new generation, one above its number; the former one joins the retiring ones, or with a
revoke the revoked ones, with every other; no other slot changes. -/
def newGeneration (u v : State) (r : SlotRef) (revoke : Bool) (key : Bytes) (kek : Bool) (kind : BitVec 16)
    (digest : Bytes) : Prop :=
  let n := (slotOf u r).number + 1
  (slotOf v r).number = n ∧
    (slotOf v r).cur = some { gen := n, key := key, kek := kek, kind := kind, digest := digest } ∧
    (∀ m, (slotOf u r).cur = some m → { mat := m, revoked := revoke } ∈ (slotOf v r).old) ∧
    (revoke = true → ∀ x ∈ (slotOf v r).old, x.revoked = true) ∧ ∀ r', r' ≠ r → sameSlot u v r'

/-- R195: slot r becomes EMPTY; its number stays, and its former generation retires or is revoked. -/
def slotErased (u v : State) (r : SlotRef) (revoke : Bool) : Prop :=
  (slotOf v r).number = (slotOf u r).number ∧ (slotOf v r).cur = none ∧
    (∀ m, (slotOf u r).cur = some m → { mat := m, revoked := revoke } ∈ (slotOf v r).old) ∧
    (revoke = true → ∀ x ∈ (slotOf v r).old, x.revoked = true) ∧ ∀ r', r' ≠ r → sameSlot u v r'

/-- The key p that key wrap under the current key-encryption key of root slot n unwraps. -/
def unwraps (u : State) (n : Nat) (wrapped p : Bytes) : Prop :=
  n < 24 ∧ ∃ m, (rootSlot u n).cur = some m ∧ m.kek = true ∧ kwUnwrap m.key wrapped = some p

/-- The source buffer of a command. -/
def sourceOf (s : State) (a : Arrival) (g : CritData) : Bytes := slice g.source 0 (dSrcLen (stagedDesc s a))

/-! ### Rings and jobs -/

/-- The parts that rings, fetches and jobs' reads never touch. -/
def ringFrame (s t : State) : Prop :=
  t.now = s.now ∧ t.life = s.life ∧ t.curves = s.curves ∧ t.ctrs = s.ctrs ∧ t.powder = s.powder ∧ t.patrol = s.patrol ∧
    t.hut = s.hut ∧ t.alarm = s.alarm ∧ t.pending = s.pending

/-- No two jobs in flight hold the same tag of R124. -/
def tagsDistinct (s : State) : Prop := (tagsHeld s).Nodup

/-- The stamps of a ring's descriptors from the completion prefix on, those not yet fetched last; one that waits for a
REARM counts as stamped now. -/
def stampsOf (now : Nat) (x : Ring) : List Nat := x.slots.map (fun q => q.t0) ++ x.visible.map (fun v => v.getD now)

/-- The doorbell rows: of a host ring, and of an applet's ring port. -/
def doorbellRow : Instr → Option (RingId × Word)
  | .doorbell n v => if n < 64 then some (.host n, v) else none
  | .ringPortDb n v => some (.internal n, v)
  | _ => none

/-- The ring commands of R143; a flush of an applet's ring needs no reads of the link. -/
inductive RingCmd where
  | enable | disable | rearm | rearmFlush (reads : List FlushRead)

/-- The rows of the ring commands. -/
def ringCmdRow (r : RingId) (k : RingCmd) : Instr :=
  match r, k with
  | .host n, .enable => .ringEnable n | .host n, .disable => .ringDisable n | .host n, .rearm => .ringRearm n
  | .host n, .rearmFlush l => .ringRearmFlush n l
  | .internal n, .enable => .ringPortEnable n | .internal n, .disable => .ringPortDisable n
  | .internal n, .rearm => .ringPortRearm n | .internal n, .rearmFlush _ => .ringPortRearmFlush n

/-- Only ring r changes among the rings, and no job. -/
def onlyRing (r : RingId) (s t : State) : Prop :=
  t.rings.jobs = s.rings.jobs ∧ (∀ q, q ≠ r → getRing t q = getRing s q) ∧ ringFrame s t

/-- A job of a host ring with tag `tag` is j, and it waits for reads. -/
def gathers (s : State) (tag : Nat) (j : Job) (n : Nat) : Prop :=
  tagsDistinct s ∧ tag < 2048 ∧ findJob s tag = some j ∧ j.ring = .host n ∧ j.admitted = true ∧ j.status = none ∧
    j.stage = .gathering

/-- R93, R94: the bit of a failed read of ring n is set in RING_PCIE_ERR, and the capture holds the read when none of bits
[5:1] was set before. -/
def faultShown (s t : State) (n tag : Nat) (k : ReadFault) (addr : DWord) : Prop :=
  let bit : BitVec 8 := match k with | .ur => 4 | .ca => 8 | .timeout => 16 | .poisoned => 32
  let kind : Nat := match k with | .ur => 1 | .ca => 2 | .timeout => 3 | .poisoned => 4
  t.link.err &&& (s.link.err ||| bit) = s.link.err ||| bit ∧
    t.link.fault = if s.link.err &&& 0x3E = 0 then
      { valid := true, write := false, ring := n, tag := tag, kind := kind, addr := addr } else s.link.fault

/-- The job has ended with a status. -/
def endedWith (t : State) (tag : Nat) (st : Status) : Prop :=
  ∃ k, findJob t tag = some k ∧ k.stage = .finished ∧ k.status = some st

/-- A running job of a host ring, without a status, whose output may leave. -/
def runsFreely (s : State) (tag : Nat) (j : Job) : Prop :=
  tagsDistinct s ∧ tag < 2048 ∧ findJob s tag = some j ∧ isHost j.ring = true ∧ j.stage = .running ∧ j.status = none ∧
    j.noOutput = false ∧ j.out = [] ∧ overlaps j = false ∧ s.link.bme = true ∧ s.link.creditStalled = false

/-- The words of session context n read as they were written. -/
def contextClean (s : State) (n : Nat) : Prop := ∀ i, i < 16 → wordCond s 4 (16 * n + i) = .good

/-- Job j's bytes bs go out behind those it has issued, in the segments of its destination, each cut into the writes of R83,
and nothing else leaves. -/
def issues (s t : State) (j : Job) (bs : Bytes) : Prop :=
  t.link.posted = s.link.posted ++ (spread (dstSegs j) j.bytes bs).flatMap (fun g => dataWrites s.link g.1 g.2) ∧
    ∀ k, findJob t j.tag = some k → k.bytes = j.bytes + bs.length

/-- R83: pieces that carry n bytes to or from address a, none of more than `most` bytes, none across a 4 KiB boundary, each
behind the one before it. -/
def splitsInto (most a n : Nat) (ps : List (Nat × Nat)) : Prop :=
  (∀ p ∈ ps, 0 < p.2 ∧ p.2 ≤ most ∧ p.1 / 4096 = (p.1 + p.2 - 1) / 4096) ∧
    ps.flatMap (fun p => (List.range p.2).map (fun i => p.1 + i)) = (List.range n).map (fun i => a + i)

/-- A number from 2 on with no divisor but 1 and itself. -/
def primeNat (p : Nat) : Prop := 2 ≤ p ∧ ∀ d, p % d = 0 → d = 1 ∨ d = p

/-! ### Units, environment and link -/

/-- Work that could take the unit comes before job j in the order of R60 (R61): the first of the jobs that could start on it, a
session key apart, and of the side work that could begin. -/
def comesFirst (s : State) (u : UnitRef) (j : Job) : Bool :=
  (firstToRun u (s.rings.jobs.filter (fun k =>
    (onUnit k u && wouldStart s u k) || (sideUnit k == some u && sideReady s k)))).any (fun x => runsBefore u x j)

/-- No two jobs have the same tag or stand-in for one. -/
def jobsDistinct (s : State) : Prop := (s.rings.jobs.map (fun j => j.tag)).Nodup

/-- A unit control command is ignored: only CMD_IGNORED of its kind is set, and its event raised (R234, R266). -/
def unitIgnored (k : UnitKind) (s t : State) : Prop :=
  t = { s with units := t.units, evts := t.evts, link := t.link } ∧
    t.units = if k = .edge then { s.units with edgeEvt := bvSet s.units.edgeEvt 4 }
      else { s.units with bladeEvt := bvSet s.units.bladeEvt 3 }

/-- Only the record of unit u changes among the units, to r, and no job. -/
def onlyUnit (u : UnitRef) (r : UnitRec) (s t : State) : Prop :=
  unitRec t u = r ∧ (∀ w, w ≠ u → unitRec t w = unitRec s w) ∧ t.rings = s.rings ∧ ringFrame s t

/-- The rows that enable an Edge or a Blade, and those that disable one. -/
def enableRow (k : UnitKind) (n : Nat) : Instr := if k = .edge then .edgeEnable n else .bladeEnable n
def disableRow (k : UnitKind) (n : Nat) : Instr := if k = .edge then .edgeDisable n else .bladeDisable n

/-- R69: a condition that closes admission. -/
def closedBy (s : State) (tj : Int) (rails : List Rail) (slew : Bool) : Prop :=
  (2000 < tj ∧ inWhiteout s = false) ∨ 2400 < tj ∨ tj < -640 ∨ rails ≠ [] ∨ slew = true

/-- The band whose row a junction temperature selects (R46), in sixteenths of a degree. -/
def rowOf (tj : Int) : Nat := if tj ≤ 85 * 16 then 0 else if tj ≤ 125 * 16 then 1 else 2

/-- Nothing but the Gate, with its events, changes. -/
def onlyGate (s t : State) : Prop := t = { s with gate := t.gate, evts := t.evts, link := t.link }

/-- Every RWS field of BAR0 stays as it is (R12, R95). -/
def keepsRws (s t : State) : Prop :=
  (∀ n, n < 64 → let x := getRing s (.host n)
    let y := getRing t (.host n)
    y.sqBase = x.sqBase ∧ y.cqBase = x.cqBase ∧ y.haltMode = x.haltMode ∧ y.cls = x.cls ∧ y.depthLog2 = x.depthLog2) ∧
    t.link.dataRo = s.link.dataRo ∧ t.gate.rdLat = s.gate.rdLat ∧ t.units.slotLen = s.units.slotLen ∧
    t.card.unlockEn = s.card.unlockEn ∧ t.card.hsEn = s.card.hsEn ∧ t.card.wideEn = s.card.wideEn ∧
    t.card.readAcc = s.card.readAcc ∧ t.card.busyBlk = s.card.busyBlk ∧ t.card.final = s.card.final ∧
    t.card.mbxTmo = s.card.mbxTmo ∧ t.evts.base = s.evts.base ∧ t.evts.enabled = s.evts.enabled ∧
    t.evts.depthLog2 = s.evts.depthLog2 ∧ (∀ n, mapEntry t.evts n = mapEntry s.evts n) ∧ t.tel.base = s.tel.base ∧
    t.tel.enabled = s.tel.enabled ∧ t.tel.depthLog2 = s.tel.depthLog2

/-- The resets of R100, with the origin of their Tracks entry and the state in which they begin. -/
def functionResetOf (s : State) : Instr → Option (Nat × State)
  | .functionLevelReset => some (3, s)
  | .hotReset down => some (2, { s with link := { s.link with up := s.link.up && !down } })
  | .d3hotToD0 => if s.link.d3hot then some (3, s) else none
  | _ => none

/-- Event registers of the W1C type in BAR0. -/
def w1cOffsets : List Nat :=
  [0x070, 0x108, 0x498, 0x4A8, 0x618, 0x74C, 0x798, 0x7E8, 0x838, 0x93C, 0xA14, 0xA78, 0xB3C, 0xC28, 0xC68, 0xCA8, 0x1F00]

/-! ### Resets, start-up and debug -/

/-- What no reset that re-runs start-up leaves behind (R499, R500): jobs, sessions, applet SRAM, Rink cores, unit and Powder
states, weak words, protection, the card's power, spent short credits, fault captures, the seal and the open Gate. -/
def clearedByReset (t : State) : Prop :=
  t.rings.jobs = [] ∧ (∀ r, (getRing t r).state = .disabled ∧ (getRing t r).slots = [] ∧ (getRing t r).visible = [] ∧
    (getRing t r).restartPending = false ∧ (getRing t r).rearmPending = false) ∧
    (∀ n, tblGet Session.reset t.sess.table n = Session.reset) ∧
    (∀ a, 0x10000000 ≤ a → a < 0x10400000 → memRead t.mem a = 0) ∧ (∀ c, rinkOf t c = Rink.reset) ∧
    (∀ u, unitState t u = .off) ∧ t.powder.state = .off ∧ t.powder.seeded = false ∧
    (∀ g, (groomerOf t g).instantiated = false) ∧ t.stored.weak = [] ∧
    (∀ n, tblGet PuEntry.reset t.prot.units n = PuEntry.reset ∧ tblGet PuEntry.reset t.prot.grants n = PuEntry.reset ∧
      tblGet 0 t.prot.tags n = 0) ∧ t.prot.isOpen = false ∧
    t.card.power = false ∧ t.card.mbx.isOpen = false ∧ (∀ n, (counter t n).short = 1000) ∧ t.link.err = 0 ∧
    t.link.fault.valid = false ∧ t.link.bme = false ∧ t.link.msixEnable = false ∧ t.link.d3hot = false ∧
    t.life.isSealed = false ∧ t.life.startDone = false ∧ t.gate.isOpen = false

/-- What every reset keeps (R446, R454, R500): MRAM and the Hut. -/
def keptByReset (s t : State) : Prop :=
  t.life.state = s.life.state ∧ t.life.serial = s.life.serial ∧ t.patrol.levels = s.patrol.levels ∧
    t.patrol.razeEnabled = s.patrol.razeEnabled ∧ t.hut.locked = s.hut.locked ∧ t.hut.purged = s.hut.purged ∧
    t.hut.purgedMram = s.hut.purgedMram ∧ t.hut.razePending = s.hut.razePending ∧ t.hut.whiteout = s.hut.whiteout ∧
    t.hut.time = s.hut.time ∧ t.hut.hotMin = s.hut.hotMin ∧ t.hut.buffer = s.hut.buffer ∧
    (∀ r, (slotOf t r).number = (slotOf s r).number ∧ (slotOf t r).cur = (slotOf s r).cur ∧
      (slotOf t r).old = (slotOf s r).old) ∧
    t.curves.table = s.curves.table ∧ t.ctrs.enabled = s.ctrs.enabled ∧ t.ctrs.grant = s.ctrs.grant ∧
    (∀ n, (counter t n).value = (counter s n).value ∧ (counter t n).head = (counter s n).head ∧
      (counter t n).words = (counter s n).words) ∧
    t.stored.retired = s.stored.retired ∧ t.powder.reserve = s.powder.reserve ∧
    (∀ a, a < 0x10000000 ∨ 0x10400000 ≤ a → memRead t.mem a = memRead s.mem a) ∧
    (∀ n, (applet s n).state ≠ .empty → (applet s n).state ≠ .removing → (applet t n).image = (applet s n).image) ∧
    (s.trk.ready = false ∨ s.trk.queue = [] → t.trk.entries = s.trk.entries ∧ t.trk.headSeq = s.trk.headSeq) ∧
    (s.trk.ready = true → t.trk.queue = []) ∧ t.now = s.now ∧ t.pending = s.pending

/-- A unit of the kind passes its vectors. -/
def kindPasses (i : StartInputs) (k : UnitKind) : Prop :=
  ∃ n, n < unitCount k ∧ ({ kind := k, num := n } : UnitRef) ∉ i.katFails

/-- R503: the failure code of a start-up and the last step that it completes; code 0 for one that completes. -/
inductive StartEnds (i : StartInputs) (s : State) : Nat → Nat → Prop where
  | hut : i.hutAnswers = false → StartEnds i s 0x01 0
  | maps : i.hutAnswers = true → i.mapsDisagree = true → StartEnds i s 0x22 1
  | record : i.hutAnswers = true → i.mapsDisagree = false → i.recordLost = true → StartEnds i s 0x21 1
  | raze : i.hutAnswers = true → i.mapsDisagree = false → i.recordLost = false → i.razeReadBackFails = true →
      s.hut.razePending = true → s.life.porstSeen = false → s.life.state ≠ .blank → StartEnds i s 0x31 2
  | later (n code : Nat) : i.hutAnswers = true → i.mapsDisagree = false → i.recordLost = false →
      i.razeReadBackFails = false →
      ((¬ kindPasses i .blade ∧ code = 0x81 ∧ n = 7) ∨
       (kindPasses i .blade ∧ ¬ kindPasses i .edge ∧ code = 0x82 ∧ n = 7) ∨
       (kindPasses i .blade ∧ kindPasses i .edge ∧ ¬ kindPasses i .lift ∧ code = 0x83 ∧ n = 7) ∨
       (kindPasses i .blade ∧ kindPasses i .edge ∧ kindPasses i .lift ∧ ¬ kindPasses i .hash ∧ code = 0x84 ∧ n = 7) ∨
       (kindPasses i .blade ∧ kindPasses i .edge ∧ kindPasses i .lift ∧ kindPasses i .hash ∧
         s.life.state ≠ .blank ∧ i.romMatches = false ∧ code = 0x91 ∧ n = 8) ∨
       (kindPasses i .blade ∧ kindPasses i .edge ∧ kindPasses i .lift ∧ kindPasses i .hash ∧
         (s.life.state = .blank ∨ i.romMatches = true) ∧ code = 0 ∧ n = 10)) → StartEnds i s code n

/-- An access of the debug port. -/
def debugAcc (write : Bool) (a : Word) : Acc :=
  { unit := 11, user := false, applet := none, kind := if write then .write else .read, addr := a.toNat }

/-- R354: the two words make a legal entry. -/
def legalEntry (w0 : Word) : Prop :=
  11 ≤ (w0 >>> 5).toNat % 64 ∧ (w0 >>> 5).toNat % 64 ≤ 32 ∧ (w0 &&& 0xFFFFF800).toNat % 2 ^ ((w0 >>> 5).toNat % 64) = 0

/-- An ignored write of the protection block: only the bit of PU_EVT is set, and its event raised. -/
def protIgnored (bit : Nat) (s t : State) : Prop :=
  t = { s with prot := { s.prot with evt := bvSet s.prot.evt bit }, evts := t.evts, link := t.link }

/-! ### Patrol, the Hut and the alarm inputs -/

/-- Tracks is to write an entry of the kind, origin and, where given, payload. -/
def traced (t : State) (kind origin : Nat) (payload : Option Bytes) : Prop :=
  ∃ q ∈ t.trk.queue, q.kind = kind ∧ q.origin = origin ∧ ∀ p, payload = some p → q.payload = p

/-- A report of a source's detectors is a trip: a clear pair reports (R402, R414). -/
def freshTrip (s : State) (src : Nat) (a b : Bool) : Prop :=
  (a || b) = true ∧ (psource s src).detA = false ∧ (psource s src).detB = false

/-- What a trip of a source does by its effective level lvl, read before it (R408, R411 to R418, R423). -/
def tripResponse (src : Nat) (lvl : Level) (s t : State) : Prop :=
  traced t 0x0300 src none ∧
    (2 ≤ levelNum lvl → levelsAct s = true → t.hut.locked = true ∧
      (if inWhiteout s = true then min 3 (levelNum lvl) else levelNum lvl) ≤ levelNum (standingLevel t)) ∧
    (3 ≤ levelNum lvl → levelNum (standingLevel s) < 3 → t.hut.purged = true ∧ t.hut.purgedMram = true ∧
      (inWhiteout s = false → ∀ n, tblGet Session.reset t.sess.table n = Session.reset) ∧
      (∀ a, 0x10000000 ≤ a → a < 0x10400000 → memRead t.mem a = 0) ∧ t.powder.seeded = false ∧
      (∀ g, g < 4 → (groomerOf t g).instantiated = false) ∧
      (jobsDistinct s → ∀ j ∈ t.rings.jobs, j.stage = .finished ∨ j.stage = .built ∨ j.op = .critical .unlock ∨
        s.card.job = some j.tag)) ∧
    (lvl = .raze → inWhiteout s = true → t.hut.razePending = true) ∧
    (lvl = .raze → inWhiteout s = false → levelNum (standingLevel s) < 4 →
      t.hut.razePending = true ∧ t.patrol.erasing = true ∧ ∀ r, (slotOf t r).cur = none) ∧
    (t.patrol.razeEnabled = s.patrol.razeEnabled ∧ t.patrol.levels = s.patrol.levels) ∧
    t.life.state = s.life.state ∧ t.now = s.now

/-- R444: the cell that carries the Hut when neither VIO nor another cell carries it. -/
def bestCell (v1 v2 : Nat) : HutSupply :=
  if 2000 ≤ v1 ∧ (v2 < 2000 ∨ v2 ≤ v1) then .cell1 else if 2000 ≤ v2 then .cell2 else .none

/-- R455: the band of a ratio; none in a gap. -/
def ratioBand (v : Nat) : Option AlmState :=
  if v ≤ 153 then some .short else if v < 205 then none else if v ≤ 410 then some .active else if v < 461 then none
  else if v ≤ 717 then some .normal else if v < 819 then none else some .opened

/-! ### Powder and the Groomers -/

/-- Powder runs: STARTUP, SEEDING or RUNNING (R315). -/
def powderRuns (s : State) : Prop := s.powder.state = .startup ∨ s.powder.state = .seeding ∨ s.powder.state = .running

/-- The cells sample: Powder runs, and its ready pool is not full with no block pending (R297, R301). -/
def cellsSample (s : State) : Prop := powderRuns s ∧ (4 ≤ s.powder.ready.length → s.powder.pending ≠ [])

/-- R299, R317: the 256-byte conditioner input of a block: as the cells gave it, or sample i of cell c from the host's dwords,
32 samples each, cell (j mod 8) at bit j. -/
def blockInput (s : State) (raw im : Bytes) : Prop :=
  im.length = 256 ∧ (s.powder.pattern = false → ∀ n, n < 256 → im.getD n 0 = raw.getD n 0) ∧
    (s.powder.pattern = true → ∀ c i, c < 8 → i < 256 → (im.getD (32 * c + i / 8) 0).getLsbD (i % 8) =
      (s.powder.patternBits.getD (i / 4) 0).getLsbD (c + 8 * (i % 4)))

/-- The samples bs of a cell, in order, bring a failure of one of its two tests (R296, R297). -/
def cellTestFails : List Bool → Cell → Bool
  | [], _ => false
  | b :: rest, x => (cellSample b x).2.isSome || cellTestFails rest (cellSample b x).1

/-- The 4n host samples of each cell in the next n dwords pass both tests (R317). -/
def samplesPass (s : State) (n : Nat) : Prop := (feedPattern n s).2 = none

/-- Host data are there up to the end of the window (R297, R317). -/
def windowFed (s : State) : Prop := windowLack s.powder ≤ s.powder.patternBits.length

/-- Only the record of Groomer g changes among the Groomers, to r. -/
def onlyGroomer (g : Nat) (r : Groomer) (s t : State) : Prop :=
  groomerOf t g = r ∧ ∀ h, h ≠ g → groomerOf t h = groomerOf s h

/-- Powder has lost every seed: no Groomer state, no block (R312). -/
def powderCleared (t : State) : Prop :=
  t.powder.seeded = false ∧ t.powder.pending = [] ∧ t.powder.ready = [] ∧
    ∀ g, g < 4 → (groomerOf t g).instantiated = false ∧ (groomerOf t g).k = [] ∧ (groomerOf t g).v = []

/-- Bit of PWD_CELLFAIL for a test of a cell. -/
def cellFailAt (cell : Nat) (h : HealthTest) : Nat :=
  cell + match h with | .startup => 0 | .proportion => 8 | .repetition => 16

/-- What a health failure of a cell's test leaves (R312 to R316, R320). -/
def failedHealth (cell : Nat) (h : HealthTest) (s t : State) : Prop :=
  let fails := s.powder.failedRestarts + if s.powder.confirming = true then 1 else 0
  powderCleared t ∧ t.powder.failedRestarts = fails ∧
    t.powder.failCnt = min 0xFFFFFFFF (s.powder.failCnt + 1) ∧
    t.powder.cellFail = BitVec.ofNat 24 (2 ^ cellFailAt cell (if s.powder.state = .startup then .startup else h)) ∧
    t.powder.evt.getLsbD 2 = true ∧ traced t 0x0600 0 none ∧
    (3 ≤ fails → t.powder.state = .failed ∧ t.powder.confirming = false ∧ t.powder.evt.getLsbD 4 = true ∧
      traced t 0x0602 0 none) ∧
    (fails < 3 → t.powder.state = .startup ∧ t.powder.confirming = true) ∧
    (∀ c, c < 8 → (rinkOf t c).stalled = none ∧ (rinkOf t c).arriving = [] ∧ (rinkOf t c).refill = none) ∧
    (jobsDistinct s → (∀ j ∈ s.rings.jobs, isSession j.op = false → j.sess = none) →
      ∀ j ∈ s.rings.jobs, needsDraw j = true → endedWith t j.tag .rngFault) ∧
    t.life = s.life ∧ t.sess = s.sess ∧ t.curves = s.curves ∧ t.hut = s.hut ∧
    (∀ g, (tblGet MaskGen.reset t.units.mask g).seed = (tblGet MaskGen.reset s.units.mask g).seed)

/-! ### Stored words and Tracks -/

/-- A bank and a word index that R384 gives. -/
def wordExists (bank w : Nat) : Prop := bank ≤ 0x65 ∧ w < bankWords bank

/-- Only the condition of one word changes, to c, and no stored byte. -/
def onlyCond (bank w : Nat) (c : WordCond) (s t : State) : Prop :=
  wordCond t bank w = c ∧ (∀ b x, x < 0x40000 → w < 0x40000 → (b, x) ≠ (bank, w) → wordCond t b x = wordCond s b x) ∧
    t.mem = s.mem ∧ t = { s with stored := t.stored, trk := t.trk, evts := t.evts, link := t.link }

/-- Only the times of the Resurfacer's pass of a bank change: the pass begins at word 0 and ends at the last (log entry 84). -/
def onlyPass (bank w : Nat) (s t : State) : Prop :=
  t = { s with stored := { s.stored with passBegun := t.stored.passBegun, passTook := t.stored.passTook,
                                         passMs := t.stored.passMs } } ∧
    (w = 0 → tblGet 0 t.stored.passBegun bank = s.now) ∧ (w ≠ 0 → t.stored.passBegun = s.stored.passBegun) ∧
    (w + 1 ≠ bankWords bank → t.stored.passTook = s.stored.passTook) ∧
    (w + 1 = bankWords bank → w ≠ 0 → s.now < 2 ^ 64 → tblGet 0 s.stored.passBegun bank ≤ s.now →
      tblGet 0 t.stored.passTook bank = (s.now - tblGet 0 s.stored.passBegun bank) / 100000)

/-- The bytes of an entry from offset o on, as a number (R10). -/
def entryField (e : TrkEntry) (o n : Nat) : Nat := natLE (((entryImage e).drop o).take n)

/-- R429: the fields of a stored entry and their places. -/
def laidOut (e : TrkEntry) (seq time kind origin flags : Nat) (payload prev : Bytes) : Prop :=
  let im := entryImage e
  let units := entryField e 0x16 1
  im.length = 64 * units ∧ 1 ≤ units ∧ units ≤ 4 ∧ (∀ u, payload.length + 56 ≤ 64 * u ↔ units ≤ u) ∧
    entryField e 0x00 8 = seq ∧ entryField e 0x08 8 = time ∧ entryField e 0x10 2 = kind ∧
    entryField e 0x12 2 = payload.length ∧ entryField e 0x14 2 = origin ∧ entryField e 0x17 1 = flags ∧
    (im.drop 0x18).take payload.length = payload ∧
    (∀ b ∈ (im.take (64 * units - 32)).drop (0x18 + payload.length), b = 0) ∧
    im.drop (64 * units - 32) = sha256 (prev ++ im.take (64 * units - 32))

/-! ### The card port -/

/-- Nothing but the card port, with its events, changes. -/
def onlyCard (s t : State) : Prop := t = { s with card := t.card, evts := t.evts, link := t.link }

/-- No job and no flow is on the enabled port, and none waits for it. -/
def noPortWork (s : State) : Prop :=
  s.card.port = .enabled ∧ s.card.flow = .idle ∧ s.card.job = none ∧
    ∀ j ∈ s.rings.jobs, isCard j.op = false ∧ j.op ≠ .trkExport

/-- R472: a card that may be powered is. -/
def powerFollows (s t : State) (port : PortState) (present offRunning : Bool) : Prop :=
  if port = .enabled ∧ present = true ∧ offRunning = false ∧ s.card.power = false ∧ s.card.state ≠ .rejected then
    t.card.power = true ∧ t.card.state = .powerUp
  else t.card.power = s.card.power

/-- The port has put this command with its argument on the bus. -/
def sends (t : State) (cmd : Nat) (arg : Word) : Prop := busCommand t = some (cmd, arg) ∧ t.card.retriedCmd = false

/-- R473: the card is rejected and powered off, with the reason. -/
def rejects (s t : State) (reason : Nat) : Prop :=
  t.card.state = .rejected ∧ t.card.power = false ∧ t.card.offRunning = true ∧ t.card.offSince = s.now ∧
    t.card.reason = reason ∧ t.card.evt.getLsbD 1 = true

/-- Identification has ended well. -/
def becomesReady (t : State) : Prop := t.card.state = .ready ∧ t.card.phase = .idle ∧ t.card.evt.getLsbD 1 = true

/-- Step 9: an SDHC card is probed for an identity block at block 0x10000; another is ready. -/
def probes (s t : State) : Prop := if s.card.hc = true then sends t 17 0x10000 else becomesReady t

/-- Step 8 where HS_EN allows it, else step 9. -/
def speeds (s t : State) : Prop := if s.card.hsEn = true then sends t 6 0x00FFFFF1 else probes s t

/-- The RCA as an argument. -/
def rcaArg (c : Card) : Word := c.rca.zeroExtend 32 <<< 16

/-- Job j, without a status, is the one on the port. -/
def onPort (s : State) (tag : Nat) (j : Job) : Prop :=
  tagsDistinct s ∧ tag < 2048 ∧ findJob s tag = some j ∧ s.card.job = some tag ∧ s.card.flow = .idle ∧ j.stage = .running ∧
    j.status = none ∧ s.card.port = .enabled ∧ waitingExports s = []

/-- RESULT of READ and WRITE (R477). -/
def blockResult (reason state blocks : Nat) : DWord := BitVec.ofNat 64 (reason + state * 2 ^ 8 + blocks * 2 ^ 32)

/-! ### Events and telemetry -/

/-- R516: the fields of an event record and their places. -/
def recordHolds (raw : BitVec 256) (r : EvRec) (phase : Bool) : Prop :=
  (raw.extractLsb' 0 64).toNat = r.time ∧ (raw.extractLsb' 64 10).toNat = r.source ∧ (raw.extractLsb' 80 8).toNat = r.count ∧
    raw.extractLsb' 96 32 = r.detail0 ∧ raw.extractLsb' 128 64 = r.detail1 ∧ (raw.extractLsb' 192 32).toNat = r.seq ∧
    raw.getLsbD 255 = phase ∧ (raw.extractLsb' 224 31) = 0

/-- What a queued record holds fits its fields. -/
def recordFits (r : EvRec) : Prop := r.time < 2 ^ 64 ∧ r.source < 1024 ∧ r.count < 256 ∧ r.seq < 2 ^ 32

/-- The record that the ring DMA writes next (R517), when the event ring takes one (R518). -/
def nextRecord (s : State) : Option EvRec :=
  if s.evts.enabled = true ∧ s.link.bme = true ∧ (s.evts.tail + 1) % 2 ^ s.evts.depthLog2 ≠ s.evts.head then
    s.evts.queue.find? (fun r => !r.held)
  else none

/-- Record r has been written to the event ring, behind it messages only. -/
def recordWritten (r : EvRec) (s t : State) : Prop :=
  t = { s with evts := t.evts, link := { s.link with posted := t.link.posted, pba := t.link.pba } } ∧
    (∃ raw l, t.link.posted = s.link.posted ++ .event s.evts.tail raw :: l ∧ (∀ p ∈ l, ∃ v, p = msixOf s.link v) ∧
      (recordFits r → recordHolds raw r s.evts.phase)) ∧
    t.evts.tail = (if s.evts.tail + 1 = 2 ^ s.evts.depthLog2 then 0 else s.evts.tail + 1) ∧
    t.evts.phase = (s.evts.phase != decide (s.evts.tail + 1 = 2 ^ s.evts.depthLog2)) ∧ t.evts.head = s.evts.head ∧
    (∀ q ∈ s.evts.queue, q.seq ≠ r.seq → s.evts.lostDue = false → q ∈ t.evts.queue) ∧
    (s.evts.lostDue = false → ∀ q ∈ t.evts.queue, q ∈ s.evts.queue ∧ q.seq ≠ r.seq)

/-- The n bytes of a telemetry record at an offset, as a number. -/
def telField (raw : Bytes) (o n : Nat) : Nat := natLE ((raw.drop o).take n)

end Sys2Proof.Machine
end

