-- ==== Sys2Proof/Certificates/Slice0/Obligations.lean ====
section
/-!
DEFINITION. Sys2Proof/Certificates/Slice0/Obligations.lean: the statements for the provers.
-/
open Sys2Proof Sys2Proof.Machine

/-- For every state whose queue of waiting commands is c followed by rest, step answers exactly what exec answers for
c on that state with rest as its queue. -/
def Obligations.StepRunsTheFrontCommand : Prop :=
  ∀ (s : State) (c : Instr) (rest : List Instr), s.pending = c :: rest → step s = exec c { s with pending := rest }

/-- With an empty queue a step answers the state 10 ns later (log entry 1: the model's choice): the time base of R41
has counted one unit, modulo 2^64, the Hut's timekeeper, which counts 32768 a second and of which the field frac holds
the part of a count in units of 1/390625, has gained 128/390625 of a count, and nothing else has changed. -/
def Obligations.IdleStepIsOneTick : Prop :=
  ∀ s : State, s.pending = [] → s.hut.frac < 390625 →
    ∃ t, step s = .next t ∧ t = { s with now := t.now, hut := { s.hut with time := t.hut.time, frac := t.hut.frac } } ∧
      t.now = (s.now + 1) % 2 ^ 64 ∧ t.hut.frac < 390625 ∧
      390625 * t.hut.time + t.hut.frac = 390625 * s.hut.time + s.hut.frac + 128

/-- For every command and every state exec answers a next state (never a fault or a refusal), and that state has the
same queue of waiting commands. -/
def Obligations.EveryCommandAnswersAndKeepsTheQueue : Prop :=
  ∀ (c : Instr) (s : State), ∃ t, exec c s = .next t ∧ t.pending = s.pending

/-- If the bytes of applet SRAM, applet store and site configuration are listed in canonical form (addresses strictly
rising, no listed byte equal to what an unlisted address reads as), then they are after every step. -/
def Obligations.StepsKeepMemoryCanonical : Prop :=
  ∀ s t : State, s.memOk → step s = .next t → t.memOk

/-- For every step from any state: the configured level of every Patrol source is afterwards at least what it was, and
if Raze was enabled it still is. This holds for every command, every reset and every life-cycle transition. -/
def Obligations.NoStepLowersALevelOrDisablesRaze : Prop :=
  ∀ s t : State, step s = .next t →
    (∀ n, levelNum (configuredLevel s.patrol n) ≤ levelNum (configuredLevel t.patrol n)) ∧
    (s.patrol.razeEnabled = true → t.patrol.razeEnabled = true)

/-- For every row of R328 that computes a register (ADD, SUB, AND, OR, XOR, SLL, SRL, SRA, MUL, MULHU, DIVU, REMU,
SLT, SLTU, CSEL, MASK, ADDI, ANDI, ORI, XORI, SLLI, SRLI, SRAI, SLTI, SLTIU, LUI): when the core executes and its
fetch passes, the instruction completes, rd reads as the value of R328 (aluResult, written with integers), w0 reads as
zero, every other register keeps its value, PC moves on by 4, and nothing else of the part changes beyond the
correction of a correctable fetched word. -/
def Obligations.RegisterResultsOfRinkInstructions : Prop :=
  ∀ (i : Instr) (s : State) (c : Nat) (rd : Fin 16) (v : Word), aluResult s i = some (c, rd, v) → fetches s c →
    ∃ t, exec i s = .next t ∧
      coreGoes c ((rinkOf s c).pc + 4) (wrote (rinkOf s c) rd v) (fetched s c) t

/-- For BEQ, BNE, BLT, BGE, BLTU, BGEU, JAL, JALR with a target that is a multiple of 4, and FENCE: when the core
executes and its fetch passes, the instruction completes, PC is the target (T + 4 times the sign-extended offset, or
rs1 + sext(imm16)) or T + 4, JAL writes T + 4 to w15 and JALR to rd, every other register keeps its value, and nothing
else of the part changes beyond the correction of a correctable fetched word. -/
def Obligations.BranchesJumpsAndFence : Prop :=
  ∀ (i : Instr) (s : State) (c : Nat) (pc : Word) (rd : Fin 16) (v : Word),
    jumpResult s i = some (c, pc, rd, v) → fetches s c →
    ∃ t, exec i s = .next t ∧ coreGoes c pc (wrote (rinkOf s c) rd v) (fetched s c) t

/-- For LB, LBU, LH, LHU, LW and LDD with an even rd: when the core executes, the fetch passes and the access passes
every check, the instruction completes. From applet SRAM, MRAM, ROM and the session table rd takes the little-endian
value of the bytes at the address, sign- or zero-extended (LDD: the low dword in rd and the high one in rd + 1); from
a ring port or a peripheral it takes the value of the register there; PC moves on by 4, other registers keep their
values, a correctable word read is corrected, and nothing else changes. From the random port, under normal service
with the bytes at hand, the bytes leave the front of the core's random buffer; without them the core stalls at the
load with its registers and PC unchanged; either way the port may ask for a refill. -/
def Obligations.LoadsReadTheirBytes : Prop :=
  ∀ (i : Instr) (s : State) (c : Nat) (rd : Fin 16) (a : Word) (n : Nat) (signed : Bool),
    loadForm s i = some (c, rd, a, n, signed) → fetches s c → accTrap (fetched s c) c .read a n = none →
    (regionOf a.toNat ≠ some .randomPort →
      ∃ t v, exec i s = .next t ∧ v < 2 ^ (8 * n) ∧
        (regionOf a.toNat ≠ some .ringPorts → regionOf a.toNat ≠ some .peripherals → v = storedNat (fetched s c) a.toNat n) ∧
        (regionOf a.toNat = some .ringPorts →
          let port := (a.toNat - 0x40000000) / 0x1000
          let off := a.toNat % 0x1000
          v = if n = 8 then (portRead s port off).toNat + 2 ^ 32 * (portRead s port (off + 4)).toNat
            else (portRead s port (off / 4 * 4)).toNat / 2 ^ (8 * (off % 4)) % 2 ^ (8 * n)) ∧
        (regionOf a.toNat = some .peripherals →
          v = if n = 8 then (periRead s a.toNat).toNat + 2 ^ 32 * (periRead s (a.toNat + 4)).toNat
            else (periRead s (a.toNat / 4 * 4)).toNat / 2 ^ (8 * (a.toNat % 4)) % 2 ^ (8 * n)) ∧
        coreGoes c ((rinkOf s c).pc + 4) (loaded (rinkOf s c) rd n signed v) (correctAt a.toNat (fetched s c)) t) ∧
    (regionOf a.toNat = some .randomPort → rngDegraded s = false →
      ∃ t, exec i s = .next t ∧ onlyCore c (fetched s c) t ∧
        (if portStalls s = true ∨ (rinkOf s c).buffer.length < n then
          rinkOf t c = { rinkOf s c with stalled := some (rd, n, signed, a), refill := (rinkOf t c).refill }
        else
          rinkOf t c = { rinkOf s c with pc := (rinkOf s c).pc + 4, buffer := (rinkOf s c).buffer.drop n,
                                         regs := (rinkOf t c).regs, refill := (rinkOf t c).refill } ∧
          ∀ r, reg (rinkOf t c) r = loaded (rinkOf s c) rd n signed (natLE ((rinkOf s c).buffer.take n)) r))

/-- For SB, SH, SW and SDD with an even rt: when the core executes, the fetch passes and the access passes every
check, the instruction completes with PC moved on by 4 and every register kept. In applet SRAM and MRAM the bytes at
the address become the low bytes of rt (SDD: rt, then rt + 1), little-endian, every other byte of memory reads as
before, and only the stored words' records change beside them. In a ring port the register at the address is written;
in the protection block the dword; any other store of the peripheral space changes nothing. -/
def Obligations.StoresWriteTheirBytes : Prop :=
  ∀ (i : Instr) (s : State) (c : Nat) (a : Word) (n v : Nat), storeForm s i = some (c, a, n, v) → fetches s c →
    accTrap (fetched s c) c .write a n = none →
    ∃ t, exec i s = .next t ∧
      (regionOf a.toNat ≠ some .ringPorts → regionOf a.toNat ≠ some .peripherals →
        t = { fetched s c with merya := t.merya, mem := t.mem, stored := t.stored, trk := t.trk, link := t.link,
                               evts := t.evts } ∧
        t.merya.apps = s.merya.apps ∧ (∀ d, d ≠ c → rinkOf t d = rinkOf s d) ∧
        rinkOf t c = { rinkOf s c with pc := (rinkOf s c).pc + 4 } ∧
        ∀ x, memRead t.mem x =
          if a.toNat ≤ x ∧ x < a.toNat + n then BitVec.ofNat 8 (v / 2 ^ (8 * (x - a.toNat))) else memRead s.mem x) ∧
      (regionOf a.toNat = some .ringPorts →
        ∃ u, coreGoes c ((rinkOf s c).pc + 4) (reg (rinkOf s c)) (fetched s c) u ∧
          let port := (a.toNat - 0x40000000) / 0x1000
          let off := a.toNat % 0x1000
          t = if n = 8 then portWrite port (off + 4) (word (v / 2 ^ 32)) (portWrite port off (word v) u)
            else portWrite port (off / 4 * 4) (word (v * 2 ^ (8 * (off % 4)))) u) ∧
      (regionOf a.toNat = some .peripherals →
        ∃ u, coreGoes c ((rinkOf s c).pc + 4) (reg (rinkOf s c)) (fetched s c) u ∧
          let off := a.toNat - 0x50002000
          t = if a.toNat < 0x50002000 ∨ 0x50002900 ≤ a.toNat then u
            else if n = 8 then protWrite (off + 4) (word (v / 2 ^ 32)) (protWrite off (word v) u)
            else protWrite (off / 4 * 4) (word (v * 2 ^ (8 * (off % 4)))) u)

/-- For an immediate shift by 32 or more, LDD or SDD with an odd register, a system register that the mode may not
reach, a supervisor-only instruction in user mode and an illegal word (cause 1), a JALR to a target that is no
multiple of 4 (cause 2), a misaligned load or store (cause 3), a BRK that debug does not hold (cause 7) and an SVC of
supervisor code (cause 9): when the core executes and its fetch passes, the instruction ends in the exception: EPC
takes PC, ESTAT takes STAT, ECAUSE the cause, EADDR the address where there is one, supervisor mode is entered at the
handler, the instruction changes no general register and no byte of memory, and no other core or applet changes. In
user mode a fault (causes 1 to 8) puts the applet in STOPPING and frees the core. Which words are instructions: a word
built from the opcode and the fields of a row (rinkWord) is legal and is read as exactly that row, and every word that is
not illegal is built so (WAIT, FENCE and ERET up to their unused imm16). -/
def Obligations.ExceptionsOfRinkInstructions : Prop :=
  (∀ (i : Instr) (s : State) (c cause : Nat) (ea : Option Word), raisedBy s i = some (c, cause, ea) → fetches s c →
    ∃ t, exec i s = .next t ∧ excepted c cause (ea.getD (rinkOf s c).eaddr) (fetched s c) t ∧ stops c s t ∧
      excFrame c (fetched s c) t) ∧
  (∀ (user : Bool) (i : Instr) (c : Nat) (w : Word), rinkWord user i = some (c, w) →
    wordIllegal user w = false ∧ rinkDecode c user w = i) ∧
  (∀ (user : Bool) (c : Nat) (w : Word),
    (wordIllegal user w = true → rinkDecode c user w = .illegalInstruction c w) ∧
    (wordIllegal user w = false → ∃ x, rinkWord user (rinkDecode c user w) = some (c, x) ∧
      (x = w ∨ (w >>> 26 ∈ ([0x36, 0x3E, 0x3F] : List Word) ∧ x = (w >>> 16) <<< 16))))

/-- When a core executes and the access of a load or store fails its alignment, protection, bus or stored-word check,
the instruction ends in the exception of that check with the access address in EADDR; no general register, no byte of
memory and no other core or applet changes, and in user mode the applet stops. The same holds of every instruction
whose fetch fails. On a core that executes nothing, none of these rows changes anything. -/
def Obligations.FailedAccessesOfRinkInstructions : Prop :=
  (∀ (i : Instr) (s : State) (c : Nat) (rd : Fin 16) (a : Word) (n : Nat) (signed : Bool) (x : Trap),
    loadForm s i = some (c, rd, a, n, signed) → fetches s c → accTrap (fetched s c) c .read a n = some x →
    ∃ t, exec i s = .next t ∧ excepted c x.cause a (fetched s c) t ∧ stops c s t ∧ excFrame c (fetched s c) t) ∧
  (∀ (i : Instr) (s : State) (c : Nat) (a : Word) (n v : Nat) (x : Trap),
    storeForm s i = some (c, a, n, v) → fetches s c → accTrap (fetched s c) c .write a n = some x →
    ∃ t, exec i s = .next t ∧ excepted c x.cause a (fetched s c) t ∧ stops c s t ∧ excFrame c (fetched s c) t) ∧
  (∀ (i : Instr) (s : State) (c : Nat) (x : Trap), rinkCore s i = some c → executing s c = true →
    accTrap s c .exec (rinkOf s c).pc 4 = some x →
    ∃ t, exec i s = .next t ∧ excepted c x.cause (rinkOf s c).pc s t ∧ stops c s t ∧ excFrame c s t) ∧
  (∀ (i : Instr) (s : State) (c : Nat), rinkCore s i = some c → executing s c = false → exec i s = .next s)

/-- When the core executes and its fetch passes: MFS of a register that the mode may read writes to rd the value R325
gives (STAT by its fields, the exception registers, TIME, SLICES, DEADLINE), a read of TIME_LO or DEADLINE_LO latches
the upper half, and PC moves on. MTS in supervisor mode writes MODE of STAT or an exception register and nothing else
of the core but PC; what it leaves in TIME, SLICES and DEADLINE is a free value (log entry 6). ERET puts EPC in PC and
MODE of ESTAT in STAT (log entry 5). WAIT idles the core with PC moved on. A BRK of an armed applet in user mode while
the debug port is open holds the applet and changes nothing else. -/
def Obligations.SystemRegistersAndReturns : Prop :=
  (∀ (s : State) (c : Nat) (rd : Fin 16) (imm : BitVec 16), fetches s c → raisedBy s (.mfs c rd imm) = none →
    ∃ t, exec (.mfs c rd imm) s = .next t ∧ onlyCore c (fetched s c) t ∧
      let k := rinkOf s c
      let n := imm.toNat
      let deadline := match k.applet with | some a => (applet s a).deadline | none => 0
      rinkOf t c = { k with pc := k.pc + 4, regs := (rinkOf t c).regs,
                            timeHi := if n = 0x10 then word (s.now / 2 ^ 32) else k.timeHi,
                            deadlineHi := if n = 0x13 then word (deadline / 2 ^ 32) else k.deadlineHi } ∧
      ∀ r, reg (rinkOf t c) r = wrote k rd (
        if n = 0 then statFields s c else if n = 1 then k.epc else if n = 2 then k.estat else if n = 3 then k.ecause
        else if n = 4 then k.eaddr else if n = 0x10 then word s.now else if n = 0x11 then k.timeHi
        else if n = 0x12 then word (match k.applet with | some a => (applet s a).slices | none => 0)
        else if n = 0x13 then word deadline else k.deadlineHi) r) ∧
  (∀ (s : State) (c : Nat) (rs : Fin 16) (imm : BitVec 16), fetches s c → raisedBy s (.mts c rs imm) = none →
    ∃ t, exec (.mts c rs imm) s = .next t ∧ t = { fetched s c with merya := t.merya, free := t.free } ∧
      (imm.toNat ≤ 4 → t.free = s.free) ∧ (∀ d, d ≠ c → rinkOf t d = rinkOf s d) ∧
      (∀ a, some a ≠ (rinkOf s c).applet ∨ imm.toNat ≤ 4 → applet t a = applet s a) ∧
      let k := rinkOf s c
      let v := reg k rs
      rinkOf t c = { k with pc := k.pc + 4, supervisor := if imm = 0 then v.getLsbD 0 else true,
                            epc := if imm = 1 then v else k.epc, estat := if imm = 2 then v else k.estat,
                            ecause := if imm = 3 then v else k.ecause, eaddr := if imm = 4 then v else k.eaddr,
                            timeHi := (rinkOf t c).timeHi, deadlineHi := (rinkOf t c).deadlineHi } ∧
      (imm.toNat ≤ 4 → (rinkOf t c).timeHi = k.timeHi ∧ (rinkOf t c).deadlineHi = k.deadlineHi)) ∧
  (∀ (s : State) (c : Nat), fetches s c → (rinkOf s c).supervisor = true →
    (∃ t, exec (.eret c) s = .next t ∧ onlyCore c (fetched s c) t ∧
      rinkOf t c = { rinkOf s c with pc := (rinkOf s c).epc, supervisor := (rinkOf s c).estat.getLsbD 0 }) ∧
    (∃ t, exec (.wait c) s = .next t ∧ onlyCore c (fetched s c) t ∧
      rinkOf t c = { rinkOf s c with pc := (rinkOf s c).pc + 4, idle := true })) ∧
  (∀ (s : State) (c n : Nat) (imm : BitVec 16), fetches s c → (rinkOf s c).supervisor = false →
    (rinkOf s c).applet = some n → s.prot.isOpen = true → s.prot.arm.getLsbD n = true →
    ∃ t, exec (.brk c imm) s = .next t ∧ t = { fetched s c with merya := t.merya } ∧ t.merya.cores = s.merya.cores ∧
      applet t n = { applet s n with held := true } ∧ ∀ m, m ≠ n → applet t m = applet s m)

/-- Every load and store accesses 1, 2, 4 or 8 bytes. On a core that executes and whose fetch passes, one whose
address is not a multiple of its size raises misaligned access (cause 3) with that address: no general register of any
core and no byte of memory changes. A JALR whose target is not a multiple of 4 raises misaligned fetch (cause 2) with
the target, and every general register keeps its value. -/
def Obligations.AccessesAreNaturallyAligned : Prop :=
  (∀ (i : Instr) (s : State) (c : Nat) (rd : Fin 16) (a : Word) (n : Nat) (signed : Bool),
    loadForm s i = some (c, rd, a, n, signed) → n ∈ [1, 2, 4, 8] ∧
      (fetches s c → a.toNat % n ≠ 0 → ∃ t, exec i s = .next t ∧ excepted c 3 a (fetched s c) t ∧ t.mem = s.mem ∧
        excFrame c (fetched s c) t)) ∧
  (∀ (i : Instr) (s : State) (c : Nat) (a : Word) (n v : Nat),
    storeForm s i = some (c, a, n, v) → n ∈ [1, 2, 4, 8] ∧
      (fetches s c → a.toNat % n ≠ 0 → ∃ t, exec i s = .next t ∧ excepted c 3 a (fetched s c) t ∧ t.mem = s.mem ∧
        excFrame c (fetched s c) t)) ∧
  (∀ (s : State) (c : Nat) (rd r : Fin 16) (imm : BitVec 16), fetches s c → (indexed (rinkOf s c) r imm).toNat % 4 ≠ 0 →
    ∃ t, exec (.jalr c rd r imm) s = .next t ∧ excepted c 2 (indexed (rinkOf s c) r imm) (fetched s c) t ∧
      t.mem = s.mem ∧ excFrame c (fetched s c) t)

/-- For a service call of user code of applet n whose fetch passes. CTR_READ and CTR_INCREMENT return status 1 for a
number above 255, 2 for a counter not bound to the applet, else the value in w2 and w3; an increment without a credit
returns 3, else it adds 1 to the counter, takes one credit of each kind and returns the new value, and no other
counter changes. EVENT_SIGNAL returns 1 above event 7, else it raises source 768 + 8n + w1 and no other. TIMER_SET
returns 1 above 10,000,000, else it sets the timer that many microseconds ahead, or cancels it for 0. An unknown
number returns 1. Nothing else changes. -/
def Obligations.CounterEventTimerAndUnknownCalls : Prop :=
  ∀ (s : State) (c n : Nat), calls s c n →
    let u := fetched s c
    let w1 := (reg (rinkOf s c) 1).toNat
    let bound := 16 ≤ w1 ∧ (counter s w1).owner = 0x20 + n
    let v := (counter s w1).value
    (∀ num : BitVec 16, num.toNat ∉ [0x01, 0x02, 0x03, 0x10, 0x11, 0x20, 0x30, 0x40] →
      ∃ t, exec (.svcUnknown c num) s = .next t ∧ onlyCore c u t ∧ returned c [(1, 1)] s t) ∧
    (∃ t, exec (.ctrRead c) s = .next t ∧ onlyCore c u t ∧
      returned c (if 255 < w1 then [(1, 1)] else if bound then [(1, 0), (2, v.setWidth 32), (3, (v >>> 32).setWidth 32)]
        else [(1, 2)]) s t) ∧
    (∃ t, exec (.ctrIncrement c) s = .next t ∧
      if 255 < w1 ∨ ¬ bound then onlyCore c u t ∧ returned c [(1, if 255 < w1 then 1 else 2)] s t
      else if (counter s w1).short = 0 ∨ (counter s w1).long = 0 then onlyCore c u t ∧ returned c [(1, 3)] s t
      else
        returned c [(1, 0), (2, (v + 1).setWidth 32), (3, ((v + 1) >>> 32).setWidth 32)] s t ∧
        t = { u with merya := t.merya, ctrs := t.ctrs, stored := t.stored, link := t.link, evts := t.evts } ∧
        t.merya.apps = s.merya.apps ∧ otherCounters w1 s t ∧
        (counter t w1).value = v + 1 ∧ (counter t w1).short + 1 = (counter s w1).short ∧
        (counter t w1).long + 1 = (counter s w1).long ∧ (counter t w1).owner = (counter s w1).owner) ∧
    (∃ t, exec (.eventSignal c) s = .next t ∧
      if 7 < w1 then onlyCore c u t ∧ returned c [(1, 1)] s t
      else
        returned c [(1, 0)] s t ∧ t = { u with merya := t.merya, link := t.link, evts := t.evts } ∧
        t.merya.apps = s.merya.apps ∧
        ∀ x, tblGet false t.evts.pend x = if x = 768 + 8 * n + w1 then true else tblGet false u.evts.pend x) ∧
    (∃ t, exec (.timerSet c) s = .next t ∧ t = { u with merya := t.merya } ∧
      if 10000000 < w1 then onlyCore c u t ∧ returned c [(1, 1)] s t
      else
        returned c [(1, 0)] s t ∧
        onlyApplet n { applet s n with timer := if w1 = 0 then none else some (s.now + 100 * w1) } s t)

/-- For a service call of user code of applet n whose fetch passes. RING_CONFIG returns status 1 when its arguments
are out of range, 4 when the internal ring is not DISABLED, else 0 with the bases, depth and halt mode written and the
class the applet's, no other ring changing. TRK_APPEND returns 1 when the range is not 1 to 64 bytes of the window,
else 0; when Tracks has nothing waiting, nothing lost and room, the last entry of the log is then a new one of kind
0x1000 + n and origin n with the bytes of the range and the Hut's time, its SEQ is one above the last, and w2 and w3
return it. -/
def Obligations.RingConfigAndTracksAppendCalls : Prop :=
  ∀ (s : State) (c n : Nat), calls s c n →
    let u := fetched s c
    let k := rinkOf s c
    let w1 := (reg k 1).toNat
    let w2 := (reg k 2).toNat
    let w3 := (reg k 3).toNat
    (∃ t, exec (.ringConfig c) s = .next t ∧
      if ¬ ringConfigFits s n w1 w2 (w3 % 32) then onlyCore c u t ∧ returned c [(1, 1)] s t
      else if (getRing s (.internal n)).state ≠ .disabled then onlyCore c u t ∧ returned c [(1, 4)] s t
      else
        returned c [(1, 0)] s t ∧ t = { u with merya := t.merya, rings := t.rings } ∧ t.merya.apps = s.merya.apps ∧
        (∀ r, r ≠ .internal n → getRing t r = getRing s r) ∧ t.rings.jobs = s.rings.jobs ∧
        getRing t (.internal n) = { getRing s (.internal n) with
          sqBase := BitVec.ofNat 64 (0x10000000 + 0x20000 * n + w1),
          cqBase := BitVec.ofNat 64 (0x10000000 + 0x20000 * n + w2),
          depthLog2 := w3 % 32, haltMode := (reg k 3).getLsbD 12, cls := (applet s n).cls }) ∧
    (∃ t, exec (.trkAppend c) s = .next t ∧
      if w1 < 0x10000000 + 0x20000 * n ∨ 0x10000000 + 0x20000 * (n + 1) < w1 + w2 ∨ w2 = 0 ∨ 64 < w2 then
        onlyCore c u t ∧ returned c [(1, 1)] s t
      else
        t = { u with merya := t.merya, trk := t.trk, patrol := t.patrol, evts := t.evts, link := t.link,
                     stored := { u.stored with rowWrites := t.stored.rowWrites, marks := t.stored.marks } } ∧
        t.merya.apps = s.merya.apps ∧
        (∃ seq : Nat, returned c [(1, 0), (2, word seq), (3, word (seq / 2 ^ 32))] s t ∧
          (u.trk.queue = [] → u.trk.lostGeneral = 0 → u.trk.lostReserve = 0 → 1026 ≤ trkFree u.trk →
            seq = u.trk.headSeq + 1 ∧ t.trk.headSeq = seq ∧
            ∃ e, t.trk.entries = u.trk.entries ++ [e] ∧ e.seq = seq ∧ e.kind = 0x1000 + n ∧ e.origin = n ∧
              e.time = s.hut.time ∧ e.payload = mapBytes u w1 w2)))

/-- For a service call of user code of applet n whose fetch passes. WAIT_EVENT consumes the record returned last; with
a record left it returns the address of the oldest in w1 and its KIND in w2, that record is then the one taken, the
activation deadline is its TIME plus the budget of the class, and the slices begin at 0; with none left the applet is
WAITING and the core free. YIELD returns 0 in w1, makes the applet READY and frees the core. No other core, applet or
part changes but the event that reports the transition. -/
def Obligations.WaitEventAndYieldCalls : Prop :=
  ∀ (s : State) (c n : Nat), calls s c n →
    let u := fetched s c
    let a := applet s n
    let left := if a.taken = true then a.mail.drop 1 else a.mail
    (∃ t, exec (.waitEvent c) s = .next t ∧
      match left with
      | m :: _ =>
        returned c [(1, word (0x1001F000 + 0x20000 * n + 0x80 * m.slot)), (2, word m.kind)] s t ∧
        t = { u with merya := t.merya } ∧
        onlyApplet n { a with mail := left, taken := true, waitPending := false, slices := 0,
                              deadline := m.time + (match a.cls with
                                | .L => 200000 | .P => 2500000 | .R => 25000000 | .B => 250000000) } s t
      | [] =>
        leftCore c n [] s t ∧ t = { u with merya := t.merya, evts := t.evts, link := t.link } ∧
        onlyApplet n { a with state := .waiting, mail := [], taken := false, waitPending := true,
                              pc := (applet t n).pc, regs := (applet t n).regs } s t) ∧
    (∃ t, exec (.yield c) s = .next t ∧ leftCore c n [(1, 0)] s t ∧
      t = { u with merya := t.merya, evts := t.evts, link := t.link } ∧
      onlyApplet n { a with state := .ready, pc := (applet t n).pc, regs := (applet t n).regs } s t)

/-- CORE_DISPATCH on a free core gives it the READY applet with the earliest activation deadline, which becomes
RUNNING in a new slice; with none READY nothing changes. SLICE_END on the core of a running applet that is not held:
when the earliest READY applet has an earlier deadline, the running one becomes READY with its registers and PC kept
and the other one runs; otherwise the running one goes on in a new slice that begins now. In each case the slice must
be within MAX_SLICES; one beyond it raises cause 0x08: the applet is STOPPING and the core free. Only applets, cores
and events change within the limit. -/
def Obligations.DispatchAndSliceEnd : Prop :=
  (∀ (s : State) (c : Nat), c < 8 → (rinkOf s c).applet = none →
    (∀ m, isEarliest s m → mayBegin s m →
      ∃ t, exec (.coreDispatch c) s = .next t ∧ runsOn c m s t ∧ schedFrame s t ∧
        (∀ d, d ≠ c → rinkOf t d = rinkOf s d) ∧ ∀ x, x ≠ m → applet t x = applet s x) ∧
    (∀ m, isEarliest s m → ¬ mayBegin s m →
      ∃ t, exec (.coreDispatch c) s = .next t ∧ (applet t m).state = .stopping ∧ (rinkOf t c).applet = none ∧
        (rinkOf t c).ecause = 8) ∧
    ((∀ m, m < 32 → (applet s m).state ≠ .ready) → exec (.coreDispatch c) s = .next s)) ∧
  (∀ (s : State) (c n : Nat), (rinkOf s c).applet = some n → (applet s n).state = .running → (applet s n).held = false →
    (∀ m, isEarliest s m → m ≠ n → (applet s m).deadline < (applet s n).deadline → mayBegin s m →
      ∃ t, exec (.sliceEnd c) s = .next t ∧ runsOn c m s t ∧ schedFrame s t ∧
        applet t n = { applet s n with state := .ready, pc := (rinkOf s c).pc, regs := (rinkOf s c).regs } ∧
        ∀ x, x ≠ m → x ≠ n → applet t x = applet s x) ∧
    ((∀ m, m < 32 → (applet s m).state = .ready → (applet s n).deadline ≤ (applet s m).deadline) → mayBegin s n →
      ∃ t, exec (.sliceEnd c) s = .next t ∧ schedFrame s t ∧
        rinkOf t c = { rinkOf s c with epc := (rinkOf s c).pc, estat := statOf s c, ecause := 0x0A, sliceAt := s.now } ∧
        (∀ d, d ≠ c → rinkOf t d = rinkOf s d) ∧
        onlyApplet n { applet s n with slices := (applet s n).slices + 1 } s t) ∧
    ((∀ m, m < 32 → (applet s m).state = .ready → (applet s n).deadline ≤ (applet s m).deadline) → ¬ mayBegin s n →
      (rinkOf s c).supervisor = false →
      ∃ t, exec (.sliceEnd c) s = .next t ∧ (applet t n).state = .stopping ∧ (rinkOf t c).applet = none ∧
        (rinkOf t c).ecause = 8))

/-- APPLET_START_COMPLETE of a STARTING applet whose image is unreadable or does not match its SHA-256 makes it
FAULTED; otherwise it becomes READY (its PC at ENTRY, w14 at STACK_TOP, other registers zero, no slice begun), its
window holds the image and zeros up to the mailbox and carries tag 1 + (n mod 15), and a start or restart record is in
its mailbox when there is room. APPLET_RING_DISABLED, with the internal ring DISABLED, takes a STOPPING applet to
STARTING (after a Purge, or with RESTART 1 and fewer than 8 restarts) or FAULTED, and a REMOVING one to EMPTY with its
counters unassigned. APPLET_TIMER_EXPIRY clears the timer and posts one record of kind 0x20 when there is none yet and
a slot is free. -/
def Obligations.AppletStartRingDisabledAndTimer : Prop :=
  (∀ (s : State) (n : Nat), n < 32 → (applet s n).state = .starting →
    let a := applet s n
    (sha256 a.image ≠ a.sha → ∀ readable, ∃ t, exec (.appletStartComplete n readable) s = .next t ∧ schedFrame s t ∧
      onlyApplet n { a with state := .faulted } s t ∧ t.merya.cores = s.merya.cores) ∧
    (∃ t, exec (.appletStartComplete n false) s = .next t ∧ schedFrame s t ∧
      onlyApplet n { a with state := .faulted } s t ∧ t.merya.cores = s.merya.cores) ∧
    (sha256 a.image = a.sha → a.image.length ≤ 0x1F000 → a.mailSlot < 32 → (∀ m ∈ a.mail, m.slot < 32) →
      ∃ t, exec (.appletStartComplete n true) s = .next t ∧ (applet t n).state = .ready ∧
        (applet t n).pc = word (0x10000000 + 0x20000 * n + headerField s n 0x10 4) ∧
        (∀ r, tblGet 0 (applet t n).regs r =
          if r = 14 then word (0x10000000 + 0x20000 * n + headerField s n 0x18 4) else 0) ∧
        (applet t n).slices = 0 ∧ (applet t n).restart = false ∧
        (∀ x, x < 0x1F000 → memRead t.mem (0x10000000 + 0x20000 * n + x) = a.image.getD x 0) ∧
        (∀ x, x < 0x20000 → tagOf t.prot (0x10000000 + 0x20000 * n + x) = 1 + n % 15) ∧
        (∀ x, x < 0x10000000 + 0x20000 * n ∨ 0x10000000 + 0x20000 * (n + 1) ≤ x → memRead t.mem x = memRead s.mem x) ∧
        (a.mail.length < 32 → ∃ r, (applet t n).mail = a.mail ++ [r] ∧
          r.kind = (if a.restart then 0x31 else 0x30) ∧ r.time = s.now) ∧
        ∀ m, m ≠ n → applet t m = applet s m)) ∧
  (∀ (s : State) (n : Nat), n < 32 → (getRing s (.internal n)).state = .disabled →
    let a := applet s n
    (a.state = .stopping →
      ∃ t, exec (.appletRingDisabled n) s = .next t ∧ schedFrame s t ∧ t.merya.cores = s.merya.cores ∧
        onlyApplet n
          (if a.forced then { a with state := .starting, restart := true }
           else if headerField s n 0x06 2 % 2 = 1 ∧ a.restarts < 8 then
             { a with state := .starting, restart := true, restarts := a.restarts + 1 }
           else { a with state := .faulted }) s t) ∧
    (a.state = .removing →
      ∃ t, exec (.appletRingDisabled n) s = .next t ∧
        onlyApplet n { Applet.reset with restarts := a.restarts } s t ∧
        (∀ x, x < 0x20000 → memRead t.mem (0x10000000 + 0x20000 * n + x) = 0 ∧
          tagOf t.prot (0x10000000 + 0x20000 * n + x) = 0) ∧
        ∀ x, (counter t x).owner = (if (counter s x).owner = 0x20 + n then 0xFF else (counter s x).owner) ∧
          (counter t x).value = (counter s x).value)) ∧
  (∀ (s : State) (n e : Nat), n < 32 → (applet s n).timer = some e →
    let a := applet s n
    let open_ := a.state ≠ .empty ∧ a.state ≠ .faulted ∧ a.state ≠ .removing
    let has := a.mail.any (fun m => m.kind == 0x20)
    let r : MailRecord := { slot := a.mailSlot, kind := 0x20, seq := a.mailSeq, lost := a.mailLost, time := s.now,
                            arg0 := 0, arg1 := 0, trkSeq := 0, auth := 0, data := [] }
    ∃ t, exec (.appletTimerExpiry n) s = .next t ∧ (applet t n).timer = none ∧ t.merya.cores = s.merya.cores ∧
      (∀ m, m ≠ n → applet t m = applet s m) ∧
      (¬ open_ → onlyApplet n { a with timer := none } s t) ∧
      (open_ → has = true → (applet t n).mail.map (fun m => (m.kind, m.slot, m.time)) =
        a.mail.map (fun m => (m.kind, m.slot, m.time))) ∧
      (open_ → has = false → 32 ≤ a.mail.length →
        onlyApplet n { a with timer := none, mailLost := min 0xFFFF (a.mailLost + 1) } s t) ∧
      (open_ → has = false → a.mail.length < 32 →
        (applet t n).mail = a.mail ++ [r] ∧ (applet t n).mailSlot = (a.mailSlot + 1) % 32 ∧
        (applet t n).mailSeq = (a.mailSeq + 1) % 0x10000 ∧ (applet t n).mailLost = 0 ∧
        (applet t n).state = (if a.state = .waiting then .ready else a.state) ∧
        (a.mailSlot < 32 → storedNat t (0x1001F000 + 0x20000 * n + 0x80 * a.mailSlot) 2 = 0x20 ∧
          storedNat t (0x1001F000 + 0x20000 * n + 0x80 * a.mailSlot + 8) 8 = s.now % 2 ^ 64)))

/-- RANDOM_REFILL_ARRIVAL on core c below 8. A refill that is asked for and not yet placed is placed first, on a Groomer of
the placement order that has the room for it (R309). If the refill then stands on a serving Groomer of a seeded part, 64
bytes are its next output and replace what was on its way, and no other Groomer changes. The bytes on their way join the
core's random buffer behind those it holds, up to its 64 bytes. A load that is stalled on the port then completes if the
port does not stall and the buffer holds its bytes: rd takes them and PC moves on; otherwise the core is as before but
for its buffer and its next refill. No other core changes. -/
def Obligations.RandomRefillReachesTheCore : Prop :=
  ∀ (s : State) (c : Nat), c < 8 →
    let k := rinkOf s c
    let plan := if wantsRefill s c = true ∧ s.powder.seeded = true then
        placeOn s .groomer (derated s.gate.derate (groomerReseed (planBand s.gate.band))) (fun _ => true) (refillPlace s c)
      else k.refill
    let source := (List.range 4).find? (fun g =>
      decide (plan.map (fun p => p.res) = some (.unit { kind := .groomer, num := g })) && groomerServes s g && s.powder.seeded)
    let arriving := match source with
      | some g => (drbgGenerate 64 (groomerOf s g).k (groomerOf s g).v).1
      | none => k.arriving
    let b := (k.buffer ++ arriving).take 64
    ∃ t, exec (.randomRefillArrival c) s = .next t ∧ t = { s with merya := t.merya, powder := t.powder } ∧
      t.merya.apps = s.merya.apps ∧ (∀ d, d ≠ c → rinkOf t d = rinkOf s d) ∧
      (source = none → t.powder = s.powder) ∧ (∀ g, source ≠ some g → groomerOf t g = groomerOf s g) ∧
      match k.stalled with
      | none => rinkOf t c = { k with buffer := b, arriving := [], refill := (rinkOf t c).refill }
      | some (rd, n, signed, _) =>
        if portStalls s = true ∨ b.length < n then
          rinkOf t c = { k with buffer := b, arriving := [], refill := (rinkOf t c).refill }
        else
          rinkOf t c = { k with buffer := b.drop n, arriving := [], stalled := none, pc := k.pc + 4,
                                regs := (rinkOf t c).regs, refill := (rinkOf t c).refill } ∧
          ((n = 1 ∨ n = 2 ∨ n = 4 ∨ n = 8 ∧ rd.val % 2 = 0) →
            ∀ r, reg (rinkOf t c) r = loaded k rd n signed (natLE (b.take n)) r)

/-- For the arrival row of every operation (the 20 job opcodes and the 23 critical commands, whose row then brings the
descriptor alone): when a descriptor of that operation reaches the Gate and the Gate admits it, the row completes; the
jobs in flight are those of before and then this one, with the tag it took (below 2,048 and held by no other job in
flight), its ring, index and phase, operation, class, t0, descriptor and the deadline t0 plus the budget of its class;
the count of admitted jobs of its class grows by one; a sending session job of CHAIN 00 or 01 in a nonce mode takes
the session's frame counter, which grows by 1, and no other session context changes; a critical command takes one
credit of each kind of its authority's counter. Time, life cycle, curves, Powder, Hut and alarm lines are untouched.
-/
def Obligations.AdmittedDescriptorIsInFlight : Prop :=
  ∀ (o : Op) (s : State) (a : Arrival) (q : Slot) (p : Plan), reachesGate s a q → opOf (stagedDesc s a) = some o →
    decision s a q = .admitJob o p →
    ∃ t, exec (arrivalRow o a) s = .next t ∧ arrivalFrame s t ∧
      jobsHeld t = jobsHeld s ++ [admittedId s a q o] ∧
      tagFor s a < 2048 ∧ (∀ j ∈ s.rings.jobs, j.tag ≠ tagFor s a) ∧
      (∀ c, tblGet 0 t.tel.admitted c =
        if c = clsCode (getRing s a.ring).cls then min 0xFFFFFFFF (tblGet 0 s.tel.admitted c + 1)
        else tblGet 0 s.tel.admitted c) ∧
      (∀ n, (tblGet Session.reset t.sess.table n).txCtr =
        let c := tblGet Session.reset s.sess.table n
        if n = dSlot (stagedDesc s a) ∧ (o = .sesEncrypt ∨ o = .sesMacGen) ∧ dChain (stagedDesc s a) < 2 ∧
            (modeAlg c.mode).any nonceMode = true then c.txCtr + 1 else c.txCtr) ∧
      (∀ n, n ≠ dSlot (stagedDesc s a) ∨ isSession o = false →
        tblGet Session.reset t.sess.table n = tblGet Session.reset s.sess.table n) ∧
      (∀ code, o = .critical code →
        let n := dCmdAuth (stagedDesc s a)
        (counter t n).short + 1 = (counter s n).short ∧ (counter t n).long + 1 = (counter s n).long ∧
        (counter t n).value = (counter s n).value ∧ ∀ m, m ≠ n → counter t m = counter s m)

/-- For the arrival row of every operation, and for OPCODE_ABSENT_DESCRIPTOR with a descriptor whose opcode or command
code no table names: when the descriptor reaches the Gate and the Gate refuses it with a status, the row completes, no
job joins those in flight, the refusals of its class grow by one, and on a host ring the part issues the entry of its
slot (or keeps it for the return of posted-write credit, where the link gives none) with COOKIE, its tag if it has one, ring, status, index and phase, no unit, BYTES and RESULT zero and the plan
band of the decision. A descriptor of no operation is always refused, with REFUSED_CLASS. -/
def Obligations.RefusedDescriptorGetsItsEntry : Prop :=
  (∀ (i : Instr) (s : State) (a : Arrival) (q : Slot) (st : Status), reachesGate s a q → decision s a q = .refuse st →
    ((∃ o, opOf (stagedDesc s a) = some o ∧ i = arrivalRow o a) ∨
     (opOf (stagedDesc s a) = none ∧ i = .opcodeAbsentDescriptor a)) →
    ∃ t, exec i s = .next t ∧ arrivalFrame s t ∧ (∀ x ∈ jobsHeld t, x ∈ jobsHeld s) ∧
      (∀ c, tblGet 0 t.gate.refused c =
        if c = clsCode (getRing s a.ring).cls then min 0xFFFFFFFF (tblGet 0 s.gate.refused c + 1)
        else tblGet 0 s.gate.refused c) ∧
      (∀ n, a.ring = .host n → n < 64 → q.index < 65536 →
        ∃ e, readEntryFields e = refusalEntry s a q st ∧
          if s.link.creditStalled = true then (n, q.index, e) ∈ t.link.heldEntries else posts s t (.entry n q.index e))) ∧
  (∀ (s : State) (a : Arrival) (q : Slot), opOf (stagedDesc s a) = none → decision s a q = .refuse .refusedClass)

/-- An entry built from a COOKIE, a RESULT, BYTES, a tag (2,048 or more: none), a ring, a status, a unit, RETRIED, a
plan band, UNVERIFIED, a submission index and a phase, each in the range of its field, reads back with exactly these
in the fields of the table of R121. -/
def Obligations.CompletionEntryLayout : Prop :=
  ∀ (cookie result : DWord) (bytes tag : Nat) (r : RingId) (st : Status) (kind num : Nat) (retried : Bool) (band : Band)
    (unverified : Bool) (index : Nat) (phase : Bool),
    bytes < 2 ^ 32 → (match r with | .host n => n < 64 | .internal n => n < 32) → kind < 8 → num < 128 → index < 65536 →
    readEntryFields (entryRaw cookie result bytes tag r st kind num retried band unverified index phase) =
      { cookie := cookie, result := result, bytes := bytes, jobTag := if tag < 2048 then tag else 0,
        tagValid := decide (tag < 2048), ring := (match r with | .host n => n | .internal n => n),
        inner := (match r with | .host _ => false | .internal _ => true), status := statusCode st, unitNum := num,
        unitKind := kind, retried := retried, planBand := (match band with | .s0 => 0 | .s1 => 1 | .s2 => 2),
        unverified := unverified, sqIndex := index, phase := phase }

/-- For every descriptor that reaches the Gate of a LOCKED part: unless it is an UNLOCK, or Whiteout holds and it is a
class L session job of a session marked life-safety that has a usable key, the Gate's decision is a refusal, with
REFUSED_CLASS or REFUSED_LOCKED. Outside the envelope, too, every decision is a refusal. -/
def Obligations.LockedPartAdmitsOnlyUnlockAndTheCarveOut : Prop :=
  (∀ (s : State) (a : Arrival) (q : Slot) (o : Op), isLocked s = true → opOf (stagedDesc s a) = some o →
    o ≠ .critical .unlock →
    ¬ (inWhiteout s = true ∧ isSession o = true ∧ (getRing s a.ring).cls = .L ∧
       flagLifeSafety (sessionOf s (stagedDesc s a)).flags = true ∧
       (sessionUsable s (sessionOf s (stagedDesc s a))).isSome = true) →
    decision s a q = .refuse .refusedClass ∨ decision s a q = .refuse .refusedLocked) ∧
  (∀ (s : State) (a : Arrival) (q : Slot), envelopeOk s = false → ∃ st, decision s a q = .refuse st ∧
    (st = .refusedClass ∨ st = .refusedLocked ∨ st = .refusedEnvelope))

/-- For every critical command with its data, admitted, gathered and with its barrier met: a bad block format, AUTH or CODE
differing from AUX, a TARGET of another part, no usable sealing key, a wrong tag, a stale COUNTER, LOCKED or Guard, or
Whiteout for a group K command, in this order, end it with INPUT_INVALID 1, 3, 2, the key's status, AUTH_FAIL,
COUNTER_STALE, CANCELLED 6 or CANCELLED 5 (that 6 comes before 5 is the model's choice, log entry 79; a command whose
destination overlaps what it reads may end with another status, R108): its row completes, every counter, key and
register of the part stays. Otherwise its counter takes COUNTER, no other counter changes, and the command is prepared,
or a CURVE_LOAD whose format holds waits for the checks on its Edge, or it has failed with another status than OK and no
effect, and its row completes with that. -/
def Obligations.StagesOfACriticalCommand : Prop :=
  ∀ (c : CmdCode) (s : State) (a : Arrival) (g : CritData) (w : State) (k : Job), atStage4 c a g s w k →
    let b := g.block
    let d := stagedDesc s a
    let n := dCmdAuth d
    let fails : Status → Nat → Prop := fun st r => ∃ v, rowEnds c a g s v ∧ sameParts w v ∧ sameSlots w v ∧
      ∃ j, findJob v (tagFor s a) = some j ∧ j.stage = .finished ∧ (overlaps k = false → j.status = some st) ∧
        j.result = BitVec.ofNat 64 r
    if ¬ (blockFormatOk c b = true ∧ (provisions w c = true → dSrcLen d = 104)) then fails .inputInvalid 1
    else if cbAuth b ≠ n ∨ cbCode b ≠ dCmdCode d then fails .inputInvalid 3
    else if cbTarget b ≠ 0 ∧ cbTarget b ≠ w.life.serial then fails .inputInvalid 2
    else match sealKey w k c with
      | .error st => fails st 0
      | .ok key =>
        if cmac key (sealedMessage d b) ≠ cbTag b then fails .authFail 0
        else if (cbCounter b).toNat ≤ (counter w n).value.toNat then fails .counterStale 0
        else if (isLocked w = true ∧ c ≠ .unlock) ∨ ((cmdGroup c = .key ∨ cmdGroup c = .policy) ∧ guardUp w = true) then
          fails .cancelled 6
        else if cmdGroup c = .key ∧ inWhiteout w = true then fails .cancelled 5
        else ∃ u j, u = releaseBarrier (tagFor s a) w ∧ findJob u (tagFor s a) = some j ∧
          (counter u n).value = cbCounter b ∧ (∀ m, m ≠ n → counter u m = counter w m) ∧
          sameParts w { u with ctrs := w.ctrs } ∧ sameSlots w u ∧
          (c ≠ .curveLoad ∧ j.stage = .prepared ∨
           c = .curveLoad ∧ (j.stage = .ready ∨ j.stage = .running) ∧ j.status = none ∧ rowEnds c a g s u ∧
             8 ≤ cbBody b 0 8 ∧ cbBody b 0 8 < 32 ∧ dSrcLen d = 440 ∧ sha256 (sourceOf s a g) = cbBytes b 8 32 ∨
           j.stage = .finished ∧ j.status.isSome = true ∧ (overlaps k = false → j.status ≠ some .ok) ∧ rowEnds c a g s u)

/-- For every critical command that stages 4 to 10 have prepared, in its own row or, as a CURVE_LOAD, before
COMPLETION_ENTRY_WRITE: the row completes, with the command finished; the latest Tracks entry is then its own, kind 0x0200
with AUTH and CODE as ORIGIN and the block without TAG as payload, and RESULT[47:0] is that entry's SEQ; or the entry
found no room, TRK_EVT.LOST is set and RESULT[47:0] is 0. Its status is OK (stated here for every command but
WHITEOUT_EXIT, UNLOCK and LC_ADVANCE, whose effects may bring further responses, and where its destination overlaps
nothing that it reads), and RESULT[63:48] is 0 but for UNLOCK. -/
def Obligations.CommittedCommandIsRecordedAndAnswered : Prop :=
  let answered : CmdCode → Nat → CmdBlock → Nat → Job → State → Prop := fun c n b tag j v =>
    (c ≠ .whiteoutExit → c ≠ .unlock → c ≠ .lcAdvance → overlaps j = false →
      ∃ k, findJob v tag = some k ∧ k.status = some .ok) ∧
    ∀ k, findJob v tag = some k → k.stage = .finished ∧
      (c ≠ .unlock → k.result.toNat / 2 ^ 48 = 0) ∧
      ((∃ e, v.trk.entries.getLast? = some e ∧ e.kind = 0x0200 ∧ e.origin = n ∧
          e.payload = (vecBytes 1024 b).take 0x70 ∧ e.seq = v.trk.headSeq ∧ k.result.toNat % 2 ^ 48 = e.seq % 2 ^ 48) ∨
        (k.result.toNat % 2 ^ 48 = 0 ∧ v.trk.evt.getLsbD 2 = true))
  (∀ (c : CmdCode) (s : State) (a : Arrival) (g : CritData) (u : State) (j : Job), readyToCommit c a g s u j →
    let d := stagedDesc s a
    ∃ v, rowEnds c a g s v ∧ answered c (dCmdAuth d * 0x1000 + dCmdCode d) g.block (tagFor s a) j v) ∧
  (∀ (c : CmdCode) (s : State) (tag : Nat) (j : Job) (b : CmdBlock), awaitsCommit c s tag j b →
    ∃ v, entryEnds s tag v ∧ answered c (dCmdAuth j.desc * 0x1000 + dCmdCode j.desc) b tag j v)

/-- When prepared, AUTH_SET puts the unwrapped 32-byte key into V(24 + AUTH) as a new generation and enables the
authority with its GRANT; AUTH_DISABLE empties that slot and disables the authority (never A0); ROOT_IMPORT and
PRIV_IMPORT put the unwrapped key into their slot as a new generation (a KEK by MODE; with KIND and, for a curve key,
the curve digest); ROOT_ERASE and PRIV_ERASE empty theirs; each retires the former generation or revokes all by MODE;
no counter and no other slot changes. EDGE_JOB_DONE of a running CURVE_LOAD notes its entry, the checks that its image
fails and the first of them; with none it is prepared and its slots are free, else it ends with INPUT_INVALID 9. A
prepared CURVE_LOAD fills its curve-table entry with its image at COMPLETION_ENTRY_WRITE, and changes no other entry
and no slot. Each row completes. -/
def Obligations.KeyCommandsCommit : Prop :=
  (∀ (s : State) (a : Arrival) (g : CritData) (u : State) (j : Job),
    let b := g.block
    let n := cbBody b 0 8
    let mode := cbBody b 2 8
    let src := sourceOf s a g
    (readyToCommit .authSet a g s u j → ∃ v p, rowEnds .authSet a g s v ∧ n < 8 ∧
      unwraps u (cbBody b 1 8) (cbBytes b 8 40) p ∧ p.length = 32 ∧
      newGeneration u v (.root (24 + n)) false p false 0 [] ∧ sameParts u { v with ctrs := u.ctrs } ∧
      v.ctrs.table = u.ctrs.table ∧ (∀ i, i < 8 → v.ctrs.enabled.getLsbD i = (u.ctrs.enabled.getLsbD i || i == n)) ∧
      (∀ i, tblGet 0 v.ctrs.grant i = if i = n then word (cbBody b 4 32) else tblGet 0 u.ctrs.grant i)) ∧
    (readyToCommit .authDisable a g s u j → ∃ v, rowEnds .authDisable a g s v ∧ 0 < n ∧ n < 8 ∧
      slotErased u v (.root (24 + n)) false ∧ sameParts u { v with ctrs := u.ctrs } ∧ v.ctrs.table = u.ctrs.table ∧
      (∀ i, i < 8 → v.ctrs.enabled.getLsbD i = (u.ctrs.enabled.getLsbD i && i != n))) ∧
    (readyToCommit .rootImport a g s u j → ∃ v p, rowEnds .rootImport a g s v ∧ n < 24 ∧ mode < 4 ∧
      unwraps u (cbBody b 1 8) (cbBytes b 8 40) p ∧ p.length = 32 ∧
      newGeneration u v (.root n) (mode % 2 == 1) p (decide (2 ≤ mode)) 0 [] ∧ sameParts u v) ∧
    (readyToCommit .rootErase a g s u j → ∃ v, rowEnds .rootErase a g s v ∧ n < 24 ∧ mode < 2 ∧
      slotErased u v (.root n) (mode == 1) ∧ sameParts u v) ∧
    (readyToCommit .privImport a g s u j → ∃ v p, rowEnds .privImport a g s v ∧ mode < 2 ∧ sha256 src = cbBytes b 8 32 ∧
      (let kind := cbBody b 4 16
       (∃ m, (rootSlot u (cbBody b 1 8)).cur = some m ∧ m.kek = true ∧
         (if p.length % 8 = 0 then kwUnwrap m.key src = some p else kwpUnwrap m.key src = some p)) ∧
       newGeneration u v (.priv n) (mode == 1) p false (BitVec.ofNat 16 kind)
         (if kind < 0x2000 then curveDigest u (kind % 32) else [])) ∧ sameParts u v) ∧
    (readyToCommit .privErase a g s u j → ∃ v, rowEnds .privErase a g s v ∧ mode < 2 ∧
      slotErased u v (.priv n) (mode == 1) ∧ sameParts u v)) ∧
  (∀ (s : State) (tag : Nat) (j : Job) (b : CmdBlock), tagsDistinct s → tag < 2048 → findJob s tag = some j →
    curveWork j = true → j.block = some b → j.stage = .running → j.status = none → overlaps j = false →
    let im := j.source.getD []
    let bases := j.draw.getD []
    let n := 64 * mrDrawBytes (curveOfImage im).p
    let bad := curveChecksOn j.blinds (curveOfImage im) (bases.take n) (bases.drop n)
    ∃ t k, exec (.edgeJobDone tag) s = .next t ∧ findJob t tag = some k ∧ sameSlots s t ∧
      sameParts s { t with curves := s.curves } ∧ t.curves.table = s.curves.table ∧ t.curves.lastValid = true ∧
      t.curves.lastEntry = cbBody b 0 8 ∧ t.curves.lastFailed = bad ∧
      (if bad = 0 then t.curves.lastFirst = 0 ∧ k.stage = .prepared ∧ k.slots = []
       else (∃ i, i < 9 ∧ bad.getLsbD i = true ∧ (∀ m, m < i → bad.getLsbD m = false) ∧ t.curves.lastFirst = i + 1) ∧
         k.stage = .finished ∧ k.status = some .inputInvalid ∧ k.result = 9)) ∧
  (∀ (s : State) (tag : Nat) (j : Job) (b : CmdBlock), awaitsCommit .curveLoad s tag j b →
    let n := cbBody b 0 8
    let src := j.source.getD []
    ∃ v, entryEnds s tag v ∧
      (∀ i, tblGet Curve.reset v.curves.table i =
        if i = n then { loaded := true, image := src, digest := sha256 src } else tblGet Curve.reset s.curves.table i) ∧
      sameSlots s v ∧ sameParts s { v with curves := s.curves } ∧ v.curves = { s.curves with table := v.curves.table })

/-- When prepared, SES_SET gives its session the fields of the body, the current generation of the root slot, EPOCH
one higher, frame counters and replay window zero and a closed chain; SES_CLEAR clears the context but for EPOCH, one
higher; APPLET_LOAD puts the image into the store of its applet, which is then STARTING and whose ring has its class; APPLET_REMOVE moves the
applet to REMOVING, off its core and with its ring no longer ENABLED; LEVEL_RAISE gives the source the level, not
below the former one; RAZE_ENABLE enables Raze; ALARM_CONFIG gives each alarm input its function; CTR_ASSIGN changes
the owner of one counter and no value; DEBUG_UNLOCK opens the debug port for MINUTES of Hut time. Each row completes,
and no slot, no other session, applet, level or counter changes. -/
def Obligations.PolicyAndSessionCommandsCommit : Prop :=
  ∀ (s : State) (a : Arrival) (g : CritData) (u : State) (j : Job),
    let b := g.block
    let n := cbBody b 0 8
    let m := cbBody b 0 16
    let src := sourceOf s a g
    (readyToCommit .sesSet a g s u j → ∃ v, rowEnds .sesSet a g s v ∧ m < 4096 ∧ sameSlots u v ∧
      sameParts u { v with sess := u.sess, prot := u.prot } ∧
      (∀ i, tblGet Session.reset v.sess.table i = if i = m then
          let c := tblGet Session.reset u.sess.table m
          { label := BitVec.ofNat 256 (cbBody b 0x10 256), rootSlot := BitVec.ofNat 8 (cbBody b 2 8),
            mode := BitVec.ofNat 8 (cbBody b 3 8), flags := BitVec.ofNat 8 (cbBody b 4 8),
            colour := BitVec.ofNat 4 (cbBody b 5 8), chainOpen := false, isSet := true,
            salt := BitVec.ofNat 32 (cbBody b 8 32),
            gen := BitVec.ofNat 32 (((rootSlot u (cbBody b 2 8)).cur.map (fun x => x.gen)).getD 0),
            epoch := c.epoch + 1, txCtr := 0, rxHigh := 0, rxMap := 0, chainGen := 0, cont := 0 }
        else tblGet Session.reset u.sess.table i) ∧
      (∀ i, tblGet 0 v.prot.tags i = if i = (0x30000000 + m * 0x80) / 256 then cbBody b 5 8 else tblGet 0 u.prot.tags i)) ∧
    (readyToCommit .sesClear a g s u j → ∃ v, rowEnds .sesClear a g s v ∧ m < 4096 ∧ sameSlots u v ∧
      sameParts u { v with sess := u.sess } ∧
      (∀ i, tblGet Session.reset v.sess.table i = if i = m then
          { Session.reset with epoch := (tblGet Session.reset u.sess.table m).epoch + 1 }
        else tblGet Session.reset u.sess.table i)) ∧
    (readyToCommit .appletLoad a g s u j → ∃ v, rowEnds .appletLoad a g s v ∧ n < 32 ∧ sha256 src = cbBytes b 8 32 ∧
      (applet u n).state = .empty ∧ sameSlots u v ∧ sameParts u { v with merya := u.merya } ∧
      applet v n = { Applet.reset with
        state := .starting, cls := clsOfCode (cbBody b 1 8), image := src, sha := sha256 src,
        restarts := (applet u n).restarts } ∧
      (∀ i, i ≠ n → applet v i = applet u i) ∧ v.merya.cores = u.merya.cores ∧
      (getRing v (.internal n)).cls = clsOfCode (cbBody b 1 8)) ∧
    (readyToCommit .appletRemove a g s u j → ∃ v, rowEnds .appletRemove a g s v ∧ n < 32 ∧
      (applet u n).state ≠ .empty ∧ sameSlots u v ∧ sameParts u { v with merya := u.merya } ∧
      (applet v n).state = .removing ∧ (applet v n).image = (applet u n).image ∧
      (∀ c, c < 8 → (rinkOf v c).applet ≠ some n) ∧ (getRing v (.internal n)).state ≠ .enabled ∧
      (∀ i, i ≠ n → (applet v i).image = (applet u i).image ∧ (applet v i).state = (applet u i).state)) ∧
    (readyToCommit .levelRaise a g s u j → ∃ v, rowEnds .levelRaise a g s v ∧ 128 ≤ m ∧ m ≤ 246 ∧ cbBody b 2 8 ≤ 4 ∧
      levelNum (configuredLevel u.patrol m) ≤ cbBody b 2 8 ∧ sameSlots u v ∧ sameParts u { v with patrol := u.patrol } ∧
      (∀ i, configuredLevel v.patrol i = if i = m then levelOfNum (cbBody b 2 8) else configuredLevel u.patrol i) ∧
      v.patrol.sources = u.patrol.sources ∧ v.patrol.razeEnabled = u.patrol.razeEnabled) ∧
    (readyToCommit .razeEnable a g s u j → ∃ v, rowEnds .razeEnable a g s v ∧ n = 1 ∧ sameSlots u v ∧
      sameParts u { v with patrol := { v.patrol with razeEnabled := u.patrol.razeEnabled } } ∧
      v.patrol.razeEnabled = true) ∧
    (readyToCommit .alarmConfig a g s u j → ∃ v, rowEnds .alarmConfig a g s v ∧ sameSlots u v ∧
      sameParts u { v with alarm := { v.alarm with inputs := u.alarm.inputs } } ∧
      ∀ i, i < 4 → almInput v i = { almInput u i with func := cbBody b i 8 }) ∧
    (readyToCommit .ctrAssign a g s u j → ∃ v, rowEnds .ctrAssign a g s v ∧ 16 ≤ n ∧ sameSlots u v ∧
      sameParts u { v with ctrs := { v.ctrs with table := u.ctrs.table } } ∧
      ∀ i, counter v i = if i = n then
        { counter u n with owner := if cbBody b 1 8 = 0xFF then 0xFF else 0x20 + cbBody b 1 8 } else counter u i) ∧
    (readyToCommit .debugUnlock a g s u j → ∃ v, rowEnds .debugUnlock a g s v ∧ 1 ≤ m ∧ m ≤ 1440 ∧ sameSlots u v ∧
      sameParts u { v with prot := u.prot } ∧ v.prot = { u.prot with
        isOpen := true, openUntil := some (u.hut.time + m * 60 * 32768), evt := v.prot.evt } ∧
      (u.prot.isOpen = false → v.prot.evt.getLsbD 15 = true))

/-- When prepared, WHITEOUT_ENTER outside Whiteout sets the latch with cause 2, ZONES, REASON and the Hut time, clears
the reset note and closes the debug port; in Whiteout it changes nothing. WHITEOUT_EXIT clears the latch, and with no
temperature source active changes only what admission and standing level follow from. EVACUATE and ALERT change
nothing but the mailbox of the applet that handles them, which gets a record of kind 1 or 2 with ZONES, MESSAGE_ID,
DATA, authority, time and the SEQ of the command's entry, unless it is full. UNLOCK carries PTL_LOCK_SEQ; unpurged it
clears LOCKED (RESULT bit 48); purged, a first half is kept with its time (bit 49) and a second half of the other
authority within 60 s clears LOCKED and PURGED; a source still active at Lock or higher raises LOCKED again. -/
def Obligations.AlarmAndUnlockCommandsCommit : Prop :=
  ∀ (s : State) (a : Arrival) (g : CritData) (u : State) (j : Job),
    let b := g.block
    let auth := dCmdAuth (stagedDesc s a)
    let quiet : Prop := ∀ n ∈ activeSources u, levelNum (effLevel u n) < 2
    (readyToCommit .whiteoutEnter a g s u j → ∃ v, rowEnds .whiteoutEnter a g s v ∧
      if inWhiteout u = true then sameParts u v
      else v.hut = { u.hut with
            whiteout := true, cause := 2, input := 0, zones := word (cbBody b 0 32), reason := word (cbBody b 4 32),
            woTime := u.hut.time } ∧ v.alarm.inputs = u.alarm.inputs ∧
          v.alarm.resetSeen = false ∧ v.alarm.evt.getLsbD 4 = true ∧ v.prot.isOpen = false ∧ inWhiteout v = true ∧
          v.life = u.life ∧ v.sess = u.sess ∧ v.ctrs = u.ctrs ∧ v.powder = u.powder ∧ v.mem = u.mem ∧ sameSlots u v) ∧
    (readyToCommit .whiteoutExit a g s u j → ∃ v, rowEnds .whiteoutExit a g s v ∧ inWhiteout u = true ∧
      ((∀ n, n = 226 ∨ n = 227 ∨ n = 228 → (psource u n).active = false) →
        v.hut = { u.hut with whiteout := false } ∧ v.alarm.evt.getLsbD 5 = true ∧ sameSlots u v ∧
        v.gate = { u.gate with envClosed := u.gate.envClosed || decide (2000 < u.gate.tj) || decide (u.gate.tj < -640) } ∧
        sameParts u { v with hut := u.hut, gate := u.gate, alarm := { v.alarm with evt := u.alarm.evt } })) ∧
    (∀ c, c = .evacuate ∨ c = .alert → readyToCommit c a g s u j → ∃ v, rowEnds c a g s v ∧ sameSlots u v ∧
      sameParts u { v with merya := u.merya, mem := u.mem } ∧ v.merya.cores = u.merya.cores ∧
      let i := if c = .evacuate then 1 else 2
      match handlerOf u i with
      | none => v.merya = u.merya ∧ v.mem = u.mem
      | some h => (∀ n, n ≠ h → applet v n = applet u n) ∧
        (mailOpen (applet u h) = true → (applet u h).mail.length < 32 → ∃ r ∈ (applet v h).mail,
          r.kind = i ∧ r.arg0 = word (cbBody b 0 32) ∧ r.arg1 = word (cbBody b 4 32) ∧ r.auth = auth ∧ r.time = u.now ∧
          r.data = cbBytes b 8 (cbBodyLen b - 8) ∧
          ∃ k, findJob v (tagFor s a) = some k ∧ k.result.toNat % 2 ^ 48 = r.trkSeq.toNat % 2 ^ 48)) ∧
    (readyToCommit .unlock a g s u j → ∃ v, rowEnds .unlock a g s v ∧ cbBody b 0 64 = u.patrol.lockSeq.toNat ∧
      let answer : Nat → Prop := fun w => ∀ k, findJob v (tagFor s a) = some k → k.result.toNat / 2 ^ 48 = w
      let cleared : Bool → Prop := fun both => answer 1 ∧ v.ctrs.half = none ∧
        (quiet → v.hut.locked = false ∧ isLocked v = false ∧ isPurged v = (isPurged u && !both)) ∧
        (¬ quiet → v.hut.locked = true ∧ isLocked v = true)
      if isPurged u = false then auth ≠ 0 ∧ (if u.hut.locked = true then cleared false else answer 0 ∧ v.hut = u.hut)
      else match unlockHalf u with
        | some (x, _) => if x = auth then answer 2 ∧ v.ctrs.half = some (auth, u.hut.time) ∧ v.hut = u.hut else cleared true
        | none => answer 2 ∧ v.ctrs.half = some (auth, u.hut.time) ∧ v.hut = u.hut)

/-- When prepared, LC_ADVANCE puts the part into the named state: PROVISIONED from FACTORY, DEPLOYED (when sealed) or
RETIRED from PROVISIONED, RETIRED from DEPLOYED; counter 9 grows by one and the debug port is closed. Leaving FACTORY
with no source active, V24 and V0 take the two keys of the body, V0 as a key-encryption key, A0 is enabled and the
provisioning public key is no longer valid; at RETIRED every used slot but V27 is EMPTY, only A3 may still be enabled,
no session is set and no applet is in the store but those still REMOVING. TRK_RECEIPT matches the pending export in
id, last SEQ and CHAIN; the entries up to it are released, the later ones stay in front of whatever is appended, and
no export is pending. -/
def Obligations.LifeCycleAdvanceAndReceiptCommit : Prop :=
  ∀ (s : State) (a : Arrival) (g : CritData) (u : State) (j : Job),
    let b := g.block
    (readyToCommit .lcAdvance a g s u j → ∃ v, rowEnds .lcAdvance a g s v ∧
      v.life.state = lcOfCode (cbBody b 0 8) ∧
      ((u.life.state = .factory ∧ v.life.state = .provisioned) ∨
       (u.life.state = .provisioned ∧ ((v.life.state = .deployed ∧ u.life.isSealed = true) ∨ v.life.state = .retired)) ∨
       (u.life.state = .deployed ∧ v.life.state = .retired)) ∧
      (counter v 9).value = (counter u 9).value + 1 ∧ (∀ n, n ≠ 9 → (counter v n).value = (counter u n).value) ∧
      v.prot.isOpen = false ∧ v.life.evt.getLsbD 2 = true ∧
      (v.life.state = .provisioned → activeSources u = [] →
        (∃ m, (rootSlot v 24).cur = some m ∧ m.key = j.key.take 32 ∧ m.kek = false) ∧
        (∃ m, (rootSlot v 0).cur = some m ∧ m.key = slice j.key 32 32 ∧ m.kek = true) ∧
        v.ctrs.enabled = bvSet u.ctrs.enabled 0 ∧ v.life.provValid = false) ∧
      (v.life.state = .retired →
        (∀ r ∈ usedSlots u, r ≠ .root 27 → (slotOf v r).cur = none) ∧ v.ctrs.enabled = u.ctrs.enabled &&& 8 ∧
        v.sess.table = [] ∧
        ∀ n, n < 32 → (applet v n).state = .empty ∨ (applet v n).state = .removing)) ∧
    (readyToCommit .trkReceipt a g s u j → ∃ v x, rowEnds .trkReceipt a g s v ∧ u.trk.pending = some x ∧
      x.id = cbBody b 0 32 ∧ x.last = cbBody b 8 64 ∧ x.chain = cbBytes b 16 32 ∧ v.trk.pending = none ∧
      (∃ l, v.trk.entries = u.trk.entries.filter (fun e => decide (x.last < e.seq)) ++ l) ∧
      v.trk.relSeq = (if u.trk.relSeq ≤ x.last then x.last + 1 else u.trk.relSeq) ∧
      v.trk.evt.getLsbD 4 = true ∧ sameParts u v ∧ sameSlots u v)

/-- For a doorbell of a host ring or of an applet's ring port: with bits [31:16] not zero, a TAIL not below the depth,
or the ring DISABLED or DRAINING it only sets DB_IGNORED; with TAIL unchanged it has no effect; where its count and
the descriptors whose entries are not yet written exceed depth - 1 it only sets DB_OVERFLOW; otherwise TAIL moves and
its descriptors join the ring, behind the others, with the present tick as stamp (on a HALTED ring they are not
fetched and wait for the stamp of the REARM). No other ring and no job changes. A port doorbell stored before the Gate
opens is held. -/
def Obligations.DoorbellsFollowTheirRules : Prop :=
  (∀ (i : Instr) (r : RingId) (v : Word) (s : State), doorbellRow i = some (r, v) → s.link.d3hot = false →
    (isHost r = false → s.gate.isOpen = true) →
    let x := getRing s r
    let tail := v.toNat % 65536
    let depth := 2 ^ x.depthLog2
    let count := (tail + depth - x.tail) % depth
    ∃ t, exec i s = .next t ∧ onlyRing r s t ∧
      if 65536 ≤ v.toNat ∨ depth ≤ tail ∨ x.state = .disabled ∨ x.state = .draining then
        getRing t r = { x with dbIgnored := true }
      else if count = 0 then t = s
      else if depth - 1 < count + unfinished x then getRing t r = { x with dbOverflow := true }
      else
        let y := getRing t r
        y.tail = tail ∧ y.state = x.state ∧ stampsOf s.now y = stampsOf s.now x ++ List.replicate count s.now ∧
          (x.state = .halted → y.slots = x.slots ∧ y.visible = x.visible ++ List.replicate count none)) ∧
  (∀ (n : Nat) (v : Word) (s : State), s.gate.isOpen = false → ∃ t, exec (.ringPortDb n v) s = .next t ∧
    onlyRing (.internal n) s t ∧ getRing t (.internal n) = { getRing s (.internal n) with heldDb := some v })

/-- ENABLE of a DISABLED ring enables it with indices 0 and PHASE 1 when a host ring has an open Gate, Bus Master
Enable and, in DEPLOYED, the seal, and otherwise only sets ENABLE_IGNORED; of a DRAINING ring it sets RESTART_PENDING
(for an applet's ring only while the applet is RUNNING); otherwise nothing. DISABLE of an ENABLED or HALTED ring
drains it, at once to DISABLED when every fetched descriptor has its entry; of a DRAINING one it drops
RESTART_PENDING; otherwise nothing. REARM acts on a HALTED ring alone: unsettled it waits, with its stamp; settled the
ring is ENABLED with every descriptor kept and stamped, or, with FLUSH and the link taking writes, each gets a
CANCELLED entry with its COOKIE in its own slot and none is left. -/
def Obligations.RingCommandsFollowTheirRules : Prop :=
  ∀ (r : RingId) (s : State),
    let x := getRing s r
    (∃ t, exec (ringCmdRow r .enable) s = .next t ∧ onlyRing r s t ∧
      match x.state with
      | .disabled =>
        if isHost r = true → s.gate.isOpen = true ∧ s.link.bme = true ∧
            (s.life.state = .deployed → s.life.isSealed = true) then
          getRing t r = { x with
            state := .enabled, tail := 0, fetch := 0, done := 0, fetchPhase := true, visible := [], slots := [],
            rearmPending := false, rearmFlush := none, restartPending := false }
        else getRing t r = { x with enableIgnored := true }
      | .draining =>
        (match r with
         | .host _ => getRing t r = { x with restartPending := true }
         | .internal n => if (applet s n).state = .running then getRing t r = { x with restartPending := true } else t = s)
      | _ => t = s) ∧
    (∃ t, exec (ringCmdRow r .disable) s = .next t ∧ onlyRing r s t ∧
      match x.state with
      | .enabled | .halted =>
        if ∀ q ∈ x.slots, q.written = true then
          (getRing t r).state = .disabled ∧ (getRing t r).visible = [] ∧ (getRing t r).slots = []
        else getRing t r = { x with
          state := .draining, restartPending := false, rearmPending := false, rearmFlush := none }
      | .draining => getRing t r = { x with restartPending := false }
      | .disabled => t = s) ∧
    (∃ t, exec (ringCmdRow r .rearm) s = .next t ∧ onlyRing r s t ∧
      let y := getRing t r
      if x.state ≠ .halted then t = s
      else if ∀ q ∈ x.slots, q.written = true then
        y.state = .enabled ∧ y.tail = x.tail ∧ y.rearmPending = false ∧ stampsOf s.now y = stampsOf s.now x ∧
          ∀ v ∈ y.visible, v.isSome = true
      else y = { x with rearmPending := true, rearmFlush := none, rearmAt := s.now }) ∧
    (∀ reads, ringNum r < 64 → x.fetch < 2 ^ x.depthLog2 → x.depthLog2 ≤ 16 →
      ∃ t, exec (ringCmdRow r (.rearmFlush reads)) s = .next t ∧ (∀ q, q ≠ r → getRing t q = getRing s q) ∧
        ringFrame s t ∧
        let y := getRing t r
        if x.state ≠ .halted then t = s
        else if (∀ q ∈ x.slots, q.written = true) ∧
            (isHost r = true → s.link.bme = true ∧ s.link.creditStalled = false) then
          y.state = .enabled ∧ y.visible = [] ∧ y.slots = x.slots ∧
            y.fetch = (x.fetch + x.visible.length) % 2 ^ x.depthLog2 ∧
            ∀ n i c quiet, r = .host n → i < x.visible.length → reads[i]? = some (.cookie c quiet) →
              ∃ e, posts s t (.entry n ((x.fetch + i) % 2 ^ x.depthLog2) e) ∧ (readEntryFields e).cookie = c ∧
                (readEntryFields e).status = statusCode .cancelled ∧ (readEntryFields e).tagValid = false ∧
                (readEntryFields e).sqIndex = (x.fetch + i) % 2 ^ x.depthLog2
        else y = { x with
          rearmPending := true, rearmFlush := some (if isHost r = true then reads else []), rearmAt := s.now })

/-- FETCH_ALLOWANCE_FREED moves descriptors of host rings from visible to fetched, in order and losing none;
afterwards a ring still waits only if the allowance of the preceding 20 microseconds is used up, and OVERRUN_ACTIVE
says whether one does. No job and no internal ring changes. DESCRIPTOR_READ_FAULT of a fetched descriptor, with a tag
free, sets the bit of the failure in RING_PCIE_ERR, captures it when none of bits [5:1] was set, and its slot's entry,
written or waiting for its turn, has HOST_READ_FAULT, COOKIE 0, that tag, TAG_VALID 1, its index and its phase; after a
timeout a request tag that was free is held for that job tag (which one: log entry 78). -/
def Obligations.FetchingAndFailedDescriptorReads : Prop :=
  (∀ s : State, ∃ t, exec .fetchAllowanceFreed s = .next t ∧ ringFrame s t ∧ t.rings.jobs = s.rings.jobs ∧
    (∀ n, getRing t (.internal n) = getRing s (.internal n)) ∧
    (∀ n, let x := getRing s (.host n)
      let y := getRing t (.host n)
      y.tail = x.tail ∧ y.state = x.state ∧ y.done = x.done ∧ stampsOf s.now y = stampsOf s.now x ∧
        y.visible.length ≤ x.visible.length ∧
        (wantsFetch t (.host n) = true → fetchAllowance s.link ≤ charged t)) ∧
    (overrunActive t = true ↔ ∃ n, wantsFetch t (.host n) = true)) ∧
  (∀ (s : State) (n index pick tag : Nat) (k : ReadFault) (addr : DWord) (q : Slot), n < 64 → index < 65536 →
    openSlot s (.host n) index = some q → takeTag s pick = some tag →
    ∃ t e, exec (.descriptorReadFault (.host n) index k addr pick) s = .next t ∧
      faultShown s t n tag k addr ∧
      (posts s t (.entry n index e) ∨ ∃ j ∈ t.rings.jobs, j.tag = tag ∧ j.stage = .built ∧ j.entry = e) ∧
      (k = .timeout → (∃ r, r < 256 ∧ ∀ p ∈ s.link.heldTags, p.1 ≠ r) →
        ∃ r, (∀ p ∈ s.link.heldTags, p.1 ≠ r) ∧ t.link.heldTags = s.link.heldTags ++ [(r, tag)]) ∧
      (k ≠ .timeout → t.link.heldTags = s.link.heldTags) ∧
      (let f := readEntryFields e
       f.cookie = 0 ∧ f.status = statusCode .hostReadFault ∧ f.jobTag = tag ∧ f.tagValid = true ∧ f.ring = n ∧
         f.sqIndex = index ∧ f.phase = q.phase ∧ f.bytes = 0))

/-- For a host job that gathers: GATHER_DATA_ARRIVAL of its source list, its destination list, its command block, each in
the length that the descriptor gives, or of the next bytes of its source (for a listed source, when the list is
there), is kept with the job, source bytes behind those that came before. If the lists so far break R119 the job ends
with INPUT_INVALID and writes nothing; if an item is still missing it goes on gathering; otherwise a critical command
stands at its barrier (one re-run after stage 9 leaves gathering; a CURVE_LOAD whose image needs more slots than it
holds ends REFUSED_CAPACITY: log entry 35) and any other job has left gathering. The row completes and changes no life
cycle, session, counter, curve, alarm or Hut state (card jobs and exports apart, which may start at once). -/
def Obligations.GatheredDataReadiesItsJob : Prop :=
  ∀ (s : State) (tag n : Nat) (item : GatherItem) (data : Bytes) (j : Job), gathers s tag j n → j.sess = none ∨ isSession j.op = true →
    s.card.job ≠ some tag →
    let d := j.desc
    (∀ j1 : Job,
      (match item with
       | .srcList => srcListed j.op d = true ∧ data.length = 16 * dSrcNent d ∧ j1 = { j with srcList := some data }
       | .dstList => dstListed j.op d = true ∧ data.length = 16 * dDstNent d ∧ j1 = { j with dstList := some data }
       | .source => takesSource j.op = true ∧ data ≠ [] ∧ (j.source.getD [] ++ data).length ≤ dSrcLen d ∧
           (srcListed j.op d = true → j.srcList.isSome = true) ∧ j1 = { j with source := some (j.source.getD [] ++ data) }
       | .block => isCritical j.op = true ∧ data.length = 128 ∧ j1 = { j with block := some (BitVec.ofNat 1024 (natLE data)) }
       | .readback => False) →
      ∃ t k, exec (.gatherDataArrival tag item data) s = .next t ∧
        (isCard j.op = false → j.op ≠ .trkExport → ringFrame s t ∧ t.sess = s.sess ∧ k.source = j1.source) ∧
        findJob t tag = some k ∧ k.srcList = j1.srcList ∧ k.dstList = j1.dstList ∧
        k.block = j1.block ∧
        if listsBad j1 = true then k.stage = .finished ∧ k.status = some .inputInvalid ∧ k.noOutput = true
        else if gatheredAll j1 = false then k = { j1 with places := k.places, sideOn := k.sideOn }
        else if isCritical j.op = true ∧ j.counterSpent = false then
          k.stage = .barrier ∧ k.status = none ∨
            j.op = .critical .curveLoad ∧ k.stage = .finished ∧ k.status = some .refusedCapacity
        else k.stage ≠ .gathering)

/-- For a host job that gathers, READ_FAILED and READ_COMPLETION_TIMEOUT end it with HOST_READ_FAULT without output,
set the bit of the failure in RING_PCIE_ERR and capture ring, tag, kind and address when none of bits [5:1] was set; a
timeout keeps the request's tag held. With the PCI Express timeout enabled PCIE_COMPLETION_TIMEOUT of a held request frees
its tag and reports a Completion Timeout in AER alone; data that still comes for it is an Unexpected Completion, in
RING_PCIE_ERR and AER, and nothing else. WRITE_CREDIT_TIMEOUT of a running host job with a destination drops its output,
fixes HOST_WRITE_FAULT unless a failure is fixed, and stalls the posted stream; POSTED_WRITE_CREDIT_RETURN ends the
stall, and the entries that waited for it are posted. -/
def Obligations.FailedRequestsEndTheirJob : Prop :=
  (∀ (s : State) (tag n req : Nat) (k : ReadFault) (addr : DWord) (j : Job) (i : Instr), gathers s tag j n →
    s.card.job ≠ some tag → (i = .readFailed tag k addr ∨ (i = .readCompletionTimeout tag req addr ∧ k = .timeout)) →
    ∃ t, exec i s = .next t ∧ endedWith t tag .hostReadFault ∧ t.link.posted.length ≥ s.link.posted.length ∧
      (∀ x, findJob t tag = some x → x.noOutput = true ∧ x.bytes = j.bytes) ∧
      faultShown s t n tag k addr ∧
      (i = .readCompletionTimeout tag req addr →
        ∃ p ∈ t.link.heldTags, p.1 = req % (if s.link.extendedTag = true then 256 else 32))) ∧
  (∀ (s : State) (req : Nat), exec (.pcieCompletionTimeout req) s = .next (if s.link.devctl2.getLsbD 4 = true then s else
    { s with link := { s.link with
        heldTags := s.link.heldTags.filter (fun p => p.1 != req),
        expired := s.link.expired ++ (s.link.heldTags.filter (fun p => p.1 == req)).map Prod.snd,
        aer := if ∃ p ∈ s.link.heldTags, p.1 = req then s.link.aer ||| 0x4000 else s.link.aer } })) ∧
  (∀ (s : State) (tag : Nat) (item : GatherItem) (data : Bytes), findJob s tag = none → tag ∈ s.link.expired →
    exec (.gatherDataArrival tag item data) s = .next { s with link := { s.link with
      err := s.link.err ||| 2, aer := s.link.aer ||| 0x10000, expired := s.link.expired.filter (fun x => x != tag) } }) ∧
  (∀ (s : State) (tag n : Nat) (addr : DWord) (j : Job), tagsDistinct s → tag < 2048 → findJob s tag = some j →
    j.ring = .host n → dDstLen j.desc ≠ 0 → j.stage = .running →
    ∃ t k, exec (.writeCreditTimeout tag addr) s = .next t ∧ findJob t tag = some k ∧ k.stage = .running ∧ k.out = [] ∧
      k.noOutput = true ∧ k.bytes = j.bytes ∧
      (j.status = none → k.status = some .hostWriteFault) ∧
      (∀ st, j.status = some st → st ≠ .ok → st ≠ .okRetried → st ≠ .okUnverifiedReleased → k.status = some st) ∧
      t.link.creditStalled = true ∧ t = { s with link := t.link, rings := { s.rings with jobs := t.rings.jobs } }) ∧
  (∀ s : State, ∃ t, exec .postedWriteCreditReturn s = .next t ∧ t.link.creditStalled = false ∧ t.link.heldEntries = [] ∧
    (∀ e ∈ s.link.heldEntries, posts s t (.entry e.1 e.2.1 e.2.2)) ∧ ringFrame s t ∧ t.sess = s.sess)

/-- LIFT_DERIVATION_DONE of a session job that a Lift derives for loads the key that the KDF gives from the generation it
holds and the bytes SES1, LABEL, direction, MODE, SALT and key length, and counts the derivation (a piece that only now
finds its chain broken may end at once); a key with a word lost in both copies ends it with MEM_UNCORRECTABLE. BLADE_JOB_DONE of a running host session job waits for the whole source.
Streamed, it ends with REPLAY, or its remaining output leaves and it ends OK, UNVERIFIED where the tag is wrong or still
to come. In two passes the first, with a good tag and frame, gives up its text and has the source read again, and the
second issues the text, or ends UNVERIFIED without more. Otherwise a wrong tag ends it with TAG_MISMATCH and a
counter of the replay window with REPLAY, both without output; a context with an uncorrectable word, read for that check,
ends it with MEM_UNCORRECTABLE; bad padding ends it with INPUT_INVALID; and a good run
ends OK after its text and tag have gone out behind what left before, with its chaining state kept. -/
def Obligations.SessionJobsDeriveRunAndEnd : Prop :=
  (∀ (s : State) (tag : Nat) (j : Job) (c : SessionCopy) (m : KeyMat), tagsDistinct s → tag < 2048 →
    findJob s tag = some j → j.sess = some c → isSession j.op = true → j.sideOn = true →
    matOf (rootSlot s c.rootSlot) c.gen = some m →
    ∃ t k, exec (.liftDerivationDone tag) s = .next t ∧ findJob t tag = some k ∧ ringFrame s t ∧ t.sess = s.sess ∧
      if j.holds.any (keyLost s) = true then
        k.stage = .finished ∧ k.bytes = j.bytes ∧ (j.status = none → k.status = some .memUncorrectable)
      else t.units.deriveCnt = min 0xFFFFFFFF (s.units.deriveCnt + 1) ∧
        (let done := k.keyLoaded = true ∧ k.key = kdf m.key
          ([0x53, 0x45, 0x53, 0x31, 0x00] ++ vecBytes 256 c.label ++ bytesLE 1 (direction j.op c.flags) ++
            bytesLE 1 c.mode.toNat ++ bytesBE 4 c.salt.toNat ++ bytesBE 2 (modeKeyBits c.mode)) (modeKeyBits c.mode)
         (c.chainBad = false → dChain j.desc = 0 ∨ c.started = true → done) ∧ (k.stage = .finished ∨ done))) ∧
  (∀ (s : State) (tag : Nat) (j : Job) (c : SessionCopy), runsFreely s tag j → isSession j.op = true →
    j.sess = some c →
    let run := bladeRun j (laidSource j)
    let rest := (run.text ++ run.tag).drop j.bytes
    let whole := dSrcLen j.desc ≤ (j.source.getD []).length
    let replays := makesReplayCheck j && !(replayPasses s j c)
    let looks := makesReplayCheck j && !c.passed
    let lost := looks && contextBad s c.session
    let clean := looks = true → contextClean s c.session
    let twoPass := isTwoPass j = true ∧ isStreamed j = false
    let unread := fun t => endedWith t tag .memUncorrectable ∧ ∀ k, findJob t tag = some k → k.bytes = j.bytes
    let ok := fun t => endedWith t tag .ok ∧ (clean → issues s t j rest) ∧
      ∀ k, findJob t tag = some k → k.sess.map (fun x => x.contOut) = some (BitVec.ofNat 384 (natLE run.cont))
    (∃ t, exec (.bladeJobDone tag) s = .next t ∧ ringFrame s t ∧
      if ¬ whole then t = s
      else if isStreamed j = true then
        if lost = true then unread t
        else if replays = true then endedWith t tag .replay ∧ (clean → t.link = s.link)
        else if run.tagBad = true ∨ lastPiece j.desc = false then
          endedWith t tag .okUnverifiedReleased ∧ (clean → issues s t j rest)
        else ok t
      else if isTwoPass j = true ∧ j.secondPass = true then
        if run.tagBad = true then endedWith t tag .okUnverifiedReleased ∧ t.link = s.link else ok t
      else if run.tagBad = true then endedWith t tag .tagMismatch ∧ t.link = s.link
      else if lost = true then unread t
      else if replays = true then endedWith t tag .replay ∧ (clean → t.link = s.link)
      else if isTwoPass j = true then
        (∃ k, findJob t tag = some k ∧ k.stage = .running ∧ k.status = none ∧ k.source = none ∧ k.secondPass = true ∧
          k.steps = 0 ∧ k.bytes = j.bytes) ∧ (clean → t.link = { s.link with requests := t.link.requests })
      else if run.padBad = true then endedWith t tag .inputInvalid
      else ok t) ∧
    (whole → run.tagBad = false → lost = false → replays = false → run.padBad = false → (twoPass → j.secondPass = true) →
      (isStreamed j = true → lastPiece j.desc = true) → ∃ t, exec (.bladeJobDone tag) s = .next t ∧ ok t))

/-- VAULT_ARBITER_GRANT of the job whose request is the oldest loads the key of the generation that it holds and keeps the
longest wait; a key with a word lost in both copies ends the job with MEM_UNCORRECTABLE. HASH_JOB_DONE, once the message is whole, ends a running HASH job with its digest as output and OK, and
gives a public-key job that a hash unit hashes for its digest: the first, after which an EDDSA_SIGN over more than 64
bytes has its message read again, then the challenge. EDGE_JOB_DONE ends a running public-key job with its result and
OK, or with the failing status and no output, MEM_UNCORRECTABLE where a word of the curve entry it names is lost in both
copies; EC_KEYGEN first commits the generated key as a new generation of its
slot, whose number and generation are its RESULT, unless Guard or Whiteout holds: then it ends CANCELLED.
GROOMER_DRAW_DONE serves the first draw in the order of R60 from a serving Groomer by one generate request: a
public-key job, or a CURVE_LOAD past stage 9, gets its draw; RNG_OUT gets at most 16,384 bytes as output and ends with
the last ones; a refill of a random buffer that is the first gets 64 bytes. -/
def Obligations.KeyHashAndRandomJobsEnd : Prop :=
  (∀ (s : State) (tag : Nat) (j : Job) (h : VaultHold) (l : List VaultHold) (m : KeyMat), tagsDistinct s → tag < 2048 →
    findJob s tag = some j → j.stage = .waitingKey → j.holds = h :: l → j.sess = none → isSession j.op = false →
    matOf (slotOf s h.slot) h.gen = some m →
    (∀ k ∈ s.rings.jobs, k.stage = .waitingKey → tblGet 0 s.units.arbSince k.tag = 0 ∨
      tblGet 0 s.units.arbSince tag ≤ tblGet 0 s.units.arbSince k.tag) →
    ∃ t k, exec (.vaultArbiterGrant tag) s = .next t ∧ findJob t tag = some k ∧
      (if (h :: l).any (keyLost s) = true then
         k.stage = .finished ∧ (j.status = none → k.status = some .memUncorrectable)
       else k.keyLoaded = true ∧ k.key = m.key ∧ (k.stage = .ready ∨ k.stage = .running)) ∧
      t.units.arbMax = max s.units.arbMax (min 0xFFFF (s.now + 1 - tblGet 0 s.units.arbSince tag)) ∧
      tblGet 0 t.units.arbSince tag = 0 ∧ ringFrame s t ∧ t.sess = s.sess) ∧
  (∀ (s : State) (tag : Nat) (j : Job), runsFreely s tag j → j.op = .hash → sourceWhole j = true →
    ∃ t, exec (.hashJobDone tag) s = .next t ∧ endedWith t tag .ok ∧ ringFrame s t ∧
      issues s t j (hashBy (dHash j.desc) (laidSource j))) ∧
  (∀ (s : State) (tag : Nat) (j : Job), tagsDistinct s → tag < 2048 → findJob s tag = some j → isHost j.ring = true →
    isEdge j.op = true → j.sess = none → j.sideOn = true → sourceWhole j = true →
    ∃ t k, exec (.hashJobDone tag) s = .next t ∧ findJob t tag = some k ∧ ringFrame s t ∧
      t.link = { s.link with requests := t.link.requests } ∧
      (j.digest = none → k.digest = some (firstDigest s j) ∧
        k.source = if hashesTwice j = true then none else j.source) ∧
      (j.digest.isSome = true → k.digest2 = some (secondDigest s j) ∧ k.digest = j.digest ∧ k.source = j.source)) ∧
  (∀ (s : State) (tag : Nat) (j : Job), runsFreely s tag j → isEdge j.op = true → challengeDue j = false →
    let run := edgeRun s j
    let n := dSlot j.desc
    (∃ t, exec (.edgeJobDone tag) s = .next t ∧ t.curves = s.curves ∧ t.sess = s.sess ∧ t.hut = s.hut ∧
      if curveLost s j = true then endedWith t tag .memUncorrectable ∧ sameSlots s t ∧
        ∀ k, findJob t tag = some k → k.bytes = j.bytes
      else if run.status ≠ .ok then endedWith t tag run.status ∧ t.link = s.link ∧ sameSlots s t
      else if j.op = .ecKeygen then
        if guardUp s = true ∨ inWhiteout s = true then endedWith t tag .cancelled ∧ t.link = s.link ∧ sameSlots s t
        else endedWith t tag .ok ∧ (privSlot t n).number = (privSlot s n).number + 1 ∧
          (∃ m, (privSlot t n).cur = some m ∧ m.gen = (privSlot s n).number + 1 ∧ m.kek = false ∧
            m.key = (generated s j.blinds j.desc (j.draw.getD [])).1) ∧ (∀ r, r ≠ .priv n → sameSlot s t r) ∧
          (∀ k, findJob t tag = some k → k.result = BitVec.ofNat 64 (n + ((privSlot s n).number + 1) * 2 ^ 32)) ∧
          ((privSlot s n).number + 1 ≠ 0xFFFFFFFF →
            issues s t j (generated s j.blinds j.desc (j.draw.getD [])).2)
      else endedWith t tag .ok ∧ issues s t j run.out ∧ sameSlots s t) ∧
    (run.status = .ok → curveLost s j = false → (j.op = .ecKeygen → guardUp s = false ∧ inWhiteout s = false) →
      ∃ t, exec (.edgeJobDone tag) s = .next t ∧ endedWith t tag .ok ∧
        (j.op ≠ .ecKeygen → issues s t j run.out))) ∧
  (∀ (s : State) (g : Nat) (j : Job), tagsDistinct s → j.tag < 2048 → groomerServes s g = true →
    (∀ c, c < 8 → wantsRefill s c = false ∧
      (rinkOf s c).refill.map (fun p => p.res) ≠ some (.unit { kind := .groomer, num := g })) →
    firstToRun { kind := .groomer, num := g } (drawsOn s g) = some j → overlaps j = false → isHost j.ring = true →
    let n := if j.op = .rngOut then min 16384 j.drawBytes else drawNeed j
    let bs := (drbgGenerate n (groomerOf s g).k (groomerOf s g).v).1
    ∃ t k, exec (.groomerDrawDone g) s = .next t ∧ findJob t j.tag = some k ∧
      (groomerOf t g).count = (groomerOf s g).count + 1 ∧ (∀ x, x ≠ g → groomerOf t x = groomerOf s x) ∧
      (if j.op = .rngOut then k.drawBytes = j.drawBytes - n ∧ (k.stage = .finished ↔ j.drawBytes ≤ 16384) ∧
          (s.link.bme = true → s.link.creditStalled = false → j.noOutput = false → j.out = [] → issues s t j bs)
       else k.draw = some bs ∧ k.drawBytes = 0)) ∧
  (∀ (s : State) (g c : Nat) (dl : Pico), c < 8 → (∀ d, d < 8 → wantsRefill s d = false) → firstRefill s g = some (dl, c) →
    (∀ j ∈ drawsOn s g, dl < engineDl j { kind := .groomer, num := g }) → groomerServes s g = true → s.powder.seeded = true →
    ∃ t, exec (.groomerDrawDone g) s = .next t ∧ (∀ d, d ≠ c → rinkOf t d = rinkOf s d) ∧
      rinkOf t c = { rinkOf s c with
        arriving := (drbgGenerate 64 (groomerOf s g).k (groomerOf s g).v).1, refill := none } ∧
      (groomerOf t g).count = (groomerOf s g).count + 1 ∧ (∀ x, x ≠ g → groomerOf t x = groomerOf s x) ∧
      t = { s with merya := t.merya, powder := t.powder })

/-- PREEMPTION_POINT of a unit. A Lift has no point before its end, and a unit whose job is not at one, or that runs
nothing, changes nothing. At a point the job of an Edge or hash unit has passed one more step (a Groomer's requests are
counted as they are drawn); cancelled it ends CANCELLED; an EDDSA_SIGN whose challenge hash is missing, and a job behind
one that comes first in the order of R60 and could run, is suspended, with its slots, and the first that can run takes
the unit; otherwise it runs on. A Blade's job at a 16 KiB boundary gives the output that is ready, and is suspended with
its mode state, its key register cleared and its segment free, when an earlier one could start; else it runs on. A hash
unit's work for a public-key job over more than 16 KiB gives way likewise. CRITICAL_BARRIER_RELEASE of a command at its
barrier changes nothing while an earlier admitted job of its ring has no entry built; with the barrier met, the command
either ends, every counter unchanged, with one of the statuses of stages 4 to 8 (MEM_UNCORRECTABLE where its sealing key
does not read), or its counter takes the higher
COUNTER of the block and no other changes; past stages 4 to 10 the command is prepared for its commit, or, a CURVE_LOAD,
ready for its checks on its Edge. -/
def Obligations.PreemptionAndTheBarrier : Prop :=
  (∀ (s : State) (u : UnitRef),
    (u.kind = .lift ∨
      (∀ j ∈ jobsOn s u, j.stage ≠ .running) ∧ (∀ j ∈ s.rings.jobs, j.sideOn = true → sideUnit j ≠ some u) ∨
      ∃ j, (jobsOn s u).find? (fun j => j.stage == .running) = some j ∧ atPoint u j = false) →
    exec (.preemptionPoint u) s = .next s) ∧
  (∀ (s : State) (u : UnitRef) (j : Job), u.kind = .edge ∨ u.kind = .hash ∨ u.kind = .groomer → tagsDistinct s →
    (∀ j ∈ s.rings.jobs, j.tag < 2048 ∧ (isSession j.op = false → j.sess = none)) →
    (∀ j ∈ jobsOn s u, isSession j.op = false) →
    (jobsOn s u).find? (fun j => j.stage == .running) = some j → atPoint u j = true →
    let steps := if u.kind = .groomer then j.steps else j.steps + 1
    let v := modJob j.tag (fun j => { j with stage := .suspended, steps := steps }) s
    let gives := (u.kind == .edge && challengeDue j) || comesFirst s u j
    (∃ t k, exec (.preemptionPoint u) s = .next t ∧ ringFrame s t ∧ t.link = s.link ∧
      findJob t j.tag = some k ∧ k.steps = steps ∧
        if j.status.isSome = true then k.stage = .finished ∧ k.status = j.status
        else if gives = true then k.stage ≠ .finished ∧ k.slots = j.slots
        else k = { j with steps := steps } ∧ t = { s with rings := { s.rings with jobs := t.rings.jobs } }) ∧
    (∀ x, j.status = none → gives = true → unitServes s u = true → unitBusy v u = false →
      firstToRun u (unitChoices v u) = some x → x.tag ≠ j.tag → onUnit x u = true →
      (isPrivate x.op = true → x.keyLoaded = true) →
      ∃ t k y, exec (.preemptionPoint u) s = .next t ∧ findJob t j.tag = some k ∧ k.stage = .suspended ∧ k.slots = j.slots ∧
        k.key = j.key ∧ k.blinds = j.blinds ∧ findJob t x.tag = some y ∧ y.stage = .running)) ∧
  (∀ (s : State) (u : UnitRef) (j : Job), runsFreely s j.tag j → isSession j.op = true → u.kind = .blade →
    (∀ k ∈ s.rings.jobs, k.tag < 2048) →
    (jobsOn s u).find? (fun j => j.stage == .running) = some j → atBoundary j = true →
    (isStreamed j = true → makesReplayCheck j = true → ∀ c, j.sess = some c → replayPasses s j c = true ∧
      (c.passed = false → contextClean s c.session)) →
    ∃ t k, exec (.preemptionPoint u) s = .next t ∧ findJob t j.tag = some k ∧ k.steps = j.steps + 1 ∧ ringFrame s t ∧
      issues s t j (if fillsSegments j = true then (readyText j (bladeRun j (laidSource j)).text (j.steps + 1)).drop j.bytes
        else []) ∧
      if comesFirst s u j = true then k.stage = .suspended ∧ k.saved = some (modeState { j with steps := j.steps + 1 }) ∧
        k.key = [] ∧ k.keyLoaded = false ∧ k.segment = none
      else k.stage = .running ∧ k.segment = j.segment ∧ k.key = j.key) ∧
  (∀ (s : State) (u : UnitRef) (j x : Job), u.kind = .hash → tagsDistinct s → (∀ k ∈ s.rings.jobs, k.tag < 2048) →
    (∀ k ∈ jobsOn s u, k.stage ≠ .running) → s.rings.jobs.find? (fun j => j.sideOn && sideUnit j == some u) = some j →
    16384 < messageLen j.op j.desc j.facts →
    (∃ y, firstToRun u (unitChoices s u) = some y ∧ runsBefore u y j = true) →
    let v := modJob j.tag (fun j => { j with sideOn := false }) s
    unitServes s u = true → unitBusy v u = false → firstToRun u (unitChoices v u) = some x → x.tag ≠ j.tag →
    sideUnit x = some u →
    ∃ t k y, exec (.preemptionPoint u) s = .next t ∧ findJob t j.tag = some k ∧ k.sideOn = false ∧
      findJob t x.tag = some y ∧ y.sideOn = true) ∧
  (∀ (s : State) (tag : Nat) (j : Job) (c : CmdCode) (b : CmdBlock), tagsDistinct s → tag < 2048 →
    findJob s tag = some j → j.op = .critical c → j.block = some b → j.stage = .barrier → j.status = none →
    j.sess = none → j.counterSpent = false →
    let n := dCmdAuth j.desc
    (∃ t k, exec (.criticalBarrierRelease tag) s = .next t ∧ findJob t tag = some k ∧
      if barrierMet s j = false then t = s
      else (t.ctrs = s.ctrs ∧ sameParts s t ∧ sameSlots s t ∧ k.stage = .finished ∧
          (overlaps j = true ∨ k.status = some .inputInvalid ∨ k.status = some .keyEmpty ∨ k.status = some .authFail ∨
            k.status = some .counterStale ∨ k.status = some .cancelled ∨ k.status = some .memUncorrectable)) ∨
        ((counter s n).value.toNat < (cbCounter b).toNat ∧ (counter t n).value = cbCounter b ∧
          (∀ m, m ≠ n → counter t m = counter s m) ∧ sameSlots s t ∧ t.hut = s.hut ∧ t.life = s.life ∧
          (k.stage = .prepared ∨ k.stage = .finished ∨ (c = .curveLoad ∧ (k.stage = .ready ∨ k.stage = .running))))) ∧
    (∀ j1, barrierMet s j = true → earlyStages s j c b = none → findJob (spendCounter j b s) tag = some j1 →
      (prepare (spendCounter j b s) j1 c b).status = .ok → (c = .curveLoad → rngDegraded s = false) →
      ∃ t k, exec (.criticalBarrierRelease tag) s = .next t ∧ findJob t tag = some k ∧ k.counterSpent = true ∧
        (counter t n).value = cbCounter b ∧ (∀ m, m ≠ n → counter t m = counter s m) ∧ sameSlots s t ∧
        if c = .curveLoad then k.stage = .ready ∨ k.stage = .running
        else k.stage = .prepared ∧ k.key = (prepare (spendCounter j b s) j1 c b).key))

/-- For a finished host job without output left: COMPLETION_ENTRY_WRITE completes, and its entry, in its own slot, has
been written and the job is gone, or it is held for its turn with the job. The entry has the COOKIE, tag, ring, index
and phase of the descriptor, the BYTES issued, RETRIED and plan band of the job, and LATE if the deadline less 3.0
microseconds is past, OK_RETRIED for an OK of a re-run, and else the job's status. The count of LATE jobs grows by one
exactly then. RESULT is the job's, and for a later sending piece of a session in a nonce mode its chain's frame counter.
Where a word of the job's staging slot does not read, the status is MEM_UNCORRECTABLE in place of the job's, and the
COOKIE, or RESULT and BYTES, that it held are zero (their words: log entry 83). -/
def Obligations.CompletionEntriesSayWhatHappened : Prop :=
  ∀ (s : State) (tag n : Nat) (j : Job), tagsDistinct s → tag < 2048 → findJob s tag = some j → j.ring = .host n →
    n < 64 → j.stage = .finished → j.admitted = true → j.out = [] → j.index < 65536 → j.bytes < 2 ^ 32 →
    (∀ u, j.unit = some u → u.num < 128) → s.card.job ≠ some tag →
    let late := j.deadline < s.now * 10000 + 3000000
    let st := j.status.getD .ok
    let lost := stagedBad s tag 24 8 ≠ []
    let unread := stagedBad s tag 0 (if isCritical j.op = true then 24 else 8) ≠ [] ∨ lost
    ∃ t e, exec (.completionEntryWrite tag) s = .next t ∧
      ((posts s t (.entry n j.index e) ∧ findJob t tag = none) ∨
        ∃ k, findJob t tag = some k ∧ k.stage = .built ∧ k.entry = e) ∧
      (let f := readEntryFields e
       (f.cookie = if stagedBad s tag 7 1 = [] then dCookie j.desc else 0) ∧ (¬ lost → f.bytes = j.bytes) ∧
         (lost → f.bytes = 0 ∧ f.result = 0) ∧ f.jobTag = tag ∧ f.tagValid = true ∧ f.ring = n ∧
         f.inner = false ∧ f.retried = j.retried ∧ f.planBand = bandCode j.planBand ∧ f.sqIndex = j.index ∧
         f.phase = j.phase ∧
         (late → f.status = statusCode .late) ∧ (¬ late → unread → f.status = statusCode .memUncorrectable) ∧
         (¬ late → ¬ unread → f.status = statusCode (if st = .ok ∧ j.rerun = true then .okRetried else st)) ∧
         (¬ lost → f.result = match j.sess with
           | none => j.result
           | some c => if isSending j.op = true ∧ (dChain j.desc = 2 ∨ dChain j.desc = 3) ∧ nonceMode (jobAlg j) = true
             then c.counter else j.result) ∧
         (isCritical j.op = true → f.unitKind = 7 ∧ f.unitNum = 0)) ∧
      t.gate.lateCnt = (if late then min 0xFFFFFFFF (s.gate.lateCnt + 1) else s.gate.lateCnt)

/-- A Blade's GCM or CCM run that encrypts additional data and plaintext in one piece gives text and tag such that the
decrypting run over the additional data, that text and that tag, under the same round keys, SALT and frame counter,
gives the plaintext back and accepts the tag; a CTR run over a CTR output gives the input back. The blinding of R254
changes no result either: λ is from 1 to p − 1, and over a prime field a randomised point in Jacobian or extended form
stands for the same point; a blinded scalar is k + r × n; and the blinded RSA private operation of a sound key gives what
the plain one gives, where rb has an inverse. -/
def Obligations.SealedFramesOpen : Prop :=
  (∀ (b : List DWord) (p : Nat), 2 ≤ p → 1 ≤ lambdaOf b p ∧ lambdaOf b p < p) ∧
  (∀ (c : WCurve) (e : ECurve) (l x y : Nat),
    (primeNat c.p → 0 < l → l < c.p → x < c.p → y < c.p →
      let u := jRandom c.p l x y
      u.z = l ∧ u.x = l ^ 2 * x % c.p ∧ u.y = l ^ 3 * y % c.p ∧ jAffine c u = some (x, y)) ∧
    (primeNat e.p → 0 < l → l < e.p → x < e.p → y < e.p →
      let u := xtRandom e.p l x y
      u.z = l ∧ u.x = l * x % e.p ∧ u.y = l * y % e.p ∧ u.t = l * x * y % e.p ∧ xtAffine e u = (x, y))) ∧
  (∀ (b : List DWord) (n k : Nat), blindScalar b n k = k + (b.getD 1 0).toNat * n ∧ blindScalar b n k % n = k % n) ∧
  (∀ (b : List DWord) (key : RsaKey) (m : Nat), primeNat key.p → primeNat key.q → key.p ≠ key.q → 2 < key.p → 2 < key.q →
    key.e * key.dp % (key.p - 1) = 1 → key.e * key.dq % (key.q - 1) = 1 → key.q * key.qinv % key.p = 1 →
    m < key.p * key.q → Nat.gcd (max 1 (b.getD 2 0).toNat) (key.p * key.q) = 1 →
    rsaCrtOn b key m = rsaCrt key m) ∧
  ∀ (rk : List Bytes) (e d : Job) (ce cd : SessionCopy) (aad p : Bytes), (∀ k ∈ rk, k.length = 16) →
    dChain e.desc = 0 → dChain d.desc = 0 → dAadLen e.desc = aad.length → dAadLen d.desc = aad.length →
    ce.salt = cd.salt → frameOf e ce = frameOf d cd →
    (e.op = .sesEncrypt → d.op = .sesDecrypt →
      (let x := runGcm rk e ce false (aad ++ p)
       let y := runGcm rk d cd false (aad ++ (x.text ++ x.tag))
       y.text = p ∧ y.tagBad = false) ∧
      (let x := runCcm rk e ce (aad ++ p)
       let y := runCcm rk d cd (aad ++ (x.text ++ x.tag))
       y.text = p ∧ y.tagBad = false)) ∧
    (dXparam e.desc = dXparam d.desc → (runCtr rk d cd (runCtr rk e ce p).text).text = p)

/-- UNIT_WATCHDOG_STALL of a unit that can fault, and PACE_SLIP of such an Edge, leave the unit FAULTED with
FAULT_CODE 1 (5 for an operand word of an Edge, 4 for a pace slip); no job in flight disappears or appears, and none
is left on the unit: each is on another unit or has ended. An Edge's or Blade's capture takes the fault when its event
bit was clear; a pace slip is counted. The job that an Edge was running, alone on it, with an idle reserve to go to, runs
there again from its first byte, blinded: once it runs, its words come from the reserve's masking generator. A unit that does not exist, is OFF or is FAULTED already cannot fault: nothing
changes. -/
def Obligations.UnitFaultsLoseNoJob : Prop :=
  ∀ (s : State) (u : UnitRef) (place : Nat) (operand : Bool) (bad : List Nat) (i : Instr) (code : Nat),
    jobsDistinct s →
    ((i = .unitWatchdogStall u place operand bad ∧ code = if u.kind = .edge ∧ operand = true then 5 else 1) ∨
      (u.kind = .edge ∧ i = .paceSlip u.num bad ∧ code = 4)) →
    let may := u.num < unitCount u.kind ∧ unitState s u ≠ .off ∧ unitState s u ≠ .faulted
    (may → ∃ t, exec i s = .next t ∧ unitState t u = .faulted ∧ (unitRec t u).faultCode = code ∧
      t.rings.jobs.map (fun j => j.tag) = s.rings.jobs.map (fun j => j.tag) ∧
      (∀ j ∈ t.rings.jobs, onUnit j u = false) ∧
      (u.kind = .edge → s.units.edgeEvt.getLsbD 0 = false →
        t.units.edgeFault.valid = true ∧ t.units.edgeFault.num = u.num) ∧
      (u.kind = .blade → s.units.bladeEvt.getLsbD 0 = false →
        t.units.bladeFault.valid = true ∧ t.units.bladeFault.num = u.num) ∧
      (∀ v j, u.kind = .edge → reserveOf s .edge = some v → v ≠ u → jobsOn s u = [j] → jobsOn s v = [] →
        j.stage = .running → j.status = none → j.again = false → ∃ k, findJob t j.tag = some k ∧ k.unit = some v ∧
          k.blinded = true ∧ k.retried = true ∧ k.steps = 0 ∧ k.bytes = 0 ∧ k.draw = j.draw ∧
          t.units.paddedCnt = min 0xFFFFFFFF (s.units.paddedCnt + 1) ∧
          (k.stage = .running → ∃ d, k.blinds = (List.range (blindCount j.op j.desc)).map (fun i =>
            Config.maskWord (tblGet MaskGen.reset s.units.mask (18 + v.num)).seed (d + i)))) ∧
      (code = 4 → t.units.slipCnt = min 0xFFFFFFFF (s.units.slipCnt + 1) ∧ t.units.edgeEvt.getLsbD 1 = true)) ∧
    (¬ may → exec i s = .next s)

/-- ENABLE of an Edge or Blade puts a DISABLED one into TESTING, marks a DRAINING one for restart, and is ignored with
CMD_IGNORED otherwise and out of range. DISABLE is ignored out of range and in Whiteout; it drops that mark of a DRAINING
one, is ignored for one not IN_SERVICE and for the only one in service, and otherwise the unit drains, at once to DISABLED
(or TESTING) without jobs. Vectors that pass put a TESTING unit into service with FAULT_CODE 0; with no spare, no standby
and another one in service the highest-numbered in service becomes standby; vectors that fail make the unit FAULTED with
code 3 after an ENABLE and else 2. SLOT_LEN is written only unsealed, up to 32 and with no slot held. After a slot copy no
job of the Edge is still copying, each goes on with its slots and key, and none is lost. -/
def Obligations.UnitsAreEnabledTestedAndDisabled : Prop :=
  (∀ (s : State) (k : UnitKind) (n : Nat), k = .edge ∨ k = .blade →
    let u : UnitRef := { kind := k, num := n }
    let r := unitRec s u
    (n < unitCount k → r.state = .disabled → ∃ t, exec (enableRow k n) s = .next t ∧
      onlyUnit u { r with state := .testing, restartPending := false, afterEnable := true } s t) ∧
    (n < unitCount k → r.state = .draining → ∃ t, exec (enableRow k n) s = .next t ∧
      onlyUnit u { r with restartPending := true } s t) ∧
    (unitCount k ≤ n ∨ (r.state ≠ .disabled ∧ r.state ≠ .draining) → ∃ t, exec (enableRow k n) s = .next t ∧
      unitIgnored k s t) ∧
    (n < unitCount k → inWhiteout s = false → r.state = .inService → plannedCount s k ≠ 1 →
      ∃ t, exec (disableRow k n) s = .next t ∧
        unitState t u = (if jobsOn s u ≠ [] then .draining else if r.restartPending = true then .testing else .disabled) ∧
        t.rings.jobs.map (fun j => (j.tag, j.stage, j.unit)) = s.rings.jobs.map (fun j => (j.tag, j.stage, j.unit))) ∧
    (n < unitCount k → inWhiteout s = false → r.state = .draining → ∃ t, exec (disableRow k n) s = .next t ∧
      onlyUnit u { r with restartPending := false } s t) ∧
    (unitCount k ≤ n ∨ inWhiteout s = true ∨ (r.state ≠ .draining ∧ (r.state ≠ .inService ∨ plannedCount s k = 1)) →
      ∃ t, exec (disableRow k n) s = .next t ∧ unitIgnored k s t)) ∧
  (∀ (s : State) (u : UnitRef), u.num < unitCount u.kind → (unitRec s u).state = .testing →
    let r := unitRec s u
    let others := fun st => ∃ n, n < unitCount u.kind ∧ n ≠ u.num ∧ unitState s { kind := u.kind, num := n } = st
    let standby := others .inService ∧ ¬ others .spare ∧ ¬ others .standby
    (∃ t, exec (.unitVectorsDone u true) s = .next t ∧ ringFrame s t ∧
      (unitRec t u).faultCode = 0 ∧ (unitRec t u).restartPending = false ∧ (unitRec t u).afterEnable = false ∧
      t.rings.jobs.map (fun j => { j with reserve := none }) = s.rings.jobs.map (fun j => { j with reserve := none }) ∧
      (¬ standby → unitState t u = .inService ∧ ∀ w, w ≠ u → unitRec t w = unitRec s w) ∧
      (standby → ∃ w : UnitRef, w.kind = u.kind ∧ unitState t w = .standby ∧
        (∀ n, n < unitCount u.kind → unitState t { kind := u.kind, num := n } = .inService → n < w.num) ∧
        (u = w ∨ unitState t u = .inService ∧ unitState s w = .inService) ∧
        ∀ x, x ≠ u → x ≠ w → unitRec t x = unitRec s x)) ∧
    (∃ t, exec (.unitVectorsDone u false) s = .next t ∧ onlyUnit u { r with
      state := .faulted, faultCode := if r.afterEnable = true then 3 else 2,
      restartPending := false, afterEnable := false } s { t with powder := s.powder })) ∧
  (∀ (s : State) (u : UnitRef) (pass : Bool), (unitRec s u).state ≠ .testing → exec (.unitVectorsDone u pass) s = .next s) ∧
  (∀ (s : State) (v : Nat),
    let held : Prop := ∃ n, n < 68 ∧ slotsHeld s { kind := .edge, num := n } ≠ []
    (s.life.isSealed = true ∨ 32 < v ∨ held → ∃ t, exec (.slotLenWrite v) s = .next t ∧ unitIgnored .edge s t) ∧
    (s.life.isSealed = false → v ≤ 32 → ¬ held →
      exec (.slotLenWrite v) s = .next { s with units := { s.units with slotLen := v } })) ∧
  (∀ (s : State) (n : Nat),
    let u : UnitRef := { kind := .edge, num := n }
    ∃ t, exec (.edgeSlotCopyDone n) s = .next t ∧ ringFrame s t ∧
      (∀ j ∈ t.rings.jobs, ¬ (j.unit = some u ∧ j.stage = .copying)) ∧
      t.rings.jobs.map (fun j => (j.tag, j.unit)) = s.rings.jobs.map (fun j => (j.tag, j.unit)) ∧
      (jobsDistinct s → ∀ j ∈ s.rings.jobs, j.unit = some u → j.stage = .copying → j.sess = none →
        ∃ k, findJob t j.tag = some k ∧ k.slots = j.slots ∧ k.key = j.key ∧
          (k.stage = .suspended ∨ k.stage = .running ∨ k.stage = .waitingKey)))

/-- On main power an evaluation takes Tj and slew; the band becomes the higher of the present one and that of Tj's
row; the hold of a step down runs on only 5 K below the lower limit; afterwards the part admits exactly when no
condition of R69 holds, the slew latch included; time above 125 degrees counts, and 30,000 minutes set HOURS_EXCEEDED.
The expiry of the hold moves the band down by one. The slew reopens only by SLEW_REOPEN_EXPIRY. A rail out of range
closes admission at once, one back in range only leaves the list. HOURS_EXCEEDED sets its flag and event at 30,000
minutes. In reset no evaluation and no rail change acts. -/
def Obligations.TemperatureRailsAndTheEnvelope : Prop :=
  (∀ (s : State) (tj : Int) (slew : Nat),
    (inReset s = true → exec (.tjEvaluation tj slew) s = .next s) ∧
    (inReset s = false → ∃ t, exec (.tjEvaluation tj slew) s = .next t ∧
      onlyGate s { t with hut := s.hut } ∧ t.gate.tj = tj ∧ t.gate.slew = min 0xFFFF slew ∧
        bandCode t.gate.band = max (bandCode s.gate.band) (rowOf tj) ∧
        (rowOf tj ≤ bandCode s.gate.band → t.gate.downSince =
          if (s.gate.band = .s1 ∧ tj ≤ 80 * 16) ∨ (s.gate.band = .s2 ∧ tj ≤ 120 * 16) then some (s.gate.downSince.getD s.now)
          else none) ∧
        (envelopeOk t = true ↔ ¬ closedBy s tj s.gate.railsOut (s.gate.slewClosed || decide (160 < slew))) ∧
        t.hut = { s.hut with hotMin := t.hut.hotMin, hotRem := t.hut.hotRem, hotMram := t.hut.hotMram } ∧
        (tj ≤ 125 * 16 → t.hut = s.hut) ∧
        (125 * 16 < tj → s.hut.hotMin < 0xFFFFF → s.hut.hotRem < 60000 →
          t.hut.hotMin * 60000 + t.hut.hotRem = s.hut.hotMin * 60000 + s.hut.hotRem + 1) ∧
        (30000 ≤ t.hut.hotMin → t.gate.hoursExceeded = true))) ∧
  (∀ s : State,
    (s.gate.downSince ≠ none → s.gate.band ≠ .s0 → ∃ t, exec .bandDownHoldExpiry s = .next t ∧ onlyGate s t ∧
      bandCode t.gate.band + 1 = bandCode s.gate.band ∧ t.gate.downSince = none ∧ t.gate.evt.getLsbD 6 = true) ∧
    (s.gate.downSince = none ∨ s.gate.band = .s0 → exec .bandDownHoldExpiry s = .next s)) ∧
  (∀ s : State,
    (s.gate.slewLowSince ≠ none → ∃ t, exec .slewReopenExpiry s = .next t ∧ onlyGate s t ∧ t.gate.slewLowSince = none ∧
      (envelopeOk t = true ↔ ¬ closedBy s s.gate.tj s.gate.railsOut (decide (160 < s.gate.slew)))) ∧
    (s.gate.slewLowSince = none → exec .slewReopenExpiry s = .next s)) ∧
  (∀ (s : State) (r : Rail),
    (∀ back, inReset s = true → exec (.railEnvelopeChange r back) s = .next s) ∧
    (inReset s = false → exec (.railEnvelopeChange r true) s = .next { s with gate := { s.gate with
      railsOut := s.gate.railsOut.filter (fun x => x != r) } }) ∧
    (inReset s = false → ∃ t, exec (.railEnvelopeChange r false) s = .next t ∧ onlyGate s t ∧ r ∈ t.gate.railsOut ∧
      (∀ x, x ∈ t.gate.railsOut ↔ x = r ∨ x ∈ s.gate.railsOut) ∧ envelopeOk t = false)) ∧
  (∀ s : State,
    (30000 ≤ s.hut.hotMin → s.gate.hoursExceeded = false → ∃ t, exec .hoursExceeded s = .next t ∧ onlyGate s t ∧
      t.gate.hoursExceeded = true ∧ t.gate.evt.getLsbD 5 = true) ∧
    (s.hut.hotMin < 30000 ∨ s.gate.hoursExceeded = true → exec .hoursExceeded s = .next s))

/-- A measurement on main power keeps the readings of the last 64 evaluations, each with its lowest monitor; SI_MIN is
the lowest of them; the target is the larger of 64 and 64 times 96 over SI_MIN, rounded up, with a SI_MIN of 0 taken
as 1. A target above the D in force takes effect at once and breaks the hold; one below it starts or continues the
hold, which keeps the largest target; one equal to it breaks the hold; D stays otherwise. The expiry of the hold puts
the largest target of the hold in force and ends the hold. Nothing else of the part changes but telemetry's lows. -/
def Obligations.SpeedIndexAndDerate : Prop :=
  (∀ (s : State) (si : List Nat),
    (inReset s = true → exec (.splitMonitorMeasurement si) s = .next s) ∧
    (inReset s = false →
      let v := fun (n : Nat) => min 255 (si.getD n 128)
      let d := s.gate.derate
      ∃ t, exec (.splitMonitorMeasurement si) s = .next t ∧
      onlyGate s { t with tel := s.tel } ∧ t.tel = { s.tel with siLowSec := t.tel.siLowSec } ∧
        (∀ n, n < 16 → tblGet 128 t.gate.siLatest n = v n ∧ tblGet 128 t.gate.siLow n =
          if s.gate.siSeen = true then min (tblGet 128 s.gate.siLow n) (v n) else v n) ∧
        (∃ p, t.gate.siWindow = (p :: s.gate.siWindow).take 64 ∧ p.2 < 16 ∧ p.1 = v p.2 ∧ ∀ n, n < 16 → p.1 ≤ v n) ∧
        (∀ p ∈ t.gate.siWindow, t.gate.siMin ≤ p.1) ∧ (t.gate.siMin, t.gate.siMinMon) ∈ t.gate.siWindow ∧
        let target := max 64 ((64 * 96 + max t.gate.siMin 1 - 1) / max t.gate.siMin 1)
        if d < target then t.gate.derate = target ∧ t.gate.derateHold = none ∧ t.gate.evt.getLsbD 3 = true
        else t.gate.derate = d ∧ t.gate.derateHold = if target = d then none else match s.gate.derateHold with
          | some (since, m) => some (since, max m target)
          | none => some (s.now, target))) ∧
  (∀ s : State, exec .derateHoldExpiry s = .next (match s.gate.derateHold with
    | some (_, m) => { s with gate := { s.gate with derate := m, derateHold := none } }
    | none => s))

/-- Outside PORST_N and PERST_N, a hot reset or link down, a Function Level Reset and a write of D0 in D3hot complete:
no host job is in flight, every host ring is DISABLED with its RWS fields at reset values, the seal is cleared, the
event and telemetry rings are off, Bus Master Enable, MSI-X and D3hot are off and FUNC_RESET is set; a Tracks entry
with the number of ended jobs is requested; life cycle, sessions, key slots, curves, Powder, applets, Hut, alarm
inputs and internal rings' state stay. BME_CLEAR with any host ring not DISABLED ends the host jobs and disables the
rings with their fields kept, and sets BME_DROP; otherwise it only clears the bit. -/
def Obligations.FunctionResetsEndHostWork : Prop :=
  (∀ (i : Instr) (s s0 : State) (origin : Nat), functionResetOf s i = some (origin, s0) → inReset s = false →
    ∃ t, exec i s = .next t ∧ (∀ j ∈ t.rings.jobs, isHost j.ring = false) ∧
      (∀ n, let y := getRing t (.host n)
        y.state = .disabled ∧ y.slots = [] ∧ y.visible = [] ∧ y.sqBase = 0 ∧ y.cqBase = 0 ∧ y.depthLog2 = 6 ∧ y.cls = .L ∧
          y.haltMode = false) ∧
      t.life = { s.life with isSealed := false } ∧ t.evts.enabled = false ∧ t.tel.enabled = false ∧ t.gate.rdLat = 12 ∧
      t.link.bme = false ∧ t.link.msixEnable = false ∧ t.link.d3hot = false ∧ t.link.err.getLsbD 7 = true ∧
      t.curves = s.curves ∧ t.sess = s.sess ∧ sameSlots s t ∧ t.powder = s.powder ∧ t.merya = s.merya ∧ t.hut = s.hut ∧
      t.alarm = s.alarm ∧ t.now = s.now ∧ t.pending = s.pending) ∧
  (∀ (i : Instr) (s : State), (i = .functionLevelReset ∨ (i = .d3hotToD0 ∧ s.link.d3hot = true)) → inReset s = true →
    exec i s = .next s) ∧
  (∀ s : State, s.link.d3hot = false → exec .d3hotToD0 s = .next s) ∧
  (∀ s : State, s.link.bme = false → exec .bmeClear s = .next s) ∧
  (∀ s : State, s.link.bme = true → (∀ p ∈ s.rings.host, p.2.state = .disabled) →
    exec .bmeClear s = .next { s with link := { s.link with bme := false } }) ∧
  (∀ s : State, s.link.bme = true → ¬ (∀ p ∈ s.rings.host, p.2.state = .disabled) →
    ∃ t, exec .bmeClear s = .next t ∧ t.link.bme = false ∧ t.link.err.getLsbD 6 = true ∧ (∀ j ∈ t.rings.jobs, isHost j.ring = false) ∧
      (∀ n, let x := getRing s (.host n)
        let y := getRing t (.host n)
        y.state = .disabled ∧ y.sqBase = x.sqBase ∧ y.cqBase = x.cqBase ∧ y.depthLog2 = x.depthLog2 ∧ y.cls = x.cls ∧
          y.haltMode = x.haltMode) ∧
      t.life = s.life ∧ t.curves = s.curves ∧ t.sess = s.sess ∧ t.merya = s.merya ∧ t.hut = s.hut ∧ sameSlots s t)

/-- LINK_UP, LINK_CHANGE, DEVICE_CONTROL_WRITE and D3HOT_ENTRY set the fields they name and change nothing else.
BUS_MASTER_ENABLE_SET sets the bit, and MSIX_UNMASK sets or clears the mask or the enable it names; after either no
vector whose way is open has its pending bit set, the part has issued nothing but the messages of vectors that were
pending, each with the address and data of its table entry, and only the link has changed. Output data leave in writes,
and reads in requests, of at most Max_Payload_Size and Max_Read_Request_Size bytes, none across a 4 KiB boundary, together
exactly the bytes, the writes with Relaxed Ordering where R86 sets it. A write of configuration
space changes the link alone: Memory Space Enable, the 16 KiB and 256 KiB base addresses, Device Control 2 and the bits
of the AER status written as 1 (the offsets inside capabilities: log entry 77); the identification registers stay. -/
def Obligations.LinkAndInterruptMessages : Prop :=
  (∀ (s : State) (gen width : Nat), exec (.linkUp gen width) s = .next { s with
      link := { s.link with up := true, gen := gen, width := width } } ∧
    exec (.linkChange gen width) s = .next { s with link := { s.link with gen := gen, width := width } }) ∧
  (∀ (s : State) (mps mrrs : Nat) (x r : Bool), exec (.deviceControlWrite mps mrrs x r) s = .next { s with
      link := { s.link with mps := mps, mrrs := mrrs, extendedTag := x, relaxedOrdering := r } }) ∧
  (∀ s : State, exec .d3hotEntry s = .next { s with link := { s.link with d3hot := true } }) ∧
  (∀ (s : State) (i : Instr) (op : MsixOp), i = .busMasterEnableSet ∨ i = .msixUnmask op →
    ∃ t l, exec i s = .next t ∧ t = { s with link := t.link } ∧ t.link.posted = s.link.posted ++ l ∧
      (∀ p ∈ l, ∃ v, p = msixOf s.link v ∧ v ∈ s.link.pba.map Prod.fst) ∧
      (∀ v, (v, true) ∈ s.link.pba → msixOpen t.link v = true → msixOf s.link v ∈ l) ∧
      (∀ v, tblGet false t.link.pba v = true → msixOpen t.link v = false ∧ tblGet false s.link.pba v = true) ∧
      (i = .busMasterEnableSet → t.link.bme = true) ∧
      (∀ v, i = .msixUnmask (.unmaskVector v) → (tblGet MsixEntry.reset t.link.msix v).control.getLsbD 0 = false) ∧
      (i = .msixUnmask .clearFunctionMask → t.link.functionMask = false) ∧
      (i = .msixUnmask .setEnable → t.link.msixEnable = true) ∧
      (i = .msixUnmask .setFunctionMask → t.link.functionMask = true) ∧
      (i = .msixUnmask .clearEnable → t.link.msixEnable = false)) ∧
  (∀ (s : State) (a : Nat) (bs : Bytes), ∃ ps, splitsInto (128 * 2 ^ s.link.mps) a bs.length ps ∧
    dataWrites s.link a bs = ps.map (fun p => .data (BitVec.ofNat 64 p.1) ((bs.drop (p.1 - a)).take p.2)
      (s.link.relaxedOrdering && s.link.dataRo))) ∧
  (∀ (s : State) (segs : List (Nat × Nat)), ∃ pss : List (List (Nat × Nat)), pss.length = segs.length ∧
    (∀ n, n < segs.length → splitsInto (128 * 2 ^ s.link.mrrs) (segs.getD n (0, 0)).1 (segs.getD n (0, 0)).2 (pss.getD n [])) ∧
    requestReads segs s = { s with link := { s.link with
      requests := s.link.requests ++ pss.flatten.map (fun p => { addr := BitVec.ofNat 64 p.1, bytes := p.2 }) } }) ∧
  (∀ (s : State) (off : Nat) (v : Word), ∃ t, exec (.registerWrite .config off v) s = .next t ∧
    t = { s with link := t.link } ∧ t.link.posted = s.link.posted ∧ configWord t 0x00 = 0x40961F6E ∧
    configWord t 0x08 = 0x10800020 ∧ configWord t 0x2C = 0x40961F6E ∧
    (off = 0x04 → t.link.mse = v.getLsbD 1 ∧ t.link.bme = s.link.bme) ∧
    (off = 0x10 → configWord t 0x10 = (v &&& 0xFFFFC000) ||| 4 ∧ configWord t 0x14 = configWord s 0x14) ∧
    (off = 0x14 → configWord t 0x14 = v ∧ configWord t 0x10 = configWord s 0x10) ∧
    (off = 0x18 → configWord t 0x18 = (v &&& 0xFFFC0000) ||| 4 ∧ configWord t 0x1C = configWord s 0x1C) ∧
    (off = 0x1C → configWord t 0x1C = v ∧ configWord t 0x18 = configWord s 0x18) ∧
    (off = 0x98 → t.link.devctl2 = v.setWidth 5) ∧ (off = 0x104 → t.link.aer = s.link.aer &&& ~~~ v))

/-- LC_SEAL seals with 0x5EA1_0001 and is ignored with any other value. A write of any register completes; after the
seal it leaves every RWS field as it is, and the seal. A write of an event register of the W1C type clears exactly the
bits written as 1. At an offset that is no multiple of 4, and in BAR0_BAD_ACCESS and a BAR2 write that is no doorbell,
RING_PCIE_ERR.BAD_ACCESS is set and nothing else changes but the event that it raises; a BAR2 read returns zero. -/
def Obligations.RegisterWritesAndTheSeal : Prop :=
  (∀ (s : State) (v : Word), exec (.lcSeal v) s = .next { s with
    life := { s.life with isSealed := s.life.isSealed || v == 0x5EA10001 } }) ∧
  (∀ (s : State) (space : RegSpace) (off : Nat) (v : Word), ∃ t, exec (.registerWrite space off v) s = .next t ∧
    (s.life.isSealed = true → t.life.isSealed = true ∧ keepsRws s t) ∧
    (space = .bar0 → off ∈ w1cOffsets → bar0Read t off = bar0Read s off &&& ~~~ v)) ∧
  (∀ (s : State) (i : Instr), i = .bar0BadAccess ∨ i = .bar2BadAccess true ∨
      (∃ off v, off % 4 ≠ 0 ∧ i = .registerWrite .bar0 off v) →
    ∃ t, exec i s = .next t ∧ t.link.err = s.link.err ||| 1 ∧ t = { s with link := t.link, evts := t.evts }) ∧
  (∀ s : State, exec (.bar2BadAccess false) s = .next { s with link := { s.link with readData := 0 } })

/-- CTR_VALUE, SES_SUM, VLT_STAT, EDGE_SEL, EDGE_CURVE_STAT, PTL_SRC_SEL, the low halves of 64-bit values, RSF_BSEL,
RSF_WSEL and LC_PROV_STAT complete, return the register as BAR0 reads it, change nothing but the link's data and their
own chapter's latches, and the latched companions then read the value of the moment of the read: the upper half of the
counter, the sessions' registers, the digest, the source, the upper halves. -/
def Obligations.LatchingReadsFreezeTheirRegisters : Prop :=
  (∀ s : State, ∃ t, exec .ctrValueRead s = .next t ∧ t = { s with link := t.link, ctrs := t.ctrs } ∧
    t.link.readData = bar0Read s 0xC04 ∧ (bar0Read t 0xC08 ++ bar0Read t 0xC04 : DWord) = (counter s s.ctrs.sel).value) ∧
  (∀ s : State, ∃ t, exec .sesSumRead s = .next t ∧ t = { s with link := t.link, sess := t.sess } ∧
    t.link.readData = sesSum (tblGet Session.reset s.sess.table s.sess.sel) ∧ t.sess.table = s.sess.table ∧
    t.sess.latch = tblGet Session.reset s.sess.table s.sess.sel) ∧
  (∀ s : State, ∃ t, exec .vltStatRead s = .next t ∧ t = { s with link := t.link, vault := t.vault } ∧
    t.link.readData = t.vault.statLatch ∧ t.vault.root = s.vault.root ∧ t.vault.priv = s.vault.priv ∧
    ∀ r, vltSlot s = some r → t.vault.statLatch = vltStat (slotOf s r) ∧ t.vault.genLatch = word (slotOf s r).number) ∧
  (∀ s : State, ∃ t, exec .edgeSelRead s = .next t ∧ t = { s with link := t.link, units := t.units } ∧
    t.link.readData = bar0Read s 0x620 ∧
    t.units = { s.units with slotsLatch := t.units.slotsLatch }) ∧
  (∀ s : State, ∃ t, exec .edgeCurveStatRead s = .next t ∧ t = { s with link := t.link, curves := t.curves } ∧
    t.link.readData = curveStat s s.curves.sel ∧ t.curves = { s.curves with digLatch := t.curves.digLatch }) ∧
  (∀ s : State, ∃ t, exec .ptlSrcSelRead s = .next t ∧ t = { s with link := t.link, patrol := t.patrol } ∧
    t.link.readData = bar0Read s 0x924 ∧
    t.patrol = { s.patrol with selLatch := ptlSrc s (128 + s.patrol.sel) }) ∧
  (∀ (s : State) (w : HiLo), ∃ t, exec (.hiHalfLatchRead w) s = .next t ∧
    t = { s with link := t.link, trk := t.trk, hut := t.hut, alarm := t.alarm, patrol := t.patrol } ∧
    t.trk.entries = s.trk.entries ∧ t.hut.time = s.hut.time ∧ t.patrol.lockSeq = s.patrol.lockSeq ∧
    match w with
    | .trkHead => s.trk.headSeq < 2 ^ 64 → t.link.readData.toNat + t.trk.headHi.toNat * 2 ^ 32 = s.trk.headSeq
    | .trkRel => s.trk.relSeq < 2 ^ 64 → t.link.readData.toNat + t.trk.relHi.toNat * 2 ^ 32 = s.trk.relSeq
    | .trkExportLast => ∀ x, s.trk.pending = some x → x.last < 2 ^ 64 →
        t.link.readData.toNat + t.trk.lastHi.toNat * 2 ^ 32 = x.last
    | .hutTime => s.hut.time < 2 ^ 64 → t.link.readData.toNat + t.hut.timeHi.toNat * 2 ^ 32 = s.hut.time
    | .almWoTime => s.hut.woTime < 2 ^ 64 → t.link.readData.toNat + t.alarm.woTimeHi.toNat * 2 ^ 32 = s.hut.woTime
    | .ptlLockSeq => t.link.readData.toNat + t.patrol.lockSeqHi.toNat * 2 ^ 32 = s.patrol.lockSeq.toNat) ∧
  (∀ (s : State) (weak : Bool), ∃ t, exec (.rsfSelRead weak) s = .next t ∧ t = { s with link := t.link, stored := t.stored } ∧
    t.link.readData = bar0Read s (if weak then 0xC9C else 0xC94) ∧ t.stored.marks = s.stored.marks) ∧
  (∀ s : State, ∃ t, exec .lcProvStatRead s = .next t ∧ t = { s with link := t.link, life := t.life } ∧
    t.link.readData = bar0Read s 0x04C ∧
    t.life = { s.life with provLatch := if s.life.provValid then s.life.provPub else [] })

/-- An assertion of PORST_N or PERST_N of at least 1 microsecond completes: the pin is remembered as asserted,
everything that R499 and R500 clear is clear, and everything in MRAM and in the Hut is as before, with the Tracks
entries that waited written first (the model's choice, log entry 29); a powered card starts its off time. A shorter
pulse does nothing. LC_INIT of 0xA5 in BLANK outside PORST_N makes a new part FACTORY, increments counter 9, makes the
transition its newest Tracks entry and resets the core; any other LC_INIT does nothing. State.reset is a state with
everything clear, its memory canonical and its queue empty, BLANK and with both pins asserted (log entry 9), and with
the reset values of R77, R146, R494 and R523. -/
def Obligations.ResetsClearAndKeep : Prop :=
  (∀ (s : State) (i : Instr) (por : Bool) (micros : Nat), i = (if por then .porstNAssert micros else .perstNAssert micros) →
    micros < 1 → exec i s = .next s) ∧
  (∀ (s : State) (i : Instr) (por : Bool) (micros : Nat), i = (if por then .porstNAssert micros else .perstNAssert micros) →
    1 ≤ micros → ∃ t, exec i s = .next t ∧
      clearedByReset t ∧ keptByReset s t ∧ t.life.porst = (s.life.porst || por) ∧
        t.life.perst = (s.life.perst || !por) ∧ t.life.porstSeen = (s.life.porstSeen || por) ∧
        t.card.offRunning = (s.card.power || s.card.offRunning) ∧ (s.card.power = true → t.card.offSince = s.now)) ∧
  (∀ (s : State) (v : Byte), ¬ (s.life.state = .blank ∧ v = 0xA5 ∧ s.life.porst = false) → exec (.lcInit v) s = .next s) ∧
  (∀ s : State, s.life.state = .blank → s.life.porst = false → ∃ t, exec (.lcInit 0xA5) s = .next t ∧
      t.life.state = .factory ∧ t.life.perst = true ∧ clearedByReset t ∧
        (counter t 9).value = (counter s 9).value + 1 ∧
        (s.trk.queue = [] → s.trk.entries = [] → ∃ e, t.trk.entries.getLast? = some e ∧ e.kind = 0x0102 ∧ e.origin = 1 ∧
          e.payload = [0, 1, 0, 0] ++ vecBytes 64 (counter t 9).value ∧ t.trk.headSeq = e.seq)) ∧
  clearedByReset State.reset ∧ State.reset.memOk ∧ State.reset.pending = [] ∧ State.reset.life.state = .blank ∧
  State.reset.life.porst = true ∧ State.reset.life.perst = true ∧
  (∀ r, (getRing State.reset (.host r)).depthLog2 = 6 ∧ (getRing State.reset (.host r)).cls = .L) ∧
  State.reset.gate.derate = 64 ∧ State.reset.gate.siMin = 128 ∧ State.reset.gate.rdLat = 12 ∧
  State.reset.evts.depthLog2 = 6 ∧ State.reset.tel.depthLog2 = 3 ∧ State.reset.card.final = 0x19 ∧
  State.reset.card.readAcc = 0x0A ∧ State.reset.card.busyBlk = 0x05 ∧ State.reset.card.mbxTmo = 0x14

/-- RESET_DEASSERT outside reset does nothing. In reset it completes: both pins are deasserted, LC_RESET_CAUSE says
which reset it was and whether an earlier start-up was abandoned. From a state that a reset has left, a start-up that
no reset abandons ends as R503 says: with code 0 START_DONE and step 10 are set and the Gate is open, every Edge,
Blade, Lift and hash unit is FAULTED exactly when it failed its vectors, and Tracks is ready with the Hut buffer
empty; with another code START_FAIL, the code and the last completed step are set and the Gate stays closed. A reset
after step k leaves LC_START.STEP at k with the Gate closed and neither flag set (log entry 28: the steps run within
the row). -/
def Obligations.StartUpOpensTheGateOrSaysWhyNot : Prop :=
  (∀ (i : StartInputs) (s : State), inReset s = false → exec (.resetDeassert i) s = .next s) ∧
  (∀ (i : StartInputs) (s : State), inReset s = true → ∃ t, exec (.resetDeassert i) s = .next t ∧
    t.life.porst = false ∧ t.life.perst = false ∧ t.life.porstSeen = false ∧
    t.life.cause = (if s.life.porstSeen = true then 1 else 2) ∧ t.life.aborted = s.life.starting ∧
    t.life.state = s.life.state ∧ t.now = s.now) ∧
  (∀ (i : StartInputs) (s : State) (code n : Nat), inReset s = true → s.gate.isOpen = false → s.life.startDone = false →
    StartEnds i s code n →
      (∀ k, i.interrupted.filter (fun k => decide (k ≤ n) && decide (k < 10)) = some k →
        ∃ t, exec (.resetDeassert i) s = .next t ∧ t.life.startStep = k ∧ t.life.startFail = false ∧
          t.life.startDone = false ∧ t.gate.isOpen = false) ∧
      (i.interrupted.filter (fun k => decide (k ≤ n) && decide (k < 10)) = none → code ≠ 0 →
        ∃ t, exec (.resetDeassert i) s = .next t ∧ t.life.startStep = n ∧
          t.life.startFail = true ∧ t.life.startCode = code ∧ t.life.startDone = false ∧ t.gate.isOpen = false) ∧
      (i.interrupted.filter (fun k => decide (k ≤ n) && decide (k < 10)) = none → code = 0 →
        ∃ t, exec (.resetDeassert i) s = .next t ∧ t.life.startStep = n ∧
          t.life.startDone = true ∧ t.life.startFail = false ∧ t.life.starting = false ∧ t.gate.isOpen = true ∧
            t.life.startTime = min 0xFFFF i.tenMicros ∧ t.trk.ready = true ∧ t.hut.buffer = [] ∧
            (∀ u : UnitRef, u.kind ≠ .groomer → u.num < unitCount u.kind →
              (unitState t u = .faulted ↔ u ∈ i.katFails))))

/-- A debug access is captured with its address. Denied (port closed, misaligned, or failing R358) it returns ERROR
and zero, writes nothing and is counted; of a word that cannot be corrected it returns ERROR (the model's choice, log
entry 33); otherwise a read returns the four bytes there and a write to applet SRAM stores its data and no other byte.
PU_DBG_ARM and PU_DBG_RESUME are such writes: the first replaces the arm bits, the second lets exactly the named held
applets go on after their BRK. A timeout returns ERROR and zero for the access that waits. When its time has run out
an open port closes, every held applet goes on and the arm bits clear. Supervisor code writes an entry, a view of a
grant set or tags: a locked entry, an illegal entry or a range outside is ignored with its event bit, a legal write
replaces exactly the entry or the tags named. The end of a drain removes the oldest rule change and keeps the longest
drain. -/
def Obligations.DebugPortAndRuleChanges : Prop :=
  (∀ (s : State) (w : Bool) (a v : Word),
    let denied := s.prot.isOpen = false ∨ a.toNat % 4 ≠ 0 ∨ checkAcc s (debugAcc w a) ≠ .pass
    (denied → ∃ t, exec (.debugAccess w a v) s = .next t ∧ ringFrame s t ∧
      t = { s with prot := t.prot, trk := t.trk, evts := t.evts, link := t.link } ∧
        t.prot.dbg = { pending := true, write := w, error := true, addr := a, data := 0 } ∧
        t.prot.denyCnt = min 0xFFFFFFFF (s.prot.denyCnt + 1) ∧ t.prot.evt.getLsbD 14 = true ∧
        t.prot.units = s.prot.units ∧ t.prot.grants = s.prot.grants ∧ t.prot.tags = s.prot.tags ∧ t.prot.arm = s.prot.arm) ∧
    (¬ denied → badAt s a.toNat ≠ none → ∃ t, exec (.debugAccess w a v) s = .next t ∧ ringFrame s t ∧
      t.mem = s.mem ∧ t.prot.dbg = { pending := true, write := w, error := true, addr := a, data := 0 }) ∧
    (¬ denied → badAt s a.toNat = none → ∃ t, exec (.debugAccess w a v) s = .next t ∧ ringFrame s t ∧
      t.prot.dbg.pending = true ∧ t.prot.dbg.write = w ∧ t.prot.dbg.error = false ∧ t.prot.dbg.addr = a ∧
        (w = false → t.mem = s.mem ∧ (regionOf a.toNat ≠ some .ringPorts → regionOf a.toNat ≠ some .peripherals →
          t.prot.dbg.data.toNat = storedNat s a.toNat 4)) ∧
        (w = true → regionOf a.toNat = some .sram → t.prot.dbg.data = 0 ∧ storedNat t a.toNat 4 = v.toNat ∧
          ∀ b, b < a.toNat ∨ a.toNat + 4 ≤ b → memRead t.mem b = memRead s.mem b))) ∧
  (∀ (s : State) (v : Word), exec (.puDbgArmWrite v) s = exec (.debugAccess true 0x50003000 v) s ∧
    exec (.puDbgResumeWrite v) s = exec (.debugAccess true 0x50003004 v) s ∧
    (s.prot.isOpen = true → checkAcc s (debugAcc true 0x50003000) = .pass →
      ∃ t, exec (.puDbgArmWrite v) s = .next t ∧ t = { s with prot := t.prot } ∧ t.prot.arm = v) ∧
    (s.prot.isOpen = true → checkAcc s (debugAcc true 0x50003004) = .pass →
      ∃ t, exec (.puDbgResumeWrite v) s = .next t ∧ t = { s with prot := t.prot, merya := t.merya } ∧
        (∀ n, n < 32 → applet t n = { applet s n with held := (applet s n).held && !(v.getLsbD n) }) ∧
        (∀ c n, c < 8 → (rinkOf s c).applet = some n → n < 32 → rinkOf t c = { rinkOf s c with
          pc := if (applet s n).held = true ∧ v.getLsbD n = true then (rinkOf s c).pc + 4 else (rinkOf s c).pc }))) ∧
  (∀ s : State, (s.prot.dbg.pending = true → exec .debugAccessTimeout s = .next
      { s with prot := { s.prot with dbg := { s.prot.dbg with pending := false, error := true, data := 0 } } }) ∧
    (s.prot.dbg.pending = false → exec .debugAccessTimeout s = .next s)) ∧
  (∀ s : State, s.prot.openUntil = none ∨ s.prot.isOpen = false → exec .debugUnlockExpiry s = .next s) ∧
  (∀ s : State, s.prot.openUntil ≠ none → s.prot.isOpen = true → ∃ t, exec .debugUnlockExpiry s = .next t ∧
      t = { s with prot := t.prot, merya := t.merya, evts := t.evts, link := t.link } ∧ t.prot.isOpen = false ∧
        t.prot.openUntil = none ∧ t.prot.arm = 0 ∧ t.prot.evt.getLsbD 16 = true ∧
        (∀ n, n < 32 → applet t n = { applet s n with held := false })) ∧
  (∀ (s : State) (c : Nat) (g f : Bool) (set e : Nat) (w0 w1 : Word), supervisorOn s c = false →
    exec (.protectionEntryWrite c g set e w0 w1 f) s = .next s ∧ exec (.puTagCountWrite c w0 f) s = .next s) ∧
  (∀ (s : State) (c set e : Nat) (w0 w1 : Word) (f : Bool), supervisorOn s c = true → set < 32 → e < 8 →
    ∃ t, exec (.protectionEntryWrite c true set e w0 w1 f) s = .next t ∧
      (¬ legalEntry w0 → protIgnored 17 s t) ∧
      (legalEntry w0 → t = { s with prot := t.prot, merya := t.merya } ∧ t.merya.apps = s.merya.apps ∧
        t.prot = { s.prot with grants := t.prot.grants, draining := s.prot.draining ++ if f then [s.now] else [] } ∧
        tblGet PuEntry.reset t.prot.grants (8 * set + e) = { w0 := w0, w1 := w1 &&& 0xBFFFFFFF } ∧
        ∀ n, n ≠ 8 * set + e → tblGet PuEntry.reset t.prot.grants n = tblGet PuEntry.reset s.prot.grants n)) ∧
  (∀ (s : State) (c set e : Nat) (w0 w1 : Word) (f : Bool), supervisorOn s c = true → set < 12 → e < 16 →
    ∃ t, exec (.protectionEntryWrite c false set e w0 w1 f) s = .next t ∧
      if set < 8 ∧ e < 8 then
        (match (rinkOf s set).applet with
         | some n => n < 32 → exec (.protectionEntryWrite c true n e w0 w1 f) s = .next t
         | none => t = s)
      else
        let old := tblGet PuEntry.reset s.prot.units (16 * set + e)
        (old.w1.getLsbD 30 = true → protIgnored 13 s t) ∧
        (old.w1.getLsbD 30 = false → ¬ legalEntry w0 → protIgnored 17 s t) ∧
        (old.w1.getLsbD 30 = false → legalEntry w0 → t = { s with prot := t.prot, merya := t.merya } ∧
          t.merya.apps = s.merya.apps ∧
          t.prot = { s.prot with units := t.prot.units, draining := s.prot.draining ++ if f then [s.now] else [] } ∧
          tblGet PuEntry.reset t.prot.units (16 * set + e) = { w0 := w0, w1 := w1 } ∧
          ∀ n, n ≠ 16 * set + e → tblGet PuEntry.reset t.prot.units n = tblGet PuEntry.reset s.prot.units n)) ∧
  (∀ (s : State) (c : Nat) (count : Word) (f : Bool), supervisorOn s c = true →
      let first := (s.prot.puTag >>> 8).toNat
      let n := count.toNat
      let fits := 1 ≤ n ∧ n ≤ 2048 ∧ ((0x100000 ≤ first ∧ first + n ≤ 0x104000) ∨ (0x300000 ≤ first ∧ first + n ≤ 0x300800))
      (¬ fits → ∃ t, exec (.puTagCountWrite c count f) s = .next t ∧ protIgnored 17 s t) ∧
      (fits → ∃ t, exec (.puTagCountWrite c count f) s = .next t ∧
        t = { s with prot := t.prot, merya := t.merya } ∧ t.merya.apps = s.merya.apps ∧
          t.prot = { s.prot with tags := t.prot.tags, draining := s.prot.draining ++ if f then [s.now] else [] } ∧
          ∀ m, tblGet 0 t.prot.tags m = if first ≤ m ∧ m < first + n then (s.prot.puTag &&& 15).toNat
            else tblGet 0 s.prot.tags m)) ∧
  (∀ (s : State) (ticks : Nat), exec (.ruleChangeDrainComplete ticks) s = .next (match s.prot.draining with
    | [] => s
    | _ :: rest => { s with prot := { s.prot with
        draining := rest, drainMax := max s.prot.drainMax (min 0xFFFF ticks) } }))

/-- DETECTOR_TRIP and DISAGREEMENT of a source on main power set what its detectors report; a first report of a clear
pair counts, requests its Tracks entry and acts: from Lock on LOCKED is set, from Purge on PURGED with sessions,
applet SRAM and random state cleared and every job ended, at Raze (outside Whiteout) every slot loses its key. Another
report changes the source alone. A disagreement activates the disagreement source of its quantity. A source that
clears only stops being active. The stimulus makes exactly the failing detectors, and pairs that already disagree,
disagree. RAZE_COMPLETE ends an erasure with no generation left and an entry for each, and VAULT_RETIRING_ERASE erases
exactly a generation without a holder. Other sources and events in reset change nothing. -/
def Obligations.TripsAndErasuresFollowTheLevels : Prop :=
  (∀ (s : State) (src : Nat) (a b : Bool), src < 128 ∨ 246 < src ∨ inReset s = true →
    exec (.detectorTrip src a b) s = .next s) ∧
  (∀ (s : State) (src : Nat) (a b : Bool), 128 ≤ src → src ≤ 246 → inReset s = false →
    ∃ t, exec (.detectorTrip src a b) s = .next t ∧
      let p := psource s src
      let p' := psource t src
      p'.detA = a ∧ p'.detB = b ∧ (p'.active = true ↔ p.active = true ∨ a = true ∨ b = true) ∧
        (freshTrip s src a b → p'.trips = min 0xFFFF (p.trips + 1) ∧ tripResponse src (effLevel s src) s t) ∧
        (p.disagree = false → ¬ freshTrip s src a b → p'.trips = p.trips ∧
          t = { s with patrol := { s.patrol with sources := t.patrol.sources } } ∧ ∀ n, n ≠ src → psource t n = psource s n) ∧
        (p.disagree = false → levelNum (effLevel s src) < 2 →
          t = { s with patrol := t.patrol, trk := t.trk, evts := t.evts, link := t.link } ∧
            ∀ n, n ≠ src → psource t n = psource s n)) ∧
  (∀ (s : State) (src : Nat) (a b : Bool), src < 128 ∨ 238 < src ∨ inReset s = true →
    exec (.disagreement src a b) s = .next s) ∧
  (∀ (s : State) (src : Nat) (a b : Bool), 128 ≤ src → src ≤ 238 → inReset s = false →
    ∃ t, exec (.disagreement src a b) s = .next t ∧
      let p' := psource t src
      p'.detA = a ∧ p'.detB = b ∧ (src ≠ 238 → p'.disagree = (a != b)) ∧
        (freshTrip s src a b → tripResponse src (effLevel s src) s t) ∧
        (src ≠ 238 → a ≠ b → ∃ q, quantitySource src = some q ∧ (psource t q).detA = true ∧
          ((psource s src).disagree = false → t.patrol.evt.getLsbD 0 = true))) ∧
  (∀ (s : State) (src : Nat),
    let p := psource s src
    (p.active = false ∨ (src ≠ 238 ∧ (p.detA = true ∨ p.detB = true)) → exec (.sourceClearExpiry src) s = .next s) ∧
    (p.active = true → src = 238 ∨ (p.detA = false ∧ p.detB = false) → ∃ t, exec (.sourceClearExpiry src) s = .next t ∧
      t = { s with patrol := t.patrol } ∧ psource t src = { p with active := false, detA := false, detB := false } ∧
        (∀ n, n ≠ src → psource t n = psource s n) ∧ t.patrol.standing = s.patrol.standing)) ∧
  (∀ (s : State) (failing : List Nat), ∃ t, exec (.detectorStimulus failing) s = .next t ∧
    (∀ src, 128 ≤ src → src < 238 →
      let p := psource s src
      (psource t src).detA = p.detA ∧ (psource t src).detB = p.detB ∧ (psource t src).trips = p.trips ∧
        ((psource t src).disagree = true ↔ src ∈ failing ∨ (p.disagree = true ∧ p.detA ≠ p.detB))) ∧
    t.life = s.life) ∧
  (∀ s : State, s.patrol.erasing = false → exec .razeComplete s = .next s) ∧
  (∀ s : State, s.patrol.erasing = true → ∃ t, exec .razeComplete s = .next t ∧
      t = { s with vault := t.vault, hut := t.hut, patrol := t.patrol, trk := t.trk, evts := t.evts, link := t.link } ∧
        t.hut = { s.hut with razePending := false, razeMram := false } ∧ t.patrol.erasing = false ∧
        t.patrol.evt.getLsbD 4 = true ∧
        ∀ r, (slotOf t r).old = [] ∧ (slotOf t r).cur = (slotOf s r).cur ∧ (slotOf t r).number = (slotOf s r).number ∧
          ∀ x ∈ (slotOf s r).old, traced t 0x0400 (slotOrigin r) (some (bytesLE 4 x.mat.gen))) ∧
  (∀ (s : State) (r : SlotRef) (gen : Nat), (∀ x ∈ (slotOf s r).old, x.mat.gen ≠ gen) ∨ holders s r gen ≠ [] →
    exec (.vaultRetiringErase r gen) s = .next s) ∧
  (∀ (s : State) (r : SlotRef) (gen : Nat), (∃ x ∈ (slotOf s r).old, x.mat.gen = gen) → holders s r gen = [] →
    ∃ t, exec (.vaultRetiringErase r gen) s = .next t ∧
      t = { s with vault := t.vault, trk := t.trk, evts := t.evts, link := t.link } ∧ t.vault.evt.getLsbD 1 = true ∧
        slotOf t r = { slotOf s r with old := (slotOf s r).old.filter (fun x => x.mat.gen != gen) } ∧
        (∀ q, q ≠ r → slotOf t q = slotOf s q) ∧ traced t 0x0400 (slotOrigin r) (some (bytesLE 4 gen)))

/-- HUT_TRIP of a source that R449 lists, in reset and on a live supply, sets LOCKED from Lock on where levels act,
PURGED from Purge on and Raze-pending at Raze, and nothing outside the Hut; its entry is new with count 1 and the next
HUT_SEQ (the overflow entry when 63 are in use), or one more of its source's, or of the overflow entry. Otherwise it
changes nothing. HUT_SUPPLY_SWITCH records both cells and chooses VIO, or the cell by the 100 mV rule, a dead Hut
staying dead until VIO returns (log entry 41), with HUT_EVT for a failed or low cell. CRYSTAL_STOP and CRYSTAL_RESUME
set and clear the flag. A temperature read above 125 degrees on backup adds one second to the hot time and not to its
MRAM copy. -/
def Obligations.TheHutOnBackupPower : Prop :=
  (∀ (s : State) (src : Nat) (a b : Bool) (tj : Int) (v1 v2 : Nat),
    inReset s = false ∨ hutWatches src = false ∨ (a = false ∧ b = false) ∨ s.hut.supply = .none →
    exec (.hutTrip src a b tj v1 v2) s = .next s) ∧
  (∀ (s : State) (src : Nat) (a b : Bool) (tj : Int) (v1 v2 : Nat), inReset s = true → hutWatches src = true →
    a = true ∨ b = true → s.hut.supply ≠ .none → ∃ t, exec (.hutTrip src a b tj v1 v2) s = .next t ∧
      let lvl := effLevel s src
      t = { s with hut := t.hut } ∧
        t.hut = { s.hut with buffer := t.hut.buffer, seq := t.hut.seq,
                             locked := s.hut.locked || (decide (2 ≤ levelNum lvl) && levelsAct s),
                             purged := s.hut.purged || decide (3 ≤ levelNum lvl),
                             razePending := s.hut.razePending || lvl == .raze } ∧
        ((∃ e ∈ s.hut.buffer, e.kind = 5 ∨ e.source = src - 128) →
          t.hut.buffer.length = s.hut.buffer.length ∧ t.hut.seq = s.hut.seq ∧
            ∃ e ∈ s.hut.buffer, ∃ e' ∈ t.hut.buffer, e'.seq = e.seq ∧ e'.count = min 0xFFFF (e.count + 1) ∧
              e'.lastTime = s.hut.time ∧ (e.kind = 5 ∨ e.source = src - 128)) ∧
        ((∀ e ∈ s.hut.buffer, e.kind ≠ 5 ∧ e.source ≠ src - 128) →
          t.hut.seq = (s.hut.seq + 1) % 2 ^ 32 ∧ t.hut.buffer = s.hut.buffer ++ [{
            seq := t.hut.seq, kind := if 63 ≤ s.hut.buffer.length then 5 else if 239 ≤ src then 2 else 1,
            source := src - 128, level := lvl, detA := a, detB := b,
            lockSet := decide (2 ≤ levelNum lvl) && levelsAct s && !s.hut.locked,
            razeSet := lvl == .raze && !s.hut.razePending, whiteout := s.hut.whiteout, damaged := false,
            time := s.hut.time, count := 1, tj := tj, vbat1 := v1, vbat2 := v2, lastTime := s.hut.time }])) ∧
  (∀ (s : State) (vio : Bool) (v1 v2 : Nat), ∃ t, exec (.hutSupplySwitch vio v1 v2) s = .next t ∧
    t = { s with hut := t.hut, evts := t.evts, link := t.link } ∧
      t.hut = { s.hut with vbat1 := min 0xFFFF v1, vbat2 := min 0xFFFF v2, supply := t.hut.supply, evt := t.hut.evt,
                           buffer := t.hut.buffer, seq := t.hut.seq } ∧
      (t.hut.supply = if s.hut.supply = .none ∧ vio = false then .none
        else if vio = true ∧ s.life.porst = false then .vio
        else if s.hut.supply = .cell1 ∧ 2000 ≤ v1 ∧ (v2 < 2000 ∨ v2 < v1 + 100) then .cell1
        else if s.hut.supply = .cell2 ∧ 2000 ≤ v2 ∧ (v1 < 2000 ∨ v1 < v2 + 100) then .cell2
        else bestCell v1 v2) ∧
      (v1 < 2000 ∨ v2 < 2000 → t.hut.evt.getLsbD 0 = true) ∧
      ((2000 ≤ v1 ∧ v1 < 2400) ∨ (2000 ≤ v2 ∧ v2 < 2400) → t.hut.evt.getLsbD 1 = true) ∧
      (inReset s = false → t.hut.buffer = s.hut.buffer)) ∧
  (∀ s : State, ∃ t, exec .crystalStop s = .next t ∧ t = { s with hut := t.hut, evts := t.evts, link := t.link } ∧
    t.hut = { s.hut with xtalStop := true, evt := bvSet s.hut.evt 4, buffer := t.hut.buffer, seq := t.hut.seq } ∧
    (inReset s = false → t.hut.buffer = s.hut.buffer) ∧
    (inReset s = true → ∃ e ∈ t.hut.buffer, e.kind = 5 ∨ e.source = 104)) ∧
  (∀ s : State, exec .crystalResume s = .next { s with hut := { s.hut with xtalStop := false } }) ∧
  (∀ (s : State) (tj : Int), inReset s = false ∨ tj ≤ 125 * 16 ∨ s.hut.supply = .none →
    exec (.backupTemperatureRead tj) s = .next s) ∧
  (∀ (s : State) (tj : Int), s.hut.hotMin < 0xFFFFF → s.hut.hotRem < 60000 → inReset s = true → 125 * 16 < tj →
    s.hut.supply ≠ .none → ∃ t, exec (.backupTemperatureRead tj) s = .next t ∧
      t = { s with hut := { s.hut with hotMin := t.hut.hotMin, hotRem := t.hut.hotRem } } ∧ t.hut.hotRem < 60000 ∧
        t.hut.hotMin * 60000 + t.hut.hotRem = s.hut.hotMin * 60000 + s.hut.hotRem + 1000)

/-- A sample outside PORST_N is banded by R455, as open when ALM_VREF is outside 1.40 to 1.60 V: in a gap only the
level is taken, in the candidate band the count rises up to 20, in another it restarts at 1; no state changes. A state
change needs 20: then the candidate is the state; when it differs its ALM_EVT bit is set, an open or short line is
counted, and an active input whose function is the Whiteout trigger enters Whiteout with cause 1, its number and the
time, while with the other functions Whiteout stays as it is. A refill adds one to the long or the short credit of
every counter up to its limit and changes no value. An unlock half goes when it is older than 60 s and stays
otherwise. -/
def Obligations.AlarmInputsAndTimedCredits : Prop :=
  (∀ (s : State) (levels : List Nat) (vref : Nat), s.life.porst = true → exec (.alarmInputSample levels vref) s = .next s) ∧
  (∀ (s : State) (levels : List Nat) (vref : Nat), s.life.porst = false →
    ∃ t, exec (.alarmInputSample levels vref) s = .next t ∧
      t = { s with alarm := { s.alarm with inputs := t.alarm.inputs } } ∧
      (∀ n, 4 ≤ n → almInput t n = almInput s n) ∧
      ∀ n, n < 4 →
        let i := almInput s n
        let v := levels.getD n 0
        match (if 1400 ≤ vref ∧ vref ≤ 1600 then ratioBand v else some .opened) with
        | none => almInput t n = { i with level := min 1023 v }
        | some b => almInput t n = { i with
            level := min 1023 v, cand := b, count := if b = i.cand then min 20 (i.count + 1) else 1,
            changing := !i.settled || b != i.state }) ∧
  (∀ (s : State) (n : Nat), 4 ≤ n ∨ (almInput s n).count < 20 → exec (.alarmInputStateChange n) s = .next s) ∧
  (∀ (s : State) (n : Nat), n < 4 → 20 ≤ (almInput s n).count → ∃ t, exec (.alarmInputStateChange n) s = .next t ∧
      let i := almInput s n
      (almInput t n).state = i.cand ∧ (almInput t n).changing = false ∧ (almInput t n).settled = true ∧
        (almInput t n).func = i.func ∧ (∀ m, m ≠ n → almInput t m = almInput s m) ∧
        (i.cand = i.state → t = { s with alarm := { s.alarm with inputs := t.alarm.inputs } }) ∧
        (i.cand ≠ i.state → t.alarm.evt.getLsbD n = true ∧ t.alarm.lineFaultCnt =
          if i.cand = .opened ∨ i.cand = .short then min 0xFFFFFFFF (s.alarm.lineFaultCnt + 1) else s.alarm.lineFaultCnt) ∧
        (i.cand ≠ i.state → i.cand = .active → i.func = 1 → levelsAct s = true → inWhiteout s = false →
          inWhiteout t = true ∧ t.hut.cause = 1 ∧ t.hut.input = n ∧ t.hut.woTime = s.hut.time ∧ t.prot.isOpen = false) ∧
        (i.cand ≠ .active ∨ i.func ≠ 1 ∨ levelsAct s = false ∨ inWhiteout s = true → t.hut = s.hut) ∧
        (i.cand = .active → i.func = 4 → levelsAct s = true → inWhiteout s = false →
          t.alarm.resetSeen = s.alarm.resetSeen)) ∧
  (∀ s : State, tblWf Counter.reset s.ctrs.table = true →
    (∃ t, exec .longCreditRefill s = .next t ∧ t = { s with ctrs := { s.ctrs with table := t.ctrs.table } } ∧
      ∀ n, counter t n = { counter s n with long := min 691200 ((counter s n).long + 1) }) ∧
    (∃ t, exec .shortCreditRefill s = .next t ∧ t = { s with ctrs := { s.ctrs with table := t.ctrs.table } } ∧
      ∀ n, counter t n = { counter s n with short := min 1000 ((counter s n).short + 1) })) ∧
  (∀ s : State, exec .unlockHalfExpiry s = .next { s with ctrs := { s.ctrs with half := match s.ctrs.half with
    | some (a, since) => if s.hut.time ≤ since + 60 * 32768 then some (a, since) else none
    | none => none } })

/-- The start-up test passes from STARTUP to SEEDING only. A conditioning, while the cells sample, RAW is 0 and a place
is free, adds one pending block: SHA3-256 of the 256-byte input of R299. A window moves the oldest pending blocks behind
the ready ones, which never grow past four, and takes the cells' figures. Under PATTERN each takes host data, waits
without enough, and is a health failure where they fail a test; a fresh cell's samples of one window fail exactly when 41
in a row are the same or the first value comes 795 times. Groomer g is instantiated in SEEDING from the next two blocks
and its personalisation string, reseeded when due from one that no instantiation needs, and the masking generator whose
turn it is takes one that neither needs while RUNNING: a block leaves the pool for exactly one of them, the count of
requests restarts, and when every Groomer that is not FAULTED is instantiated SEEDED is set and Powder is RUNNING.
RESEED_DUE marks an instantiated Groomer, FORCED_RESEED one with 2^24 requests, and stops its service. Without its
conditions a row changes nothing. -/
def Obligations.BlocksReachOneConsumerEach : Prop :=
  (∀ s : State,
    (s.powder.state = .startup → s.powder.pattern = false →
      exec .powderStartupPass s = .next { s with powder := { s.powder with state := .seeding } }) ∧
    (s.powder.state = .startup → s.powder.pattern = true → windowFed s → samplesPass s (windowLack s.powder) →
      ∃ t, exec .powderStartupPass s = .next t ∧ t = { s with powder := { s.powder with
        state := .seeding, cells := t.powder.cells, patternBits := s.powder.patternBits.drop (windowLack s.powder) } }) ∧
    (∀ c h, s.powder.state = .startup → s.powder.pattern = true → windowFed s →
      (feedPattern (windowLack s.powder) s).2 = some (c, h) →
      ∃ t, exec .powderStartupPass s = .next t ∧ failedHealth c h s t) ∧
    (s.powder.state ≠ .startup ∨ (s.powder.pattern = true ∧ ¬ windowFed s) → exec .powderStartupPass s = .next s)) ∧
  (∀ (bs : List Bool) (x : Cell), bs.length ≤ 1024 → x.run = 0 → x.seen = 0 →
    (cellTestFails bs x = true ↔
      (∃ i b, i + 41 ≤ bs.length ∧ ∀ k, k < 41 → bs[i + k]? = some b) ∨ (∃ b rest, bs = b :: rest ∧ 795 ≤ bs.count b))) ∧
  (∀ (s : State) (raw : Bytes),
    let can : Prop := (s.powder.state = .seeding ∨ s.powder.state = .running) ∧ s.powder.raw = false ∧
      s.powder.pending.length < 4 ∧ (s.powder.ready.length < 4 ∨ s.powder.pending ≠ [])
    let fed : Prop := 64 ≤ s.powder.patternBits.length ∧ 64 ≤ windowLack s.powder
    (can → s.powder.pattern = false → ∃ t im, exec (.conditioningDone raw) s = .next t ∧ blockInput s raw im ∧
      t = { s with powder := { s.powder with pending := s.powder.pending ++ [sha3_256 im] } }) ∧
    (can → s.powder.pattern = true → fed → samplesPass s 64 → ∃ t im, exec (.conditioningDone raw) s = .next t ∧
      blockInput s raw im ∧ t = { s with powder := { s.powder with
        pending := s.powder.pending ++ [sha3_256 im], patternBits := s.powder.patternBits.drop 64, cells := t.powder.cells } }) ∧
    (∀ c h, can → s.powder.pattern = true → fed → (feedPattern 64 s).2 = some (c, h) →
      ∃ t, exec (.conditioningDone raw) s = .next t ∧ failedHealth c h s t) ∧
    (¬ can ∨ (s.powder.pattern = true ∧ ¬ fed) → exec (.conditioningDone raw) s = .next s)) ∧
  (∀ (s : State) (ones maxRun : List Nat),
    let released := fun (t : State) => t = { s with powder := { s.powder with
        cells := t.powder.cells, ready := t.powder.ready, pending := t.powder.pending, blocks := t.powder.blocks,
        patternBits := t.powder.patternBits } } ∧
      t.powder.ready ++ t.powder.pending = s.powder.ready ++ s.powder.pending ∧
      (∃ n, t.powder.ready.length = s.powder.ready.length + n ∧ t.powder.blocks = min 0xFFFFFFFF (s.powder.blocks + n)) ∧
      (t.powder.pending = [] ∨ 4 ≤ t.powder.ready.length) ∧ t.powder.ready.length ≤ max 4 s.powder.ready.length
    (cellsSample s → s.powder.pattern = false → ∃ t, exec (.aptWindowComplete ones maxRun) s = .next t ∧ released t ∧
      t.powder.patternBits = s.powder.patternBits ∧
      ∀ c, c < 8 →
        let x := tblGet Cell.reset s.powder.cells c
        tblGet Cell.reset t.powder.cells c = if s.powder.raw = true ∧ s.powder.cellSel = c then x else { x with
          ones := min 0x7FF (ones.getD c x.ones), maxRun := min 0xFF (max x.maxRun (maxRun.getD c 0)) }) ∧
    (cellsSample s → s.powder.pattern = true → s.powder.state ≠ .startup → windowFed s →
      samplesPass s (windowLack s.powder) → ∃ t, exec (.aptWindowComplete ones maxRun) s = .next t ∧ released t ∧
      t.powder.patternBits = s.powder.patternBits.drop (windowLack s.powder) ∧
      ∀ c, c < 8 → ¬ (s.powder.raw = true ∧ s.powder.cellSel = c) →
        (tblGet Cell.reset t.powder.cells c).seen = 0 ∧
          (tblGet Cell.reset t.powder.cells c).ones = (tblGet Cell.reset t.powder.cells c).tally) ∧
    (∀ c h, cellsSample s → s.powder.pattern = true → s.powder.state ≠ .startup → windowFed s →
      (feedPattern (windowLack s.powder) s).2 = some (c, h) →
      ∃ t, exec (.aptWindowComplete ones maxRun) s = .next t ∧ failedHealth c h s t) ∧
    (¬ cellsSample s ∨ (s.powder.pattern = true ∧ (s.powder.state = .startup ∨ ¬ windowFed s)) →
      exec (.aptWindowComplete ones maxRun) s = .next s)) ∧
  (∀ (s : State) (g : Nat),
    let r := groomerOf s g
    let can : Prop := g < 4 ∧ s.powder.state = .seeding ∧ unitState s { kind := .groomer, num := g } ≠ .faulted ∧
      r.instantiated = false ∧ 2 ≤ s.powder.ready.length
    let last : Prop := ∀ h, h < 4 → h ≠ g →
      unitState s { kind := .groomer, num := h } = .faulted ∨ (groomerOf s h).instantiated = true
    (¬ can → exec (.groomerInstantiated g) s = .next s) ∧
    (can → ∃ t, exec (.groomerInstantiated g) s = .next t ∧
      t = { s with powder := t.powder, merya := t.merya, evts := t.evts, link := t.link } ∧
      t.powder.ready = s.powder.ready.drop 2 ∧ t.powder.pending = s.powder.pending ∧
      (∃ b0 b1 rest, s.powder.ready = b0 :: b1 :: rest ∧
        let st := drbgInstantiate (b0 ++ b1.take 16 ++ (vecBytes 64 s.life.serial ++ bytesLE 1 g ++ bytesLE 4 (r.insts + 1)))
        onlyGroomer g { r with instantiated := true, k := st.1, v := st.2, count := 0, due := false, hardStall := false,
                               seedAt := s.now, everSeeded := true, insts := r.insts + 1 } s t) ∧
      (last → t.powder.state = .running ∧ t.powder.seeded = true ∧ t.powder.seedAt = s.now ∧ t.powder.evt.getLsbD 0 = true) ∧
      (¬ last → t.powder.state = .seeding ∧ t.powder.seeded = s.powder.seeded))) ∧
  (∀ (s : State) (g : Nat),
    (4 ≤ g → exec (.reseedDue g) s = .next s ∧ exec (.forcedReseed g) s = .next s) ∧
    (g < 4 → ∃ t, exec (.reseedDue g) s = .next t ∧ t = { s with powder := { s.powder with grm := t.powder.grm } } ∧
      onlyGroomer g { groomerOf s g with due := (groomerOf s g).due || (groomerOf s g).instantiated } s t) ∧
    (g < 4 → (groomerOf s g).instantiated = false ∨ (groomerOf s g).count < 2 ^ 24 →
      exec (.forcedReseed g) s = .next s) ∧
    (g < 4 → (groomerOf s g).instantiated = true → 2 ^ 24 ≤ (groomerOf s g).count →
      ∃ t, exec (.forcedReseed g) s = .next t ∧
        t = { s with powder := { s.powder with grm := t.powder.grm, grmEvt := bvSet s.powder.grmEvt 2 },
                     evts := t.evts, link := t.link } ∧
        onlyGroomer g { groomerOf s g with due := true, hardStall := true } s t)) ∧
  (∀ (s : State) (g : Nat),
    let r := groomerOf s g
    let can : Prop := g < 4 ∧ unitState s { kind := .groomer, num := g } ≠ .faulted ∧ r.instantiated = true ∧ r.due = true ∧
      (r.hardStall = true ∨ groomerWanted s g = false) ∧ blocksForStates s < s.powder.ready.length
    (¬ can → exec (.reseedDone g) s = .next s) ∧
    (can → ∃ t b, exec (.reseedDone g) s = .next t ∧
      t = { s with powder := { s.powder with grm := t.powder.grm, ready := s.powder.ready.tail,
                                             reseedCnt := min 0xFFFFFFFF (s.powder.reseedCnt + 1) }, merya := t.merya } ∧
      s.powder.ready.head? = some b ∧
      (let st := drbgReseed b r.k r.v
       onlyGroomer g { r with k := st.1, v := st.2, count := 0, due := false, hardStall := false, seedAt := s.now } s t))) ∧
  (∀ (s : State) (g : Nat),
    let can : Prop := g < 86 ∧ g = s.powder.maskTurn ∧ s.powder.state = .running ∧
      blocksForStates s + blocksForReseeds s < s.powder.ready.length
    (¬ can → exec (.maskingRefresh g) s = .next s) ∧
    (can → ∃ t b, exec (.maskingRefresh g) s = .next t ∧ s.powder.ready.head? = some b ∧
      t = { s with powder := { s.powder with ready := s.powder.ready.tail, maskTurn := (g + 1) % 86 },
                   units := { s.units with mask := t.units.mask } } ∧
      tblGet MaskGen.reset t.units.mask g = { seeded := true, seed := b, drawn := 0, at_ := s.now } ∧
      ∀ h, h ≠ g → tblGet MaskGen.reset t.units.mask h = tblGet MaskGen.reset s.units.mask h))

/-- A health failure of a cell that samples (under PATTERN: of the host's samples up to the end of the window; a cell that
RAW disconnects has none) leaves no Groomer state and no block, marks its test in
PWD_CELLFAIL, is counted, requests its Tracks entry, ends with RNG_FAULT every job that waits for its draw and every
RNG_OUT job, and leaves no random-port load stalled; the third failed restart declares Powder FAILED with its own
entry, any other failure starts it again unconfirmed. Elsewhere it changes nothing. A confirmation resets the count.
The servo moves a code one step outside 2,016 to 2,080 ones (towards balance by the silicon's polarity, log entry 15)
and TRIM_LIMIT sets its event at 0x00 and 0x3F. PWD_TEST and its data act in FACTORY only: a change restarts Powder
without counting, and either bit takes the provisioning key; PWD_RAW returns the sample under RAW and zero otherwise.
-/
def Obligations.HealthFailuresStopEveryRandomByte : Prop :=
  (∀ (s : State) (cell : Nat) (h : HealthTest), s.powder.pattern = false →
    let can : Prop := cell < 8 ∧ cellsSample s ∧ (h = .startup → s.powder.state = .startup) ∧
      ¬ (s.powder.raw = true ∧ s.powder.cellSel = cell)
    (¬ can → exec (.healthFailure cell h) s = .next s) ∧
    (can → ∃ t, exec (.healthFailure cell h) s = .next t ∧ failedHealth cell h s t)) ∧
  (∀ (s : State) (cell : Nat) (h : HealthTest), s.powder.pattern = true →
    (¬ cellsSample s ∨ samplesPass s (windowLack s.powder) → exec (.healthFailure cell h) s = .next s) ∧
    (∀ c x, cellsSample s → (feedPattern (windowLack s.powder) s).2 = some (c, x) →
      ∃ t, exec (.healthFailure cell h) s = .next t ∧ failedHealth c x s t)) ∧
  (∀ s : State,
    (s.powder.confirming = false ∨ s.powder.seeded = false → exec .restartConfirmed s = .next s) ∧
    (s.powder.confirming = true → s.powder.seeded = true → ∃ t, exec .restartConfirmed s = .next t ∧
      t = { s with powder := { s.powder with confirming := false, failedRestarts := 0, evt := bvSet s.powder.evt 3 },
                   trk := t.trk, evts := t.evts, link := t.link } ∧ traced t 0x0601 0 none)) ∧
  (∀ (s : State) (cell ones : Nat),
    (8 ≤ cell ∨ (2016 ≤ ones ∧ ones ≤ 2080) → exec (.trimServoStep cell ones) s = .next s) ∧
    (cell < 8 → ones < 2016 ∨ 2080 < ones → ∃ t, exec (.trimServoStep cell ones) s = .next t ∧
      let x := tblGet Cell.reset s.powder.cells cell
      t = { s with powder := { s.powder with cells := t.powder.cells } } ∧
        tblGet Cell.reset t.powder.cells cell = { x with
          trim := if Config.trimRaises = decide (ones < 2016) then min 63 (x.trim + 1) else x.trim - 1 } ∧
        ∀ c, c ≠ cell → tblGet Cell.reset t.powder.cells c = tblGet Cell.reset s.powder.cells c)) ∧
  (∀ (s : State) (cell : Nat),
    let trim := (tblGet Cell.reset s.powder.cells cell).trim
    (cell < 8 → trim = 0 ∨ trim = 63 → ∃ t, exec (.trimLimit cell) s = .next t ∧
      t = { s with powder := { s.powder with evt := bvSet s.powder.evt 1 }, evts := t.evts, link := t.link }) ∧
    (8 ≤ cell ∨ (trim ≠ 0 ∧ trim ≠ 63) → exec (.trimLimit cell) s = .next s)) ∧
  (∀ (s : State) (v : Word),
    let same : Prop := v.getLsbD 0 = s.powder.pattern ∧ v.getLsbD 1 = s.powder.raw
    (s.life.state ≠ .factory ∨ same → exec (.pwdTestWrite v) s = .next s) ∧
    (s.life.state = .factory → ¬ same → ∃ t, exec (.pwdTestWrite v) s = .next t ∧
      t = { s with powder := t.powder, life := t.life, vault := t.vault, evts := t.evts, link := t.link } ∧
        t.powder.pattern = v.getLsbD 0 ∧ t.powder.raw = v.getLsbD 1 ∧
        t.powder.failedRestarts = s.powder.failedRestarts ∧ t.powder.confirming = s.powder.confirming ∧
        (powderRuns s → powderCleared t ∧ t.powder.state = .startup) ∧ (¬ powderRuns s → t.powder.state = s.powder.state) ∧
        (v.getLsbD 0 = false → v.getLsbD 1 = false → t.life = s.life ∧ t.vault = s.vault) ∧
        (v.getLsbD 0 = true ∨ v.getLsbD 1 = true →
          t.life = { s.life with provValid := false, provPub := [] } ∧ (privSlot t 255).cur = none ∧
            ∀ r, r ≠ .priv 255 → slotOf t r = slotOf s r))) ∧
  (∀ (s : State) (v : Word), exec (.pwdTestDataWrite v) s = .next (if s.life.state = .factory ∧ s.powder.pattern = true then
      { s with powder := { s.powder with patternBits := s.powder.patternBits ++ [v] } } else s)) ∧
  (∀ (s : State) (v : Word),
    let r := if s.life.state = .factory ∧ s.powder.raw = true then v else 0
    exec (.pwdRawRead v) s = .next { s with powder := { s.powder with rawLatch := r }, link := { s.link with readData := r } })

/-- A scrubbed word that needs correction is counted, gets a write-back and counts for the weak-word rule; one that
cannot be corrected is poisoned, counted and, when none is held, captured; every other finding and a poisoned word
change nothing but the times of the pass (log entry 84), a word that does not exist nothing. A write-back that a newer
write has not dropped leaves the word good, is done, and counts as a write of its MRAM row. A retirement that ends moves
the row from retiring to retired with its entry and event, its correctable words copied corrected. The clear queue loses
its oldest range. A save keeps the wear counts, and a row that has come to 50,000,000 is being retired or is recorded
as without a spare. Each minute adds AF of the junction temperature, the table's value at its rows and between its
neighbours elsewhere (log entry 21), and each hour shows the total. -/
def Obligations.StoredWordsAreCorrectedPoisonedAndRetired : Prop :=
  (∀ (s : State) (bank w : Nat) (found : WordCond),
    (¬ wordExists bank w → exec (.scrubWord bank w found) s = .next s) ∧
    (wordExists bank w → bank < 4 → wordCond s bank w = .poisoned ∨ found ∈ [.clear, .good, .poisoned] →
      exec (.scrubWord bank w found) s = .next s) ∧
    (wordExists bank w → 4 ≤ bank → wordCond s bank w = .poisoned ∨ found ∈ [.clear, .good, .poisoned] →
      ∃ t, exec (.scrubWord bank w found) s = .next t ∧ onlyPass bank w s t)) ∧
  (∀ (s : State) (bank w : Nat) (found : WordCond), ∃ t, exec (.scrubWord bank w found) s = .next t ∧
    (wordExists bank w → wordCond s bank w ≠ .poisoned → found = .correctable →
      onlyCond bank w .correctable s t ∧ t.stored.ceCnt = min 0xFFFFFFFF (s.stored.ceCnt + 1) ∧
        tblGet 0 t.stored.ce bank = min 0xFFFF (tblGet 0 s.stored.ce bank + 1) ∧ (bank, w) ∈ t.stored.writeBacks ∧
        let row := w / bankRowWords bank
        match s.stored.weak.find? (sameWord bank w), s.stored.corrected.find? (sameWord bank w) with
        | none, none => t.stored.weak = s.stored.weak ∧
            t.stored.corrected = s.stored.corrected ++ [{ bank := bank, word := w, count := 1, written := false }]
        | none, some c =>
          (c.written = false → t.stored.weak = s.stored.weak ∧ t.stored.corrected = s.stored.corrected) ∧
          (c.written = true → t.stored.evt.getLsbD 2 = true ∧
            (s.stored.weak.length < 64 →
              t.stored.weak = s.stored.weak ++ [{ bank := bank, word := w, count := 2, written := false }]) ∧
            (64 ≤ s.stored.weak.length → 0 < sparesLeft s bank → (bank, row) ∈ t.stored.retiring) ∧
            (64 ≤ s.stored.weak.length → sparesLeft s bank = 0 → t.stored.evt.getLsbD 5 = true))
        | some c, _ =>
          (c.written = false → t.stored.weak = s.stored.weak ∧ t.stored.retiring = s.stored.retiring) ∧
          (c.written = true → c.count ≠ 3 → 0 < sparesLeft s bank →
            (bank, row) ∈ t.stored.retiring ∧ t.stored.weak.find? (sameWord bank w) = none) ∧
          (c.written = true → sparesLeft s bank = 0 →
            (t.stored.weak.find? (sameWord bank w)).map (fun c => c.count) = some 3)) ∧
    (wordExists bank w → wordCond s bank w ≠ .poisoned → found ∈ [.writing, .uncorrectable] →
      onlyCond bank w .poisoned s t ∧ t.stored.ueCnt = min 0xFFFFFFFF (s.stored.ueCnt + 1) ∧ t.stored.evt.getLsbD 1 = true ∧
        t.stored.fault = if s.stored.evt.getLsbD 1 = true then s.stored.fault
          else { valid := true, part := false, dup := duplicated bank w, bank := bank, word := w })) ∧
  (∀ (s : State) (bank w : Nat),
    ((bank, w) ∉ s.stored.writeBacks → exec (.correctionWriteBack bank w) s = .next s) ∧
    ((bank, w) ∈ s.stored.writeBacks → ∃ t, exec (.correctionWriteBack bank w) s = .next t ∧
      onlyCond bank w (if wordCond s bank w = .correctable then .good else wordCond s bank w) s t ∧
        t = { s with stored := t.stored } ∧ t.stored.writeBacks = s.stored.writeBacks.filter (fun p => p != (bank, w)) ∧
        (∀ c ∈ t.stored.weak, sameWord bank w c = true → c.written = true) ∧
        (∀ c ∈ t.stored.corrected, sameWord bank w c = true → c.written = true) ∧
        (bank < 4 → bank ≠ 2 ∨ 0xA000 ≤ w → tblGet 0 t.stored.rowWrites (bank * 0x10000 + w / 32) =
          tblGet 0 s.stored.rowWrites (bank * 0x10000 + w / 32) + 1))) ∧
  (∀ (s : State) (bank row : Nat),
    ((bank, row) ∉ s.stored.retiring → exec (.retirementComplete bank row) s = .next s) ∧
    ((bank, row) ∈ s.stored.retiring → ∃ t, exec (.retirementComplete bank row) s = .next t ∧
      t = { s with stored := t.stored, trk := t.trk, evts := t.evts, link := t.link } ∧ (bank, row) ∈ t.stored.retired ∧
        (bank, row) ∉ t.stored.retiring ∧ t.stored.retireCnt = min 0xFFFFFFFF (s.stored.retireCnt + 1) ∧
        t.stored.evt.getLsbD 3 = true ∧ traced t 0x0500 bank (some (bytesLE 4 row)) ∧
        (∀ b x, wordCond s b x ≠ .correctable → wordCond t b x = wordCond s b x) ∧
        (tblWf .good s.stored.marks = true → (row + 1) * bankRowWords bank ≤ 0x40000 → ∀ x, x < 0x40000 →
          wordCond s bank x = .correctable →
            wordCond t bank x = if x / bankRowWords bank = row then .good else .correctable) ∧
        (bank < 4 → row < 0x10000 → tblGet 0 t.stored.rowWrites (bank * 0x10000 + row) = 1))) ∧
  (∀ (s : State) (bank : Nat), ∃ t, exec (.clearQueueOverwrite bank) s = .next t ∧
    t = { s with stored := { s.stored with clears := t.stored.clears } } ∧
    ∀ b, tblGet [] t.stored.clears b = if b = bank then (tblGet [] s.stored.clears b).tail else tblGet [] s.stored.clears b) ∧
  (∀ s : State, ∃ t, exec .wearCountSave s = .next t ∧
    t = { s with stored := t.stored, trk := t.trk, evts := t.evts, link := t.link } ∧
    t.stored.saved = s.stored.rowWrites ∧ t.stored.rowWrites = s.stored.rowWrites ∧ t.stored.marks = s.stored.marks ∧
    (∀ p ∈ s.stored.rowWrites, 50000000 ≤ p.2 → tblGet 0 s.stored.saved p.1 < 50000000 →
      t.stored.evt.getLsbD 6 = true ∧ ((p.1 / 0x10000, p.1 % 0x10000) ∈ t.stored.retiring ∨
        traced t 0x0502 (p.1 / 0x10000) (some (bytesLE 4 (p.1 % 0x10000))))) ∧
    ((∀ p ∈ s.stored.rowWrites, p.2 < 50000000 ∨ 50000000 ≤ tblGet 0 s.stored.saved p.1) →
      t = { s with stored := { s.stored with saved := s.stored.rowWrites } })) ∧
  (∀ s : State, ∃ t x, exec .retentionAgeTick s = .next t ∧
    t = { s with free := t.free, stored := { s.stored with retAge := s.stored.retAge + x } } ∧
    ∀ r ∈ ([(70, 80), (85, 380), (95, 1000), (105, 2500), (125, 13600), (150, 90700)] : List (Int × Nat)),
      (s.gate.tj = 16 * r.1 → x = r.2) ∧ (s.gate.tj < 16 * r.1 → x ≤ r.2) ∧ (16 * r.1 < s.gate.tj → r.2 ≤ x)) ∧
  (∀ s : State, exec .retentionAgeHourly s = .next { s with stored := { s.stored with
    retAgeReg := s.stored.retAge / (60 * 1000) } })

/-- When Tracks is ready and the first request that may be written fits, TRACKS_APPEND appends one entry for it, and
before it one 0x0902 entry with the counts when entries were lost; every field of the entry stands where R429 puts it,
with the next sequence number, the smallest UNITS, zeros behind the payload, and CHAIN over the entry before it
(R430). A request that finds no room is counted as lost with TRK_EVT.LOST and writes nothing (R435). Nothing else than
the log, PTL_LOCK_SEQ, the write counts of MRAM rows, the condition of words and events changes. With no such request or before Tracks is ready nothing happens. -/
def Obligations.TracksEntriesAreLaidOutAndChained : Prop :=
  (∀ s : State, s.trk.ready = false ∨ takeReady s.hut.time s.trk.queue = none → exec .tracksAppend s = .next s) ∧
  (∀ (s : State) (r : TrkReq) (q : List TrkReq), s.trk.ready = true → takeReady s.hut.time s.trk.queue = some (r, q) →
    r.payload.length ≤ 200 → r.kind < 2 ^ 16 → r.origin < 2 ^ 16 → s.trk.headSeq + 2 < 2 ^ 48 → s.hut.time < 2 ^ 64 →
    r.hold < 2 ^ 64 → ∃ t, exec .tracksAppend s = .next t ∧ t.trk.queue = q ∧
      t = { s with trk := t.trk, patrol := { s.patrol with lockSeq := t.patrol.lockSeq }, evts := t.evts, link := t.link,
                   stored := { s.stored with rowWrites := t.stored.rowWrites, marks := t.stored.marks } } ∧
      let lossy : Prop := 0 < s.trk.lostGeneral ∨ 0 < s.trk.lostReserve
      let time := if r.hold = 0 then s.hut.time else r.hold - 32768
      let restart := if s.trk.timeRestart = true then 2 else 0
      let agg := if r.aggregated = true then 1 else 0
      let units := max 1 ((r.payload.length + 56 + 63) / 64)
      let room (n : Nat) : Prop := if r.reserve = true then n ≤ trkFree s.trk else n + 1024 ≤ trkFree s.trk
      (¬ lossy → room units → ∃ e, t.trk.entries = s.trk.entries ++ [e] ∧ t.trk.headSeq = e.seq ∧ t.trk.headChain = e.chain ∧
        laidOut e (s.trk.headSeq + 1) time r.kind r.origin (agg + restart) r.payload (headChainOf s) ∧
        t.patrol.lockSeq = (if r.raise = true then BitVec.ofNat 64 (s.trk.headSeq + 1) else s.patrol.lockSeq)) ∧
      (lossy → room (units + 1) → s.trk.lostGeneral < 2 ^ 32 → s.trk.lostReserve < 2 ^ 32 →
        ∃ l e, t.trk.entries = s.trk.entries ++ [l, e] ∧ t.trk.lostGeneral = 0 ∧ t.trk.lostReserve = 0 ∧
        laidOut l (s.trk.headSeq + 1) s.hut.time 0x0902 0 restart
          (bytesLE 4 s.trk.lostGeneral ++ bytesLE 4 s.trk.lostReserve) (headChainOf s) ∧
        laidOut e (s.trk.headSeq + 2) time r.kind r.origin agg r.payload l.chain) ∧
      ((lossy ∧ ¬ room (units + 1)) ∨ (¬ lossy ∧ ¬ room units) →
        t.trk.entries = s.trk.entries ∧ t.trk.headSeq = s.trk.headSeq ∧ t.trk.evt.getLsbD 2 = true ∧
          (r.reserve = true → t.trk.lostReserve = min 0xFFFF (s.trk.lostReserve + 1) ∧
            t.trk.lostGeneral = s.trk.lostGeneral) ∧
          (r.reserve = false → t.trk.lostGeneral = min 0xFFFF (s.trk.lostGeneral + 1) ∧
            t.trk.lostReserve = s.trk.lostReserve)))

/-- CARD_ENABLE enables a DISABLED port without FAULT, marks a DRAINING one for restart and does nothing else;
CARD_DISABLE drops that mark, or drains an enabled port, which at once becomes DISABLED with its card off when nothing
is on it. An insertion, an enable and the end of the off time power the card exactly under R472. A removal and a port
fault cut the power and start the off time; a removal forgets the card, a fault disables the port with FAULT and
reason 0x0F and leaves every job that was placed on it with a status. The end of the ramp sends CMD8, and the ACMD41
interval sends CMD55 again or, after 1 s, rejects the card with reason 9. -/
def Obligations.CardPowerFollowsThePortAndTheOffTime : Prop :=
  (∀ s : State,
    (s.card.fault = true ∨ s.card.port = .enabled → exec .cardEnable s = .next s) ∧
    (s.card.fault = false → s.card.port = .draining →
      exec .cardEnable s = .next { s with card := { s.card with restartPending := true } }) ∧
    (s.card.fault = false → s.card.port = .disabled → ∃ t, exec .cardEnable s = .next t ∧ onlyCard s t ∧
      t.card.port = .enabled ∧ t.card.evt.getLsbD 5 = true ∧
      powerFollows s t .enabled s.card.present s.card.offRunning)) ∧
  (∀ s : State,
    let busy : Prop := portJobs s ≠ [] ∨ s.card.job ≠ none ∨ s.card.flow ≠ .idle
    (s.card.port = .disabled → exec .cardDisable s = .next s) ∧
    (s.card.port = .draining →
      exec .cardDisable s = .next { s with card := { s.card with restartPending := false } }) ∧
    (s.card.port = .enabled → busy → ∃ t, exec .cardDisable s = .next t ∧ onlyCard s t ∧
      t.card.evt.getLsbD 5 = true ∧ t.card.port = .draining ∧ t.card.power = s.card.power) ∧
    (s.card.port = .enabled → ¬ busy → s.card.restartPending = false → ∃ t, exec .cardDisable s = .next t ∧ onlyCard s t ∧
      t.card.evt.getLsbD 5 = true ∧ t.card.port = .disabled ∧ t.card.power = false ∧ t.card.terja = false ∧
        (s.card.power = true → t.card.offRunning = true ∧ t.card.offSince = s.now)) ∧
    (s.card.port = .enabled → ¬ busy → s.card.restartPending = true → s.card.power = true →
      ∃ t, exec .cardDisable s = .next t ∧ onlyCard s t ∧ t.card.port = .enabled ∧ t.card.power = false ∧
        t.card.restartPending = false ∧ t.card.offRunning = true ∧ t.card.offSince = s.now)) ∧
  (∀ s : State,
    (s.card.present = true → exec .cardInsertion s = .next s) ∧
    (s.card.present = false → ∃ t, exec .cardInsertion s = .next t ∧ onlyCard s t ∧
      t.card.present = true ∧ t.card.evt.getLsbD 0 = true ∧ t.card.port = s.card.port ∧
      powerFollows s t s.card.port true s.card.offRunning)) ∧
  (∀ s : State, ∃ t, exec .cardRemoval s = .next t ∧
    (s.card.present = true → t.card.present = false ∧ t.card.power = false ∧ t.card.terja = false ∧ t.card.hc = false ∧
      t.card.capacity = 0 ∧ t.card.offRunning = true ∧ t.card.offSince = s.now ∧ t.card.evt.getLsbD 0 = true ∧
      t.card.state ≠ .ready) ∧
    (s.card.present = false → noPortWork s → t = s)) ∧
  (∀ s : State,
    (s.card.offRunning = false → exec .cardOffTimeEnd s = .next s) ∧
    (s.card.offRunning = true → ∃ t, exec .cardOffTimeEnd s = .next t ∧ onlyCard s t ∧
      t.card.offRunning = false ∧ t.card.port = s.card.port ∧ powerFollows s t s.card.port s.card.present false)) ∧
  (∀ s : State,
    let ramps : Prop := s.card.state = .powerUp ∧ s.card.power = true ∧ s.card.phase = .idle
    (¬ ramps → exec .cardPowerRampEnd s = .next s) ∧
    (ramps → ∃ t, exec .cardPowerRampEnd s = .next t ∧ onlyCard s t ∧ t.card.state = .ident ∧ sends t 8 0x1AA ∧
      t.card.use.unlockEn = s.card.unlockEn)) ∧
  (∀ s : State,
    (s.card.phase ≠ .ident 2 2 → exec .acmd41RepeatInterval s = .next s) ∧
    (s.card.phase = .ident 2 2 → s.now < s.card.acmdSince + 100000000 →
      ∃ t, exec .acmd41RepeatInterval s = .next t ∧ onlyCard s t ∧ sends t 55 0) ∧
    (s.card.phase = .ident 2 2 → s.card.acmdSince + 100000000 ≤ s.now →
      ∃ t, exec .acmd41RepeatInterval s = .next t ∧ onlyCard s t ∧ rejects s t 9)) ∧
  (∀ s : State,
    (s.card.port = .disabled → exec .cardPortFault s = .next { s with card := { s.card with
      fault := true, restartPending := false, reason := 0x0F } }) ∧
    (s.card.port ≠ .disabled → ∃ t, exec .cardPortFault s = .next t ∧
      t.card.port = .disabled ∧ t.card.fault = true ∧ t.card.reason = 0x0F ∧ t.card.power = false ∧
      t.card.restartPending = false ∧ t.card.job = none ∧
      (s.card.power = true → t.card.offRunning = true ∧ t.card.offSince = s.now) ∧
      (jobsDistinct s → ∀ j ∈ portJobs s, j.stage ≠ .finished → ∃ k, findJob t j.tag = some k ∧ k.status ≠ none)))

/-- With no work on the port, each response of identification leads to the next command of R473 with its argument, to
READY or to rejection with the step's reason; a missing or corrupted response is asked for once more. On a job that is
on the port: a read block is issued to the destination and the last one is followed by CMD12, whose response ends the
read with OK and the block count; a released busy sends the next block when it is there or CMD12 after the last; CMD13
follows the final busy; ACMD22 ends a write with OK or with reason 8 and the confirmed bytes; an exhausted allowance
gives reason 6, in a confirmation UNKNOWN_OUTCOME. A mailbox poll reads the response block again, and a response of
the SEQ with STATUS 0 ends the job with its payload. The unlock flow starts once per seated Terja card on a LOCKED
part with the payload of R491. -/
def Obligations.CardExchangesFollowTheBusRules : Prop :=
  (∀ (s : State) (st : Nat) (ready err : Bool) (arg : Word), noPortWork s → s.card.retriedCmd = false →
    ∃ t, exec (.cardCommandResponse (.response st ready err arg)) s = .next t ∧ onlyCard s t ∧
    match s.card.phase with
    | .ident 1 _ => if arg.toNat % 4096 = 0x1AA then sends t 55 0 ∧ t.card.acmdSince = s.now else rejects s t 9
    | .ident 2 0 => if err = true then rejects s t 9 else sends t (0x80 + 41) 0x40300000
    | .ident 2 1 =>
      if arg.getLsbD 31 = true ∧ s.now ≤ s.card.acmdSince + 100000000 then
        sends t 2 0 ∧ t.card.ocr = arg ∧ t.card.hc = arg.getLsbD 30
      else t.card.phase = .ident 2 2 ∧ busCommand t = none
    | .ident 4 _ => if err = true then rejects s t 7 else if s.card.hc = true then sends t 55 (rcaArg s.card) else sends t 16 512
    | .ident 5 _ => if err = true then rejects s t 7 else sends t 55 (rcaArg s.card)
    | .ident 6 0 => if err = true then rejects s t 6 else sends t (0x80 + 51) 0
    | .ident 6 1 => if err = true then rejects s t 6 else t.card.phase = .ident 6 2
    | .ident 7 0 => if err = true then rejects s t 7 else sends t (0x80 + 6) 2
    | .ident 7 1 => if err = true then rejects s t 7 else t.card.wide = true ∧ speeds s t
    | .ident 8 0 => if err = true then probes s t else t.card.phase = .ident 8 1
    | .ident 8 2 => if err = true then probes s t else t.card.phase = .ident 8 3
    | .probe 0 => if err = true then becomesReady t else t.card.phase = .probe 1
    | _ => True) ∧
  (∀ (s : State) (cid csd : BitVec 128) (rca : BitVec 16) (n : Nat), noPortWork s → s.card.phase = .ident 3 0 →
    ∃ t, exec (.cardCommandResponse (.ident cid rca csd n)) s = .next t ∧ onlyCard s t ∧ t.card.cid = cid ∧
      t.card.csd = csd ∧ t.card.capacity = n ∧ t.card.rca = rca ∧ sends t 7 (rca.zeroExtend 32 <<< 16)) ∧
  (∀ (s : State) (scr : DWord) (wide : Bool), noPortWork s → s.card.phase = .ident 6 2 →
    ∃ t, exec (.cardCommandResponse (.scr scr wide)) s = .next t ∧ onlyCard s t ∧ t.card.scr = scr ∧
      if wide = true ∧ s.card.wideEn = true then sends t 55 (rcaArg s.card) else speeds s t) ∧
  (∀ (s : State) (offered switched : Bool), noPortWork s → ∃ t,
    exec (.cardCommandResponse (.switchStatus offered switched)) s = .next t ∧ onlyCard s t ∧
      (s.card.phase = .ident 8 1 → if offered = true then sends t 6 0x80FFFFF1 else probes s t) ∧
      (s.card.phase = .ident 8 3 → t.card.hs = switched ∧ probes s t)) ∧
  (∀ (s : State) (b : Bytes), noPortWork s → s.card.phase = .probe 1 →
    ∃ t, exec (.cardCommandResponse (.block b)) s = .next t ∧ onlyCard s t ∧ becomesReady t ∧
      (identityOk b = true → t.card.terja = true ∧ t.card.token = BitVec.ofNat 64 (natLE (slice b 8 8))) ∧
      (identityOk b = false → t.card.terja = s.card.terja ∧ t.card.token = s.card.token)) ∧
  (∀ s : State, noPortWork s → ∃ t, exec .cardResponseTimeout s = .next t ∧
    (awaitsResponse s = false → t = s) ∧
    (awaitsResponse s = true → s.card.retriedCmd = false → t = { s with card := { s.card with retriedCmd := true } }) ∧
    (s.card.phase = .ident 1 0 → s.card.retriedCmd = true → rejects s t 9)) ∧
  (∀ s : State, noPortWork s → awaitsResponse s = true → s.card.retriedCmd = false →
    exec (.cardCommandResponse .badCrc) s = .next { s with card := { s.card with
      retriedCmd := true, crcCnt := min 0xFFFFFFFF (s.card.crcCnt + 1) } }) ∧
  (∀ (s : State) (tag : Nat) (j : Job) (data : Bytes), onPort s tag j → runsFreely s tag j → j.op = .cardRead →
    s.card.phase = .readData → 1 < s.card.total →
    ∃ t, exec (.cardCommandResponse (.block data)) s = .next t ∧ issues s t j (slice data 0 512) ∧
      t.card.blocks = s.card.blocks + 1 ∧
      if s.card.total ≤ s.card.blocks + 1 then sends t 12 0 else t.card.phase = .readData) ∧
  (∀ (s : State) (tag : Nat) (j : Job) (st : Nat) (ready : Bool) (arg : Word), onPort s tag j → j.op = .cardRead →
    s.card.phase = .readStop → s.card.failReason = 0 →
    ∃ t, exec (.cardCommandResponse (.response st ready false arg)) s = .next t ∧ endedWith t tag .ok ∧
      ∀ k, findJob t tag = some k → k.result = blockResult 0 st s.card.blocks) ∧
  (∀ (s : State) (tag : Nat) (j : Job), onPort s tag j → j.op = .cardWrite → ∃ t, exec .cardBusyRelease s = .next t ∧
    (s.card.phase = .finalBusy ∨ s.card.phase = .confirm 4 → sends t 13 (rcaArg s.card)) ∧
    (s.card.phase = .writeBusy → s.card.total ≤ s.card.blocks → sends t 12 0) ∧
    (s.card.phase = .writeBusy → s.card.blocks < s.card.total → s.card.failReason = 0 →
      if 512 * (s.card.blocks + 1) ≤ (j.source.getD []).length then
        t.card.phase = .writeBusy ∧ t.card.blocks = s.card.blocks + 1 ∧ t.card.started = true ∧
          t.card.data = slice (j.source.getD []) (512 * s.card.blocks) 512
      else t.card.phase = .writeCmd 3 ∧ t.card.blocks = s.card.blocks)) ∧
  (∀ (s : State) (tag : Nat) (j : Job) (n : Nat), onPort s tag j → j.op = .cardWrite → s.card.phase = .confirm 3 →
    s.card.failReason = 0 → ∃ t, exec (.cardCommandResponse (.wellWritten n)) s = .next t ∧
      (s.card.total ≤ n → endedWith t tag .ok ∧ ∀ k, findJob t tag = some k → k.bytes = 512 * s.card.total) ∧
      (n < s.card.total → endedWith t tag .cancelled ∧ ∀ k, findJob t tag = some k →
        k.bytes = 512 * n ∧ k.result = blockResult 8 s.card.respState s.card.blocks)) ∧
  (∀ (s : State) (tag : Nat) (j : Job), onPort s tag j → ∃ t, exec .cardAllowanceExpiry s = .next t ∧
    (j.op = .cardRead → s.card.phase = .readData → s.card.total ≤ 1 → s.card.failReason = 0 → endedWith t tag .cancelled ∧
      ∀ k, findJob t tag = some k → k.result = blockResult 6 s.card.respState s.card.blocks) ∧
    (j.op = .cardWrite → s.card.phase = .confirm 3 → s.card.started = true → endedWith t tag .unknownOutcome ∧
      t.card.unknownCnt = min 0xFFFFFFFF (s.card.unknownCnt + 1) ∧ t.card.evt.getLsbD 3 = true ∧
      ∀ k, findJob t tag = some k → k.bytes = 0) ∧
    (j.op = .cardMailbox → s.card.phase = .mbxWait → endedWith t tag .cancelled ∧ t.card.mbx = s.card.mbx)) ∧
  (∀ (s : State) (tag : Nat) (j : Job), onPort s tag j → s.card.phase = .mbxWait → s.card.hc = true →
    ∃ t, exec .mailboxPoll s = .next t ∧ sends t 17 0x10002 ∧ t.rings = s.rings) ∧
  (∀ s : State, noPortWork s → s.card.phase ≠ .mbxWait → exec .mailboxPoll s = .next s) ∧
  (∀ (s : State) (tag : Nat) (j : Job) (b : Bytes), onPort s tag j → runsFreely s tag j → j.op = .cardMailbox →
    s.card.phase = .mbxResp 1 → natLE (slice b 4 4) = s.card.jobSeq → b.getD 8 0 = 0 →
    (∀ k ∈ s.rings.jobs, k.tag ≠ tag → isCard k.op = false ∧ k.op ≠ .trkExport) →
    let len := min 480 (natLE (slice b 0x0A 2))
    ∃ t, exec (.cardCommandResponse (.block b)) s = .next t ∧ issues s t j (slice b 0x20 len) ∧ endedWith t tag .ok ∧
      t.card.mbx.isOpen = false ∧ ∀ k, findJob t tag = some k →
        k.result = BitVec.ofNat 64 (len * 2 ^ 16 + s.card.jobSeq * 2 ^ 32)) ∧
  (∀ s : State,
    let may : Prop := s.card.terja = true ∧ s.card.state = .ready ∧ isLocked s = true ∧ s.card.use.unlockEn = true ∧
      s.card.job = none ∧ s.card.flow = .idle ∧ s.card.served = false
    (¬ may → exec .cardUnlockFlow s = .next s) ∧
    (may → ∃ t, exec .cardUnlockFlow s = .next t ∧
      t = { s with card := t.card } ∧ t.card.flow = .request ∧ t.card.served = true ∧ t.card.flowSince = s.now ∧
        t.card.phase = .mbxIdent 0 ∧ t.card.flowReq = vecBytes 64 s.patrol.lockSeq ++ vecBytes 64 (counter s 4).value ++
          vecBytes 64 (counter s 0).value ++ [if isPurged s = true then 1 else 0,
            (match unlockHalf s with | some (a, _) => BitVec.ofNat 8 (a % 8) | none => 0xFF),
            (match unlockHalf s with | some (_, h) => BitVec.ofNat 8 ((h + 60 * 32768 - s.hut.time) / 32768 % 64) | none => 0),
            0, 0, 0, 0, 0]))

/-- A raise sets its EVT_PEND bit and, where its source writes records, merges into the source's waiting record, is
counted as lost when 64 wait, or queues a record with COUNT 1, the time of the raise and the next SEQ.
EVENT_RECORD_WRITE and, once the hold of a source has ended, EVENT_HOLD_EXPIRY write the first record that is not held
at the tail with the ring's PHASE, every field where R516 puts it, behind it messages only, and advance the tail; a
ring full, off or without Bus Master Enable takes none. An interval that ends sends one message when one was withheld
and then opens again. Enabling an off ring before the seal starts it at 0 with PHASE 1; HEAD moves within the depth of
an enabled ring. A telemetry record of 256 bytes is written, or counted as lost with source 364 raised: while the ring is full or off,
without Bus Master Enable, or when protection unit 9 denies the telemetry DMA its access (log entry 82). -/
def Obligations.EventRecordsAndTelemetryFollowTheirRings : Prop :=
  (∀ (s : State) (src : Nat) (d0 : Word) (d1 : DWord),
    let t := raiseEvent src d0 d1 s
    let q := s.evts.queue
    let recs : Prop := 64 ≤ src ∨ (mapEntry s.evts src).getLsbD 8 = true
    let waits : Prop := ∃ r ∈ q, r.source = src
    t = { s with evts := t.evts, link := { s.link with posted := t.link.posted, pba := t.link.pba } } ∧
      tblGet false t.evts.pend src = true ∧ (∀ n, n ≠ src → tblGet false t.evts.pend n = tblGet false s.evts.pend n) ∧
      (¬ recs → t.evts.queue = q ∧ t.evts.lost = s.evts.lost) ∧
      (recs → waits → t.evts.queue.map (fun r => (r.source, r.time, r.seq)) = q.map (fun r => (r.source, r.time, r.seq)) ∧
        t.evts.seq = s.evts.seq ∧ ∃ r r', r ∈ q ∧ r' ∈ t.evts.queue ∧ r'.source = src ∧ r'.seq = r.seq ∧
          r'.count = min 255 (r.count + 1) ∧ r'.detail0 = d0 ∧ r'.detail1 = d1) ∧
      (recs → ¬ waits → 64 ≤ q.length → t.evts.queue = q ∧ t.evts.lost = min 0xFFFFFFFF (s.evts.lost + 1) ∧
        t.evts.lostDue = true) ∧
      (recs → ¬ waits → q.length < 64 → t.evts.queue.length = q.length + 1 ∧ t.evts.seq = (s.evts.seq + 1) % 2 ^ 32 ∧
        (∃ r ∈ t.evts.queue, r.source = src ∧ r.time = s.now ∧ r.count = 1 ∧ r.detail0 = d0 ∧ r.detail1 = d1) ∧
        ((∀ r ∈ q, r.time ≠ s.now) → ∃ r, t.evts.queue = q ++ [r] ∧ r.seq = t.evts.seq))) ∧
  (∀ s : State,
    (nextRecord s = none → exec .eventRecordWrite s = .next s) ∧
    (∀ r, nextRecord s = some r → ∃ t, exec .eventRecordWrite s = .next t ∧ recordWritten r s t)) ∧
  (∀ (s : State) (src : Nat),
    let u := { s with evts := { s.evts with
      queue := s.evts.queue.map (fun r => { r with held := r.held && r.source != src }) } }
    (nextRecord u = none → exec (.eventHoldExpiry src) s = .next u) ∧
    (∀ r, nextRecord u = some r → ∃ t, exec (.eventHoldExpiry src) s = .next t ∧ recordWritten r u t)) ∧
  (∀ (s : State) (v : Nat), ∃ t, exec (.coalesceIntervalEnd v) s = .next t ∧
    let c := tblGet coalNone s.evts.intervals v
    t = { s with evts := { s.evts with intervals := t.evts.intervals },
                 link := { s.link with posted := t.link.posted, pba := t.link.pba } } ∧
      (c.isOpen = true → c.withheld = true →
        (msixOpen s.link v = true → t.link.posted = s.link.posted ++ [msixOf s.link v]) ∧
        (msixOpen s.link v = false → t.link.posted = s.link.posted ∧ tblGet false t.link.pba v = true) ∧
        tblGet coalNone t.evts.intervals v = {
          isOpen := decide ((if v < 64 then s.evts.coalLow else s.evts.coalHigh) ≠ 0), withheld := false }) ∧
      (c.isOpen = false ∨ c.withheld = false → t.link = s.link ∧
        tblGet coalNone t.evts.intervals v = { isOpen := false, withheld := false }) ∧
      ∀ w, w ≠ v → tblGet coalNone t.evts.intervals w = tblGet coalNone s.evts.intervals w) ∧
  (∀ (s : State) (d : Nat), d < 32 → ∃ t u, exec (.evtRingEnable d) s = .next t ∧ exec (.telRingEnable d) s = .next u ∧
    (s.life.isSealed = true → t = s ∧ u = s) ∧
    (s.life.isSealed = false → s.evts.enabled = false → t = { s with evts := { s.evts with
      enabled := true, head := 0, tail := 0, phase := true,
      depthLog2 := if 6 ≤ d ∧ d ≤ 16 then d else s.evts.depthLog2 } }) ∧
    (s.life.isSealed = false → s.tel.enabled = false → u = { s with tel := { s.tel with
      enabled := true, head := 0, tail := 0, phase := true,
      depthLog2 := if 3 ≤ d ∧ d ≤ 12 then d else s.tel.depthLog2 } }) ∧
    (s.life.isSealed = false → s.evts.enabled = true → t = s) ∧
    (s.life.isSealed = false → s.tel.enabled = true → u = s)) ∧
  (∀ (s : State) (v : Word),
    exec (.evtRingHeadWrite v) s = .next { s with evts := { s.evts with
      head := if s.evts.enabled = true ∧ v.toNat % 2 ^ 16 < 2 ^ s.evts.depthLog2 then v.toNat % 2 ^ 16 else s.evts.head } } ∧
    exec (.telHeadWrite v) s = .next { s with tel := { s.tel with
      head := if s.tel.enabled = true ∧ v.toNat % 2 ^ 12 < 2 ^ s.tel.depthLog2 then v.toNat % 2 ^ 12 else s.tel.head } }) ∧
  (∀ (s : State) (busy : List Nat), ∃ t raw, exec (.telemetryRecord busy) s = .next t ∧
    t = { s with tel := t.tel, evts := t.evts, link := t.link, prot := t.prot, trk := t.trk } ∧ t.tel.seq = (s.tel.seq + 1) % 2 ^ 32 ∧
    (s.hut.time < 2 ^ 64 → s.tel.seq + 1 < 2 ^ 32 → s.hut.hotMin < 2 ^ 20 → s.evts.lost < 2 ^ 32 → s.gate.derate < 2 ^ 16 →
      s.gate.siMin < 256 → raw.length = 256 ∧ telField raw 0x00 8 = s.hut.time ∧ telField raw 0x08 4 = s.tel.seq + 1 ∧
        telField raw 0x0C 2 = 1 ∧ telField raw 0x14 2 = s.gate.derate ∧ telField raw 0x16 1 = s.gate.siMin ∧
        telField raw 0xB4 4 = s.hut.hotMin ∧ telField raw 0xB8 4 = (ptlStatus s).toNat ∧
        telField raw 0xBC 4 = s.evts.lost ∧ telField raw 0xFC 4 = if s.tel.phase = true then 2 ^ 31 else 0) ∧
    if s.tel.enabled = true ∧ s.link.bme = true ∧ (s.tel.tail + 1) % 2 ^ s.tel.depthLog2 ≠ s.tel.head ∧
        checkAcc s telemetryAcc = .pass then
      t = { s with tel := t.tel, link := { s.link with posted := s.link.posted ++ [.telemetry s.tel.tail raw] } } ∧
        t.tel.lost = s.tel.lost ∧
        t.tel.tail = (if s.tel.tail + 1 = 2 ^ s.tel.depthLog2 then 0 else s.tel.tail + 1) ∧
        t.tel.phase = (s.tel.phase != decide (s.tel.tail + 1 = 2 ^ s.tel.depthLog2))
    else t.tel.lost = min 0xFFFFFFFF (s.tel.lost + 1) ∧ t.tel.tail = s.tel.tail ∧ tblGet false t.evts.pend 364 = true ∧
      (checkAcc s telemetryAcc = .pass → t.prot = s.prot ∧ t.trk = s.trk))
end

