-- ==== Sys2Proof/Laws/State.lean ====
section
/-!
SUPPORT. Sys2Proof/Laws/State.lean: the fields of a conditional state, and of a state that a list of changes leaves: what the frames of
the other files in this folder rest on.
-/
namespace Sys2Proof.Machine

/-- A field of a conditional state is the conditional field. -/
theorem State.ite_parts (c : Prop) (_d : Decidable c) (a b : State) :
    (if c then a else b).now = (if c then a.now else b.now) ∧
    (if c then a else b).free = (if c then a.free else b.free) ∧
    (if c then a else b).life = (if c then a.life else b.life) ∧
    (if c then a else b).link = (if c then a.link else b.link) ∧
    (if c then a else b).gate = (if c then a.gate else b.gate) ∧
    (if c then a else b).rings = (if c then a.rings else b.rings) ∧
    (if c then a else b).units = (if c then a.units else b.units) ∧
    (if c then a else b).curves = (if c then a.curves else b.curves) ∧
    (if c then a else b).sess = (if c then a.sess else b.sess) ∧
    (if c then a else b).vault = (if c then a.vault else b.vault) ∧
    (if c then a else b).ctrs = (if c then a.ctrs else b.ctrs) ∧
    (if c then a else b).powder = (if c then a.powder else b.powder) ∧
    (if c then a else b).merya = (if c then a.merya else b.merya) ∧
    (if c then a else b).prot = (if c then a.prot else b.prot) ∧
    (if c then a else b).mem = (if c then a.mem else b.mem) ∧
    (if c then a else b).stored = (if c then a.stored else b.stored) ∧
    (if c then a else b).patrol = (if c then a.patrol else b.patrol) ∧
    (if c then a else b).trk = (if c then a.trk else b.trk) ∧
    (if c then a else b).hut = (if c then a.hut else b.hut) ∧
    (if c then a else b).alarm = (if c then a.alarm else b.alarm) ∧
    (if c then a else b).card = (if c then a.card else b.card) ∧
    (if c then a else b).evts = (if c then a.evts else b.evts) ∧
    (if c then a else b).tel = (if c then a.tel else b.tel) ∧
    (if c then a else b).pending = (if c then a.pending else b.pending) := by
  by_cases h : c <;> simp [h]

/-- A field that no change of a list touches is as before. -/
theorem foldl_now {α : Type} (f : State → α → State) (h : ∀ s a, (f s a).now = s.now) (l : List α) (s : State) :
    (l.foldl f s).now = s.now := by
  induction l generalizing s with
  | nil => rfl
  | cons a l ih => rw [List.foldl_cons, ih, h]

/-- A field that no change of a list touches is as before. -/
theorem foldl_free {α : Type} (f : State → α → State) (h : ∀ s a, (f s a).free = s.free) (l : List α) (s : State) :
    (l.foldl f s).free = s.free := by
  induction l generalizing s with
  | nil => rfl
  | cons a l ih => rw [List.foldl_cons, ih, h]

/-- A field that no change of a list touches is as before. -/
theorem foldl_life {α : Type} (f : State → α → State) (h : ∀ s a, (f s a).life = s.life) (l : List α) (s : State) :
    (l.foldl f s).life = s.life := by
  induction l generalizing s with
  | nil => rfl
  | cons a l ih => rw [List.foldl_cons, ih, h]

/-- A field that no change of a list touches is as before. -/
theorem foldl_link {α : Type} (f : State → α → State) (h : ∀ s a, (f s a).link = s.link) (l : List α) (s : State) :
    (l.foldl f s).link = s.link := by
  induction l generalizing s with
  | nil => rfl
  | cons a l ih => rw [List.foldl_cons, ih, h]

/-- A field that no change of a list touches is as before. -/
theorem foldl_gate {α : Type} (f : State → α → State) (h : ∀ s a, (f s a).gate = s.gate) (l : List α) (s : State) :
    (l.foldl f s).gate = s.gate := by
  induction l generalizing s with
  | nil => rfl
  | cons a l ih => rw [List.foldl_cons, ih, h]

/-- A field that no change of a list touches is as before. -/
theorem foldl_rings {α : Type} (f : State → α → State) (h : ∀ s a, (f s a).rings = s.rings) (l : List α) (s : State) :
    (l.foldl f s).rings = s.rings := by
  induction l generalizing s with
  | nil => rfl
  | cons a l ih => rw [List.foldl_cons, ih, h]

/-- A field that no change of a list touches is as before. -/
theorem foldl_units {α : Type} (f : State → α → State) (h : ∀ s a, (f s a).units = s.units) (l : List α) (s : State) :
    (l.foldl f s).units = s.units := by
  induction l generalizing s with
  | nil => rfl
  | cons a l ih => rw [List.foldl_cons, ih, h]

/-- A field that no change of a list touches is as before. -/
theorem foldl_curves {α : Type} (f : State → α → State) (h : ∀ s a, (f s a).curves = s.curves) (l : List α) (s : State) :
    (l.foldl f s).curves = s.curves := by
  induction l generalizing s with
  | nil => rfl
  | cons a l ih => rw [List.foldl_cons, ih, h]

/-- A field that no change of a list touches is as before. -/
theorem foldl_sess {α : Type} (f : State → α → State) (h : ∀ s a, (f s a).sess = s.sess) (l : List α) (s : State) :
    (l.foldl f s).sess = s.sess := by
  induction l generalizing s with
  | nil => rfl
  | cons a l ih => rw [List.foldl_cons, ih, h]

/-- A field that no change of a list touches is as before. -/
theorem foldl_vault {α : Type} (f : State → α → State) (h : ∀ s a, (f s a).vault = s.vault) (l : List α) (s : State) :
    (l.foldl f s).vault = s.vault := by
  induction l generalizing s with
  | nil => rfl
  | cons a l ih => rw [List.foldl_cons, ih, h]

/-- A field that no change of a list touches is as before. -/
theorem foldl_ctrs {α : Type} (f : State → α → State) (h : ∀ s a, (f s a).ctrs = s.ctrs) (l : List α) (s : State) :
    (l.foldl f s).ctrs = s.ctrs := by
  induction l generalizing s with
  | nil => rfl
  | cons a l ih => rw [List.foldl_cons, ih, h]

/-- A field that no change of a list touches is as before. -/
theorem foldl_powder {α : Type} (f : State → α → State) (h : ∀ s a, (f s a).powder = s.powder) (l : List α) (s : State) :
    (l.foldl f s).powder = s.powder := by
  induction l generalizing s with
  | nil => rfl
  | cons a l ih => rw [List.foldl_cons, ih, h]

/-- A field that no change of a list touches is as before. -/
theorem foldl_merya {α : Type} (f : State → α → State) (h : ∀ s a, (f s a).merya = s.merya) (l : List α) (s : State) :
    (l.foldl f s).merya = s.merya := by
  induction l generalizing s with
  | nil => rfl
  | cons a l ih => rw [List.foldl_cons, ih, h]

/-- A field that no change of a list touches is as before. -/
theorem foldl_prot {α : Type} (f : State → α → State) (h : ∀ s a, (f s a).prot = s.prot) (l : List α) (s : State) :
    (l.foldl f s).prot = s.prot := by
  induction l generalizing s with
  | nil => rfl
  | cons a l ih => rw [List.foldl_cons, ih, h]

/-- A field that no change of a list touches is as before. -/
theorem foldl_mem {α : Type} (f : State → α → State) (h : ∀ s a, (f s a).mem = s.mem) (l : List α) (s : State) :
    (l.foldl f s).mem = s.mem := by
  induction l generalizing s with
  | nil => rfl
  | cons a l ih => rw [List.foldl_cons, ih, h]

/-- A field that no change of a list touches is as before. -/
theorem foldl_stored {α : Type} (f : State → α → State) (h : ∀ s a, (f s a).stored = s.stored) (l : List α) (s : State) :
    (l.foldl f s).stored = s.stored := by
  induction l generalizing s with
  | nil => rfl
  | cons a l ih => rw [List.foldl_cons, ih, h]

/-- A field that no change of a list touches is as before. -/
theorem foldl_patrol {α : Type} (f : State → α → State) (h : ∀ s a, (f s a).patrol = s.patrol) (l : List α) (s : State) :
    (l.foldl f s).patrol = s.patrol := by
  induction l generalizing s with
  | nil => rfl
  | cons a l ih => rw [List.foldl_cons, ih, h]

/-- A field that no change of a list touches is as before. -/
theorem foldl_trk {α : Type} (f : State → α → State) (h : ∀ s a, (f s a).trk = s.trk) (l : List α) (s : State) :
    (l.foldl f s).trk = s.trk := by
  induction l generalizing s with
  | nil => rfl
  | cons a l ih => rw [List.foldl_cons, ih, h]

/-- A field that no change of a list touches is as before. -/
theorem foldl_hut {α : Type} (f : State → α → State) (h : ∀ s a, (f s a).hut = s.hut) (l : List α) (s : State) :
    (l.foldl f s).hut = s.hut := by
  induction l generalizing s with
  | nil => rfl
  | cons a l ih => rw [List.foldl_cons, ih, h]

/-- A field that no change of a list touches is as before. -/
theorem foldl_alarm {α : Type} (f : State → α → State) (h : ∀ s a, (f s a).alarm = s.alarm) (l : List α) (s : State) :
    (l.foldl f s).alarm = s.alarm := by
  induction l generalizing s with
  | nil => rfl
  | cons a l ih => rw [List.foldl_cons, ih, h]

/-- A field that no change of a list touches is as before. -/
theorem foldl_card {α : Type} (f : State → α → State) (h : ∀ s a, (f s a).card = s.card) (l : List α) (s : State) :
    (l.foldl f s).card = s.card := by
  induction l generalizing s with
  | nil => rfl
  | cons a l ih => rw [List.foldl_cons, ih, h]

/-- A field that no change of a list touches is as before. -/
theorem foldl_evts {α : Type} (f : State → α → State) (h : ∀ s a, (f s a).evts = s.evts) (l : List α) (s : State) :
    (l.foldl f s).evts = s.evts := by
  induction l generalizing s with
  | nil => rfl
  | cons a l ih => rw [List.foldl_cons, ih, h]

/-- A field that no change of a list touches is as before. -/
theorem foldl_tel {α : Type} (f : State → α → State) (h : ∀ s a, (f s a).tel = s.tel) (l : List α) (s : State) :
    (l.foldl f s).tel = s.tel := by
  induction l generalizing s with
  | nil => rfl
  | cons a l ih => rw [List.foldl_cons, ih, h]

/-- A field that no change of a list touches is as before. -/
theorem foldl_pending {α : Type} (f : State → α → State) (h : ∀ s a, (f s a).pending = s.pending) (l : List α) (s : State) :
    (l.foldl f s).pending = s.pending := by
  induction l generalizing s with
  | nil => rfl
  | cons a l ih => rw [List.foldl_cons, ih, h]

end Sys2Proof.Machine
end

