-- ==== Sys2Proof/Laws/FramesEvents.lean ====
section
/-!
SUPPORT. Sys2Proof/Laws/FramesEvents.lean: for each operation on the state, once, the chapters of the part that it leaves as they are:
events, flags, the log, protection, stored words and the mailbox.  A chapter that a lemma does not name may change.
-/
namespace Sys2Proof.Machine

set_option linter.unusedSimpArgs false

/-! ### Events.lean -/

theorem sendMsix_frame (src : Nat) (v : Nat) (s : State) :
    (sendMsix src v s).now = s.now ∧ (sendMsix src v s).free = s.free ∧ (sendMsix src v s).life = s.life ∧ (sendMsix src
    v s).gate = s.gate ∧ (sendMsix src v s).rings = s.rings ∧ (sendMsix src v s).units = s.units ∧ (sendMsix src v
    s).curves = s.curves ∧ (sendMsix src v s).sess = s.sess ∧ (sendMsix src v s).vault = s.vault ∧ (sendMsix src v
    s).ctrs = s.ctrs ∧ (sendMsix src v s).powder = s.powder ∧ (sendMsix src v s).merya = s.merya ∧ (sendMsix src v
    s).prot = s.prot ∧ (sendMsix src v s).mem = s.mem ∧ (sendMsix src v s).stored = s.stored ∧ (sendMsix src v
    s).patrol = s.patrol ∧ (sendMsix src v s).trk = s.trk ∧ (sendMsix src v s).hut = s.hut ∧ (sendMsix src v
    s).alarm = s.alarm ∧ (sendMsix src v s).card = s.card ∧ (sendMsix src v s).tel = s.tel ∧ (sendMsix src v
    s).pending = s.pending := by
  simp only [sendMsix, State.ite_parts .., ite_self, and_self, implies_true]

theorem raiseEvent_frame (src : Nat) (d0 : Word) (d1 : DWord) (s : State) :
    (raiseEvent src d0 d1 s).now = s.now ∧ (raiseEvent src d0 d1 s).free = s.free ∧ (raiseEvent src d0 d1 s).life =
    s.life ∧ (raiseEvent src d0 d1 s).gate = s.gate ∧ (raiseEvent src d0 d1 s).rings = s.rings ∧ (raiseEvent src d0
    d1 s).units = s.units ∧ (raiseEvent src d0 d1 s).curves = s.curves ∧ (raiseEvent src d0 d1 s).sess = s.sess ∧
    (raiseEvent src d0 d1 s).vault = s.vault ∧ (raiseEvent src d0 d1 s).ctrs = s.ctrs ∧ (raiseEvent src d0 d1
    s).powder = s.powder ∧ (raiseEvent src d0 d1 s).merya = s.merya ∧ (raiseEvent src d0 d1 s).prot = s.prot ∧
    (raiseEvent src d0 d1 s).mem = s.mem ∧ (raiseEvent src d0 d1 s).stored = s.stored ∧ (raiseEvent src d0 d1
    s).patrol = s.patrol ∧ (raiseEvent src d0 d1 s).trk = s.trk ∧ (raiseEvent src d0 d1 s).hut = s.hut ∧ (raiseEvent
    src d0 d1 s).alarm = s.alarm ∧ (raiseEvent src d0 d1 s).card = s.card ∧ (raiseEvent src d0 d1 s).tel = s.tel ∧
    (raiseEvent src d0 d1 s).pending = s.pending := by
  simp only [raiseEvent, State.ite_parts .., ite_self, and_self, implies_true, sendMsix_frame ..]

theorem raiseLost_frame (s : State) :
    (raiseLost s).now = s.now ∧ (raiseLost s).free = s.free ∧ (raiseLost s).life = s.life ∧ (raiseLost s).gate = s.gate
    ∧ (raiseLost s).rings = s.rings ∧ (raiseLost s).units = s.units ∧ (raiseLost s).curves = s.curves ∧ (raiseLost
    s).sess = s.sess ∧ (raiseLost s).vault = s.vault ∧ (raiseLost s).ctrs = s.ctrs ∧ (raiseLost s).powder = s.powder
    ∧ (raiseLost s).merya = s.merya ∧ (raiseLost s).prot = s.prot ∧ (raiseLost s).mem = s.mem ∧ (raiseLost s).stored
    = s.stored ∧ (raiseLost s).patrol = s.patrol ∧ (raiseLost s).trk = s.trk ∧ (raiseLost s).hut = s.hut ∧
    (raiseLost s).alarm = s.alarm ∧ (raiseLost s).card = s.card ∧ (raiseLost s).tel = s.tel ∧ (raiseLost s).pending
    = s.pending := by
  simp only [raiseLost, State.ite_parts .., ite_self, and_self, implies_true, raiseEvent_frame ..]

theorem writeRecord_frame (s : State) :
    (writeRecord s).now = s.now ∧ (writeRecord s).free = s.free ∧ (writeRecord s).life = s.life ∧ (writeRecord s).gate =
    s.gate ∧ (writeRecord s).rings = s.rings ∧ (writeRecord s).units = s.units ∧ (writeRecord s).curves = s.curves ∧
    (writeRecord s).sess = s.sess ∧ (writeRecord s).vault = s.vault ∧ (writeRecord s).ctrs = s.ctrs ∧ (writeRecord
    s).powder = s.powder ∧ (writeRecord s).merya = s.merya ∧ (writeRecord s).prot = s.prot ∧ (writeRecord s).mem =
    s.mem ∧ (writeRecord s).stored = s.stored ∧ (writeRecord s).patrol = s.patrol ∧ (writeRecord s).trk = s.trk ∧
    (writeRecord s).hut = s.hut ∧ (writeRecord s).alarm = s.alarm ∧ (writeRecord s).card = s.card ∧ (writeRecord
    s).tel = s.tel ∧ (writeRecord s).pending = s.pending := by
  unfold writeRecord
  (repeat' split) <;> simp only [State.ite_parts .., ite_self, and_self, implies_true, sendMsix_frame .., raiseLost_frame ..]

theorem raiseIf_frame (c : Bool) (src : Nat) (d0 : Word) (d1 : DWord) (s : State) :
    (raiseIf c src d0 d1 s).now = s.now ∧ (raiseIf c src d0 d1 s).free = s.free ∧ (raiseIf c src d0 d1 s).life = s.life
    ∧ (raiseIf c src d0 d1 s).gate = s.gate ∧ (raiseIf c src d0 d1 s).rings = s.rings ∧ (raiseIf c src d0 d1
    s).units = s.units ∧ (raiseIf c src d0 d1 s).curves = s.curves ∧ (raiseIf c src d0 d1 s).sess = s.sess ∧
    (raiseIf c src d0 d1 s).vault = s.vault ∧ (raiseIf c src d0 d1 s).ctrs = s.ctrs ∧ (raiseIf c src d0 d1 s).powder
    = s.powder ∧ (raiseIf c src d0 d1 s).merya = s.merya ∧ (raiseIf c src d0 d1 s).prot = s.prot ∧ (raiseIf c src d0
    d1 s).mem = s.mem ∧ (raiseIf c src d0 d1 s).stored = s.stored ∧ (raiseIf c src d0 d1 s).patrol = s.patrol ∧
    (raiseIf c src d0 d1 s).trk = s.trk ∧ (raiseIf c src d0 d1 s).hut = s.hut ∧ (raiseIf c src d0 d1 s).alarm =
    s.alarm ∧ (raiseIf c src d0 d1 s).card = s.card ∧ (raiseIf c src d0 d1 s).tel = s.tel ∧ (raiseIf c src d0 d1
    s).pending = s.pending := by
  simp only [raiseIf, State.ite_parts .., ite_self, and_self, implies_true, raiseEvent_frame ..]

theorem expireHold_frame (src : Nat) (s : State) :
    (expireHold src s).now = s.now ∧ (expireHold src s).free = s.free ∧ (expireHold src s).life = s.life ∧ (expireHold
    src s).link = s.link ∧ (expireHold src s).gate = s.gate ∧ (expireHold src s).rings = s.rings ∧ (expireHold src
    s).units = s.units ∧ (expireHold src s).curves = s.curves ∧ (expireHold src s).sess = s.sess ∧ (expireHold src
    s).vault = s.vault ∧ (expireHold src s).ctrs = s.ctrs ∧ (expireHold src s).powder = s.powder ∧ (expireHold src
    s).merya = s.merya ∧ (expireHold src s).prot = s.prot ∧ (expireHold src s).mem = s.mem ∧ (expireHold src
    s).stored = s.stored ∧ (expireHold src s).patrol = s.patrol ∧ (expireHold src s).trk = s.trk ∧ (expireHold src
    s).hut = s.hut ∧ (expireHold src s).alarm = s.alarm ∧ (expireHold src s).card = s.card ∧ (expireHold src s).tel
    = s.tel ∧ (expireHold src s).pending = s.pending := by
  simp only [expireHold, State.ite_parts .., ite_self, and_self, implies_true]

theorem endInterval_frame (v : Nat) (s : State) :
    (endInterval v s).now = s.now ∧ (endInterval v s).free = s.free ∧ (endInterval v s).life = s.life ∧ (endInterval v
    s).gate = s.gate ∧ (endInterval v s).rings = s.rings ∧ (endInterval v s).units = s.units ∧ (endInterval v
    s).curves = s.curves ∧ (endInterval v s).sess = s.sess ∧ (endInterval v s).vault = s.vault ∧ (endInterval v
    s).ctrs = s.ctrs ∧ (endInterval v s).powder = s.powder ∧ (endInterval v s).merya = s.merya ∧ (endInterval v
    s).prot = s.prot ∧ (endInterval v s).mem = s.mem ∧ (endInterval v s).stored = s.stored ∧ (endInterval v
    s).patrol = s.patrol ∧ (endInterval v s).trk = s.trk ∧ (endInterval v s).hut = s.hut ∧ (endInterval v s).alarm =
    s.alarm ∧ (endInterval v s).card = s.card ∧ (endInterval v s).tel = s.tel ∧ (endInterval v s).pending =
    s.pending := by
  simp only [endInterval, State.ite_parts .., ite_self, and_self, implies_true]

/-! ### Flags.lean -/

theorem setEdgeEvt_frame (bit : Nat) (n : Nat) (s : State) :
    (setEdgeEvt bit n s).now = s.now ∧ (setEdgeEvt bit n s).free = s.free ∧ (setEdgeEvt bit n s).life = s.life ∧
    (setEdgeEvt bit n s).gate = s.gate ∧ (setEdgeEvt bit n s).rings = s.rings ∧ (setEdgeEvt bit n s).curves =
    s.curves ∧ (setEdgeEvt bit n s).sess = s.sess ∧ (setEdgeEvt bit n s).vault = s.vault ∧ (setEdgeEvt bit n s).ctrs
    = s.ctrs ∧ (setEdgeEvt bit n s).powder = s.powder ∧ (setEdgeEvt bit n s).merya = s.merya ∧ (setEdgeEvt bit n
    s).prot = s.prot ∧ (setEdgeEvt bit n s).mem = s.mem ∧ (setEdgeEvt bit n s).stored = s.stored ∧ (setEdgeEvt bit n
    s).patrol = s.patrol ∧ (setEdgeEvt bit n s).trk = s.trk ∧ (setEdgeEvt bit n s).hut = s.hut ∧ (setEdgeEvt bit n
    s).alarm = s.alarm ∧ (setEdgeEvt bit n s).card = s.card ∧ (setEdgeEvt bit n s).tel = s.tel ∧ (setEdgeEvt bit n
    s).pending = s.pending := by
  simp only [setEdgeEvt, State.ite_parts .., ite_self, and_self, implies_true, raiseEvent_frame ..]

theorem setLcEvt_frame (bits : Nat) (s : State) :
    (setLcEvt bits s).now = s.now ∧ (setLcEvt bits s).free = s.free ∧ (setLcEvt bits s).gate = s.gate ∧ (setLcEvt bits
    s).rings = s.rings ∧ (setLcEvt bits s).units = s.units ∧ (setLcEvt bits s).curves = s.curves ∧ (setLcEvt bits
    s).sess = s.sess ∧ (setLcEvt bits s).vault = s.vault ∧ (setLcEvt bits s).ctrs = s.ctrs ∧ (setLcEvt bits
    s).powder = s.powder ∧ (setLcEvt bits s).merya = s.merya ∧ (setLcEvt bits s).prot = s.prot ∧ (setLcEvt bits
    s).mem = s.mem ∧ (setLcEvt bits s).stored = s.stored ∧ (setLcEvt bits s).patrol = s.patrol ∧ (setLcEvt bits
    s).trk = s.trk ∧ (setLcEvt bits s).hut = s.hut ∧ (setLcEvt bits s).alarm = s.alarm ∧ (setLcEvt bits s).card =
    s.card ∧ (setLcEvt bits s).tel = s.tel ∧ (setLcEvt bits s).pending = s.pending := by
  simp only [setLcEvt, State.ite_parts .., ite_self, and_self, implies_true, raiseIf_frame ..]

theorem setTrkEvt_frame (bits : Nat) (s : State) :
    (setTrkEvt bits s).now = s.now ∧ (setTrkEvt bits s).free = s.free ∧ (setTrkEvt bits s).life = s.life ∧ (setTrkEvt
    bits s).gate = s.gate ∧ (setTrkEvt bits s).rings = s.rings ∧ (setTrkEvt bits s).units = s.units ∧ (setTrkEvt
    bits s).curves = s.curves ∧ (setTrkEvt bits s).sess = s.sess ∧ (setTrkEvt bits s).vault = s.vault ∧ (setTrkEvt
    bits s).ctrs = s.ctrs ∧ (setTrkEvt bits s).powder = s.powder ∧ (setTrkEvt bits s).merya = s.merya ∧ (setTrkEvt
    bits s).prot = s.prot ∧ (setTrkEvt bits s).mem = s.mem ∧ (setTrkEvt bits s).stored = s.stored ∧ (setTrkEvt bits
    s).patrol = s.patrol ∧ (setTrkEvt bits s).hut = s.hut ∧ (setTrkEvt bits s).alarm = s.alarm ∧ (setTrkEvt bits
    s).card = s.card ∧ (setTrkEvt bits s).tel = s.tel ∧ (setTrkEvt bits s).pending = s.pending := by
  simp only [setTrkEvt, State.ite_parts .., ite_self, and_self, implies_true, raiseIf_frame ..]

theorem setLiftEvt_frame (n : Nat) (s : State) :
    (setLiftEvt n s).now = s.now ∧ (setLiftEvt n s).free = s.free ∧ (setLiftEvt n s).life = s.life ∧ (setLiftEvt n
    s).gate = s.gate ∧ (setLiftEvt n s).rings = s.rings ∧ (setLiftEvt n s).curves = s.curves ∧ (setLiftEvt n s).sess
    = s.sess ∧ (setLiftEvt n s).vault = s.vault ∧ (setLiftEvt n s).ctrs = s.ctrs ∧ (setLiftEvt n s).powder =
    s.powder ∧ (setLiftEvt n s).merya = s.merya ∧ (setLiftEvt n s).prot = s.prot ∧ (setLiftEvt n s).mem = s.mem ∧
    (setLiftEvt n s).stored = s.stored ∧ (setLiftEvt n s).patrol = s.patrol ∧ (setLiftEvt n s).trk = s.trk ∧
    (setLiftEvt n s).hut = s.hut ∧ (setLiftEvt n s).alarm = s.alarm ∧ (setLiftEvt n s).card = s.card ∧ (setLiftEvt n
    s).tel = s.tel ∧ (setLiftEvt n s).pending = s.pending := by
  simp only [setLiftEvt, State.ite_parts .., ite_self, and_self, implies_true, raiseEvent_frame ..]

theorem setPwdEvt_frame (bit : Nat) (s : State) :
    (setPwdEvt bit s).now = s.now ∧ (setPwdEvt bit s).free = s.free ∧ (setPwdEvt bit s).life = s.life ∧ (setPwdEvt bit
    s).gate = s.gate ∧ (setPwdEvt bit s).rings = s.rings ∧ (setPwdEvt bit s).units = s.units ∧ (setPwdEvt bit
    s).curves = s.curves ∧ (setPwdEvt bit s).sess = s.sess ∧ (setPwdEvt bit s).vault = s.vault ∧ (setPwdEvt bit
    s).ctrs = s.ctrs ∧ (setPwdEvt bit s).merya = s.merya ∧ (setPwdEvt bit s).prot = s.prot ∧ (setPwdEvt bit s).mem =
    s.mem ∧ (setPwdEvt bit s).stored = s.stored ∧ (setPwdEvt bit s).patrol = s.patrol ∧ (setPwdEvt bit s).trk =
    s.trk ∧ (setPwdEvt bit s).hut = s.hut ∧ (setPwdEvt bit s).alarm = s.alarm ∧ (setPwdEvt bit s).card = s.card ∧
    (setPwdEvt bit s).tel = s.tel ∧ (setPwdEvt bit s).pending = s.pending := by
  simp only [setPwdEvt, State.ite_parts .., ite_self, and_self, implies_true, raiseEvent_frame ..]

theorem setPuEvt_frame (bits : Nat) (s : State) :
    (setPuEvt bits s).now = s.now ∧ (setPuEvt bits s).free = s.free ∧ (setPuEvt bits s).life = s.life ∧ (setPuEvt bits
    s).gate = s.gate ∧ (setPuEvt bits s).rings = s.rings ∧ (setPuEvt bits s).units = s.units ∧ (setPuEvt bits
    s).curves = s.curves ∧ (setPuEvt bits s).sess = s.sess ∧ (setPuEvt bits s).vault = s.vault ∧ (setPuEvt bits
    s).ctrs = s.ctrs ∧ (setPuEvt bits s).powder = s.powder ∧ (setPuEvt bits s).merya = s.merya ∧ (setPuEvt bits
    s).mem = s.mem ∧ (setPuEvt bits s).stored = s.stored ∧ (setPuEvt bits s).patrol = s.patrol ∧ (setPuEvt bits
    s).trk = s.trk ∧ (setPuEvt bits s).hut = s.hut ∧ (setPuEvt bits s).alarm = s.alarm ∧ (setPuEvt bits s).card =
    s.card ∧ (setPuEvt bits s).tel = s.tel ∧ (setPuEvt bits s).pending = s.pending := by
  simp only [setPuEvt, State.ite_parts .., ite_self, and_self, implies_true, raiseIf_frame ..]

theorem setRsfEvt_frame (bits : Nat) (bank : Nat) (word? : Nat) (s : State) :
    (setRsfEvt bits bank word? s).now = s.now ∧ (setRsfEvt bits bank word? s).free = s.free ∧ (setRsfEvt bits bank word?
    s).life = s.life ∧ (setRsfEvt bits bank word? s).gate = s.gate ∧ (setRsfEvt bits bank word? s).rings = s.rings ∧
    (setRsfEvt bits bank word? s).units = s.units ∧ (setRsfEvt bits bank word? s).curves = s.curves ∧ (setRsfEvt
    bits bank word? s).sess = s.sess ∧ (setRsfEvt bits bank word? s).vault = s.vault ∧ (setRsfEvt bits bank word?
    s).ctrs = s.ctrs ∧ (setRsfEvt bits bank word? s).powder = s.powder ∧ (setRsfEvt bits bank word? s).merya =
    s.merya ∧ (setRsfEvt bits bank word? s).prot = s.prot ∧ (setRsfEvt bits bank word? s).mem = s.mem ∧ (setRsfEvt
    bits bank word? s).patrol = s.patrol ∧ (setRsfEvt bits bank word? s).trk = s.trk ∧ (setRsfEvt bits bank word?
    s).hut = s.hut ∧ (setRsfEvt bits bank word? s).alarm = s.alarm ∧ (setRsfEvt bits bank word? s).card = s.card ∧
    (setRsfEvt bits bank word? s).tel = s.tel ∧ (setRsfEvt bits bank word? s).pending = s.pending := by
  simp only [setRsfEvt, State.ite_parts .., ite_self, and_self, implies_true, raiseIf_frame ..]

theorem setCardEvt_frame (bit : Nat) (s : State) :
    (setCardEvt bit s).now = s.now ∧ (setCardEvt bit s).free = s.free ∧ (setCardEvt bit s).life = s.life ∧ (setCardEvt
    bit s).gate = s.gate ∧ (setCardEvt bit s).rings = s.rings ∧ (setCardEvt bit s).units = s.units ∧ (setCardEvt bit
    s).curves = s.curves ∧ (setCardEvt bit s).sess = s.sess ∧ (setCardEvt bit s).vault = s.vault ∧ (setCardEvt bit
    s).ctrs = s.ctrs ∧ (setCardEvt bit s).powder = s.powder ∧ (setCardEvt bit s).merya = s.merya ∧ (setCardEvt bit
    s).prot = s.prot ∧ (setCardEvt bit s).mem = s.mem ∧ (setCardEvt bit s).stored = s.stored ∧ (setCardEvt bit
    s).patrol = s.patrol ∧ (setCardEvt bit s).trk = s.trk ∧ (setCardEvt bit s).hut = s.hut ∧ (setCardEvt bit
    s).alarm = s.alarm ∧ (setCardEvt bit s).tel = s.tel ∧ (setCardEvt bit s).pending = s.pending := by
  simp only [setCardEvt, State.ite_parts .., ite_self, and_self, implies_true, raiseEvent_frame ..]

theorem setBladeEvt_frame (bit : Nat) (n : Nat) (s : State) :
    (setBladeEvt bit n s).now = s.now ∧ (setBladeEvt bit n s).free = s.free ∧ (setBladeEvt bit n s).life = s.life ∧
    (setBladeEvt bit n s).gate = s.gate ∧ (setBladeEvt bit n s).rings = s.rings ∧ (setBladeEvt bit n s).curves =
    s.curves ∧ (setBladeEvt bit n s).sess = s.sess ∧ (setBladeEvt bit n s).vault = s.vault ∧ (setBladeEvt bit n
    s).ctrs = s.ctrs ∧ (setBladeEvt bit n s).powder = s.powder ∧ (setBladeEvt bit n s).merya = s.merya ∧
    (setBladeEvt bit n s).prot = s.prot ∧ (setBladeEvt bit n s).mem = s.mem ∧ (setBladeEvt bit n s).stored =
    s.stored ∧ (setBladeEvt bit n s).patrol = s.patrol ∧ (setBladeEvt bit n s).trk = s.trk ∧ (setBladeEvt bit n
    s).hut = s.hut ∧ (setBladeEvt bit n s).alarm = s.alarm ∧ (setBladeEvt bit n s).card = s.card ∧ (setBladeEvt bit
    n s).tel = s.tel ∧ (setBladeEvt bit n s).pending = s.pending := by
  simp only [setBladeEvt, State.ite_parts .., ite_self, and_self, implies_true, raiseEvent_frame ..]

theorem setGateEvt_frame (bits : Nat) (s : State) :
    (setGateEvt bits s).now = s.now ∧ (setGateEvt bits s).free = s.free ∧ (setGateEvt bits s).life = s.life ∧
    (setGateEvt bits s).rings = s.rings ∧ (setGateEvt bits s).units = s.units ∧ (setGateEvt bits s).curves =
    s.curves ∧ (setGateEvt bits s).sess = s.sess ∧ (setGateEvt bits s).vault = s.vault ∧ (setGateEvt bits s).ctrs =
    s.ctrs ∧ (setGateEvt bits s).powder = s.powder ∧ (setGateEvt bits s).merya = s.merya ∧ (setGateEvt bits s).prot
    = s.prot ∧ (setGateEvt bits s).mem = s.mem ∧ (setGateEvt bits s).stored = s.stored ∧ (setGateEvt bits s).patrol
    = s.patrol ∧ (setGateEvt bits s).trk = s.trk ∧ (setGateEvt bits s).hut = s.hut ∧ (setGateEvt bits s).alarm =
    s.alarm ∧ (setGateEvt bits s).card = s.card ∧ (setGateEvt bits s).tel = s.tel ∧ (setGateEvt bits s).pending =
    s.pending := by
  simp only [setGateEvt, State.ite_parts .., ite_self, and_self, implies_true, raiseIf_frame ..]

theorem setPcieErr_frame (bits : Nat) (s : State) :
    (setPcieErr bits s).now = s.now ∧ (setPcieErr bits s).free = s.free ∧ (setPcieErr bits s).life = s.life ∧
    (setPcieErr bits s).gate = s.gate ∧ (setPcieErr bits s).rings = s.rings ∧ (setPcieErr bits s).units = s.units ∧
    (setPcieErr bits s).curves = s.curves ∧ (setPcieErr bits s).sess = s.sess ∧ (setPcieErr bits s).vault = s.vault
    ∧ (setPcieErr bits s).ctrs = s.ctrs ∧ (setPcieErr bits s).powder = s.powder ∧ (setPcieErr bits s).merya =
    s.merya ∧ (setPcieErr bits s).prot = s.prot ∧ (setPcieErr bits s).mem = s.mem ∧ (setPcieErr bits s).stored =
    s.stored ∧ (setPcieErr bits s).patrol = s.patrol ∧ (setPcieErr bits s).trk = s.trk ∧ (setPcieErr bits s).hut =
    s.hut ∧ (setPcieErr bits s).alarm = s.alarm ∧ (setPcieErr bits s).card = s.card ∧ (setPcieErr bits s).tel =
    s.tel ∧ (setPcieErr bits s).pending = s.pending := by
  simp only [setPcieErr, State.ite_parts .., ite_self, and_self, implies_true, raiseIf_frame ..]

theorem setPtlEvt_frame (bits : Nat) (s : State) :
    (setPtlEvt bits s).now = s.now ∧ (setPtlEvt bits s).free = s.free ∧ (setPtlEvt bits s).life = s.life ∧ (setPtlEvt
    bits s).gate = s.gate ∧ (setPtlEvt bits s).rings = s.rings ∧ (setPtlEvt bits s).units = s.units ∧ (setPtlEvt
    bits s).curves = s.curves ∧ (setPtlEvt bits s).sess = s.sess ∧ (setPtlEvt bits s).vault = s.vault ∧ (setPtlEvt
    bits s).ctrs = s.ctrs ∧ (setPtlEvt bits s).powder = s.powder ∧ (setPtlEvt bits s).merya = s.merya ∧ (setPtlEvt
    bits s).prot = s.prot ∧ (setPtlEvt bits s).mem = s.mem ∧ (setPtlEvt bits s).stored = s.stored ∧ (setPtlEvt bits
    s).trk = s.trk ∧ (setPtlEvt bits s).hut = s.hut ∧ (setPtlEvt bits s).alarm = s.alarm ∧ (setPtlEvt bits s).card =
    s.card ∧ (setPtlEvt bits s).tel = s.tel ∧ (setPtlEvt bits s).pending = s.pending := by
  simp only [setPtlEvt, State.ite_parts .., ite_self, and_self, implies_true, raiseIf_frame ..]

theorem setHutEvt_frame (bits : Nat) (s : State) :
    (setHutEvt bits s).now = s.now ∧ (setHutEvt bits s).free = s.free ∧ (setHutEvt bits s).life = s.life ∧ (setHutEvt
    bits s).gate = s.gate ∧ (setHutEvt bits s).rings = s.rings ∧ (setHutEvt bits s).units = s.units ∧ (setHutEvt
    bits s).curves = s.curves ∧ (setHutEvt bits s).sess = s.sess ∧ (setHutEvt bits s).vault = s.vault ∧ (setHutEvt
    bits s).ctrs = s.ctrs ∧ (setHutEvt bits s).powder = s.powder ∧ (setHutEvt bits s).merya = s.merya ∧ (setHutEvt
    bits s).prot = s.prot ∧ (setHutEvt bits s).mem = s.mem ∧ (setHutEvt bits s).stored = s.stored ∧ (setHutEvt bits
    s).patrol = s.patrol ∧ (setHutEvt bits s).trk = s.trk ∧ (setHutEvt bits s).alarm = s.alarm ∧ (setHutEvt bits
    s).card = s.card ∧ (setHutEvt bits s).tel = s.tel ∧ (setHutEvt bits s).pending = s.pending := by
  simp only [setHutEvt, State.ite_parts .., ite_self, and_self, implies_true, raiseIf_frame ..]

theorem setWoEvt_frame (bit : Nat) (s : State) :
    (setWoEvt bit s).now = s.now ∧ (setWoEvt bit s).free = s.free ∧ (setWoEvt bit s).life = s.life ∧ (setWoEvt bit
    s).gate = s.gate ∧ (setWoEvt bit s).rings = s.rings ∧ (setWoEvt bit s).units = s.units ∧ (setWoEvt bit s).curves
    = s.curves ∧ (setWoEvt bit s).sess = s.sess ∧ (setWoEvt bit s).vault = s.vault ∧ (setWoEvt bit s).ctrs = s.ctrs
    ∧ (setWoEvt bit s).powder = s.powder ∧ (setWoEvt bit s).merya = s.merya ∧ (setWoEvt bit s).prot = s.prot ∧
    (setWoEvt bit s).mem = s.mem ∧ (setWoEvt bit s).stored = s.stored ∧ (setWoEvt bit s).patrol = s.patrol ∧
    (setWoEvt bit s).trk = s.trk ∧ (setWoEvt bit s).hut = s.hut ∧ (setWoEvt bit s).card = s.card ∧ (setWoEvt bit
    s).tel = s.tel ∧ (setWoEvt bit s).pending = s.pending := by
  simp only [setWoEvt, State.ite_parts .., ite_self, and_self, implies_true, raiseEvent_frame ..]

theorem setCtrEvt_frame (bits : Nat) (s : State) :
    (setCtrEvt bits s).now = s.now ∧ (setCtrEvt bits s).free = s.free ∧ (setCtrEvt bits s).life = s.life ∧ (setCtrEvt
    bits s).gate = s.gate ∧ (setCtrEvt bits s).rings = s.rings ∧ (setCtrEvt bits s).units = s.units ∧ (setCtrEvt
    bits s).curves = s.curves ∧ (setCtrEvt bits s).sess = s.sess ∧ (setCtrEvt bits s).vault = s.vault ∧ (setCtrEvt
    bits s).powder = s.powder ∧ (setCtrEvt bits s).merya = s.merya ∧ (setCtrEvt bits s).prot = s.prot ∧ (setCtrEvt
    bits s).mem = s.mem ∧ (setCtrEvt bits s).stored = s.stored ∧ (setCtrEvt bits s).patrol = s.patrol ∧ (setCtrEvt
    bits s).trk = s.trk ∧ (setCtrEvt bits s).hut = s.hut ∧ (setCtrEvt bits s).alarm = s.alarm ∧ (setCtrEvt bits
    s).card = s.card ∧ (setCtrEvt bits s).tel = s.tel ∧ (setCtrEvt bits s).pending = s.pending := by
  simp only [setCtrEvt, State.ite_parts .., ite_self, and_self, implies_true, raiseIf_frame ..]

theorem setGrmEvt_frame (bit : Nat) (g : Nat) (s : State) :
    (setGrmEvt bit g s).now = s.now ∧ (setGrmEvt bit g s).free = s.free ∧ (setGrmEvt bit g s).life = s.life ∧ (setGrmEvt
    bit g s).gate = s.gate ∧ (setGrmEvt bit g s).rings = s.rings ∧ (setGrmEvt bit g s).units = s.units ∧ (setGrmEvt
    bit g s).curves = s.curves ∧ (setGrmEvt bit g s).sess = s.sess ∧ (setGrmEvt bit g s).vault = s.vault ∧
    (setGrmEvt bit g s).ctrs = s.ctrs ∧ (setGrmEvt bit g s).merya = s.merya ∧ (setGrmEvt bit g s).prot = s.prot ∧
    (setGrmEvt bit g s).mem = s.mem ∧ (setGrmEvt bit g s).stored = s.stored ∧ (setGrmEvt bit g s).patrol = s.patrol
    ∧ (setGrmEvt bit g s).trk = s.trk ∧ (setGrmEvt bit g s).hut = s.hut ∧ (setGrmEvt bit g s).alarm = s.alarm ∧
    (setGrmEvt bit g s).card = s.card ∧ (setGrmEvt bit g s).tel = s.tel ∧ (setGrmEvt bit g s).pending = s.pending := by
  simp only [setGrmEvt, State.ite_parts .., ite_self, and_self, implies_true, raiseEvent_frame ..]

theorem setVltEvt_frame (bits : Nat) (s : State) :
    (setVltEvt bits s).now = s.now ∧ (setVltEvt bits s).free = s.free ∧ (setVltEvt bits s).life = s.life ∧ (setVltEvt
    bits s).gate = s.gate ∧ (setVltEvt bits s).rings = s.rings ∧ (setVltEvt bits s).units = s.units ∧ (setVltEvt
    bits s).curves = s.curves ∧ (setVltEvt bits s).sess = s.sess ∧ (setVltEvt bits s).ctrs = s.ctrs ∧ (setVltEvt
    bits s).powder = s.powder ∧ (setVltEvt bits s).merya = s.merya ∧ (setVltEvt bits s).prot = s.prot ∧ (setVltEvt
    bits s).mem = s.mem ∧ (setVltEvt bits s).stored = s.stored ∧ (setVltEvt bits s).patrol = s.patrol ∧ (setVltEvt
    bits s).trk = s.trk ∧ (setVltEvt bits s).hut = s.hut ∧ (setVltEvt bits s).alarm = s.alarm ∧ (setVltEvt bits
    s).card = s.card ∧ (setVltEvt bits s).tel = s.tel ∧ (setVltEvt bits s).pending = s.pending := by
  simp only [setVltEvt, State.ite_parts .., ite_self, and_self, implies_true, raiseIf_frame ..]

/-! ### Tracks.lean -/

theorem writeEntry_frame (kind : Nat) (origin : Nat) (flags : Nat) (time : Nat) (payload : Bytes) (s : State) :
    (writeEntry kind origin flags time payload s).now = s.now ∧ (writeEntry kind origin flags time payload s).free =
    s.free ∧ (writeEntry kind origin flags time payload s).life = s.life ∧ (writeEntry kind origin flags time
    payload s).link = s.link ∧ (writeEntry kind origin flags time payload s).gate = s.gate ∧ (writeEntry kind origin
    flags time payload s).rings = s.rings ∧ (writeEntry kind origin flags time payload s).units = s.units ∧
    (writeEntry kind origin flags time payload s).curves = s.curves ∧ (writeEntry kind origin flags time payload
    s).sess = s.sess ∧ (writeEntry kind origin flags time payload s).vault = s.vault ∧ (writeEntry kind origin flags
    time payload s).ctrs = s.ctrs ∧ (writeEntry kind origin flags time payload s).powder = s.powder ∧ (writeEntry
    kind origin flags time payload s).merya = s.merya ∧ (writeEntry kind origin flags time payload s).prot = s.prot
    ∧ (writeEntry kind origin flags time payload s).mem = s.mem ∧ (writeEntry kind origin flags time payload
    s).patrol = s.patrol ∧ (writeEntry kind origin flags time payload s).hut = s.hut ∧ (writeEntry kind origin flags
    time payload s).alarm = s.alarm ∧ (writeEntry kind origin flags time payload s).card = s.card ∧ (writeEntry kind
    origin flags time payload s).evts = s.evts ∧ (writeEntry kind origin flags time payload s).tel = s.tel ∧
    (writeEntry kind origin flags time payload s).pending = s.pending := by
  simp only [writeEntry, State.ite_parts .., ite_self, and_self, implies_true, foldl_now, foldl_free, foldl_life,
    foldl_link, foldl_gate, foldl_rings, foldl_units, foldl_curves, foldl_sess, foldl_vault, foldl_ctrs,
    foldl_powder, foldl_merya, foldl_prot, foldl_mem, foldl_patrol, foldl_hut, foldl_alarm, foldl_card, foldl_evts,
    foldl_tel, foldl_pending]

theorem trkFillEvents_frame (before : Nat) (s : State) :
    (trkFillEvents before s).now = s.now ∧ (trkFillEvents before s).free = s.free ∧ (trkFillEvents before s).life =
    s.life ∧ (trkFillEvents before s).gate = s.gate ∧ (trkFillEvents before s).rings = s.rings ∧ (trkFillEvents
    before s).units = s.units ∧ (trkFillEvents before s).curves = s.curves ∧ (trkFillEvents before s).sess = s.sess
    ∧ (trkFillEvents before s).vault = s.vault ∧ (trkFillEvents before s).ctrs = s.ctrs ∧ (trkFillEvents before
    s).powder = s.powder ∧ (trkFillEvents before s).merya = s.merya ∧ (trkFillEvents before s).prot = s.prot ∧
    (trkFillEvents before s).mem = s.mem ∧ (trkFillEvents before s).stored = s.stored ∧ (trkFillEvents before
    s).patrol = s.patrol ∧ (trkFillEvents before s).hut = s.hut ∧ (trkFillEvents before s).alarm = s.alarm ∧
    (trkFillEvents before s).card = s.card ∧ (trkFillEvents before s).tel = s.tel ∧ (trkFillEvents before s).pending
    = s.pending := by
  simp only [trkFillEvents, State.ite_parts .., ite_self, and_self, implies_true, setTrkEvt_frame ..]

theorem appendReq_frame (r : TrkReq) (s : State) :
    (appendReq r s).now = s.now ∧ (appendReq r s).free = s.free ∧ (appendReq r s).life = s.life ∧ (appendReq r s).gate =
    s.gate ∧ (appendReq r s).rings = s.rings ∧ (appendReq r s).units = s.units ∧ (appendReq r s).curves = s.curves ∧
    (appendReq r s).sess = s.sess ∧ (appendReq r s).vault = s.vault ∧ (appendReq r s).ctrs = s.ctrs ∧ (appendReq r
    s).powder = s.powder ∧ (appendReq r s).merya = s.merya ∧ (appendReq r s).prot = s.prot ∧ (appendReq r s).mem =
    s.mem ∧ (appendReq r s).hut = s.hut ∧ (appendReq r s).alarm = s.alarm ∧ (appendReq r s).card = s.card ∧
    (appendReq r s).tel = s.tel ∧ (appendReq r s).pending = s.pending := by
  simp only [appendReq, State.ite_parts .., ite_self, and_self, implies_true, writeEntry_frame .., trkFillEvents_frame ..,
    setTrkEvt_frame ..]

theorem flushTracks_frame (s : State) :
    (flushTracks s).now = s.now ∧ (flushTracks s).free = s.free ∧ (flushTracks s).life = s.life ∧ (flushTracks s).gate =
    s.gate ∧ (flushTracks s).rings = s.rings ∧ (flushTracks s).units = s.units ∧ (flushTracks s).curves = s.curves ∧
    (flushTracks s).sess = s.sess ∧ (flushTracks s).vault = s.vault ∧ (flushTracks s).ctrs = s.ctrs ∧ (flushTracks
    s).powder = s.powder ∧ (flushTracks s).merya = s.merya ∧ (flushTracks s).prot = s.prot ∧ (flushTracks s).mem =
    s.mem ∧ (flushTracks s).hut = s.hut ∧ (flushTracks s).alarm = s.alarm ∧ (flushTracks s).card = s.card ∧
    (flushTracks s).tel = s.tel ∧ (flushTracks s).pending = s.pending := by
  simp only [flushTracks, State.ite_parts .., ite_self, and_self, implies_true, foldl_now, foldl_free, foldl_life,
    foldl_gate, foldl_rings, foldl_units, foldl_curves, foldl_sess, foldl_vault, foldl_ctrs, foldl_powder,
    foldl_merya, foldl_prot, foldl_mem, foldl_hut, foldl_alarm, foldl_card, foldl_tel, foldl_pending,
    appendReq_frame ..]

theorem trkMerge_frame (r : TrkReq) (f : Bytes → Bytes) (s : State) :
    (trkMerge r f s).now = s.now ∧ (trkMerge r f s).free = s.free ∧ (trkMerge r f s).life = s.life ∧ (trkMerge r f
    s).link = s.link ∧ (trkMerge r f s).gate = s.gate ∧ (trkMerge r f s).rings = s.rings ∧ (trkMerge r f s).units =
    s.units ∧ (trkMerge r f s).curves = s.curves ∧ (trkMerge r f s).sess = s.sess ∧ (trkMerge r f s).vault = s.vault
    ∧ (trkMerge r f s).ctrs = s.ctrs ∧ (trkMerge r f s).powder = s.powder ∧ (trkMerge r f s).merya = s.merya ∧
    (trkMerge r f s).prot = s.prot ∧ (trkMerge r f s).mem = s.mem ∧ (trkMerge r f s).stored = s.stored ∧ (trkMerge r
    f s).patrol = s.patrol ∧ (trkMerge r f s).hut = s.hut ∧ (trkMerge r f s).alarm = s.alarm ∧ (trkMerge r f s).card
    = s.card ∧ (trkMerge r f s).evts = s.evts ∧ (trkMerge r f s).tel = s.tel ∧ (trkMerge r f s).pending = s.pending := by
  simp only [trkMerge, State.ite_parts .., ite_self, and_self, implies_true]

theorem trkRequest_frame (r : TrkReq) (s : State) :
    (trkRequest r s).now = s.now ∧ (trkRequest r s).free = s.free ∧ (trkRequest r s).life = s.life ∧ (trkRequest r
    s).link = s.link ∧ (trkRequest r s).gate = s.gate ∧ (trkRequest r s).rings = s.rings ∧ (trkRequest r s).units =
    s.units ∧ (trkRequest r s).curves = s.curves ∧ (trkRequest r s).sess = s.sess ∧ (trkRequest r s).vault = s.vault
    ∧ (trkRequest r s).ctrs = s.ctrs ∧ (trkRequest r s).powder = s.powder ∧ (trkRequest r s).merya = s.merya ∧
    (trkRequest r s).prot = s.prot ∧ (trkRequest r s).mem = s.mem ∧ (trkRequest r s).stored = s.stored ∧ (trkRequest
    r s).patrol = s.patrol ∧ (trkRequest r s).hut = s.hut ∧ (trkRequest r s).alarm = s.alarm ∧ (trkRequest r s).card
    = s.card ∧ (trkRequest r s).evts = s.evts ∧ (trkRequest r s).tel = s.tel ∧ (trkRequest r s).pending = s.pending := by
  simp only [trkRequest, State.ite_parts .., ite_self, and_self, implies_true]

theorem appendOne_frame (s : State) :
    (appendOne s).now = s.now ∧ (appendOne s).free = s.free ∧ (appendOne s).life = s.life ∧ (appendOne s).gate = s.gate
    ∧ (appendOne s).rings = s.rings ∧ (appendOne s).units = s.units ∧ (appendOne s).curves = s.curves ∧ (appendOne
    s).sess = s.sess ∧ (appendOne s).vault = s.vault ∧ (appendOne s).ctrs = s.ctrs ∧ (appendOne s).powder = s.powder
    ∧ (appendOne s).merya = s.merya ∧ (appendOne s).prot = s.prot ∧ (appendOne s).mem = s.mem ∧ (appendOne s).hut =
    s.hut ∧ (appendOne s).alarm = s.alarm ∧ (appendOne s).card = s.card ∧ (appendOne s).tel = s.tel ∧ (appendOne
    s).pending = s.pending := by
  unfold appendOne
  (repeat' split) <;> simp only [State.ite_parts .., ite_self, and_self, implies_true, appendReq_frame ..]

theorem appendAllFuel_frame (x0 : Nat) (x1 : State) :
    (appendAllFuel x0 x1).now = x1.now ∧ (appendAllFuel x0 x1).free = x1.free ∧ (appendAllFuel x0 x1).life = x1.life ∧
    (appendAllFuel x0 x1).gate = x1.gate ∧ (appendAllFuel x0 x1).rings = x1.rings ∧ (appendAllFuel x0 x1).units =
    x1.units ∧ (appendAllFuel x0 x1).curves = x1.curves ∧ (appendAllFuel x0 x1).sess = x1.sess ∧ (appendAllFuel x0
    x1).vault = x1.vault ∧ (appendAllFuel x0 x1).ctrs = x1.ctrs ∧ (appendAllFuel x0 x1).powder = x1.powder ∧
    (appendAllFuel x0 x1).merya = x1.merya ∧ (appendAllFuel x0 x1).prot = x1.prot ∧ (appendAllFuel x0 x1).mem =
    x1.mem ∧ (appendAllFuel x0 x1).hut = x1.hut ∧ (appendAllFuel x0 x1).alarm = x1.alarm ∧ (appendAllFuel x0
    x1).card = x1.card ∧ (appendAllFuel x0 x1).tel = x1.tel ∧ (appendAllFuel x0 x1).pending = x1.pending := by
  induction x0 generalizing x1 with
  | zero => simp only [appendAllFuel, and_self]
  | succ n ih =>
    unfold appendAllFuel
    simp only [ih, State.ite_parts .., ite_self, and_self, implies_true, appendOne_frame ..]

theorem appendAll_frame (s : State) :
    (appendAll s).now = s.now ∧ (appendAll s).free = s.free ∧ (appendAll s).life = s.life ∧ (appendAll s).gate = s.gate
    ∧ (appendAll s).rings = s.rings ∧ (appendAll s).units = s.units ∧ (appendAll s).curves = s.curves ∧ (appendAll
    s).sess = s.sess ∧ (appendAll s).vault = s.vault ∧ (appendAll s).ctrs = s.ctrs ∧ (appendAll s).powder = s.powder
    ∧ (appendAll s).merya = s.merya ∧ (appendAll s).prot = s.prot ∧ (appendAll s).mem = s.mem ∧ (appendAll s).hut =
    s.hut ∧ (appendAll s).alarm = s.alarm ∧ (appendAll s).card = s.card ∧ (appendAll s).tel = s.tel ∧ (appendAll
    s).pending = s.pending := by
  simp only [appendAll, State.ite_parts .., ite_self, and_self, implies_true, appendAllFuel_frame ..]

theorem appendCommit_frame (r : TrkReq) (s : State) :
    (appendCommit r s).1.now = s.now ∧ (appendCommit r s).1.free = s.free ∧ (appendCommit r s).1.life = s.life ∧
    (appendCommit r s).1.gate = s.gate ∧ (appendCommit r s).1.rings = s.rings ∧ (appendCommit r s).1.units = s.units
    ∧ (appendCommit r s).1.curves = s.curves ∧ (appendCommit r s).1.sess = s.sess ∧ (appendCommit r s).1.vault =
    s.vault ∧ (appendCommit r s).1.ctrs = s.ctrs ∧ (appendCommit r s).1.powder = s.powder ∧ (appendCommit r
    s).1.merya = s.merya ∧ (appendCommit r s).1.prot = s.prot ∧ (appendCommit r s).1.mem = s.mem ∧ (appendCommit r
    s).1.hut = s.hut ∧ (appendCommit r s).1.alarm = s.alarm ∧ (appendCommit r s).1.card = s.card ∧ (appendCommit r
    s).1.tel = s.tel ∧ (appendCommit r s).1.pending = s.pending := by
  simp only [appendCommit, State.ite_parts .., ite_self, and_self, implies_true, appendAll_frame .., appendReq_frame ..]

/-! ### Protect.lean -/

theorem captureFault_frame (x : Machine.Acc) (reason : Nat) (entry : Nat) (tag : Nat) (colour : Nat) (s : State) :
    (captureFault x reason entry tag colour s).now = s.now ∧ (captureFault x reason entry tag colour s).free = s.free ∧
    (captureFault x reason entry tag colour s).life = s.life ∧ (captureFault x reason entry tag colour s).gate =
    s.gate ∧ (captureFault x reason entry tag colour s).rings = s.rings ∧ (captureFault x reason entry tag colour
    s).units = s.units ∧ (captureFault x reason entry tag colour s).curves = s.curves ∧ (captureFault x reason entry
    tag colour s).sess = s.sess ∧ (captureFault x reason entry tag colour s).vault = s.vault ∧ (captureFault x
    reason entry tag colour s).ctrs = s.ctrs ∧ (captureFault x reason entry tag colour s).powder = s.powder ∧
    (captureFault x reason entry tag colour s).merya = s.merya ∧ (captureFault x reason entry tag colour s).mem =
    s.mem ∧ (captureFault x reason entry tag colour s).stored = s.stored ∧ (captureFault x reason entry tag colour
    s).patrol = s.patrol ∧ (captureFault x reason entry tag colour s).trk = s.trk ∧ (captureFault x reason entry tag
    colour s).hut = s.hut ∧ (captureFault x reason entry tag colour s).alarm = s.alarm ∧ (captureFault x reason
    entry tag colour s).card = s.card ∧ (captureFault x reason entry tag colour s).tel = s.tel ∧ (captureFault x
    reason entry tag colour s).pending = s.pending := by
  simp only [captureFault, State.ite_parts .., ite_self, and_self, implies_true, setPuEvt_frame ..]

theorem traceFault_frame (unit : Nat) (s : State) :
    (traceFault unit s).now = s.now ∧ (traceFault unit s).free = s.free ∧ (traceFault unit s).life = s.life ∧
    (traceFault unit s).link = s.link ∧ (traceFault unit s).gate = s.gate ∧ (traceFault unit s).rings = s.rings ∧
    (traceFault unit s).units = s.units ∧ (traceFault unit s).curves = s.curves ∧ (traceFault unit s).sess = s.sess
    ∧ (traceFault unit s).vault = s.vault ∧ (traceFault unit s).ctrs = s.ctrs ∧ (traceFault unit s).powder =
    s.powder ∧ (traceFault unit s).merya = s.merya ∧ (traceFault unit s).prot = s.prot ∧ (traceFault unit s).mem =
    s.mem ∧ (traceFault unit s).stored = s.stored ∧ (traceFault unit s).patrol = s.patrol ∧ (traceFault unit s).hut
    = s.hut ∧ (traceFault unit s).alarm = s.alarm ∧ (traceFault unit s).card = s.card ∧ (traceFault unit s).evts =
    s.evts ∧ (traceFault unit s).tel = s.tel ∧ (traceFault unit s).pending = s.pending := by
  simp only [traceFault, State.ite_parts .., ite_self, and_self, implies_true, trkRequest_frame ..]

/-! ### Words.lean -/

theorem retireRow_frame (bank : Nat) (row : Nat) (s : State) :
    (retireRow bank row s).now = s.now ∧ (retireRow bank row s).free = s.free ∧ (retireRow bank row s).life = s.life ∧
    (retireRow bank row s).gate = s.gate ∧ (retireRow bank row s).rings = s.rings ∧ (retireRow bank row s).units =
    s.units ∧ (retireRow bank row s).curves = s.curves ∧ (retireRow bank row s).sess = s.sess ∧ (retireRow bank row
    s).vault = s.vault ∧ (retireRow bank row s).ctrs = s.ctrs ∧ (retireRow bank row s).powder = s.powder ∧
    (retireRow bank row s).merya = s.merya ∧ (retireRow bank row s).prot = s.prot ∧ (retireRow bank row s).mem =
    s.mem ∧ (retireRow bank row s).patrol = s.patrol ∧ (retireRow bank row s).hut = s.hut ∧ (retireRow bank row
    s).alarm = s.alarm ∧ (retireRow bank row s).card = s.card ∧ (retireRow bank row s).tel = s.tel ∧ (retireRow bank
    row s).pending = s.pending := by
  simp only [retireRow, State.ite_parts .., ite_self, and_self, implies_true, trkRequest_frame .., setRsfEvt_frame ..]

theorem weakRule_frame (bank : Nat) (w : Nat) (s : State) :
    (weakRule bank w s).now = s.now ∧ (weakRule bank w s).free = s.free ∧ (weakRule bank w s).life = s.life ∧ (weakRule
    bank w s).gate = s.gate ∧ (weakRule bank w s).rings = s.rings ∧ (weakRule bank w s).units = s.units ∧ (weakRule
    bank w s).curves = s.curves ∧ (weakRule bank w s).sess = s.sess ∧ (weakRule bank w s).vault = s.vault ∧
    (weakRule bank w s).ctrs = s.ctrs ∧ (weakRule bank w s).powder = s.powder ∧ (weakRule bank w s).merya = s.merya
    ∧ (weakRule bank w s).prot = s.prot ∧ (weakRule bank w s).mem = s.mem ∧ (weakRule bank w s).patrol = s.patrol ∧
    (weakRule bank w s).hut = s.hut ∧ (weakRule bank w s).alarm = s.alarm ∧ (weakRule bank w s).card = s.card ∧
    (weakRule bank w s).tel = s.tel ∧ (weakRule bank w s).pending = s.pending := by
  unfold weakRule
  (repeat' split) <;> simp only [State.ite_parts .., ite_self, and_self, implies_true, retireRow_frame .., setRsfEvt_frame ..]

theorem noteCorrected_frame (bank : Nat) (w : Nat) (s : State) :
    (noteCorrected bank w s).now = s.now ∧ (noteCorrected bank w s).free = s.free ∧ (noteCorrected bank w s).life =
    s.life ∧ (noteCorrected bank w s).gate = s.gate ∧ (noteCorrected bank w s).rings = s.rings ∧ (noteCorrected bank
    w s).units = s.units ∧ (noteCorrected bank w s).curves = s.curves ∧ (noteCorrected bank w s).sess = s.sess ∧
    (noteCorrected bank w s).vault = s.vault ∧ (noteCorrected bank w s).ctrs = s.ctrs ∧ (noteCorrected bank w
    s).powder = s.powder ∧ (noteCorrected bank w s).merya = s.merya ∧ (noteCorrected bank w s).prot = s.prot ∧
    (noteCorrected bank w s).mem = s.mem ∧ (noteCorrected bank w s).patrol = s.patrol ∧ (noteCorrected bank w s).hut
    = s.hut ∧ (noteCorrected bank w s).alarm = s.alarm ∧ (noteCorrected bank w s).card = s.card ∧ (noteCorrected
    bank w s).tel = s.tel ∧ (noteCorrected bank w s).pending = s.pending := by
  simp only [noteCorrected, State.ite_parts .., ite_self, and_self, implies_true, weakRule_frame ..]

theorem wearWrite_frame (bank : Nat) (w : Nat) (s : State) :
    (wearWrite bank w s).now = s.now ∧ (wearWrite bank w s).free = s.free ∧ (wearWrite bank w s).life = s.life ∧
    (wearWrite bank w s).link = s.link ∧ (wearWrite bank w s).gate = s.gate ∧ (wearWrite bank w s).rings = s.rings ∧
    (wearWrite bank w s).units = s.units ∧ (wearWrite bank w s).curves = s.curves ∧ (wearWrite bank w s).sess =
    s.sess ∧ (wearWrite bank w s).vault = s.vault ∧ (wearWrite bank w s).ctrs = s.ctrs ∧ (wearWrite bank w s).powder
    = s.powder ∧ (wearWrite bank w s).merya = s.merya ∧ (wearWrite bank w s).prot = s.prot ∧ (wearWrite bank w
    s).mem = s.mem ∧ (wearWrite bank w s).patrol = s.patrol ∧ (wearWrite bank w s).trk = s.trk ∧ (wearWrite bank w
    s).hut = s.hut ∧ (wearWrite bank w s).alarm = s.alarm ∧ (wearWrite bank w s).card = s.card ∧ (wearWrite bank w
    s).evts = s.evts ∧ (wearWrite bank w s).tel = s.tel ∧ (wearWrite bank w s).pending = s.pending := by
  simp only [wearWrite, State.ite_parts .., ite_self, and_self, implies_true]

theorem noteWritten_frame (bank : Nat) (w : Nat) (s0 : State) :
    (noteWritten bank w s0).now = s0.now ∧ (noteWritten bank w s0).free = s0.free ∧ (noteWritten bank w s0).life =
    s0.life ∧ (noteWritten bank w s0).link = s0.link ∧ (noteWritten bank w s0).gate = s0.gate ∧ (noteWritten bank w
    s0).rings = s0.rings ∧ (noteWritten bank w s0).units = s0.units ∧ (noteWritten bank w s0).curves = s0.curves ∧
    (noteWritten bank w s0).sess = s0.sess ∧ (noteWritten bank w s0).vault = s0.vault ∧ (noteWritten bank w s0).ctrs
    = s0.ctrs ∧ (noteWritten bank w s0).powder = s0.powder ∧ (noteWritten bank w s0).merya = s0.merya ∧ (noteWritten
    bank w s0).prot = s0.prot ∧ (noteWritten bank w s0).mem = s0.mem ∧ (noteWritten bank w s0).patrol = s0.patrol ∧
    (noteWritten bank w s0).trk = s0.trk ∧ (noteWritten bank w s0).hut = s0.hut ∧ (noteWritten bank w s0).alarm =
    s0.alarm ∧ (noteWritten bank w s0).card = s0.card ∧ (noteWritten bank w s0).evts = s0.evts ∧ (noteWritten bank w
    s0).tel = s0.tel ∧ (noteWritten bank w s0).pending = s0.pending := by
  simp only [noteWritten, State.ite_parts .., ite_self, and_self, implies_true, wearWrite_frame ..]

theorem setCond_frame (bank : Nat) (w : Nat) (c : WordCond) (s : State) :
    (setCond bank w c s).now = s.now ∧ (setCond bank w c s).free = s.free ∧ (setCond bank w c s).life = s.life ∧
    (setCond bank w c s).link = s.link ∧ (setCond bank w c s).gate = s.gate ∧ (setCond bank w c s).rings = s.rings ∧
    (setCond bank w c s).units = s.units ∧ (setCond bank w c s).curves = s.curves ∧ (setCond bank w c s).sess =
    s.sess ∧ (setCond bank w c s).vault = s.vault ∧ (setCond bank w c s).ctrs = s.ctrs ∧ (setCond bank w c s).powder
    = s.powder ∧ (setCond bank w c s).merya = s.merya ∧ (setCond bank w c s).prot = s.prot ∧ (setCond bank w c
    s).mem = s.mem ∧ (setCond bank w c s).patrol = s.patrol ∧ (setCond bank w c s).trk = s.trk ∧ (setCond bank w c
    s).hut = s.hut ∧ (setCond bank w c s).alarm = s.alarm ∧ (setCond bank w c s).card = s.card ∧ (setCond bank w c
    s).evts = s.evts ∧ (setCond bank w c s).tel = s.tel ∧ (setCond bank w c s).pending = s.pending := by
  simp only [setCond, State.ite_parts .., ite_self, and_self, implies_true]

theorem storeWord_frame (a : Nat) (n : Nat) (x : Nat) (s : State) :
    (storeWord a n x s).now = s.now ∧ (storeWord a n x s).free = s.free ∧ (storeWord a n x s).life = s.life ∧ (storeWord
    a n x s).gate = s.gate ∧ (storeWord a n x s).rings = s.rings ∧ (storeWord a n x s).units = s.units ∧ (storeWord
    a n x s).curves = s.curves ∧ (storeWord a n x s).sess = s.sess ∧ (storeWord a n x s).vault = s.vault ∧
    (storeWord a n x s).ctrs = s.ctrs ∧ (storeWord a n x s).powder = s.powder ∧ (storeWord a n x s).merya = s.merya
    ∧ (storeWord a n x s).prot = s.prot ∧ (storeWord a n x s).mem = s.mem ∧ (storeWord a n x s).patrol = s.patrol ∧
    (storeWord a n x s).hut = s.hut ∧ (storeWord a n x s).alarm = s.alarm ∧ (storeWord a n x s).card = s.card ∧
    (storeWord a n x s).tel = s.tel ∧ (storeWord a n x s).pending = s.pending := by
  unfold storeWord
  (repeat' split) <;> simp only [State.ite_parts .., ite_self, and_self, implies_true, noteWritten_frame .., setCond_frame .., noteCorrected_frame ..]

theorem noteUe_frame (bank : Nat) (w : Nat) (part : Bool) (s : State) :
    (noteUe bank w part s).now = s.now ∧ (noteUe bank w part s).free = s.free ∧ (noteUe bank w part s).life = s.life ∧
    (noteUe bank w part s).gate = s.gate ∧ (noteUe bank w part s).rings = s.rings ∧ (noteUe bank w part s).units =
    s.units ∧ (noteUe bank w part s).curves = s.curves ∧ (noteUe bank w part s).sess = s.sess ∧ (noteUe bank w part
    s).vault = s.vault ∧ (noteUe bank w part s).ctrs = s.ctrs ∧ (noteUe bank w part s).powder = s.powder ∧ (noteUe
    bank w part s).merya = s.merya ∧ (noteUe bank w part s).prot = s.prot ∧ (noteUe bank w part s).mem = s.mem ∧
    (noteUe bank w part s).patrol = s.patrol ∧ (noteUe bank w part s).trk = s.trk ∧ (noteUe bank w part s).hut =
    s.hut ∧ (noteUe bank w part s).alarm = s.alarm ∧ (noteUe bank w part s).card = s.card ∧ (noteUe bank w part
    s).tel = s.tel ∧ (noteUe bank w part s).pending = s.pending := by
  simp only [noteUe, State.ite_parts .., ite_self, and_self, implies_true, setCond_frame .., setRsfEvt_frame ..]

theorem writtenWords_frame (bank : Nat) (first : Nat) (n : Nat) (s : State) :
    (writtenWords bank first n s).now = s.now ∧ (writtenWords bank first n s).free = s.free ∧ (writtenWords bank
    first n s).life = s.life ∧ (writtenWords bank first n s).link = s.link ∧ (writtenWords bank first n s).gate =
    s.gate ∧ (writtenWords bank first n s).rings = s.rings ∧ (writtenWords bank first n s).units = s.units ∧
    (writtenWords bank first n s).curves = s.curves ∧ (writtenWords bank first n s).sess = s.sess ∧ (writtenWords
    bank first n s).vault = s.vault ∧ (writtenWords bank first n s).ctrs = s.ctrs ∧ (writtenWords bank first n
    s).powder = s.powder ∧ (writtenWords bank first n s).merya = s.merya ∧ (writtenWords bank first n s).prot =
    s.prot ∧ (writtenWords bank first n s).mem = s.mem ∧ (writtenWords bank first n s).patrol = s.patrol ∧
    (writtenWords bank first n s).trk = s.trk ∧ (writtenWords bank first n s).hut = s.hut ∧ (writtenWords bank first
    n s).alarm = s.alarm ∧ (writtenWords bank first n s).card = s.card ∧ (writtenWords bank first n s).evts = s.evts
    ∧ (writtenWords bank first n s).tel = s.tel ∧ (writtenWords bank first n s).pending = s.pending := by
  simp only [writtenWords, State.ite_parts .., ite_self, and_self, implies_true, foldl_now, foldl_free, foldl_life,
    foldl_link, foldl_gate, foldl_rings, foldl_units, foldl_curves, foldl_sess, foldl_vault, foldl_ctrs, foldl_powder,
    foldl_merya, foldl_prot, foldl_mem, foldl_patrol, foldl_trk, foldl_hut, foldl_alarm, foldl_card, foldl_evts,
    foldl_tel, foldl_pending, noteWritten_frame .., setCond_frame ..]

theorem readAt_frame (bank : Nat) (w : Nat) (s : State) :
    (readAt bank w s).now = s.now ∧ (readAt bank w s).free = s.free ∧ (readAt bank w s).life = s.life ∧ (readAt bank
    w s).gate = s.gate ∧ (readAt bank w s).rings = s.rings ∧ (readAt bank w s).units = s.units ∧ (readAt bank w
    s).curves = s.curves ∧ (readAt bank w s).sess = s.sess ∧ (readAt bank w s).vault = s.vault ∧ (readAt bank w
    s).ctrs = s.ctrs ∧ (readAt bank w s).powder = s.powder ∧ (readAt bank w s).merya = s.merya ∧ (readAt bank w
    s).prot = s.prot ∧ (readAt bank w s).mem = s.mem ∧ (readAt bank w s).patrol = s.patrol ∧ (readAt bank w s).hut =
    s.hut ∧ (readAt bank w s).alarm = s.alarm ∧ (readAt bank w s).card = s.card ∧ (readAt bank w s).tel = s.tel ∧
    (readAt bank w s).pending = s.pending := by
  simp only [readAt, State.ite_parts .., ite_self, and_self, implies_true, noteCorrected_frame .., noteUe_frame ..]

theorem readWord_frame (x : Nat) (s : State) :
    (readWord x s).now = s.now ∧ (readWord x s).free = s.free ∧ (readWord x s).life = s.life ∧ (readWord x s).gate =
    s.gate ∧ (readWord x s).rings = s.rings ∧ (readWord x s).units = s.units ∧ (readWord x s).curves = s.curves ∧
    (readWord x s).sess = s.sess ∧ (readWord x s).vault = s.vault ∧ (readWord x s).ctrs = s.ctrs ∧ (readWord x
    s).powder = s.powder ∧ (readWord x s).merya = s.merya ∧ (readWord x s).prot = s.prot ∧ (readWord x s).mem =
    s.mem ∧ (readWord x s).patrol = s.patrol ∧ (readWord x s).hut = s.hut ∧ (readWord x s).alarm = s.alarm ∧
    (readWord x s).card = s.card ∧ (readWord x s).tel = s.tel ∧ (readWord x s).pending = s.pending := by
  unfold readWord
  (repeat' split) <;> simp only [State.ite_parts .., ite_self, and_self, implies_true, readAt_frame ..]

theorem readWords_frame (a : Nat) (n : Nat) (s : State) :
    (readWords a n s).now = s.now ∧ (readWords a n s).free = s.free ∧ (readWords a n s).life = s.life ∧ (readWords a n
    s).gate = s.gate ∧ (readWords a n s).rings = s.rings ∧ (readWords a n s).units = s.units ∧ (readWords a n
    s).curves = s.curves ∧ (readWords a n s).sess = s.sess ∧ (readWords a n s).vault = s.vault ∧ (readWords a n
    s).ctrs = s.ctrs ∧ (readWords a n s).powder = s.powder ∧ (readWords a n s).merya = s.merya ∧ (readWords a n
    s).prot = s.prot ∧ (readWords a n s).mem = s.mem ∧ (readWords a n s).patrol = s.patrol ∧ (readWords a n s).hut =
    s.hut ∧ (readWords a n s).alarm = s.alarm ∧ (readWords a n s).card = s.card ∧ (readWords a n s).tel = s.tel ∧
    (readWords a n s).pending = s.pending := by
  simp only [readWords, State.ite_parts .., ite_self, and_self, implies_true, foldl_now, foldl_free, foldl_life,
    foldl_gate, foldl_rings, foldl_units, foldl_curves, foldl_sess, foldl_vault, foldl_ctrs, foldl_powder,
    foldl_merya, foldl_prot, foldl_mem, foldl_patrol, foldl_hut, foldl_alarm, foldl_card, foldl_tel, foldl_pending,
    readWord_frame ..]

theorem readRange_frame (bank : Nat) (first : Nat) (n : Nat) (s : State) :
    (readRange bank first n s).now = s.now ∧ (readRange bank first n s).free = s.free ∧ (readRange bank first n
    s).life = s.life ∧ (readRange bank first n s).gate = s.gate ∧ (readRange bank first n s).rings = s.rings ∧
    (readRange bank first n s).units = s.units ∧ (readRange bank first n s).curves = s.curves ∧ (readRange bank
    first n s).sess = s.sess ∧ (readRange bank first n s).vault = s.vault ∧ (readRange bank first n s).ctrs = s.ctrs
    ∧ (readRange bank first n s).powder = s.powder ∧ (readRange bank first n s).merya = s.merya ∧ (readRange bank
    first n s).prot = s.prot ∧ (readRange bank first n s).mem = s.mem ∧ (readRange bank first n s).patrol = s.patrol
    ∧ (readRange bank first n s).hut = s.hut ∧ (readRange bank first n s).alarm = s.alarm ∧ (readRange bank first n
    s).card = s.card ∧ (readRange bank first n s).tel = s.tel ∧ (readRange bank first n s).pending = s.pending := by
  simp only [readRange, State.ite_parts .., ite_self, and_self, implies_true, foldl_now, foldl_free, foldl_life,
    foldl_gate, foldl_rings, foldl_units, foldl_curves, foldl_sess, foldl_vault, foldl_ctrs, foldl_powder,
    foldl_merya, foldl_prot, foldl_mem, foldl_patrol, foldl_hut, foldl_alarm, foldl_card, foldl_tel, foldl_pending,
    readAt_frame ..]

theorem readHolds_frame (j : Job) (s : State) :
    (readHolds j s).now = s.now ∧ (readHolds j s).free = s.free ∧ (readHolds j s).life = s.life ∧ (readHolds j
    s).gate = s.gate ∧ (readHolds j s).rings = s.rings ∧ (readHolds j s).units = s.units ∧ (readHolds j s).curves =
    s.curves ∧ (readHolds j s).sess = s.sess ∧ (readHolds j s).vault = s.vault ∧ (readHolds j s).ctrs = s.ctrs ∧
    (readHolds j s).powder = s.powder ∧ (readHolds j s).merya = s.merya ∧ (readHolds j s).prot = s.prot ∧ (readHolds
    j s).mem = s.mem ∧ (readHolds j s).patrol = s.patrol ∧ (readHolds j s).hut = s.hut ∧ (readHolds j s).alarm =
    s.alarm ∧ (readHolds j s).card = s.card ∧ (readHolds j s).tel = s.tel ∧ (readHolds j s).pending = s.pending := by
  simp only [readHolds, State.ite_parts .., ite_self, and_self, implies_true, foldl_now, foldl_free, foldl_life,
    foldl_gate, foldl_rings, foldl_units, foldl_curves, foldl_sess, foldl_vault, foldl_ctrs, foldl_powder,
    foldl_merya, foldl_prot, foldl_mem, foldl_patrol, foldl_hut, foldl_alarm, foldl_card, foldl_tel, foldl_pending,
    readRange_frame ..]

theorem readContext_frame (n : Nat) (s : State) :
    (readContext n s).now = s.now ∧ (readContext n s).free = s.free ∧ (readContext n s).life = s.life ∧ (readContext
    n s).gate = s.gate ∧ (readContext n s).rings = s.rings ∧ (readContext n s).units = s.units ∧ (readContext n
    s).curves = s.curves ∧ (readContext n s).sess = s.sess ∧ (readContext n s).vault = s.vault ∧ (readContext n
    s).ctrs = s.ctrs ∧ (readContext n s).powder = s.powder ∧ (readContext n s).merya = s.merya ∧ (readContext n
    s).prot = s.prot ∧ (readContext n s).mem = s.mem ∧ (readContext n s).patrol = s.patrol ∧ (readContext n s).hut =
    s.hut ∧ (readContext n s).alarm = s.alarm ∧ (readContext n s).card = s.card ∧ (readContext n s).tel = s.tel ∧
    (readContext n s).pending = s.pending := by
  simp only [readContext, State.ite_parts .., ite_self, and_self, implies_true, readRange_frame ..]

theorem writeCell_frame (r : SlotRef) (gen : Nat) (s : State) :
    (writeCell r gen s).now = s.now ∧ (writeCell r gen s).free = s.free ∧ (writeCell r gen s).life = s.life ∧
    (writeCell r gen s).link = s.link ∧ (writeCell r gen s).gate = s.gate ∧ (writeCell r gen s).rings = s.rings ∧
    (writeCell r gen s).units = s.units ∧ (writeCell r gen s).curves = s.curves ∧ (writeCell r gen s).sess = s.sess
    ∧ (writeCell r gen s).vault = s.vault ∧ (writeCell r gen s).ctrs = s.ctrs ∧ (writeCell r gen s).powder =
    s.powder ∧ (writeCell r gen s).merya = s.merya ∧ (writeCell r gen s).prot = s.prot ∧ (writeCell r gen s).mem =
    s.mem ∧ (writeCell r gen s).patrol = s.patrol ∧ (writeCell r gen s).trk = s.trk ∧ (writeCell r gen s).hut =
    s.hut ∧ (writeCell r gen s).alarm = s.alarm ∧ (writeCell r gen s).card = s.card ∧ (writeCell r gen s).evts =
    s.evts ∧ (writeCell r gen s).tel = s.tel ∧ (writeCell r gen s).pending = s.pending := by
  simp only [writeCell, State.ite_parts .., ite_self, and_self, implies_true, writtenWords_frame ..]

theorem writeContextWords_frame (n : Nat) (first : Nat) (k : Nat) (s : State) :
    (writeContextWords n first k s).now = s.now ∧ (writeContextWords n first k s).free = s.free ∧ (writeContextWords
    n first k s).life = s.life ∧ (writeContextWords n first k s).link = s.link ∧ (writeContextWords n first k
    s).gate = s.gate ∧ (writeContextWords n first k s).rings = s.rings ∧ (writeContextWords n first k s).units =
    s.units ∧ (writeContextWords n first k s).curves = s.curves ∧ (writeContextWords n first k s).sess = s.sess ∧
    (writeContextWords n first k s).vault = s.vault ∧ (writeContextWords n first k s).ctrs = s.ctrs ∧
    (writeContextWords n first k s).powder = s.powder ∧ (writeContextWords n first k s).merya = s.merya ∧
    (writeContextWords n first k s).prot = s.prot ∧ (writeContextWords n first k s).mem = s.mem ∧ (writeContextWords
    n first k s).patrol = s.patrol ∧ (writeContextWords n first k s).trk = s.trk ∧ (writeContextWords n first k
    s).hut = s.hut ∧ (writeContextWords n first k s).alarm = s.alarm ∧ (writeContextWords n first k s).card = s.card
    ∧ (writeContextWords n first k s).evts = s.evts ∧ (writeContextWords n first k s).tel = s.tel ∧
    (writeContextWords n first k s).pending = s.pending := by
  simp only [writeContextWords, State.ite_parts .., ite_self, and_self, implies_true, writtenWords_frame ..]

theorem storeBytes_frame (a : Nat) (bs : Bytes) (s : State) :
    (storeBytes a bs s).now = s.now ∧ (storeBytes a bs s).free = s.free ∧ (storeBytes a bs s).life = s.life ∧
    (storeBytes a bs s).gate = s.gate ∧ (storeBytes a bs s).rings = s.rings ∧ (storeBytes a bs s).units = s.units ∧
    (storeBytes a bs s).curves = s.curves ∧ (storeBytes a bs s).sess = s.sess ∧ (storeBytes a bs s).vault = s.vault
    ∧ (storeBytes a bs s).ctrs = s.ctrs ∧ (storeBytes a bs s).powder = s.powder ∧ (storeBytes a bs s).merya =
    s.merya ∧ (storeBytes a bs s).prot = s.prot ∧ (storeBytes a bs s).patrol = s.patrol ∧ (storeBytes a bs s).hut =
    s.hut ∧ (storeBytes a bs s).alarm = s.alarm ∧ (storeBytes a bs s).card = s.card ∧ (storeBytes a bs s).tel =
    s.tel ∧ (storeBytes a bs s).pending = s.pending := by
  simp only [storeBytes, State.ite_parts .., ite_self, and_self, implies_true, foldl_now, foldl_free, foldl_life,
    foldl_gate, foldl_rings, foldl_units, foldl_curves, foldl_sess, foldl_vault, foldl_ctrs, foldl_powder,
    foldl_merya, foldl_prot, foldl_patrol, foldl_hut, foldl_alarm, foldl_card, foldl_tel, foldl_pending,
    storeWord_frame ..]

theorem rowRetired_frame (bank : Nat) (row : Nat) (s : State) :
    (rowRetired bank row s).now = s.now ∧ (rowRetired bank row s).free = s.free ∧ (rowRetired bank row s).life = s.life
    ∧ (rowRetired bank row s).gate = s.gate ∧ (rowRetired bank row s).rings = s.rings ∧ (rowRetired bank row
    s).units = s.units ∧ (rowRetired bank row s).curves = s.curves ∧ (rowRetired bank row s).sess = s.sess ∧
    (rowRetired bank row s).vault = s.vault ∧ (rowRetired bank row s).ctrs = s.ctrs ∧ (rowRetired bank row s).powder
    = s.powder ∧ (rowRetired bank row s).merya = s.merya ∧ (rowRetired bank row s).prot = s.prot ∧ (rowRetired bank
    row s).mem = s.mem ∧ (rowRetired bank row s).patrol = s.patrol ∧ (rowRetired bank row s).hut = s.hut ∧
    (rowRetired bank row s).alarm = s.alarm ∧ (rowRetired bank row s).card = s.card ∧ (rowRetired bank row s).tel =
    s.tel ∧ (rowRetired bank row s).pending = s.pending := by
  simp only [rowRetired, State.ite_parts .., ite_self, and_self, implies_true, trkRequest_frame .., setRsfEvt_frame ..]

theorem clearRange_frame (bank : Nat) (first : Nat) (n : Nat) (s : State) :
    (clearRange bank first n s).now = s.now ∧ (clearRange bank first n s).free = s.free ∧ (clearRange bank first n
    s).life = s.life ∧ (clearRange bank first n s).link = s.link ∧ (clearRange bank first n s).gate = s.gate ∧
    (clearRange bank first n s).rings = s.rings ∧ (clearRange bank first n s).units = s.units ∧ (clearRange bank
    first n s).curves = s.curves ∧ (clearRange bank first n s).sess = s.sess ∧ (clearRange bank first n s).vault =
    s.vault ∧ (clearRange bank first n s).ctrs = s.ctrs ∧ (clearRange bank first n s).powder = s.powder ∧
    (clearRange bank first n s).merya = s.merya ∧ (clearRange bank first n s).prot = s.prot ∧ (clearRange bank first
    n s).mem = s.mem ∧ (clearRange bank first n s).patrol = s.patrol ∧ (clearRange bank first n s).trk = s.trk ∧
    (clearRange bank first n s).hut = s.hut ∧ (clearRange bank first n s).alarm = s.alarm ∧ (clearRange bank first n
    s).card = s.card ∧ (clearRange bank first n s).evts = s.evts ∧ (clearRange bank first n s).tel = s.tel ∧
    (clearRange bank first n s).pending = s.pending := by
  simp only [clearRange, State.ite_parts .., ite_self, and_self, implies_true]

theorem stageWords_frame (tag : Nat) (first : Nat) (n : Nat) (s : State) :
    (stageWords tag first n s).now = s.now ∧ (stageWords tag first n s).free = s.free ∧ (stageWords tag first n
    s).life = s.life ∧ (stageWords tag first n s).link = s.link ∧ (stageWords tag first n s).gate = s.gate ∧
    (stageWords tag first n s).rings = s.rings ∧ (stageWords tag first n s).units = s.units ∧ (stageWords tag first
    n s).curves = s.curves ∧ (stageWords tag first n s).sess = s.sess ∧ (stageWords tag first n s).vault = s.vault ∧
    (stageWords tag first n s).ctrs = s.ctrs ∧ (stageWords tag first n s).powder = s.powder ∧ (stageWords tag first
    n s).merya = s.merya ∧ (stageWords tag first n s).prot = s.prot ∧ (stageWords tag first n s).mem = s.mem ∧
    (stageWords tag first n s).patrol = s.patrol ∧ (stageWords tag first n s).trk = s.trk ∧ (stageWords tag first n
    s).hut = s.hut ∧ (stageWords tag first n s).alarm = s.alarm ∧ (stageWords tag first n s).card = s.card ∧
    (stageWords tag first n s).evts = s.evts ∧ (stageWords tag first n s).tel = s.tel ∧ (stageWords tag first n
    s).pending = s.pending := by
  simp only [stageWords, State.ite_parts .., ite_self, and_self, implies_true, writtenWords_frame ..]

/-! ### Mail.lean -/

theorem setApplet_frame (n : Nat) (a : Applet) (s : State) :
    (setApplet n a s).now = s.now ∧ (setApplet n a s).free = s.free ∧ (setApplet n a s).life = s.life ∧ (setApplet n a
    s).link = s.link ∧ (setApplet n a s).gate = s.gate ∧ (setApplet n a s).rings = s.rings ∧ (setApplet n a s).units
    = s.units ∧ (setApplet n a s).curves = s.curves ∧ (setApplet n a s).sess = s.sess ∧ (setApplet n a s).vault =
    s.vault ∧ (setApplet n a s).ctrs = s.ctrs ∧ (setApplet n a s).powder = s.powder ∧ (setApplet n a s).prot =
    s.prot ∧ (setApplet n a s).mem = s.mem ∧ (setApplet n a s).stored = s.stored ∧ (setApplet n a s).patrol =
    s.patrol ∧ (setApplet n a s).trk = s.trk ∧ (setApplet n a s).hut = s.hut ∧ (setApplet n a s).alarm = s.alarm ∧
    (setApplet n a s).card = s.card ∧ (setApplet n a s).evts = s.evts ∧ (setApplet n a s).tel = s.tel ∧ (setApplet n
    a s).pending = s.pending := by
  simp only [setApplet, State.ite_parts .., ite_self, and_self, implies_true]

theorem modApplet_frame (n : Nat) (f : Applet → Applet) (s : State) :
    (modApplet n f s).now = s.now ∧ (modApplet n f s).free = s.free ∧ (modApplet n f s).life = s.life ∧ (modApplet n f
    s).link = s.link ∧ (modApplet n f s).gate = s.gate ∧ (modApplet n f s).rings = s.rings ∧ (modApplet n f s).units
    = s.units ∧ (modApplet n f s).curves = s.curves ∧ (modApplet n f s).sess = s.sess ∧ (modApplet n f s).vault =
    s.vault ∧ (modApplet n f s).ctrs = s.ctrs ∧ (modApplet n f s).powder = s.powder ∧ (modApplet n f s).prot =
    s.prot ∧ (modApplet n f s).mem = s.mem ∧ (modApplet n f s).stored = s.stored ∧ (modApplet n f s).patrol =
    s.patrol ∧ (modApplet n f s).trk = s.trk ∧ (modApplet n f s).hut = s.hut ∧ (modApplet n f s).alarm = s.alarm ∧
    (modApplet n f s).card = s.card ∧ (modApplet n f s).evts = s.evts ∧ (modApplet n f s).tel = s.tel ∧ (modApplet n
    f s).pending = s.pending := by
  simp only [modApplet, State.ite_parts .., ite_self, and_self, implies_true, setApplet_frame ..]

theorem moveApplet_frame (n : Nat) (st : AppState) (s : State) :
    (moveApplet n st s).now = s.now ∧ (moveApplet n st s).free = s.free ∧ (moveApplet n st s).life = s.life ∧
    (moveApplet n st s).gate = s.gate ∧ (moveApplet n st s).rings = s.rings ∧ (moveApplet n st s).units = s.units ∧
    (moveApplet n st s).curves = s.curves ∧ (moveApplet n st s).sess = s.sess ∧ (moveApplet n st s).vault = s.vault
    ∧ (moveApplet n st s).ctrs = s.ctrs ∧ (moveApplet n st s).powder = s.powder ∧ (moveApplet n st s).prot = s.prot
    ∧ (moveApplet n st s).mem = s.mem ∧ (moveApplet n st s).stored = s.stored ∧ (moveApplet n st s).patrol =
    s.patrol ∧ (moveApplet n st s).trk = s.trk ∧ (moveApplet n st s).hut = s.hut ∧ (moveApplet n st s).alarm =
    s.alarm ∧ (moveApplet n st s).card = s.card ∧ (moveApplet n st s).tel = s.tel ∧ (moveApplet n st s).pending =
    s.pending := by
  simp only [moveApplet, State.ite_parts .., ite_self, and_self, implies_true, raiseEvent_frame .., modApplet_frame ..]

theorem wakeApplet_frame (n : Nat) (s : State) :
    (wakeApplet n s).now = s.now ∧ (wakeApplet n s).free = s.free ∧ (wakeApplet n s).life = s.life ∧ (wakeApplet n
    s).gate = s.gate ∧ (wakeApplet n s).rings = s.rings ∧ (wakeApplet n s).units = s.units ∧ (wakeApplet n s).curves
    = s.curves ∧ (wakeApplet n s).sess = s.sess ∧ (wakeApplet n s).vault = s.vault ∧ (wakeApplet n s).ctrs = s.ctrs
    ∧ (wakeApplet n s).powder = s.powder ∧ (wakeApplet n s).prot = s.prot ∧ (wakeApplet n s).mem = s.mem ∧
    (wakeApplet n s).stored = s.stored ∧ (wakeApplet n s).patrol = s.patrol ∧ (wakeApplet n s).trk = s.trk ∧
    (wakeApplet n s).hut = s.hut ∧ (wakeApplet n s).alarm = s.alarm ∧ (wakeApplet n s).card = s.card ∧ (wakeApplet n
    s).tel = s.tel ∧ (wakeApplet n s).pending = s.pending := by
  simp only [wakeApplet, State.ite_parts .., ite_self, and_self, implies_true, moveApplet_frame .., modApplet_frame ..]
  (repeat' split) <;> simp only [State.ite_parts .., ite_self, and_self, implies_true, moveApplet_frame .., modApplet_frame ..]

theorem setCore_frame (c : Nat) (k : Rink) (s : State) :
    (setCore c k s).now = s.now ∧ (setCore c k s).free = s.free ∧ (setCore c k s).life = s.life ∧ (setCore c k s).link =
    s.link ∧ (setCore c k s).gate = s.gate ∧ (setCore c k s).rings = s.rings ∧ (setCore c k s).units = s.units ∧
    (setCore c k s).curves = s.curves ∧ (setCore c k s).sess = s.sess ∧ (setCore c k s).vault = s.vault ∧ (setCore c
    k s).ctrs = s.ctrs ∧ (setCore c k s).powder = s.powder ∧ (setCore c k s).prot = s.prot ∧ (setCore c k s).mem =
    s.mem ∧ (setCore c k s).stored = s.stored ∧ (setCore c k s).patrol = s.patrol ∧ (setCore c k s).trk = s.trk ∧
    (setCore c k s).hut = s.hut ∧ (setCore c k s).alarm = s.alarm ∧ (setCore c k s).card = s.card ∧ (setCore c k
    s).evts = s.evts ∧ (setCore c k s).tel = s.tel ∧ (setCore c k s).pending = s.pending := by
  simp only [setCore, State.ite_parts .., ite_self, and_self, implies_true]

theorem modCore_frame (c : Nat) (f : Rink → Rink) (s : State) :
    (modCore c f s).now = s.now ∧ (modCore c f s).free = s.free ∧ (modCore c f s).life = s.life ∧ (modCore c f s).link =
    s.link ∧ (modCore c f s).gate = s.gate ∧ (modCore c f s).rings = s.rings ∧ (modCore c f s).units = s.units ∧
    (modCore c f s).curves = s.curves ∧ (modCore c f s).sess = s.sess ∧ (modCore c f s).vault = s.vault ∧ (modCore c
    f s).ctrs = s.ctrs ∧ (modCore c f s).powder = s.powder ∧ (modCore c f s).prot = s.prot ∧ (modCore c f s).mem =
    s.mem ∧ (modCore c f s).stored = s.stored ∧ (modCore c f s).patrol = s.patrol ∧ (modCore c f s).trk = s.trk ∧
    (modCore c f s).hut = s.hut ∧ (modCore c f s).alarm = s.alarm ∧ (modCore c f s).card = s.card ∧ (modCore c f
    s).evts = s.evts ∧ (modCore c f s).tel = s.tel ∧ (modCore c f s).pending = s.pending := by
  simp only [modCore, State.ite_parts .., ite_self, and_self, implies_true, setCore_frame ..]

theorem postMail_frame (n : Nat) (kind : Nat) (arg0 : Word) (arg1 : Word) (trkSeq : DWord) (auth : Nat) (data :
    Bytes) (s : State) :
    (postMail n kind arg0 arg1 trkSeq auth data s).now = s.now ∧ (postMail n kind arg0 arg1 trkSeq auth data s).free =
    s.free ∧ (postMail n kind arg0 arg1 trkSeq auth data s).life = s.life ∧ (postMail n kind arg0 arg1 trkSeq auth
    data s).gate = s.gate ∧ (postMail n kind arg0 arg1 trkSeq auth data s).rings = s.rings ∧ (postMail n kind arg0
    arg1 trkSeq auth data s).units = s.units ∧ (postMail n kind arg0 arg1 trkSeq auth data s).curves = s.curves ∧
    (postMail n kind arg0 arg1 trkSeq auth data s).sess = s.sess ∧ (postMail n kind arg0 arg1 trkSeq auth data
    s).vault = s.vault ∧ (postMail n kind arg0 arg1 trkSeq auth data s).ctrs = s.ctrs ∧ (postMail n kind arg0 arg1
    trkSeq auth data s).powder = s.powder ∧ (postMail n kind arg0 arg1 trkSeq auth data s).prot = s.prot ∧ (postMail
    n kind arg0 arg1 trkSeq auth data s).patrol = s.patrol ∧ (postMail n kind arg0 arg1 trkSeq auth data s).hut =
    s.hut ∧ (postMail n kind arg0 arg1 trkSeq auth data s).alarm = s.alarm ∧ (postMail n kind arg0 arg1 trkSeq auth
    data s).card = s.card ∧ (postMail n kind arg0 arg1 trkSeq auth data s).tel = s.tel ∧ (postMail n kind arg0 arg1
    trkSeq auth data s).pending = s.pending := by
  simp only [postMail, State.ite_parts .., ite_self, and_self, implies_true, storeBytes_frame .., modApplet_frame ..,
    raiseEvent_frame .., wakeApplet_frame ..]

end Sys2Proof.Machine
end

