-- ==== Sys2Proof/Laws/FramesJobs.lean ====
section
/-!
SUPPORT. Sys2Proof/Laws/FramesJobs.lean: for each operation on the state, once, the chapters of the part that it leaves as they are:
rings, jobs, units, the Gate and the cores' shared operations.  A chapter that a lemma does not name may change.
-/
namespace Sys2Proof.Machine

set_option linter.unusedSimpArgs false

/-! ### Jobs.lean -/

theorem raiseRing_frame (r : RingId) (s : State) :
    (raiseRing r s).now = s.now ∧ (raiseRing r s).free = s.free ∧ (raiseRing r s).life = s.life ∧ (raiseRing r s).gate =
    s.gate ∧ (raiseRing r s).rings = s.rings ∧ (raiseRing r s).units = s.units ∧ (raiseRing r s).curves = s.curves ∧
    (raiseRing r s).sess = s.sess ∧ (raiseRing r s).vault = s.vault ∧ (raiseRing r s).ctrs = s.ctrs ∧ (raiseRing r
    s).powder = s.powder ∧ (raiseRing r s).prot = s.prot ∧ (raiseRing r s).patrol = s.patrol ∧ (raiseRing r s).hut =
    s.hut ∧ (raiseRing r s).alarm = s.alarm ∧ (raiseRing r s).card = s.card ∧ (raiseRing r s).tel = s.tel ∧
    (raiseRing r s).pending = s.pending := by
  unfold raiseRing
  (repeat' split) <;> simp only [State.ite_parts .., ite_self, and_self, implies_true, raiseEvent_frame .., postMail_frame ..]

theorem captureHost_frame (write : Bool) (ring : Nat) (tag : Nat) (kind : Nat) (addr : DWord) (s : State) :
    (captureHost write ring tag kind addr s).now = s.now ∧ (captureHost write ring tag kind addr s).free = s.free ∧
    (captureHost write ring tag kind addr s).life = s.life ∧ (captureHost write ring tag kind addr s).gate = s.gate
    ∧ (captureHost write ring tag kind addr s).rings = s.rings ∧ (captureHost write ring tag kind addr s).units =
    s.units ∧ (captureHost write ring tag kind addr s).curves = s.curves ∧ (captureHost write ring tag kind addr
    s).sess = s.sess ∧ (captureHost write ring tag kind addr s).vault = s.vault ∧ (captureHost write ring tag kind
    addr s).ctrs = s.ctrs ∧ (captureHost write ring tag kind addr s).powder = s.powder ∧ (captureHost write ring tag
    kind addr s).merya = s.merya ∧ (captureHost write ring tag kind addr s).prot = s.prot ∧ (captureHost write ring
    tag kind addr s).mem = s.mem ∧ (captureHost write ring tag kind addr s).stored = s.stored ∧ (captureHost write
    ring tag kind addr s).patrol = s.patrol ∧ (captureHost write ring tag kind addr s).trk = s.trk ∧ (captureHost
    write ring tag kind addr s).hut = s.hut ∧ (captureHost write ring tag kind addr s).alarm = s.alarm ∧
    (captureHost write ring tag kind addr s).card = s.card ∧ (captureHost write ring tag kind addr s).evts = s.evts
    ∧ (captureHost write ring tag kind addr s).tel = s.tel ∧ (captureHost write ring tag kind addr s).pending =
    s.pending := by
  simp only [captureHost, State.ite_parts .., ite_self, and_self, implies_true]

theorem hostReadFailed_frame (n : Nat) (tag : Nat) (k : ReadFault) (addr : DWord) (s : State) :
    (hostReadFailed n tag k addr s).now = s.now ∧ (hostReadFailed n tag k addr s).free = s.free ∧ (hostReadFailed n tag
    k addr s).life = s.life ∧ (hostReadFailed n tag k addr s).gate = s.gate ∧ (hostReadFailed n tag k addr s).rings
    = s.rings ∧ (hostReadFailed n tag k addr s).units = s.units ∧ (hostReadFailed n tag k addr s).curves = s.curves
    ∧ (hostReadFailed n tag k addr s).sess = s.sess ∧ (hostReadFailed n tag k addr s).vault = s.vault ∧
    (hostReadFailed n tag k addr s).ctrs = s.ctrs ∧ (hostReadFailed n tag k addr s).powder = s.powder ∧
    (hostReadFailed n tag k addr s).prot = s.prot ∧ (hostReadFailed n tag k addr s).patrol = s.patrol ∧
    (hostReadFailed n tag k addr s).hut = s.hut ∧ (hostReadFailed n tag k addr s).alarm = s.alarm ∧ (hostReadFailed
    n tag k addr s).card = s.card ∧ (hostReadFailed n tag k addr s).tel = s.tel ∧ (hostReadFailed n tag k addr
    s).pending = s.pending := by
  simp only [hostReadFailed, State.ite_parts .., ite_self, and_self, implies_true, raiseRing_frame .., setPcieErr_frame ..,
    captureHost_frame ..]

theorem setRing_frame (r : RingId) (x : Ring) (s : State) :
    (setRing r x s).now = s.now ∧ (setRing r x s).free = s.free ∧ (setRing r x s).life = s.life ∧ (setRing r x s).link =
    s.link ∧ (setRing r x s).gate = s.gate ∧ (setRing r x s).units = s.units ∧ (setRing r x s).curves = s.curves ∧
    (setRing r x s).sess = s.sess ∧ (setRing r x s).vault = s.vault ∧ (setRing r x s).ctrs = s.ctrs ∧ (setRing r x
    s).powder = s.powder ∧ (setRing r x s).merya = s.merya ∧ (setRing r x s).prot = s.prot ∧ (setRing r x s).mem =
    s.mem ∧ (setRing r x s).stored = s.stored ∧ (setRing r x s).patrol = s.patrol ∧ (setRing r x s).trk = s.trk ∧
    (setRing r x s).hut = s.hut ∧ (setRing r x s).alarm = s.alarm ∧ (setRing r x s).card = s.card ∧ (setRing r x
    s).evts = s.evts ∧ (setRing r x s).tel = s.tel ∧ (setRing r x s).pending = s.pending := by
  simp only [setRing, State.ite_parts .., ite_self, and_self, implies_true]

theorem modRing_frame (r : RingId) (f : Ring → Ring) (s : State) :
    (modRing r f s).now = s.now ∧ (modRing r f s).free = s.free ∧ (modRing r f s).life = s.life ∧ (modRing r f s).link =
    s.link ∧ (modRing r f s).gate = s.gate ∧ (modRing r f s).units = s.units ∧ (modRing r f s).curves = s.curves ∧
    (modRing r f s).sess = s.sess ∧ (modRing r f s).vault = s.vault ∧ (modRing r f s).ctrs = s.ctrs ∧ (modRing r f
    s).powder = s.powder ∧ (modRing r f s).merya = s.merya ∧ (modRing r f s).prot = s.prot ∧ (modRing r f s).mem =
    s.mem ∧ (modRing r f s).stored = s.stored ∧ (modRing r f s).patrol = s.patrol ∧ (modRing r f s).trk = s.trk ∧
    (modRing r f s).hut = s.hut ∧ (modRing r f s).alarm = s.alarm ∧ (modRing r f s).card = s.card ∧ (modRing r f
    s).evts = s.evts ∧ (modRing r f s).tel = s.tel ∧ (modRing r f s).pending = s.pending := by
  simp only [modRing, State.ite_parts .., ite_self, and_self, implies_true, setRing_frame ..]

theorem noteOverrun_frame (s : State) :
    (noteOverrun s).now = s.now ∧ (noteOverrun s).free = s.free ∧ (noteOverrun s).life = s.life ∧ (noteOverrun s).rings
    = s.rings ∧ (noteOverrun s).units = s.units ∧ (noteOverrun s).curves = s.curves ∧ (noteOverrun s).sess = s.sess
    ∧ (noteOverrun s).vault = s.vault ∧ (noteOverrun s).ctrs = s.ctrs ∧ (noteOverrun s).powder = s.powder ∧
    (noteOverrun s).merya = s.merya ∧ (noteOverrun s).prot = s.prot ∧ (noteOverrun s).mem = s.mem ∧ (noteOverrun
    s).stored = s.stored ∧ (noteOverrun s).patrol = s.patrol ∧ (noteOverrun s).trk = s.trk ∧ (noteOverrun s).hut =
    s.hut ∧ (noteOverrun s).alarm = s.alarm ∧ (noteOverrun s).card = s.card ∧ (noteOverrun s).tel = s.tel ∧
    (noteOverrun s).pending = s.pending := by
  simp only [noteOverrun, State.ite_parts .., ite_self, and_self, implies_true, setGateEvt_frame ..]

theorem requestReads_frame (segs : List (Nat × Nat)) (s : State) :
    (requestReads segs s).now = s.now ∧ (requestReads segs s).free = s.free ∧ (requestReads segs s).life = s.life ∧
    (requestReads segs s).gate = s.gate ∧ (requestReads segs s).rings = s.rings ∧ (requestReads segs s).units =
    s.units ∧ (requestReads segs s).curves = s.curves ∧ (requestReads segs s).sess = s.sess ∧ (requestReads segs
    s).vault = s.vault ∧ (requestReads segs s).ctrs = s.ctrs ∧ (requestReads segs s).powder = s.powder ∧
    (requestReads segs s).merya = s.merya ∧ (requestReads segs s).prot = s.prot ∧ (requestReads segs s).mem = s.mem
    ∧ (requestReads segs s).stored = s.stored ∧ (requestReads segs s).patrol = s.patrol ∧ (requestReads segs s).trk
    = s.trk ∧ (requestReads segs s).hut = s.hut ∧ (requestReads segs s).alarm = s.alarm ∧ (requestReads segs s).card
    = s.card ∧ (requestReads segs s).evts = s.evts ∧ (requestReads segs s).tel = s.tel ∧ (requestReads segs
    s).pending = s.pending := by
  simp only [requestReads, State.ite_parts .., ite_self, and_self, implies_true]

theorem charge_frame (n : Nat) (s : State) :
    (charge n s).now = s.now ∧ (charge n s).free = s.free ∧ (charge n s).life = s.life ∧ (charge n s).link = s.link ∧
    (charge n s).rings = s.rings ∧ (charge n s).units = s.units ∧ (charge n s).curves = s.curves ∧ (charge n s).sess
    = s.sess ∧ (charge n s).vault = s.vault ∧ (charge n s).ctrs = s.ctrs ∧ (charge n s).powder = s.powder ∧ (charge
    n s).merya = s.merya ∧ (charge n s).prot = s.prot ∧ (charge n s).mem = s.mem ∧ (charge n s).stored = s.stored ∧
    (charge n s).patrol = s.patrol ∧ (charge n s).trk = s.trk ∧ (charge n s).hut = s.hut ∧ (charge n s).alarm =
    s.alarm ∧ (charge n s).card = s.card ∧ (charge n s).evts = s.evts ∧ (charge n s).tel = s.tel ∧ (charge n
    s).pending = s.pending := by
  simp only [charge, State.ite_parts .., ite_self, and_self, implies_true]

theorem fetchOne_frame (r : RingId) (s : State) :
    (fetchOne r s).now = s.now ∧ (fetchOne r s).free = s.free ∧ (fetchOne r s).life = s.life ∧ (fetchOne r s).units =
    s.units ∧ (fetchOne r s).curves = s.curves ∧ (fetchOne r s).sess = s.sess ∧ (fetchOne r s).vault = s.vault ∧
    (fetchOne r s).ctrs = s.ctrs ∧ (fetchOne r s).powder = s.powder ∧ (fetchOne r s).merya = s.merya ∧ (fetchOne r
    s).prot = s.prot ∧ (fetchOne r s).mem = s.mem ∧ (fetchOne r s).stored = s.stored ∧ (fetchOne r s).patrol =
    s.patrol ∧ (fetchOne r s).trk = s.trk ∧ (fetchOne r s).hut = s.hut ∧ (fetchOne r s).alarm = s.alarm ∧ (fetchOne
    r s).card = s.card ∧ (fetchOne r s).evts = s.evts ∧ (fetchOne r s).tel = s.tel ∧ (fetchOne r s).pending =
    s.pending := by
  simp only [fetchOne, State.ite_parts .., ite_self, and_self, implies_true, requestReads_frame .., charge_frame ..,
    setRing_frame ..]
  (repeat' split) <;> simp only [State.ite_parts .., ite_self, and_self, implies_true, requestReads_frame .., charge_frame .., setRing_frame ..]

theorem fetchFuel_frame (x0 : Nat) (x1 : RingId) (x2 : State) :
    (fetchFuel x0 x1 x2).now = x2.now ∧ (fetchFuel x0 x1 x2).free = x2.free ∧ (fetchFuel x0 x1 x2).life = x2.life ∧
    (fetchFuel x0 x1 x2).units = x2.units ∧ (fetchFuel x0 x1 x2).curves = x2.curves ∧ (fetchFuel x0 x1 x2).sess =
    x2.sess ∧ (fetchFuel x0 x1 x2).vault = x2.vault ∧ (fetchFuel x0 x1 x2).ctrs = x2.ctrs ∧ (fetchFuel x0 x1
    x2).powder = x2.powder ∧ (fetchFuel x0 x1 x2).merya = x2.merya ∧ (fetchFuel x0 x1 x2).prot = x2.prot ∧
    (fetchFuel x0 x1 x2).mem = x2.mem ∧ (fetchFuel x0 x1 x2).stored = x2.stored ∧ (fetchFuel x0 x1 x2).patrol =
    x2.patrol ∧ (fetchFuel x0 x1 x2).trk = x2.trk ∧ (fetchFuel x0 x1 x2).hut = x2.hut ∧ (fetchFuel x0 x1 x2).alarm =
    x2.alarm ∧ (fetchFuel x0 x1 x2).card = x2.card ∧ (fetchFuel x0 x1 x2).evts = x2.evts ∧ (fetchFuel x0 x1 x2).tel
    = x2.tel ∧ (fetchFuel x0 x1 x2).pending = x2.pending := by
  induction x0 generalizing x2 with
  | zero => simp only [fetchFuel, and_self]
  | succ n ih =>
    unfold fetchFuel
    (repeat' split) <;> simp only [ih, State.ite_parts .., ite_self, and_self, implies_true, fetchOne_frame ..]

theorem fetchAll_frame (s : State) :
    (fetchAll s).now = s.now ∧ (fetchAll s).free = s.free ∧ (fetchAll s).life = s.life ∧ (fetchAll s).units = s.units ∧
    (fetchAll s).curves = s.curves ∧ (fetchAll s).sess = s.sess ∧ (fetchAll s).vault = s.vault ∧ (fetchAll s).ctrs =
    s.ctrs ∧ (fetchAll s).powder = s.powder ∧ (fetchAll s).merya = s.merya ∧ (fetchAll s).prot = s.prot ∧ (fetchAll
    s).mem = s.mem ∧ (fetchAll s).stored = s.stored ∧ (fetchAll s).patrol = s.patrol ∧ (fetchAll s).trk = s.trk ∧
    (fetchAll s).hut = s.hut ∧ (fetchAll s).alarm = s.alarm ∧ (fetchAll s).card = s.card ∧ (fetchAll s).tel = s.tel
    ∧ (fetchAll s).pending = s.pending := by
  simp only [fetchAll, State.ite_parts .., ite_self, and_self, implies_true, foldl_now, foldl_free, foldl_life,
    foldl_units, foldl_curves, foldl_sess, foldl_vault, foldl_ctrs, foldl_powder, foldl_merya, foldl_prot,
    foldl_mem, foldl_stored, foldl_patrol, foldl_trk, foldl_hut, foldl_alarm, foldl_card, foldl_tel, foldl_pending,
    noteOverrun_frame .., fetchFuel_frame ..]

theorem requestSource_frame (tag : Nat) (s : State) :
    (requestSource tag s).now = s.now ∧ (requestSource tag s).free = s.free ∧ (requestSource tag s).life = s.life ∧
    (requestSource tag s).gate = s.gate ∧ (requestSource tag s).rings = s.rings ∧ (requestSource tag s).units =
    s.units ∧ (requestSource tag s).curves = s.curves ∧ (requestSource tag s).sess = s.sess ∧ (requestSource tag
    s).vault = s.vault ∧ (requestSource tag s).ctrs = s.ctrs ∧ (requestSource tag s).powder = s.powder ∧
    (requestSource tag s).merya = s.merya ∧ (requestSource tag s).prot = s.prot ∧ (requestSource tag s).mem = s.mem
    ∧ (requestSource tag s).stored = s.stored ∧ (requestSource tag s).patrol = s.patrol ∧ (requestSource tag s).trk
    = s.trk ∧ (requestSource tag s).hut = s.hut ∧ (requestSource tag s).alarm = s.alarm ∧ (requestSource tag s).card
    = s.card ∧ (requestSource tag s).evts = s.evts ∧ (requestSource tag s).tel = s.tel ∧ (requestSource tag
    s).pending = s.pending := by
  unfold requestSource
  (repeat' split) <;> simp only [State.ite_parts .., ite_self, and_self, implies_true, requestReads_frame ..]

theorem fetchRing_frame (r : RingId) (s : State) :
    (fetchRing r s).now = s.now ∧ (fetchRing r s).free = s.free ∧ (fetchRing r s).life = s.life ∧ (fetchRing r s).units
    = s.units ∧ (fetchRing r s).curves = s.curves ∧ (fetchRing r s).sess = s.sess ∧ (fetchRing r s).vault = s.vault
    ∧ (fetchRing r s).ctrs = s.ctrs ∧ (fetchRing r s).powder = s.powder ∧ (fetchRing r s).merya = s.merya ∧
    (fetchRing r s).prot = s.prot ∧ (fetchRing r s).mem = s.mem ∧ (fetchRing r s).stored = s.stored ∧ (fetchRing r
    s).patrol = s.patrol ∧ (fetchRing r s).trk = s.trk ∧ (fetchRing r s).hut = s.hut ∧ (fetchRing r s).alarm =
    s.alarm ∧ (fetchRing r s).card = s.card ∧ (fetchRing r s).tel = s.tel ∧ (fetchRing r s).pending = s.pending := by
  simp only [fetchRing, State.ite_parts .., ite_self, and_self, implies_true, noteOverrun_frame .., fetchFuel_frame ..]

theorem modJob_frame (tag : Nat) (f : Job → Job) (s : State) :
    (modJob tag f s).now = s.now ∧ (modJob tag f s).free = s.free ∧ (modJob tag f s).life = s.life ∧ (modJob tag f
    s).link = s.link ∧ (modJob tag f s).gate = s.gate ∧ (modJob tag f s).units = s.units ∧ (modJob tag f s).curves =
    s.curves ∧ (modJob tag f s).sess = s.sess ∧ (modJob tag f s).vault = s.vault ∧ (modJob tag f s).ctrs = s.ctrs ∧
    (modJob tag f s).powder = s.powder ∧ (modJob tag f s).merya = s.merya ∧ (modJob tag f s).prot = s.prot ∧ (modJob
    tag f s).mem = s.mem ∧ (modJob tag f s).stored = s.stored ∧ (modJob tag f s).patrol = s.patrol ∧ (modJob tag f
    s).trk = s.trk ∧ (modJob tag f s).hut = s.hut ∧ (modJob tag f s).alarm = s.alarm ∧ (modJob tag f s).card =
    s.card ∧ (modJob tag f s).evts = s.evts ∧ (modJob tag f s).tel = s.tel ∧ (modJob tag f s).pending = s.pending := by
  simp only [modJob, State.ite_parts .., ite_self, and_self, implies_true]

theorem faultDma_frame (n : Nat) (tag : Nat) (x : Machine.Acc) (v : Verdict) (s : State) :
    (faultDma n tag x v s).now = s.now ∧ (faultDma n tag x v s).free = s.free ∧ (faultDma n tag x v s).life = s.life ∧
    (faultDma n tag x v s).gate = s.gate ∧ (faultDma n tag x v s).rings = s.rings ∧ (faultDma n tag x v s).units =
    s.units ∧ (faultDma n tag x v s).curves = s.curves ∧ (faultDma n tag x v s).sess = s.sess ∧ (faultDma n tag x v
    s).vault = s.vault ∧ (faultDma n tag x v s).ctrs = s.ctrs ∧ (faultDma n tag x v s).powder = s.powder ∧ (faultDma
    n tag x v s).merya = s.merya ∧ (faultDma n tag x v s).mem = s.mem ∧ (faultDma n tag x v s).stored = s.stored ∧
    (faultDma n tag x v s).patrol = s.patrol ∧ (faultDma n tag x v s).trk = s.trk ∧ (faultDma n tag x v s).hut =
    s.hut ∧ (faultDma n tag x v s).alarm = s.alarm ∧ (faultDma n tag x v s).card = s.card ∧ (faultDma n tag x v
    s).tel = s.tel ∧ (faultDma n tag x v s).pending = s.pending := by
  unfold faultDma
  (repeat' split) <;> simp only [State.ite_parts .., ite_self, and_self, implies_true, captureFault_frame .., raiseEvent_frame ..]

theorem writeSram_frame (n : Nat) (tag : Nat) (seg : Nat × Bytes) (s : State) :
    (writeSram n tag seg s).now = s.now ∧ (writeSram n tag seg s).free = s.free ∧ (writeSram n tag seg s).life = s.life
    ∧ (writeSram n tag seg s).gate = s.gate ∧ (writeSram n tag seg s).units = s.units ∧ (writeSram n tag seg
    s).curves = s.curves ∧ (writeSram n tag seg s).sess = s.sess ∧ (writeSram n tag seg s).vault = s.vault ∧
    (writeSram n tag seg s).ctrs = s.ctrs ∧ (writeSram n tag seg s).powder = s.powder ∧ (writeSram n tag seg
    s).merya = s.merya ∧ (writeSram n tag seg s).patrol = s.patrol ∧ (writeSram n tag seg s).hut = s.hut ∧
    (writeSram n tag seg s).alarm = s.alarm ∧ (writeSram n tag seg s).card = s.card ∧ (writeSram n tag seg s).tel =
    s.tel ∧ (writeSram n tag seg s).pending = s.pending := by
  simp only [writeSram, State.ite_parts .., ite_self, and_self, implies_true, modJob_frame .., noteUe_frame ..,
    storeBytes_frame .., faultDma_frame ..]
  (repeat' split) <;> simp only [State.ite_parts .., ite_self, and_self, implies_true, modJob_frame .., noteUe_frame .., storeBytes_frame ..,
    faultDma_frame ..]

theorem putEntry_frame (r : RingId) (index : Nat) (raw : BitVec 256) (s : State) :
    (putEntry r index raw s).now = s.now ∧ (putEntry r index raw s).free = s.free ∧ (putEntry r index raw s).life =
    s.life ∧ (putEntry r index raw s).gate = s.gate ∧ (putEntry r index raw s).rings = s.rings ∧ (putEntry r index
    raw s).units = s.units ∧ (putEntry r index raw s).curves = s.curves ∧ (putEntry r index raw s).sess = s.sess ∧
    (putEntry r index raw s).vault = s.vault ∧ (putEntry r index raw s).ctrs = s.ctrs ∧ (putEntry r index raw
    s).powder = s.powder ∧ (putEntry r index raw s).merya = s.merya ∧ (putEntry r index raw s).patrol = s.patrol ∧
    (putEntry r index raw s).hut = s.hut ∧ (putEntry r index raw s).alarm = s.alarm ∧ (putEntry r index raw s).card
    = s.card ∧ (putEntry r index raw s).tel = s.tel ∧ (putEntry r index raw s).pending = s.pending := by
  simp only [putEntry, State.ite_parts .., ite_self, and_self, implies_true, storeBytes_frame .., faultDma_frame ..]
  (repeat' split) <;> simp only [State.ite_parts .., ite_self, and_self, implies_true, storeBytes_frame .., faultDma_frame ..]

theorem markWritten_frame (r : RingId) (index : Nat) (s : State) :
    (markWritten r index s).now = s.now ∧ (markWritten r index s).free = s.free ∧ (markWritten r index s).life = s.life
    ∧ (markWritten r index s).link = s.link ∧ (markWritten r index s).gate = s.gate ∧ (markWritten r index s).units
    = s.units ∧ (markWritten r index s).curves = s.curves ∧ (markWritten r index s).sess = s.sess ∧ (markWritten r
    index s).vault = s.vault ∧ (markWritten r index s).ctrs = s.ctrs ∧ (markWritten r index s).powder = s.powder ∧
    (markWritten r index s).merya = s.merya ∧ (markWritten r index s).prot = s.prot ∧ (markWritten r index s).mem =
    s.mem ∧ (markWritten r index s).stored = s.stored ∧ (markWritten r index s).patrol = s.patrol ∧ (markWritten r
    index s).trk = s.trk ∧ (markWritten r index s).hut = s.hut ∧ (markWritten r index s).alarm = s.alarm ∧
    (markWritten r index s).card = s.card ∧ (markWritten r index s).evts = s.evts ∧ (markWritten r index s).tel =
    s.tel ∧ (markWritten r index s).pending = s.pending := by
  simp only [markWritten, State.ite_parts .., ite_self, and_self, implies_true, modRing_frame ..]

theorem releaseStaging_frame (tag : Nat) (s : State) :
    (releaseStaging tag s).now = s.now ∧ (releaseStaging tag s).free = s.free ∧ (releaseStaging tag s).life = s.life ∧
    (releaseStaging tag s).link = s.link ∧ (releaseStaging tag s).gate = s.gate ∧ (releaseStaging tag s).rings =
    s.rings ∧ (releaseStaging tag s).units = s.units ∧ (releaseStaging tag s).curves = s.curves ∧ (releaseStaging
    tag s).sess = s.sess ∧ (releaseStaging tag s).vault = s.vault ∧ (releaseStaging tag s).ctrs = s.ctrs ∧
    (releaseStaging tag s).powder = s.powder ∧ (releaseStaging tag s).merya = s.merya ∧ (releaseStaging tag s).prot
    = s.prot ∧ (releaseStaging tag s).mem = s.mem ∧ (releaseStaging tag s).patrol = s.patrol ∧ (releaseStaging tag
    s).trk = s.trk ∧ (releaseStaging tag s).hut = s.hut ∧ (releaseStaging tag s).alarm = s.alarm ∧ (releaseStaging
    tag s).card = s.card ∧ (releaseStaging tag s).evts = s.evts ∧ (releaseStaging tag s).tel = s.tel ∧
    (releaseStaging tag s).pending = s.pending := by
  simp only [releaseStaging, State.ite_parts .., ite_self, and_self, implies_true, clearRange_frame ..]

theorem advanceFuel_frame (x0 : Nat) (x1 : RingId) (x2 : State) :
    (advanceFuel x0 x1 x2).now = x2.now ∧ (advanceFuel x0 x1 x2).free = x2.free ∧ (advanceFuel x0 x1 x2).life = x2.life
    ∧ (advanceFuel x0 x1 x2).gate = x2.gate ∧ (advanceFuel x0 x1 x2).units = x2.units ∧ (advanceFuel x0 x1
    x2).curves = x2.curves ∧ (advanceFuel x0 x1 x2).sess = x2.sess ∧ (advanceFuel x0 x1 x2).vault = x2.vault ∧
    (advanceFuel x0 x1 x2).ctrs = x2.ctrs ∧ (advanceFuel x0 x1 x2).powder = x2.powder ∧ (advanceFuel x0 x1 x2).merya
    = x2.merya ∧ (advanceFuel x0 x1 x2).patrol = x2.patrol ∧ (advanceFuel x0 x1 x2).hut = x2.hut ∧ (advanceFuel x0
    x1 x2).alarm = x2.alarm ∧ (advanceFuel x0 x1 x2).card = x2.card ∧ (advanceFuel x0 x1 x2).tel = x2.tel ∧
    (advanceFuel x0 x1 x2).pending = x2.pending := by
  induction x0 generalizing x2 with
  | zero => simp only [advanceFuel, and_self]
  | succ n ih =>
    unfold advanceFuel
    (repeat' split) <;> simp only [ih, State.ite_parts .., ite_self, and_self, implies_true, modRing_frame .., markWritten_frame ..,
      releaseStaging_frame .., putEntry_frame ..]

theorem flushReadFails_frame (r : RingId) (read : FlushRead) (addr : DWord) (s : State) :
    (flushReadFails r read addr s).now = s.now ∧ (flushReadFails r read addr s).free = s.free ∧ (flushReadFails r read
    addr s).life = s.life ∧ (flushReadFails r read addr s).gate = s.gate ∧ (flushReadFails r read addr s).rings =
    s.rings ∧ (flushReadFails r read addr s).units = s.units ∧ (flushReadFails r read addr s).curves = s.curves ∧
    (flushReadFails r read addr s).sess = s.sess ∧ (flushReadFails r read addr s).vault = s.vault ∧ (flushReadFails
    r read addr s).ctrs = s.ctrs ∧ (flushReadFails r read addr s).powder = s.powder ∧ (flushReadFails r read addr
    s).patrol = s.patrol ∧ (flushReadFails r read addr s).hut = s.hut ∧ (flushReadFails r read addr s).alarm =
    s.alarm ∧ (flushReadFails r read addr s).card = s.card ∧ (flushReadFails r read addr s).tel = s.tel ∧
    (flushReadFails r read addr s).pending = s.pending := by
  unfold flushReadFails
  (repeat' split) <;> simp only [State.ite_parts .., ite_self, and_self, implies_true, hostReadFailed_frame .., faultDma_frame ..]

theorem flushOne_frame (r : RingId) (read : FlushRead) (s : State) :
    (flushOne r read s).now = s.now ∧ (flushOne r read s).free = s.free ∧ (flushOne r read s).life = s.life ∧ (flushOne
    r read s).gate = s.gate ∧ (flushOne r read s).units = s.units ∧ (flushOne r read s).curves = s.curves ∧
    (flushOne r read s).sess = s.sess ∧ (flushOne r read s).vault = s.vault ∧ (flushOne r read s).ctrs = s.ctrs ∧
    (flushOne r read s).powder = s.powder ∧ (flushOne r read s).patrol = s.patrol ∧ (flushOne r read s).hut = s.hut
    ∧ (flushOne r read s).alarm = s.alarm ∧ (flushOne r read s).card = s.card ∧ (flushOne r read s).tel = s.tel ∧
    (flushOne r read s).pending = s.pending := by
  simp only [flushOne, State.ite_parts .., ite_self, and_self, implies_true, putEntry_frame .., flushReadFails_frame ..,
    modRing_frame ..]

theorem flushRing_frame (r : RingId) (reads : List FlushRead) (s : State) :
    (flushRing r reads s).now = s.now ∧ (flushRing r reads s).life = s.life ∧ (flushRing r reads s).gate = s.gate ∧
    (flushRing r reads s).units = s.units ∧ (flushRing r reads s).curves = s.curves ∧ (flushRing r reads s).sess =
    s.sess ∧ (flushRing r reads s).vault = s.vault ∧ (flushRing r reads s).ctrs = s.ctrs ∧ (flushRing r reads
    s).powder = s.powder ∧ (flushRing r reads s).patrol = s.patrol ∧ (flushRing r reads s).hut = s.hut ∧ (flushRing
    r reads s).alarm = s.alarm ∧ (flushRing r reads s).card = s.card ∧ (flushRing r reads s).tel = s.tel ∧
    (flushRing r reads s).pending = s.pending := by
  unfold flushRing
  (repeat' split) <;> simp only [State.ite_parts .., ite_self, and_self, implies_true, foldl_now, foldl_life, foldl_gate, foldl_units,
    foldl_curves, foldl_sess, foldl_vault, foldl_ctrs, foldl_powder, foldl_patrol, foldl_hut, foldl_alarm,
    foldl_card, foldl_tel, foldl_pending, requestReads_frame .., flushOne_frame .., raiseIf_frame .., postMail_frame ..]

theorem rearmRing_frame (r : RingId) (s : State) :
    (rearmRing r s).now = s.now ∧ (rearmRing r s).life = s.life ∧ (rearmRing r s).units = s.units ∧ (rearmRing r
    s).curves = s.curves ∧ (rearmRing r s).sess = s.sess ∧ (rearmRing r s).vault = s.vault ∧ (rearmRing r s).ctrs =
    s.ctrs ∧ (rearmRing r s).powder = s.powder ∧ (rearmRing r s).patrol = s.patrol ∧ (rearmRing r s).hut = s.hut ∧
    (rearmRing r s).alarm = s.alarm ∧ (rearmRing r s).card = s.card ∧ (rearmRing r s).tel = s.tel ∧ (rearmRing r
    s).pending = s.pending := by
  unfold rearmRing
  (repeat' split) <;> simp only [State.ite_parts .., ite_self, and_self, implies_true, flushRing_frame .., fetchRing_frame .., modRing_frame ..]

theorem settleRing_frame (r : RingId) (s : State) :
    (settleRing r s).now = s.now ∧ (settleRing r s).life = s.life ∧ (settleRing r s).units = s.units ∧ (settleRing r
    s).curves = s.curves ∧ (settleRing r s).sess = s.sess ∧ (settleRing r s).vault = s.vault ∧ (settleRing r s).ctrs
    = s.ctrs ∧ (settleRing r s).powder = s.powder ∧ (settleRing r s).patrol = s.patrol ∧ (settleRing r s).hut =
    s.hut ∧ (settleRing r s).alarm = s.alarm ∧ (settleRing r s).card = s.card ∧ (settleRing r s).tel = s.tel ∧
    (settleRing r s).pending = s.pending := by
  simp only [settleRing, State.ite_parts .., ite_self, and_self, implies_true, setRing_frame .., rearmRing_frame ..]

theorem advanceRing_frame (r : RingId) (s : State) :
    (advanceRing r s).now = s.now ∧ (advanceRing r s).life = s.life ∧ (advanceRing r s).units = s.units ∧ (advanceRing r
    s).curves = s.curves ∧ (advanceRing r s).sess = s.sess ∧ (advanceRing r s).vault = s.vault ∧ (advanceRing r
    s).ctrs = s.ctrs ∧ (advanceRing r s).powder = s.powder ∧ (advanceRing r s).patrol = s.patrol ∧ (advanceRing r
    s).hut = s.hut ∧ (advanceRing r s).alarm = s.alarm ∧ (advanceRing r s).card = s.card ∧ (advanceRing r s).tel =
    s.tel ∧ (advanceRing r s).pending = s.pending := by
  unfold advanceRing
  (repeat' split) <;> simp only [State.ite_parts .., ite_self, and_self, implies_true, advanceFuel_frame .., raiseIf_frame .., postMail_frame ..,
    settleRing_frame ..]

theorem entryNow_frame (r : RingId) (index : Nat) (raw : BitVec 256) (s : State) :
    (entryNow r index raw s).now = s.now ∧ (entryNow r index raw s).life = s.life ∧ (entryNow r index raw s).units =
    s.units ∧ (entryNow r index raw s).curves = s.curves ∧ (entryNow r index raw s).sess = s.sess ∧ (entryNow r
    index raw s).vault = s.vault ∧ (entryNow r index raw s).ctrs = s.ctrs ∧ (entryNow r index raw s).powder =
    s.powder ∧ (entryNow r index raw s).patrol = s.patrol ∧ (entryNow r index raw s).hut = s.hut ∧ (entryNow r index
    raw s).alarm = s.alarm ∧ (entryNow r index raw s).card = s.card ∧ (entryNow r index raw s).tel = s.tel ∧
    (entryNow r index raw s).pending = s.pending := by
  simp only [entryNow, State.ite_parts .., ite_self, and_self, implies_true, advanceRing_frame .., markWritten_frame ..,
    putEntry_frame ..]

theorem issueOutput_frame (tag : Nat) (bs : Bytes) (s : State) :
    (issueOutput tag bs s).now = s.now ∧ (issueOutput tag bs s).free = s.free ∧ (issueOutput tag bs s).life = s.life ∧
    (issueOutput tag bs s).gate = s.gate ∧ (issueOutput tag bs s).units = s.units ∧ (issueOutput tag bs s).curves =
    s.curves ∧ (issueOutput tag bs s).sess = s.sess ∧ (issueOutput tag bs s).vault = s.vault ∧ (issueOutput tag bs
    s).ctrs = s.ctrs ∧ (issueOutput tag bs s).powder = s.powder ∧ (issueOutput tag bs s).merya = s.merya ∧
    (issueOutput tag bs s).patrol = s.patrol ∧ (issueOutput tag bs s).hut = s.hut ∧ (issueOutput tag bs s).alarm =
    s.alarm ∧ (issueOutput tag bs s).card = s.card ∧ (issueOutput tag bs s).tel = s.tel ∧ (issueOutput tag bs
    s).pending = s.pending := by
  unfold issueOutput
  (repeat' split) <;> simp only [State.ite_parts .., ite_self, and_self, implies_true, foldl_now, foldl_free, foldl_life, foldl_gate,
    foldl_units, foldl_curves, foldl_sess, foldl_vault, foldl_ctrs, foldl_powder, foldl_merya, foldl_patrol,
    foldl_hut, foldl_alarm, foldl_card, foldl_tel, foldl_pending, modJob_frame .., writeSram_frame ..]

theorem requestNamed_frame (tag : Nat) (s : State) :
    (requestNamed tag s).now = s.now ∧ (requestNamed tag s).free = s.free ∧ (requestNamed tag s).life = s.life ∧
    (requestNamed tag s).gate = s.gate ∧ (requestNamed tag s).rings = s.rings ∧ (requestNamed tag s).units = s.units
    ∧ (requestNamed tag s).curves = s.curves ∧ (requestNamed tag s).sess = s.sess ∧ (requestNamed tag s).vault =
    s.vault ∧ (requestNamed tag s).ctrs = s.ctrs ∧ (requestNamed tag s).powder = s.powder ∧ (requestNamed tag
    s).merya = s.merya ∧ (requestNamed tag s).prot = s.prot ∧ (requestNamed tag s).mem = s.mem ∧ (requestNamed tag
    s).stored = s.stored ∧ (requestNamed tag s).patrol = s.patrol ∧ (requestNamed tag s).trk = s.trk ∧ (requestNamed
    tag s).hut = s.hut ∧ (requestNamed tag s).alarm = s.alarm ∧ (requestNamed tag s).card = s.card ∧ (requestNamed
    tag s).evts = s.evts ∧ (requestNamed tag s).tel = s.tel ∧ (requestNamed tag s).pending = s.pending := by
  unfold requestNamed
  (repeat' split) <;> simp only [State.ite_parts .., ite_self, and_self, implies_true, requestReads_frame ..]

/-! ### Units.lean -/

theorem startPiece_frame (u : UnitRef) (tag : Nat) (s : State) :
    (startPiece u tag s).now = s.now ∧ (startPiece u tag s).free = s.free ∧ (startPiece u tag s).life = s.life ∧
    (startPiece u tag s).link = s.link ∧ (startPiece u tag s).gate = s.gate ∧ (startPiece u tag s).units = s.units ∧
    (startPiece u tag s).curves = s.curves ∧ (startPiece u tag s).sess = s.sess ∧ (startPiece u tag s).vault =
    s.vault ∧ (startPiece u tag s).ctrs = s.ctrs ∧ (startPiece u tag s).powder = s.powder ∧ (startPiece u tag
    s).merya = s.merya ∧ (startPiece u tag s).prot = s.prot ∧ (startPiece u tag s).mem = s.mem ∧ (startPiece u tag
    s).stored = s.stored ∧ (startPiece u tag s).patrol = s.patrol ∧ (startPiece u tag s).trk = s.trk ∧ (startPiece u
    tag s).hut = s.hut ∧ (startPiece u tag s).alarm = s.alarm ∧ (startPiece u tag s).card = s.card ∧ (startPiece u
    tag s).evts = s.evts ∧ (startPiece u tag s).tel = s.tel ∧ (startPiece u tag s).pending = s.pending := by
  simp only [startPiece, State.ite_parts .., ite_self, and_self, implies_true, modJob_frame ..]

theorem drawBlinds_frame (u : UnitRef) (tag : Nat) (s : State) :
    (drawBlinds u tag s).now = s.now ∧ (drawBlinds u tag s).free = s.free ∧ (drawBlinds u tag s).life = s.life ∧
    (drawBlinds u tag s).link = s.link ∧ (drawBlinds u tag s).gate = s.gate ∧ (drawBlinds u tag s).curves = s.curves
    ∧ (drawBlinds u tag s).sess = s.sess ∧ (drawBlinds u tag s).vault = s.vault ∧ (drawBlinds u tag s).ctrs = s.ctrs
    ∧ (drawBlinds u tag s).powder = s.powder ∧ (drawBlinds u tag s).merya = s.merya ∧ (drawBlinds u tag s).prot =
    s.prot ∧ (drawBlinds u tag s).mem = s.mem ∧ (drawBlinds u tag s).stored = s.stored ∧ (drawBlinds u tag s).patrol
    = s.patrol ∧ (drawBlinds u tag s).trk = s.trk ∧ (drawBlinds u tag s).hut = s.hut ∧ (drawBlinds u tag s).alarm =
    s.alarm ∧ (drawBlinds u tag s).card = s.card ∧ (drawBlinds u tag s).evts = s.evts ∧ (drawBlinds u tag s).tel =
    s.tel ∧ (drawBlinds u tag s).pending = s.pending := by
  unfold drawBlinds
  (repeat' split) <;> simp only [State.ite_parts .., ite_self, and_self, implies_true, modJob_frame ..]

theorem startJob_frame (u : UnitRef) (j : Job) (s : State) :
    (startJob u j s).now = s.now ∧ (startJob u j s).free = s.free ∧ (startJob u j s).life = s.life ∧ (startJob u j
    s).link = s.link ∧ (startJob u j s).gate = s.gate ∧ (startJob u j s).curves = s.curves ∧ (startJob u j s).sess =
    s.sess ∧ (startJob u j s).vault = s.vault ∧ (startJob u j s).ctrs = s.ctrs ∧ (startJob u j s).powder = s.powder
    ∧ (startJob u j s).merya = s.merya ∧ (startJob u j s).prot = s.prot ∧ (startJob u j s).mem = s.mem ∧ (startJob u
    j s).stored = s.stored ∧ (startJob u j s).patrol = s.patrol ∧ (startJob u j s).trk = s.trk ∧ (startJob u j
    s).hut = s.hut ∧ (startJob u j s).alarm = s.alarm ∧ (startJob u j s).card = s.card ∧ (startJob u j s).evts =
    s.evts ∧ (startJob u j s).tel = s.tel ∧ (startJob u j s).pending = s.pending := by
  simp only [startJob, State.ite_parts .., ite_self, and_self, implies_true, startPiece_frame .., drawBlinds_frame ..,
    modJob_frame ..]

theorem releaseKeygen_frame (js : List Job) (s : State) :
    (releaseKeygen js s).now = s.now ∧ (releaseKeygen js s).free = s.free ∧ (releaseKeygen js s).life = s.life ∧
    (releaseKeygen js s).link = s.link ∧ (releaseKeygen js s).gate = s.gate ∧ (releaseKeygen js s).rings = s.rings ∧
    (releaseKeygen js s).units = s.units ∧ (releaseKeygen js s).curves = s.curves ∧ (releaseKeygen js s).sess =
    s.sess ∧ (releaseKeygen js s).ctrs = s.ctrs ∧ (releaseKeygen js s).powder = s.powder ∧ (releaseKeygen js
    s).merya = s.merya ∧ (releaseKeygen js s).prot = s.prot ∧ (releaseKeygen js s).mem = s.mem ∧ (releaseKeygen js
    s).stored = s.stored ∧ (releaseKeygen js s).patrol = s.patrol ∧ (releaseKeygen js s).trk = s.trk ∧
    (releaseKeygen js s).hut = s.hut ∧ (releaseKeygen js s).alarm = s.alarm ∧ (releaseKeygen js s).card = s.card ∧
    (releaseKeygen js s).evts = s.evts ∧ (releaseKeygen js s).tel = s.tel ∧ (releaseKeygen js s).pending = s.pending := by
  simp only [releaseKeygen, State.ite_parts .., ite_self, and_self, implies_true, foldl_now, foldl_free, foldl_life,
    foldl_link, foldl_gate, foldl_rings, foldl_units, foldl_curves, foldl_sess, foldl_ctrs, foldl_powder,
    foldl_merya, foldl_prot, foldl_mem, foldl_stored, foldl_patrol, foldl_trk, foldl_hut, foldl_alarm, foldl_card,
    foldl_evts, foldl_tel, foldl_pending]

theorem captureUnit_frame (u : UnitRef) (tag : Nat) (place : Nat) (s : State) :
    (captureUnit u tag place s).now = s.now ∧ (captureUnit u tag place s).free = s.free ∧ (captureUnit u tag place
    s).life = s.life ∧ (captureUnit u tag place s).link = s.link ∧ (captureUnit u tag place s).gate = s.gate ∧
    (captureUnit u tag place s).rings = s.rings ∧ (captureUnit u tag place s).curves = s.curves ∧ (captureUnit u tag
    place s).sess = s.sess ∧ (captureUnit u tag place s).vault = s.vault ∧ (captureUnit u tag place s).ctrs = s.ctrs
    ∧ (captureUnit u tag place s).powder = s.powder ∧ (captureUnit u tag place s).merya = s.merya ∧ (captureUnit u
    tag place s).prot = s.prot ∧ (captureUnit u tag place s).mem = s.mem ∧ (captureUnit u tag place s).stored =
    s.stored ∧ (captureUnit u tag place s).patrol = s.patrol ∧ (captureUnit u tag place s).trk = s.trk ∧
    (captureUnit u tag place s).hut = s.hut ∧ (captureUnit u tag place s).alarm = s.alarm ∧ (captureUnit u tag place
    s).card = s.card ∧ (captureUnit u tag place s).evts = s.evts ∧ (captureUnit u tag place s).tel = s.tel ∧
    (captureUnit u tag place s).pending = s.pending := by
  simp only [captureUnit, State.ite_parts .., ite_self, and_self, implies_true]

theorem setUnitRec_frame (u : UnitRef) (r : UnitRec) (s : State) :
    (setUnitRec u r s).now = s.now ∧ (setUnitRec u r s).free = s.free ∧ (setUnitRec u r s).life = s.life ∧ (setUnitRec u
    r s).link = s.link ∧ (setUnitRec u r s).gate = s.gate ∧ (setUnitRec u r s).rings = s.rings ∧ (setUnitRec u r
    s).curves = s.curves ∧ (setUnitRec u r s).sess = s.sess ∧ (setUnitRec u r s).vault = s.vault ∧ (setUnitRec u r
    s).ctrs = s.ctrs ∧ (setUnitRec u r s).powder = s.powder ∧ (setUnitRec u r s).merya = s.merya ∧ (setUnitRec u r
    s).prot = s.prot ∧ (setUnitRec u r s).mem = s.mem ∧ (setUnitRec u r s).stored = s.stored ∧ (setUnitRec u r
    s).patrol = s.patrol ∧ (setUnitRec u r s).trk = s.trk ∧ (setUnitRec u r s).hut = s.hut ∧ (setUnitRec u r
    s).alarm = s.alarm ∧ (setUnitRec u r s).card = s.card ∧ (setUnitRec u r s).evts = s.evts ∧ (setUnitRec u r
    s).tel = s.tel ∧ (setUnitRec u r s).pending = s.pending := by
  simp only [setUnitRec, State.ite_parts .., ite_self, and_self, implies_true]

theorem dropUnitState_frame (u : UnitRef) (s : State) :
    (dropUnitState u s).now = s.now ∧ (dropUnitState u s).free = s.free ∧ (dropUnitState u s).life = s.life ∧
    (dropUnitState u s).link = s.link ∧ (dropUnitState u s).gate = s.gate ∧ (dropUnitState u s).rings = s.rings ∧
    (dropUnitState u s).curves = s.curves ∧ (dropUnitState u s).sess = s.sess ∧ (dropUnitState u s).vault = s.vault
    ∧ (dropUnitState u s).ctrs = s.ctrs ∧ (dropUnitState u s).merya = s.merya ∧ (dropUnitState u s).prot = s.prot ∧
    (dropUnitState u s).mem = s.mem ∧ (dropUnitState u s).patrol = s.patrol ∧ (dropUnitState u s).trk = s.trk ∧
    (dropUnitState u s).hut = s.hut ∧ (dropUnitState u s).alarm = s.alarm ∧ (dropUnitState u s).card = s.card ∧
    (dropUnitState u s).evts = s.evts ∧ (dropUnitState u s).tel = s.tel ∧ (dropUnitState u s).pending = s.pending := by
  unfold dropUnitState
  (repeat' split) <;> simp only [State.ite_parts .., ite_self, and_self, implies_true, clearRange_frame ..]

theorem modUnit_frame (u : UnitRef) (f : UnitRec → UnitRec) (s : State) :
    (modUnit u f s).now = s.now ∧ (modUnit u f s).free = s.free ∧ (modUnit u f s).life = s.life ∧ (modUnit u f s).link =
    s.link ∧ (modUnit u f s).gate = s.gate ∧ (modUnit u f s).rings = s.rings ∧ (modUnit u f s).curves = s.curves ∧
    (modUnit u f s).sess = s.sess ∧ (modUnit u f s).vault = s.vault ∧ (modUnit u f s).ctrs = s.ctrs ∧ (modUnit u f
    s).powder = s.powder ∧ (modUnit u f s).merya = s.merya ∧ (modUnit u f s).prot = s.prot ∧ (modUnit u f s).mem =
    s.mem ∧ (modUnit u f s).stored = s.stored ∧ (modUnit u f s).patrol = s.patrol ∧ (modUnit u f s).trk = s.trk ∧
    (modUnit u f s).hut = s.hut ∧ (modUnit u f s).alarm = s.alarm ∧ (modUnit u f s).card = s.card ∧ (modUnit u f
    s).evts = s.evts ∧ (modUnit u f s).tel = s.tel ∧ (modUnit u f s).pending = s.pending := by
  simp only [modUnit, State.ite_parts .., ite_self, and_self, implies_true, setUnitRec_frame ..]

theorem setUnitState_frame (u : UnitRef) (st : UnitState) (s : State) :
    (setUnitState u st s).now = s.now ∧ (setUnitState u st s).free = s.free ∧ (setUnitState u st s).life = s.life ∧
    (setUnitState u st s).link = s.link ∧ (setUnitState u st s).gate = s.gate ∧ (setUnitState u st s).rings =
    s.rings ∧ (setUnitState u st s).curves = s.curves ∧ (setUnitState u st s).sess = s.sess ∧ (setUnitState u st
    s).vault = s.vault ∧ (setUnitState u st s).ctrs = s.ctrs ∧ (setUnitState u st s).powder = s.powder ∧
    (setUnitState u st s).merya = s.merya ∧ (setUnitState u st s).prot = s.prot ∧ (setUnitState u st s).mem = s.mem
    ∧ (setUnitState u st s).stored = s.stored ∧ (setUnitState u st s).patrol = s.patrol ∧ (setUnitState u st s).trk
    = s.trk ∧ (setUnitState u st s).hut = s.hut ∧ (setUnitState u st s).alarm = s.alarm ∧ (setUnitState u st s).card
    = s.card ∧ (setUnitState u st s).evts = s.evts ∧ (setUnitState u st s).tel = s.tel ∧ (setUnitState u st
    s).pending = s.pending := by
  simp only [setUnitState, State.ite_parts .., ite_self, and_self, implies_true, modUnit_frame ..]

theorem useReserve_frame (r : UnitRef) (s : State) :
    (useReserve r s).now = s.now ∧ (useReserve r s).free = s.free ∧ (useReserve r s).life = s.life ∧ (useReserve r
    s).gate = s.gate ∧ (useReserve r s).rings = s.rings ∧ (useReserve r s).curves = s.curves ∧ (useReserve r s).sess
    = s.sess ∧ (useReserve r s).vault = s.vault ∧ (useReserve r s).ctrs = s.ctrs ∧ (useReserve r s).powder =
    s.powder ∧ (useReserve r s).merya = s.merya ∧ (useReserve r s).prot = s.prot ∧ (useReserve r s).mem = s.mem ∧
    (useReserve r s).stored = s.stored ∧ (useReserve r s).patrol = s.patrol ∧ (useReserve r s).trk = s.trk ∧
    (useReserve r s).hut = s.hut ∧ (useReserve r s).alarm = s.alarm ∧ (useReserve r s).card = s.card ∧ (useReserve r
    s).tel = s.tel ∧ (useReserve r s).pending = s.pending := by
  unfold useReserve
  (repeat' split) <;> simp only [State.ite_parts .., ite_self, and_self, implies_true, setUnitState_frame .., setEdgeEvt_frame ..,
    setBladeEvt_frame ..]

theorem clearJobMemory_frame (j : Job) (s : State) :
    (clearJobMemory j s).now = s.now ∧ (clearJobMemory j s).free = s.free ∧ (clearJobMemory j s).life = s.life ∧
    (clearJobMemory j s).link = s.link ∧ (clearJobMemory j s).gate = s.gate ∧ (clearJobMemory j s).rings = s.rings ∧
    (clearJobMemory j s).units = s.units ∧ (clearJobMemory j s).curves = s.curves ∧ (clearJobMemory j s).sess =
    s.sess ∧ (clearJobMemory j s).vault = s.vault ∧ (clearJobMemory j s).ctrs = s.ctrs ∧ (clearJobMemory j s).powder
    = s.powder ∧ (clearJobMemory j s).merya = s.merya ∧ (clearJobMemory j s).prot = s.prot ∧ (clearJobMemory j
    s).mem = s.mem ∧ (clearJobMemory j s).patrol = s.patrol ∧ (clearJobMemory j s).trk = s.trk ∧ (clearJobMemory j
    s).hut = s.hut ∧ (clearJobMemory j s).alarm = s.alarm ∧ (clearJobMemory j s).card = s.card ∧ (clearJobMemory j
    s).evts = s.evts ∧ (clearJobMemory j s).tel = s.tel ∧ (clearJobMemory j s).pending = s.pending := by
  unfold clearJobMemory
  (repeat' split) <;> simp only [State.ite_parts .., ite_self, and_self, implies_true, foldl_now, foldl_free, foldl_life, foldl_link,
    foldl_gate, foldl_rings, foldl_units, foldl_curves, foldl_sess, foldl_vault, foldl_ctrs, foldl_powder,
    foldl_merya, foldl_prot, foldl_mem, foldl_patrol, foldl_trk, foldl_hut, foldl_alarm, foldl_card, foldl_evts,
    foldl_tel, foldl_pending, clearRange_frame ..]

theorem freeMemory_frame (tag : Nat) (s : State) :
    (freeMemory tag s).now = s.now ∧ (freeMemory tag s).free = s.free ∧ (freeMemory tag s).life = s.life ∧ (freeMemory
    tag s).link = s.link ∧ (freeMemory tag s).gate = s.gate ∧ (freeMemory tag s).units = s.units ∧ (freeMemory tag
    s).curves = s.curves ∧ (freeMemory tag s).sess = s.sess ∧ (freeMemory tag s).vault = s.vault ∧ (freeMemory tag
    s).ctrs = s.ctrs ∧ (freeMemory tag s).powder = s.powder ∧ (freeMemory tag s).merya = s.merya ∧ (freeMemory tag
    s).prot = s.prot ∧ (freeMemory tag s).mem = s.mem ∧ (freeMemory tag s).patrol = s.patrol ∧ (freeMemory tag
    s).trk = s.trk ∧ (freeMemory tag s).hut = s.hut ∧ (freeMemory tag s).alarm = s.alarm ∧ (freeMemory tag s).card =
    s.card ∧ (freeMemory tag s).evts = s.evts ∧ (freeMemory tag s).tel = s.tel ∧ (freeMemory tag s).pending =
    s.pending := by
  unfold freeMemory
  (repeat' split) <;> simp only [State.ite_parts .., ite_self, and_self, implies_true, modJob_frame .., clearJobMemory_frame ..]

theorem settleUnit_frame (u : UnitRef) (s : State) :
    (settleUnit u s).now = s.now ∧ (settleUnit u s).free = s.free ∧ (settleUnit u s).life = s.life ∧ (settleUnit u
    s).link = s.link ∧ (settleUnit u s).gate = s.gate ∧ (settleUnit u s).rings = s.rings ∧ (settleUnit u s).curves =
    s.curves ∧ (settleUnit u s).sess = s.sess ∧ (settleUnit u s).vault = s.vault ∧ (settleUnit u s).ctrs = s.ctrs ∧
    (settleUnit u s).powder = s.powder ∧ (settleUnit u s).merya = s.merya ∧ (settleUnit u s).prot = s.prot ∧
    (settleUnit u s).mem = s.mem ∧ (settleUnit u s).stored = s.stored ∧ (settleUnit u s).patrol = s.patrol ∧
    (settleUnit u s).trk = s.trk ∧ (settleUnit u s).hut = s.hut ∧ (settleUnit u s).alarm = s.alarm ∧ (settleUnit u
    s).card = s.card ∧ (settleUnit u s).evts = s.evts ∧ (settleUnit u s).tel = s.tel ∧ (settleUnit u s).pending =
    s.pending := by
  simp only [settleUnit, State.ite_parts .., ite_self, and_self, implies_true, setUnitRec_frame ..]

theorem traceFailure_frame (j : Job) (st : Status) (s : State) :
    (traceFailure j st s).now = s.now ∧ (traceFailure j st s).free = s.free ∧ (traceFailure j st s).life = s.life ∧
    (traceFailure j st s).link = s.link ∧ (traceFailure j st s).gate = s.gate ∧ (traceFailure j st s).rings =
    s.rings ∧ (traceFailure j st s).units = s.units ∧ (traceFailure j st s).curves = s.curves ∧ (traceFailure j st
    s).sess = s.sess ∧ (traceFailure j st s).vault = s.vault ∧ (traceFailure j st s).ctrs = s.ctrs ∧ (traceFailure j
    st s).powder = s.powder ∧ (traceFailure j st s).merya = s.merya ∧ (traceFailure j st s).prot = s.prot ∧
    (traceFailure j st s).mem = s.mem ∧ (traceFailure j st s).stored = s.stored ∧ (traceFailure j st s).patrol =
    s.patrol ∧ (traceFailure j st s).hut = s.hut ∧ (traceFailure j st s).alarm = s.alarm ∧ (traceFailure j st
    s).card = s.card ∧ (traceFailure j st s).evts = s.evts ∧ (traceFailure j st s).tel = s.tel ∧ (traceFailure j st
    s).pending = s.pending := by
  unfold traceFailure
  (repeat' split) <;> simp only [State.ite_parts .., ite_self, and_self, implies_true, trkRequest_frame ..]

theorem endJob_frame (tag : Nat) (st : Status) (s : State) :
    (endJob tag st s).now = s.now ∧ (endJob tag st s).free = s.free ∧ (endJob tag st s).life = s.life ∧ (endJob tag st
    s).link = s.link ∧ (endJob tag st s).gate = s.gate ∧ (endJob tag st s).units = s.units ∧ (endJob tag st
    s).curves = s.curves ∧ (endJob tag st s).sess = s.sess ∧ (endJob tag st s).ctrs = s.ctrs ∧ (endJob tag st
    s).powder = s.powder ∧ (endJob tag st s).merya = s.merya ∧ (endJob tag st s).prot = s.prot ∧ (endJob tag st
    s).mem = s.mem ∧ (endJob tag st s).patrol = s.patrol ∧ (endJob tag st s).hut = s.hut ∧ (endJob tag st s).alarm =
    s.alarm ∧ (endJob tag st s).card = s.card ∧ (endJob tag st s).evts = s.evts ∧ (endJob tag st s).tel = s.tel ∧
    (endJob tag st s).pending = s.pending := by
  unfold endJob
  (repeat' split) <;> simp only [State.ite_parts .., ite_self, and_self, implies_true, traceFailure_frame .., releaseKeygen_frame .., modJob_frame ..,
    freeMemory_frame ..]

theorem dispatchFuel_frame (x0 : Nat) (x1 : UnitRef) (x2 : State) :
    (dispatchFuel x0 x1 x2).now = x2.now ∧ (dispatchFuel x0 x1 x2).free = x2.free ∧ (dispatchFuel x0 x1 x2).life =
    x2.life ∧ (dispatchFuel x0 x1 x2).link = x2.link ∧ (dispatchFuel x0 x1 x2).gate = x2.gate ∧ (dispatchFuel x0 x1
    x2).curves = x2.curves ∧ (dispatchFuel x0 x1 x2).sess = x2.sess ∧ (dispatchFuel x0 x1 x2).ctrs = x2.ctrs ∧
    (dispatchFuel x0 x1 x2).powder = x2.powder ∧ (dispatchFuel x0 x1 x2).merya = x2.merya ∧ (dispatchFuel x0 x1
    x2).prot = x2.prot ∧ (dispatchFuel x0 x1 x2).mem = x2.mem ∧ (dispatchFuel x0 x1 x2).patrol = x2.patrol ∧
    (dispatchFuel x0 x1 x2).hut = x2.hut ∧ (dispatchFuel x0 x1 x2).alarm = x2.alarm ∧ (dispatchFuel x0 x1 x2).card =
    x2.card ∧ (dispatchFuel x0 x1 x2).evts = x2.evts ∧ (dispatchFuel x0 x1 x2).tel = x2.tel ∧ (dispatchFuel x0 x1
    x2).pending = x2.pending := by
  induction x0 generalizing x2 with
  | zero => simp only [dispatchFuel, and_self]
  | succ n ih =>
    unfold dispatchFuel
    (repeat' split) <;> simp only [ih, State.ite_parts .., ite_self, and_self, implies_true, modJob_frame .., startJob_frame .., endJob_frame ..]

theorem dispatchUnit_frame (u : UnitRef) (s : State) :
    (dispatchUnit u s).now = s.now ∧ (dispatchUnit u s).free = s.free ∧ (dispatchUnit u s).life = s.life ∧ (dispatchUnit
    u s).link = s.link ∧ (dispatchUnit u s).gate = s.gate ∧ (dispatchUnit u s).curves = s.curves ∧ (dispatchUnit u
    s).sess = s.sess ∧ (dispatchUnit u s).ctrs = s.ctrs ∧ (dispatchUnit u s).powder = s.powder ∧ (dispatchUnit u
    s).merya = s.merya ∧ (dispatchUnit u s).prot = s.prot ∧ (dispatchUnit u s).mem = s.mem ∧ (dispatchUnit u
    s).patrol = s.patrol ∧ (dispatchUnit u s).hut = s.hut ∧ (dispatchUnit u s).alarm = s.alarm ∧ (dispatchUnit u
    s).card = s.card ∧ (dispatchUnit u s).evts = s.evts ∧ (dispatchUnit u s).tel = s.tel ∧ (dispatchUnit u
    s).pending = s.pending := by
  simp only [dispatchUnit, State.ite_parts .., ite_self, and_self, implies_true, settleUnit_frame .., dispatchFuel_frame ..]

theorem feedSides_frame (s : State) :
    (feedSides s).now = s.now ∧ (feedSides s).free = s.free ∧ (feedSides s).life = s.life ∧ (feedSides s).link = s.link
    ∧ (feedSides s).gate = s.gate ∧ (feedSides s).curves = s.curves ∧ (feedSides s).sess = s.sess ∧ (feedSides
    s).ctrs = s.ctrs ∧ (feedSides s).powder = s.powder ∧ (feedSides s).merya = s.merya ∧ (feedSides s).prot = s.prot
    ∧ (feedSides s).mem = s.mem ∧ (feedSides s).patrol = s.patrol ∧ (feedSides s).hut = s.hut ∧ (feedSides s).alarm
    = s.alarm ∧ (feedSides s).card = s.card ∧ (feedSides s).evts = s.evts ∧ (feedSides s).tel = s.tel ∧ (feedSides
    s).pending = s.pending := by
  simp only [feedSides, State.ite_parts .., ite_self, and_self, implies_true, foldl_now, foldl_free, foldl_life,
    foldl_link, foldl_gate, foldl_curves, foldl_sess, foldl_ctrs, foldl_powder, foldl_merya, foldl_prot, foldl_mem,
    foldl_patrol, foldl_hut, foldl_alarm, foldl_card, foldl_evts, foldl_tel, foldl_pending, dispatchUnit_frame ..]

theorem leaveUnit_frame (u : UnitRef) (s : State) :
    (leaveUnit u s).now = s.now ∧ (leaveUnit u s).free = s.free ∧ (leaveUnit u s).life = s.life ∧ (leaveUnit u s).link =
    s.link ∧ (leaveUnit u s).gate = s.gate ∧ (leaveUnit u s).curves = s.curves ∧ (leaveUnit u s).sess = s.sess ∧
    (leaveUnit u s).ctrs = s.ctrs ∧ (leaveUnit u s).powder = s.powder ∧ (leaveUnit u s).merya = s.merya ∧ (leaveUnit
    u s).prot = s.prot ∧ (leaveUnit u s).mem = s.mem ∧ (leaveUnit u s).patrol = s.patrol ∧ (leaveUnit u s).hut =
    s.hut ∧ (leaveUnit u s).alarm = s.alarm ∧ (leaveUnit u s).card = s.card ∧ (leaveUnit u s).evts = s.evts ∧
    (leaveUnit u s).tel = s.tel ∧ (leaveUnit u s).pending = s.pending := by
  simp only [leaveUnit, State.ite_parts .., ite_self, and_self, implies_true, dispatchUnit_frame .., settleUnit_frame ..]

theorem finishJob_frame (tag : Nat) (st : Status) (s : State) :
    (finishJob tag st s).now = s.now ∧ (finishJob tag st s).free = s.free ∧ (finishJob tag st s).life = s.life ∧
    (finishJob tag st s).link = s.link ∧ (finishJob tag st s).gate = s.gate ∧ (finishJob tag st s).curves = s.curves
    ∧ (finishJob tag st s).sess = s.sess ∧ (finishJob tag st s).ctrs = s.ctrs ∧ (finishJob tag st s).powder =
    s.powder ∧ (finishJob tag st s).merya = s.merya ∧ (finishJob tag st s).prot = s.prot ∧ (finishJob tag st s).mem
    = s.mem ∧ (finishJob tag st s).patrol = s.patrol ∧ (finishJob tag st s).hut = s.hut ∧ (finishJob tag st s).alarm
    = s.alarm ∧ (finishJob tag st s).card = s.card ∧ (finishJob tag st s).evts = s.evts ∧ (finishJob tag st s).tel =
    s.tel ∧ (finishJob tag st s).pending = s.pending := by
  unfold finishJob
  (repeat' split) <;> simp only [State.ite_parts .., ite_self, and_self, implies_true, feedSides_frame .., endJob_frame .., leaveUnit_frame ..]

theorem countPadded_frame (u : UnitRef) (j : Job) (s : State) :
    (countPadded u j s).now = s.now ∧ (countPadded u j s).free = s.free ∧ (countPadded u j s).life = s.life ∧
    (countPadded u j s).link = s.link ∧ (countPadded u j s).gate = s.gate ∧ (countPadded u j s).rings = s.rings ∧
    (countPadded u j s).curves = s.curves ∧ (countPadded u j s).sess = s.sess ∧ (countPadded u j s).vault = s.vault
    ∧ (countPadded u j s).ctrs = s.ctrs ∧ (countPadded u j s).powder = s.powder ∧ (countPadded u j s).merya =
    s.merya ∧ (countPadded u j s).prot = s.prot ∧ (countPadded u j s).mem = s.mem ∧ (countPadded u j s).stored =
    s.stored ∧ (countPadded u j s).patrol = s.patrol ∧ (countPadded u j s).trk = s.trk ∧ (countPadded u j s).hut =
    s.hut ∧ (countPadded u j s).alarm = s.alarm ∧ (countPadded u j s).card = s.card ∧ (countPadded u j s).evts =
    s.evts ∧ (countPadded u j s).tel = s.tel ∧ (countPadded u j s).pending = s.pending := by
  simp only [countPadded, State.ite_parts .., ite_self, and_self, implies_true]

theorem retryElsewhere_frame (tag : Nat) (u : UnitRef) (s : State) :
    (retryElsewhere tag u s).now = s.now ∧ (retryElsewhere tag u s).free = s.free ∧ (retryElsewhere tag u s).life =
    s.life ∧ (retryElsewhere tag u s).gate = s.gate ∧ (retryElsewhere tag u s).curves = s.curves ∧ (retryElsewhere
    tag u s).sess = s.sess ∧ (retryElsewhere tag u s).ctrs = s.ctrs ∧ (retryElsewhere tag u s).powder = s.powder ∧
    (retryElsewhere tag u s).merya = s.merya ∧ (retryElsewhere tag u s).prot = s.prot ∧ (retryElsewhere tag u s).mem
    = s.mem ∧ (retryElsewhere tag u s).patrol = s.patrol ∧ (retryElsewhere tag u s).hut = s.hut ∧ (retryElsewhere
    tag u s).alarm = s.alarm ∧ (retryElsewhere tag u s).card = s.card ∧ (retryElsewhere tag u s).evts = s.evts ∧
    (retryElsewhere tag u s).tel = s.tel ∧ (retryElsewhere tag u s).pending = s.pending := by
  unfold retryElsewhere
  (repeat' split) <;> simp only [State.ite_parts .., ite_self, and_self, implies_true, finishJob_frame .., modJob_frame .., setUnitState_frame ..,
    requestNamed_frame .., countPadded_frame ..]

theorem rerunOn_frame (u : UnitRef) (r : UnitRef) (tag : Nat) (s : State) :
    (rerunOn u r tag s).now = s.now ∧ (rerunOn u r tag s).free = s.free ∧ (rerunOn u r tag s).life = s.life ∧ (rerunOn u
    r tag s).gate = s.gate ∧ (rerunOn u r tag s).units = s.units ∧ (rerunOn u r tag s).curves = s.curves ∧ (rerunOn
    u r tag s).sess = s.sess ∧ (rerunOn u r tag s).vault = s.vault ∧ (rerunOn u r tag s).ctrs = s.ctrs ∧ (rerunOn u
    r tag s).powder = s.powder ∧ (rerunOn u r tag s).merya = s.merya ∧ (rerunOn u r tag s).prot = s.prot ∧ (rerunOn
    u r tag s).mem = s.mem ∧ (rerunOn u r tag s).stored = s.stored ∧ (rerunOn u r tag s).patrol = s.patrol ∧
    (rerunOn u r tag s).trk = s.trk ∧ (rerunOn u r tag s).hut = s.hut ∧ (rerunOn u r tag s).alarm = s.alarm ∧
    (rerunOn u r tag s).card = s.card ∧ (rerunOn u r tag s).evts = s.evts ∧ (rerunOn u r tag s).tel = s.tel ∧
    (rerunOn u r tag s).pending = s.pending := by
  simp only [rerunOn, State.ite_parts .., ite_self, and_self, implies_true, requestNamed_frame .., modJob_frame ..]

theorem takeOver_frame (u : UnitRef) (r : Option UnitRef) (bad : List Nat) (s : State) (j : Job) :
    (takeOver u r bad s j).now = s.now ∧ (takeOver u r bad s j).free = s.free ∧ (takeOver u r bad s j).life = s.life ∧
    (takeOver u r bad s j).gate = s.gate ∧ (takeOver u r bad s j).curves = s.curves ∧ (takeOver u r bad s j).sess =
    s.sess ∧ (takeOver u r bad s j).ctrs = s.ctrs ∧ (takeOver u r bad s j).powder = s.powder ∧ (takeOver u r bad s
    j).merya = s.merya ∧ (takeOver u r bad s j).prot = s.prot ∧ (takeOver u r bad s j).mem = s.mem ∧ (takeOver u r
    bad s j).patrol = s.patrol ∧ (takeOver u r bad s j).hut = s.hut ∧ (takeOver u r bad s j).alarm = s.alarm ∧
    (takeOver u r bad s j).card = s.card ∧ (takeOver u r bad s j).evts = s.evts ∧ (takeOver u r bad s j).tel = s.tel
    ∧ (takeOver u r bad s j).pending = s.pending := by
  unfold takeOver
  (repeat' split) <;> simp only [State.ite_parts .., ite_self, and_self, implies_true, freeMemory_frame .., finishJob_frame ..,
    retryElsewhere_frame .., rerunOn_frame .., countPadded_frame .., modJob_frame ..]

theorem moveOneSide_frame (u : UnitRef) (r : Option UnitRef) (first : Option Nat) (j : Job) (s : State) :
    (moveOneSide u r first j s).now = s.now ∧ (moveOneSide u r first j s).free = s.free ∧ (moveOneSide u r first j
    s).life = s.life ∧ (moveOneSide u r first j s).link = s.link ∧ (moveOneSide u r first j s).gate = s.gate ∧
    (moveOneSide u r first j s).curves = s.curves ∧ (moveOneSide u r first j s).sess = s.sess ∧ (moveOneSide u r
    first j s).ctrs = s.ctrs ∧ (moveOneSide u r first j s).powder = s.powder ∧ (moveOneSide u r first j s).merya =
    s.merya ∧ (moveOneSide u r first j s).prot = s.prot ∧ (moveOneSide u r first j s).mem = s.mem ∧ (moveOneSide u r
    first j s).patrol = s.patrol ∧ (moveOneSide u r first j s).hut = s.hut ∧ (moveOneSide u r first j s).alarm =
    s.alarm ∧ (moveOneSide u r first j s).card = s.card ∧ (moveOneSide u r first j s).evts = s.evts ∧ (moveOneSide u
    r first j s).tel = s.tel ∧ (moveOneSide u r first j s).pending = s.pending := by
  unfold moveOneSide
  (repeat' split) <;> simp only [State.ite_parts .., ite_self, and_self, implies_true, modJob_frame .., finishJob_frame ..]

theorem moveSideWork_frame (u : UnitRef) (r : Option UnitRef) (s : State) :
    (moveSideWork u r s).now = s.now ∧ (moveSideWork u r s).free = s.free ∧ (moveSideWork u r s).life = s.life ∧
    (moveSideWork u r s).link = s.link ∧ (moveSideWork u r s).gate = s.gate ∧ (moveSideWork u r s).curves = s.curves
    ∧ (moveSideWork u r s).sess = s.sess ∧ (moveSideWork u r s).ctrs = s.ctrs ∧ (moveSideWork u r s).powder =
    s.powder ∧ (moveSideWork u r s).merya = s.merya ∧ (moveSideWork u r s).prot = s.prot ∧ (moveSideWork u r s).mem
    = s.mem ∧ (moveSideWork u r s).patrol = s.patrol ∧ (moveSideWork u r s).hut = s.hut ∧ (moveSideWork u r s).alarm
    = s.alarm ∧ (moveSideWork u r s).card = s.card ∧ (moveSideWork u r s).evts = s.evts ∧ (moveSideWork u r s).tel =
    s.tel ∧ (moveSideWork u r s).pending = s.pending := by
  unfold moveSideWork
  (repeat' split) <;> simp only [State.ite_parts .., ite_self, and_self, implies_true, foldl_now, foldl_free, foldl_life, foldl_link,
    foldl_gate, foldl_curves, foldl_sess, foldl_ctrs, foldl_powder, foldl_merya, foldl_prot, foldl_mem,
    foldl_patrol, foldl_hut, foldl_alarm, foldl_card, foldl_evts, foldl_tel, foldl_pending, moveOneSide_frame ..]

theorem renameReserves_frame (k : UnitKind) (s : State) :
    (renameReserves k s).now = s.now ∧ (renameReserves k s).free = s.free ∧ (renameReserves k s).life = s.life ∧
    (renameReserves k s).link = s.link ∧ (renameReserves k s).gate = s.gate ∧ (renameReserves k s).units = s.units ∧
    (renameReserves k s).curves = s.curves ∧ (renameReserves k s).sess = s.sess ∧ (renameReserves k s).vault =
    s.vault ∧ (renameReserves k s).ctrs = s.ctrs ∧ (renameReserves k s).powder = s.powder ∧ (renameReserves k
    s).merya = s.merya ∧ (renameReserves k s).prot = s.prot ∧ (renameReserves k s).mem = s.mem ∧ (renameReserves k
    s).stored = s.stored ∧ (renameReserves k s).patrol = s.patrol ∧ (renameReserves k s).trk = s.trk ∧
    (renameReserves k s).hut = s.hut ∧ (renameReserves k s).alarm = s.alarm ∧ (renameReserves k s).card = s.card ∧
    (renameReserves k s).evts = s.evts ∧ (renameReserves k s).tel = s.tel ∧ (renameReserves k s).pending = s.pending := by
  simp only [renameReserves, State.ite_parts .., ite_self, and_self, implies_true]

theorem rebalance_frame (k : UnitKind) (s : State) :
    (rebalance k s).now = s.now ∧ (rebalance k s).free = s.free ∧ (rebalance k s).life = s.life ∧ (rebalance k s).link =
    s.link ∧ (rebalance k s).gate = s.gate ∧ (rebalance k s).rings = s.rings ∧ (rebalance k s).curves = s.curves ∧
    (rebalance k s).sess = s.sess ∧ (rebalance k s).vault = s.vault ∧ (rebalance k s).ctrs = s.ctrs ∧ (rebalance k
    s).powder = s.powder ∧ (rebalance k s).merya = s.merya ∧ (rebalance k s).prot = s.prot ∧ (rebalance k s).mem =
    s.mem ∧ (rebalance k s).stored = s.stored ∧ (rebalance k s).patrol = s.patrol ∧ (rebalance k s).trk = s.trk ∧
    (rebalance k s).hut = s.hut ∧ (rebalance k s).alarm = s.alarm ∧ (rebalance k s).card = s.card ∧ (rebalance k
    s).evts = s.evts ∧ (rebalance k s).tel = s.tel ∧ (rebalance k s).pending = s.pending := by
  simp only [rebalance, State.ite_parts .., ite_self, and_self, implies_true, setUnitState_frame ..]
  (repeat' split) <;> simp only [State.ite_parts .., ite_self, and_self, implies_true, setUnitState_frame ..]

theorem moveRefills_frame (u : UnitRef) (r : Option UnitRef) (s : State) :
    (moveRefills u r s).now = s.now ∧ (moveRefills u r s).free = s.free ∧ (moveRefills u r s).life = s.life ∧
    (moveRefills u r s).link = s.link ∧ (moveRefills u r s).gate = s.gate ∧ (moveRefills u r s).rings = s.rings ∧
    (moveRefills u r s).units = s.units ∧ (moveRefills u r s).curves = s.curves ∧ (moveRefills u r s).sess = s.sess
    ∧ (moveRefills u r s).vault = s.vault ∧ (moveRefills u r s).ctrs = s.ctrs ∧ (moveRefills u r s).powder =
    s.powder ∧ (moveRefills u r s).prot = s.prot ∧ (moveRefills u r s).mem = s.mem ∧ (moveRefills u r s).stored =
    s.stored ∧ (moveRefills u r s).patrol = s.patrol ∧ (moveRefills u r s).trk = s.trk ∧ (moveRefills u r s).hut =
    s.hut ∧ (moveRefills u r s).alarm = s.alarm ∧ (moveRefills u r s).card = s.card ∧ (moveRefills u r s).evts =
    s.evts ∧ (moveRefills u r s).tel = s.tel ∧ (moveRefills u r s).pending = s.pending := by
  simp only [moveRefills, State.ite_parts .., ite_self, and_self, implies_true]

theorem dispatchKind_frame (k : UnitKind) (s : State) :
    (dispatchKind k s).now = s.now ∧ (dispatchKind k s).free = s.free ∧ (dispatchKind k s).life = s.life ∧ (dispatchKind
    k s).link = s.link ∧ (dispatchKind k s).gate = s.gate ∧ (dispatchKind k s).curves = s.curves ∧ (dispatchKind k
    s).sess = s.sess ∧ (dispatchKind k s).ctrs = s.ctrs ∧ (dispatchKind k s).powder = s.powder ∧ (dispatchKind k
    s).merya = s.merya ∧ (dispatchKind k s).prot = s.prot ∧ (dispatchKind k s).mem = s.mem ∧ (dispatchKind k
    s).patrol = s.patrol ∧ (dispatchKind k s).hut = s.hut ∧ (dispatchKind k s).alarm = s.alarm ∧ (dispatchKind k
    s).card = s.card ∧ (dispatchKind k s).evts = s.evts ∧ (dispatchKind k s).tel = s.tel ∧ (dispatchKind k
    s).pending = s.pending := by
  simp only [dispatchKind, State.ite_parts .., ite_self, and_self, implies_true, foldl_now, foldl_free, foldl_life,
    foldl_link, foldl_gate, foldl_curves, foldl_sess, foldl_ctrs, foldl_powder, foldl_merya, foldl_prot, foldl_mem,
    foldl_patrol, foldl_hut, foldl_alarm, foldl_card, foldl_evts, foldl_tel, foldl_pending, dispatchUnit_frame ..,
    feedSides_frame ..]

theorem faultEvent_frame (u : UnitRef) (s : State) :
    (faultEvent u s).now = s.now ∧ (faultEvent u s).free = s.free ∧ (faultEvent u s).life = s.life ∧ (faultEvent u
    s).gate = s.gate ∧ (faultEvent u s).rings = s.rings ∧ (faultEvent u s).curves = s.curves ∧ (faultEvent u s).sess
    = s.sess ∧ (faultEvent u s).vault = s.vault ∧ (faultEvent u s).ctrs = s.ctrs ∧ (faultEvent u s).merya = s.merya
    ∧ (faultEvent u s).prot = s.prot ∧ (faultEvent u s).mem = s.mem ∧ (faultEvent u s).stored = s.stored ∧
    (faultEvent u s).patrol = s.patrol ∧ (faultEvent u s).trk = s.trk ∧ (faultEvent u s).hut = s.hut ∧ (faultEvent u
    s).alarm = s.alarm ∧ (faultEvent u s).card = s.card ∧ (faultEvent u s).tel = s.tel ∧ (faultEvent u s).pending =
    s.pending := by
  unfold faultEvent
  (repeat' split) <;> simp only [State.ite_parts .., ite_self, and_self, implies_true, setEdgeEvt_frame .., setBladeEvt_frame .., setLiftEvt_frame ..,
    raiseEvent_frame .., setGrmEvt_frame ..]

theorem noteShrink_frame (before : List Nat) (s : State) :
    (noteShrink before s).now = s.now ∧ (noteShrink before s).free = s.free ∧ (noteShrink before s).life = s.life ∧
    (noteShrink before s).rings = s.rings ∧ (noteShrink before s).units = s.units ∧ (noteShrink before s).curves =
    s.curves ∧ (noteShrink before s).sess = s.sess ∧ (noteShrink before s).vault = s.vault ∧ (noteShrink before
    s).ctrs = s.ctrs ∧ (noteShrink before s).powder = s.powder ∧ (noteShrink before s).merya = s.merya ∧ (noteShrink
    before s).prot = s.prot ∧ (noteShrink before s).mem = s.mem ∧ (noteShrink before s).stored = s.stored ∧
    (noteShrink before s).patrol = s.patrol ∧ (noteShrink before s).trk = s.trk ∧ (noteShrink before s).hut = s.hut
    ∧ (noteShrink before s).alarm = s.alarm ∧ (noteShrink before s).card = s.card ∧ (noteShrink before s).tel =
    s.tel ∧ (noteShrink before s).pending = s.pending := by
  simp only [noteShrink, State.ite_parts .., ite_self, and_self, implies_true, setGateEvt_frame ..]

theorem faultUnit_frame (u : UnitRef) (code : Nat) (place : Nat) (bad : List Nat) (s : State) :
    (faultUnit u code place bad s).now = s.now ∧ (faultUnit u code place bad s).free = s.free ∧ (faultUnit u code place
    bad s).life = s.life ∧ (faultUnit u code place bad s).curves = s.curves ∧ (faultUnit u code place bad s).sess =
    s.sess ∧ (faultUnit u code place bad s).ctrs = s.ctrs ∧ (faultUnit u code place bad s).prot = s.prot ∧
    (faultUnit u code place bad s).mem = s.mem ∧ (faultUnit u code place bad s).hut = s.hut ∧ (faultUnit u code
    place bad s).alarm = s.alarm ∧ (faultUnit u code place bad s).card = s.card ∧ (faultUnit u code place bad s).tel
    = s.tel ∧ (faultUnit u code place bad s).pending = s.pending := by
  simp only [faultUnit, State.ite_parts .., ite_self, and_self, implies_true, foldl_now, foldl_free, foldl_life,
    foldl_curves, foldl_sess, foldl_ctrs, foldl_prot, foldl_mem, foldl_hut, foldl_alarm, foldl_card, foldl_tel,
    foldl_pending, captureUnit_frame .., setUnitRec_frame .., dropUnitState_frame .., trkRequest_frame .., useReserve_frame ..,
    takeOver_frame .., moveSideWork_frame .., renameReserves_frame .., rebalance_frame .., moveRefills_frame ..,
    dispatchKind_frame .., faultEvent_frame .., noteShrink_frame ..]
  (repeat' split) <;> simp only [State.ite_parts .., ite_self, and_self, implies_true, foldl_now, foldl_free, foldl_life, foldl_curves,
    foldl_sess, foldl_ctrs, foldl_prot, foldl_mem, foldl_hut, foldl_alarm, foldl_card, foldl_tel, foldl_pending,
    captureUnit_frame .., setUnitRec_frame .., dropUnitState_frame .., trkRequest_frame .., useReserve_frame .., takeOver_frame ..,
    moveSideWork_frame .., renameReserves_frame .., rebalance_frame .., moveRefills_frame .., dispatchKind_frame ..,
    faultEvent_frame .., noteShrink_frame ..]

theorem vectorsDone_frame (u : UnitRef) (pass : Bool) (s : State) :
    (vectorsDone u pass s).now = s.now ∧ (vectorsDone u pass s).free = s.free ∧ (vectorsDone u pass s).life = s.life ∧
    (vectorsDone u pass s).curves = s.curves ∧ (vectorsDone u pass s).sess = s.sess ∧ (vectorsDone u pass s).vault =
    s.vault ∧ (vectorsDone u pass s).ctrs = s.ctrs ∧ (vectorsDone u pass s).merya = s.merya ∧ (vectorsDone u pass
    s).prot = s.prot ∧ (vectorsDone u pass s).mem = s.mem ∧ (vectorsDone u pass s).stored = s.stored ∧ (vectorsDone
    u pass s).patrol = s.patrol ∧ (vectorsDone u pass s).trk = s.trk ∧ (vectorsDone u pass s).hut = s.hut ∧
    (vectorsDone u pass s).alarm = s.alarm ∧ (vectorsDone u pass s).card = s.card ∧ (vectorsDone u pass s).tel =
    s.tel ∧ (vectorsDone u pass s).pending = s.pending := by
  unfold vectorsDone
  (repeat' split) <;> simp only [State.ite_parts .., ite_self, and_self, implies_true, noteShrink_frame .., renameReserves_frame ..,
    rebalance_frame .., setUnitRec_frame .., setEdgeEvt_frame .., setBladeEvt_frame .., raiseEvent_frame .., setGrmEvt_frame ..,
    setLiftEvt_frame ..]

theorem settleUnits_frame (us : List UnitRef) (s : State) :
    (settleUnits us s).now = s.now ∧ (settleUnits us s).free = s.free ∧ (settleUnits us s).life = s.life ∧ (settleUnits
    us s).link = s.link ∧ (settleUnits us s).gate = s.gate ∧ (settleUnits us s).curves = s.curves ∧ (settleUnits us
    s).sess = s.sess ∧ (settleUnits us s).ctrs = s.ctrs ∧ (settleUnits us s).powder = s.powder ∧ (settleUnits us
    s).merya = s.merya ∧ (settleUnits us s).prot = s.prot ∧ (settleUnits us s).mem = s.mem ∧ (settleUnits us
    s).patrol = s.patrol ∧ (settleUnits us s).hut = s.hut ∧ (settleUnits us s).alarm = s.alarm ∧ (settleUnits us
    s).card = s.card ∧ (settleUnits us s).evts = s.evts ∧ (settleUnits us s).tel = s.tel ∧ (settleUnits us
    s).pending = s.pending := by
  simp only [settleUnits, State.ite_parts .., ite_self, and_self, implies_true, foldl_now, foldl_free, foldl_life,
    foldl_link, foldl_gate, foldl_curves, foldl_sess, foldl_ctrs, foldl_powder, foldl_merya, foldl_prot, foldl_mem,
    foldl_patrol, foldl_hut, foldl_alarm, foldl_card, foldl_evts, foldl_tel, foldl_pending, leaveUnit_frame ..,
    feedSides_frame ..]

theorem wakeJob_frame (tag : Nat) (s : State) :
    (wakeJob tag s).now = s.now ∧ (wakeJob tag s).free = s.free ∧ (wakeJob tag s).life = s.life ∧ (wakeJob tag s).link =
    s.link ∧ (wakeJob tag s).gate = s.gate ∧ (wakeJob tag s).curves = s.curves ∧ (wakeJob tag s).sess = s.sess ∧
    (wakeJob tag s).ctrs = s.ctrs ∧ (wakeJob tag s).powder = s.powder ∧ (wakeJob tag s).merya = s.merya ∧ (wakeJob
    tag s).prot = s.prot ∧ (wakeJob tag s).mem = s.mem ∧ (wakeJob tag s).patrol = s.patrol ∧ (wakeJob tag s).hut =
    s.hut ∧ (wakeJob tag s).alarm = s.alarm ∧ (wakeJob tag s).card = s.card ∧ (wakeJob tag s).evts = s.evts ∧
    (wakeJob tag s).tel = s.tel ∧ (wakeJob tag s).pending = s.pending := by
  unfold wakeJob
  (repeat' split) <;> simp only [State.ite_parts .., ite_self, and_self, implies_true, dispatchUnit_frame .., feedSides_frame ..]

theorem unitCmdIgnored_frame (k : UnitKind) (n : Nat) (s : State) :
    (unitCmdIgnored k n s).now = s.now ∧ (unitCmdIgnored k n s).free = s.free ∧ (unitCmdIgnored k n s).life = s.life ∧
    (unitCmdIgnored k n s).gate = s.gate ∧ (unitCmdIgnored k n s).rings = s.rings ∧ (unitCmdIgnored k n s).curves =
    s.curves ∧ (unitCmdIgnored k n s).sess = s.sess ∧ (unitCmdIgnored k n s).vault = s.vault ∧ (unitCmdIgnored k n
    s).ctrs = s.ctrs ∧ (unitCmdIgnored k n s).powder = s.powder ∧ (unitCmdIgnored k n s).merya = s.merya ∧
    (unitCmdIgnored k n s).prot = s.prot ∧ (unitCmdIgnored k n s).mem = s.mem ∧ (unitCmdIgnored k n s).stored =
    s.stored ∧ (unitCmdIgnored k n s).patrol = s.patrol ∧ (unitCmdIgnored k n s).trk = s.trk ∧ (unitCmdIgnored k n
    s).hut = s.hut ∧ (unitCmdIgnored k n s).alarm = s.alarm ∧ (unitCmdIgnored k n s).card = s.card ∧ (unitCmdIgnored
    k n s).tel = s.tel ∧ (unitCmdIgnored k n s).pending = s.pending := by
  simp only [unitCmdIgnored, State.ite_parts .., ite_self, and_self, implies_true, setEdgeEvt_frame .., setBladeEvt_frame ..]

theorem disableUnit_frame (k : UnitKind) (n : Nat) (s : State) :
    (disableUnit k n s).now = s.now ∧ (disableUnit k n s).free = s.free ∧ (disableUnit k n s).life = s.life ∧
    (disableUnit k n s).curves = s.curves ∧ (disableUnit k n s).sess = s.sess ∧ (disableUnit k n s).vault = s.vault
    ∧ (disableUnit k n s).ctrs = s.ctrs ∧ (disableUnit k n s).powder = s.powder ∧ (disableUnit k n s).merya =
    s.merya ∧ (disableUnit k n s).prot = s.prot ∧ (disableUnit k n s).mem = s.mem ∧ (disableUnit k n s).stored =
    s.stored ∧ (disableUnit k n s).patrol = s.patrol ∧ (disableUnit k n s).trk = s.trk ∧ (disableUnit k n s).hut =
    s.hut ∧ (disableUnit k n s).alarm = s.alarm ∧ (disableUnit k n s).card = s.card ∧ (disableUnit k n s).tel =
    s.tel ∧ (disableUnit k n s).pending = s.pending := by
  simp only [disableUnit, State.ite_parts .., ite_self, and_self, implies_true, unitCmdIgnored_frame .., setUnitRec_frame ..,
    noteShrink_frame .., renameReserves_frame .., rebalance_frame .., settleUnit_frame ..]

theorem cancelLater_frame (r : RingId) (s : State) :
    (cancelLater r s).now = s.now ∧ (cancelLater r s).free = s.free ∧ (cancelLater r s).life = s.life ∧ (cancelLater r
    s).link = s.link ∧ (cancelLater r s).gate = s.gate ∧ (cancelLater r s).curves = s.curves ∧ (cancelLater r
    s).sess = s.sess ∧ (cancelLater r s).ctrs = s.ctrs ∧ (cancelLater r s).powder = s.powder ∧ (cancelLater r
    s).merya = s.merya ∧ (cancelLater r s).prot = s.prot ∧ (cancelLater r s).mem = s.mem ∧ (cancelLater r s).patrol
    = s.patrol ∧ (cancelLater r s).hut = s.hut ∧ (cancelLater r s).alarm = s.alarm ∧ (cancelLater r s).card = s.card
    ∧ (cancelLater r s).evts = s.evts ∧ (cancelLater r s).tel = s.tel ∧ (cancelLater r s).pending = s.pending := by
  simp only [cancelLater, State.ite_parts .., ite_self, and_self, implies_true, foldl_now, foldl_free, foldl_life,
    foldl_link, foldl_gate, foldl_curves, foldl_sess, foldl_ctrs, foldl_powder, foldl_merya, foldl_prot, foldl_mem,
    foldl_patrol, foldl_hut, foldl_alarm, foldl_card, foldl_evts, foldl_tel, foldl_pending, freeMemory_frame ..,
    settleUnits_frame .., releaseKeygen_frame ..]

theorem noteStatus_frame (r : RingId) (index : Nat) (st : Status) (s : State) :
    (noteStatus r index st s).now = s.now ∧ (noteStatus r index st s).free = s.free ∧ (noteStatus r index st s).life =
    s.life ∧ (noteStatus r index st s).gate = s.gate ∧ (noteStatus r index st s).curves = s.curves ∧ (noteStatus r
    index st s).sess = s.sess ∧ (noteStatus r index st s).ctrs = s.ctrs ∧ (noteStatus r index st s).powder =
    s.powder ∧ (noteStatus r index st s).prot = s.prot ∧ (noteStatus r index st s).patrol = s.patrol ∧ (noteStatus r
    index st s).hut = s.hut ∧ (noteStatus r index st s).alarm = s.alarm ∧ (noteStatus r index st s).card = s.card ∧
    (noteStatus r index st s).tel = s.tel ∧ (noteStatus r index st s).pending = s.pending := by
  simp only [noteStatus, State.ite_parts .., ite_self, and_self, implies_true, setRing_frame .., raiseRing_frame ..,
    cancelLater_frame ..]

theorem enableUnit_frame (k : UnitKind) (n : Nat) (s : State) :
    (enableUnit k n s).now = s.now ∧ (enableUnit k n s).free = s.free ∧ (enableUnit k n s).life = s.life ∧ (enableUnit k
    n s).gate = s.gate ∧ (enableUnit k n s).rings = s.rings ∧ (enableUnit k n s).curves = s.curves ∧ (enableUnit k n
    s).sess = s.sess ∧ (enableUnit k n s).vault = s.vault ∧ (enableUnit k n s).ctrs = s.ctrs ∧ (enableUnit k n
    s).powder = s.powder ∧ (enableUnit k n s).merya = s.merya ∧ (enableUnit k n s).prot = s.prot ∧ (enableUnit k n
    s).mem = s.mem ∧ (enableUnit k n s).stored = s.stored ∧ (enableUnit k n s).patrol = s.patrol ∧ (enableUnit k n
    s).trk = s.trk ∧ (enableUnit k n s).hut = s.hut ∧ (enableUnit k n s).alarm = s.alarm ∧ (enableUnit k n s).card =
    s.card ∧ (enableUnit k n s).tel = s.tel ∧ (enableUnit k n s).pending = s.pending := by
  simp only [enableUnit, State.ite_parts .., ite_self, and_self, implies_true, unitCmdIgnored_frame .., setUnitRec_frame ..]

/-! ### Gate.lean -/

theorem placeRefill_frame (c : Nat) (s : State) :
    (placeRefill c s).now = s.now ∧ (placeRefill c s).free = s.free ∧ (placeRefill c s).life = s.life ∧ (placeRefill c
    s).link = s.link ∧ (placeRefill c s).gate = s.gate ∧ (placeRefill c s).rings = s.rings ∧ (placeRefill c s).units
    = s.units ∧ (placeRefill c s).curves = s.curves ∧ (placeRefill c s).sess = s.sess ∧ (placeRefill c s).vault =
    s.vault ∧ (placeRefill c s).ctrs = s.ctrs ∧ (placeRefill c s).powder = s.powder ∧ (placeRefill c s).prot =
    s.prot ∧ (placeRefill c s).mem = s.mem ∧ (placeRefill c s).stored = s.stored ∧ (placeRefill c s).patrol =
    s.patrol ∧ (placeRefill c s).trk = s.trk ∧ (placeRefill c s).hut = s.hut ∧ (placeRefill c s).alarm = s.alarm ∧
    (placeRefill c s).card = s.card ∧ (placeRefill c s).evts = s.evts ∧ (placeRefill c s).tel = s.tel ∧ (placeRefill
    c s).pending = s.pending := by
  simp only [placeRefill, State.ite_parts .., ite_self, and_self, implies_true, modCore_frame ..]

theorem placeRefills_frame (s : State) :
    (placeRefills s).now = s.now ∧ (placeRefills s).free = s.free ∧ (placeRefills s).life = s.life ∧ (placeRefills
    s).link = s.link ∧ (placeRefills s).gate = s.gate ∧ (placeRefills s).rings = s.rings ∧ (placeRefills s).units =
    s.units ∧ (placeRefills s).curves = s.curves ∧ (placeRefills s).sess = s.sess ∧ (placeRefills s).vault = s.vault
    ∧ (placeRefills s).ctrs = s.ctrs ∧ (placeRefills s).powder = s.powder ∧ (placeRefills s).prot = s.prot ∧
    (placeRefills s).mem = s.mem ∧ (placeRefills s).stored = s.stored ∧ (placeRefills s).patrol = s.patrol ∧
    (placeRefills s).trk = s.trk ∧ (placeRefills s).hut = s.hut ∧ (placeRefills s).alarm = s.alarm ∧ (placeRefills
    s).card = s.card ∧ (placeRefills s).evts = s.evts ∧ (placeRefills s).tel = s.tel ∧ (placeRefills s).pending =
    s.pending := by
  simp only [placeRefills, State.ite_parts .., ite_self, and_self, implies_true, foldl_now, foldl_free, foldl_life,
    foldl_link, foldl_gate, foldl_rings, foldl_units, foldl_curves, foldl_sess, foldl_vault, foldl_ctrs,
    foldl_powder, foldl_prot, foldl_mem, foldl_stored, foldl_patrol, foldl_trk, foldl_hut, foldl_alarm, foldl_card,
    foldl_evts, foldl_tel, foldl_pending, placeRefill_frame ..]

theorem joinJobs_frame (j : Job) (s : State) :
    (joinJobs j s).now = s.now ∧ (joinJobs j s).free = s.free ∧ (joinJobs j s).life = s.life ∧ (joinJobs j s).link =
    s.link ∧ (joinJobs j s).gate = s.gate ∧ (joinJobs j s).units = s.units ∧ (joinJobs j s).curves = s.curves ∧
    (joinJobs j s).sess = s.sess ∧ (joinJobs j s).vault = s.vault ∧ (joinJobs j s).ctrs = s.ctrs ∧ (joinJobs j
    s).powder = s.powder ∧ (joinJobs j s).merya = s.merya ∧ (joinJobs j s).prot = s.prot ∧ (joinJobs j s).mem =
    s.mem ∧ (joinJobs j s).stored = s.stored ∧ (joinJobs j s).patrol = s.patrol ∧ (joinJobs j s).trk = s.trk ∧
    (joinJobs j s).hut = s.hut ∧ (joinJobs j s).alarm = s.alarm ∧ (joinJobs j s).card = s.card ∧ (joinJobs j s).evts
    = s.evts ∧ (joinJobs j s).pending = s.pending := by
  simp only [joinJobs, State.ite_parts .., ite_self, and_self, implies_true]

theorem takeCredit_frame (n : Nat) (s : State) :
    (takeCredit n s).now = s.now ∧ (takeCredit n s).free = s.free ∧ (takeCredit n s).life = s.life ∧ (takeCredit n
    s).gate = s.gate ∧ (takeCredit n s).rings = s.rings ∧ (takeCredit n s).units = s.units ∧ (takeCredit n s).curves
    = s.curves ∧ (takeCredit n s).sess = s.sess ∧ (takeCredit n s).vault = s.vault ∧ (takeCredit n s).powder =
    s.powder ∧ (takeCredit n s).merya = s.merya ∧ (takeCredit n s).prot = s.prot ∧ (takeCredit n s).mem = s.mem ∧
    (takeCredit n s).stored = s.stored ∧ (takeCredit n s).patrol = s.patrol ∧ (takeCredit n s).trk = s.trk ∧
    (takeCredit n s).hut = s.hut ∧ (takeCredit n s).alarm = s.alarm ∧ (takeCredit n s).card = s.card ∧ (takeCredit n
    s).tel = s.tel ∧ (takeCredit n s).pending = s.pending := by
  simp only [takeCredit, State.ite_parts .., ite_self, and_self, implies_true, setCtrEvt_frame ..]

theorem takeFrame_frame (o : Op) (d : Descriptor) (gen : Nat) (s : State) :
    (takeFrame o d gen s).now = s.now ∧ (takeFrame o d gen s).free = s.free ∧ (takeFrame o d gen s).life = s.life ∧
    (takeFrame o d gen s).link = s.link ∧ (takeFrame o d gen s).gate = s.gate ∧ (takeFrame o d gen s).rings =
    s.rings ∧ (takeFrame o d gen s).units = s.units ∧ (takeFrame o d gen s).curves = s.curves ∧ (takeFrame o d gen
    s).vault = s.vault ∧ (takeFrame o d gen s).ctrs = s.ctrs ∧ (takeFrame o d gen s).powder = s.powder ∧ (takeFrame
    o d gen s).merya = s.merya ∧ (takeFrame o d gen s).prot = s.prot ∧ (takeFrame o d gen s).mem = s.mem ∧
    (takeFrame o d gen s).patrol = s.patrol ∧ (takeFrame o d gen s).trk = s.trk ∧ (takeFrame o d gen s).hut = s.hut
    ∧ (takeFrame o d gen s).alarm = s.alarm ∧ (takeFrame o d gen s).card = s.card ∧ (takeFrame o d gen s).evts =
    s.evts ∧ (takeFrame o d gen s).tel = s.tel ∧ (takeFrame o d gen s).pending = s.pending := by
  simp only [takeFrame, State.ite_parts .., ite_self, and_self, implies_true, writeContextWords_frame ..]

theorem admitEffects_frame (o : Op) (d : Descriptor) (holds : List VaultHold) (s : State) :
    (admitEffects o d holds s).now = s.now ∧ (admitEffects o d holds s).free = s.free ∧ (admitEffects o d holds
    s).life = s.life ∧ (admitEffects o d holds s).gate = s.gate ∧ (admitEffects o d holds s).rings = s.rings ∧
    (admitEffects o d holds s).units = s.units ∧ (admitEffects o d holds s).curves = s.curves ∧ (admitEffects o d
    holds s).powder = s.powder ∧ (admitEffects o d holds s).merya = s.merya ∧ (admitEffects o d holds s).prot =
    s.prot ∧ (admitEffects o d holds s).mem = s.mem ∧ (admitEffects o d holds s).patrol = s.patrol ∧ (admitEffects o
    d holds s).trk = s.trk ∧ (admitEffects o d holds s).hut = s.hut ∧ (admitEffects o d holds s).alarm = s.alarm ∧
    (admitEffects o d holds s).card = s.card ∧ (admitEffects o d holds s).tel = s.tel ∧ (admitEffects o d holds
    s).pending = s.pending := by
  unfold admitEffects
  (repeat' split) <;> simp only [State.ite_parts .., ite_self, and_self, implies_true, takeCredit_frame .., takeFrame_frame ..]

theorem markArrived_frame (r : RingId) (index : Nat) (tag : Option Nat) (quiet : Bool) (s : State) :
    (markArrived r index tag quiet s).now = s.now ∧ (markArrived r index tag quiet s).free = s.free ∧ (markArrived r
    index tag quiet s).life = s.life ∧ (markArrived r index tag quiet s).link = s.link ∧ (markArrived r index tag
    quiet s).gate = s.gate ∧ (markArrived r index tag quiet s).units = s.units ∧ (markArrived r index tag quiet
    s).curves = s.curves ∧ (markArrived r index tag quiet s).sess = s.sess ∧ (markArrived r index tag quiet s).vault
    = s.vault ∧ (markArrived r index tag quiet s).ctrs = s.ctrs ∧ (markArrived r index tag quiet s).powder =
    s.powder ∧ (markArrived r index tag quiet s).merya = s.merya ∧ (markArrived r index tag quiet s).prot = s.prot ∧
    (markArrived r index tag quiet s).mem = s.mem ∧ (markArrived r index tag quiet s).stored = s.stored ∧
    (markArrived r index tag quiet s).patrol = s.patrol ∧ (markArrived r index tag quiet s).trk = s.trk ∧
    (markArrived r index tag quiet s).hut = s.hut ∧ (markArrived r index tag quiet s).alarm = s.alarm ∧ (markArrived
    r index tag quiet s).card = s.card ∧ (markArrived r index tag quiet s).evts = s.evts ∧ (markArrived r index tag
    quiet s).tel = s.tel ∧ (markArrived r index tag quiet s).pending = s.pending := by
  simp only [markArrived, State.ite_parts .., ite_self, and_self, implies_true, modRing_frame ..]

theorem admitted_frame (r : RingId) (x : Ring) (q : Slot) (d : Descriptor) (tag : Nat) (o : Op) (p : Plan) (s :
    State) :
    (admitted r x q d tag o p s).now = s.now ∧ (admitted r x q d tag o p s).free = s.free ∧ (admitted r x q d tag o
    p s).life = s.life ∧ (admitted r x q d tag o p s).gate = s.gate ∧ (admitted r x q d tag o p s).units = s.units ∧
    (admitted r x q d tag o p s).curves = s.curves ∧ (admitted r x q d tag o p s).powder = s.powder ∧ (admitted r x
    q d tag o p s).merya = s.merya ∧ (admitted r x q d tag o p s).prot = s.prot ∧ (admitted r x q d tag o p s).mem =
    s.mem ∧ (admitted r x q d tag o p s).patrol = s.patrol ∧ (admitted r x q d tag o p s).trk = s.trk ∧ (admitted r
    x q d tag o p s).hut = s.hut ∧ (admitted r x q d tag o p s).alarm = s.alarm ∧ (admitted r x q d tag o p s).card
    = s.card ∧ (admitted r x q d tag o p s).pending = s.pending := by
  simp only [admitted, State.ite_parts .., ite_self, and_self, implies_true, joinJobs_frame .., admitEffects_frame ..,
    markArrived_frame ..]

theorem admitDesc_now (go : Nat → State → State) (r : RingId) (x : Ring) (q : Slot) (d : Descriptor) (tag : Nat) (o
    : Op) (p : Plan) (s : State) (hf : ∀ n s, (go n s).now = s.now) : (admitDesc go r x q d tag o p s).now = s.now
    := by
  unfold admitDesc
  simp only [State.ite_parts .., ite_self, and_self, implies_true, admitted_frame .., hf]

theorem admitDesc_free (go : Nat → State → State) (r : RingId) (x : Ring) (q : Slot) (d : Descriptor) (tag : Nat) (o
    : Op) (p : Plan) (s : State) (hf : ∀ n s, (go n s).free = s.free) : (admitDesc go r x q d tag o p s).free =
    s.free := by
  unfold admitDesc
  simp only [State.ite_parts .., ite_self, and_self, implies_true, admitted_frame .., hf]

theorem admitDesc_life (go : Nat → State → State) (r : RingId) (x : Ring) (q : Slot) (d : Descriptor) (tag : Nat) (o
    : Op) (p : Plan) (s : State) (hf : ∀ n s, (go n s).life = s.life) : (admitDesc go r x q d tag o p s).life =
    s.life := by
  unfold admitDesc
  simp only [State.ite_parts .., ite_self, and_self, implies_true, admitted_frame .., hf]

theorem admitDesc_gate (go : Nat → State → State) (r : RingId) (x : Ring) (q : Slot) (d : Descriptor) (tag : Nat) (o
    : Op) (p : Plan) (s : State) (hf : ∀ n s, (go n s).gate = s.gate) : (admitDesc go r x q d tag o p s).gate =
    s.gate := by
  unfold admitDesc
  simp only [State.ite_parts .., ite_self, and_self, implies_true, admitted_frame .., hf]

theorem admitDesc_units (go : Nat → State → State) (r : RingId) (x : Ring) (q : Slot) (d : Descriptor) (tag : Nat)
    (o : Op) (p : Plan) (s : State) (hf : ∀ n s, (go n s).units = s.units) : (admitDesc go r x q d tag o p s).units
    = s.units := by
  unfold admitDesc
  simp only [State.ite_parts .., ite_self, and_self, implies_true, admitted_frame .., hf]

theorem admitDesc_curves (go : Nat → State → State) (r : RingId) (x : Ring) (q : Slot) (d : Descriptor) (tag : Nat)
    (o : Op) (p : Plan) (s : State) (hf : ∀ n s, (go n s).curves = s.curves) : (admitDesc go r x q d tag o p
    s).curves = s.curves := by
  unfold admitDesc
  simp only [State.ite_parts .., ite_self, and_self, implies_true, admitted_frame .., hf]

theorem admitDesc_powder (go : Nat → State → State) (r : RingId) (x : Ring) (q : Slot) (d : Descriptor) (tag : Nat)
    (o : Op) (p : Plan) (s : State) (hf : ∀ n s, (go n s).powder = s.powder) : (admitDesc go r x q d tag o p
    s).powder = s.powder := by
  unfold admitDesc
  simp only [State.ite_parts .., ite_self, and_self, implies_true, admitted_frame .., hf]

theorem admitDesc_merya (go : Nat → State → State) (r : RingId) (x : Ring) (q : Slot) (d : Descriptor) (tag : Nat)
    (o : Op) (p : Plan) (s : State) (hf : ∀ n s, (go n s).merya = s.merya) : (admitDesc go r x q d tag o p s).merya
    = s.merya := by
  unfold admitDesc
  simp only [State.ite_parts .., ite_self, and_self, implies_true, admitted_frame .., hf]

theorem admitDesc_prot (go : Nat → State → State) (r : RingId) (x : Ring) (q : Slot) (d : Descriptor) (tag : Nat) (o
    : Op) (p : Plan) (s : State) (hf : ∀ n s, (go n s).prot = s.prot) : (admitDesc go r x q d tag o p s).prot =
    s.prot := by
  unfold admitDesc
  simp only [State.ite_parts .., ite_self, and_self, implies_true, admitted_frame .., hf]

theorem admitDesc_mem (go : Nat → State → State) (r : RingId) (x : Ring) (q : Slot) (d : Descriptor) (tag : Nat) (o
    : Op) (p : Plan) (s : State) (hf : ∀ n s, (go n s).mem = s.mem) : (admitDesc go r x q d tag o p s).mem = s.mem
    := by
  unfold admitDesc
  simp only [State.ite_parts .., ite_self, and_self, implies_true, admitted_frame .., hf]

theorem admitDesc_patrol (go : Nat → State → State) (r : RingId) (x : Ring) (q : Slot) (d : Descriptor) (tag : Nat)
    (o : Op) (p : Plan) (s : State) (hf : ∀ n s, (go n s).patrol = s.patrol) : (admitDesc go r x q d tag o p
    s).patrol = s.patrol := by
  unfold admitDesc
  simp only [State.ite_parts .., ite_self, and_self, implies_true, admitted_frame .., hf]

theorem admitDesc_trk (go : Nat → State → State) (r : RingId) (x : Ring) (q : Slot) (d : Descriptor) (tag : Nat) (o
    : Op) (p : Plan) (s : State) (hf : ∀ n s, (go n s).trk = s.trk) : (admitDesc go r x q d tag o p s).trk = s.trk
    := by
  unfold admitDesc
  simp only [State.ite_parts .., ite_self, and_self, implies_true, admitted_frame .., hf]

theorem admitDesc_hut (go : Nat → State → State) (r : RingId) (x : Ring) (q : Slot) (d : Descriptor) (tag : Nat) (o
    : Op) (p : Plan) (s : State) (hf : ∀ n s, (go n s).hut = s.hut) : (admitDesc go r x q d tag o p s).hut = s.hut
    := by
  unfold admitDesc
  simp only [State.ite_parts .., ite_self, and_self, implies_true, admitted_frame .., hf]

theorem admitDesc_alarm (go : Nat → State → State) (r : RingId) (x : Ring) (q : Slot) (d : Descriptor) (tag : Nat)
    (o : Op) (p : Plan) (s : State) (hf : ∀ n s, (go n s).alarm = s.alarm) : (admitDesc go r x q d tag o p s).alarm
    = s.alarm := by
  unfold admitDesc
  simp only [State.ite_parts .., ite_self, and_self, implies_true, admitted_frame .., hf]

theorem admitDesc_card (go : Nat → State → State) (r : RingId) (x : Ring) (q : Slot) (d : Descriptor) (tag : Nat) (o
    : Op) (p : Plan) (s : State) (hf : ∀ n s, (go n s).card = s.card) : (admitDesc go r x q d tag o p s).card =
    s.card := by
  unfold admitDesc
  simp only [State.ite_parts .., ite_self, and_self, implies_true, admitted_frame .., hf]

theorem admitDesc_pending (go : Nat → State → State) (r : RingId) (x : Ring) (q : Slot) (d : Descriptor) (tag : Nat)
    (o : Op) (p : Plan) (s : State) (hf : ∀ n s, (go n s).pending = s.pending) : (admitDesc go r x q d tag o p
    s).pending = s.pending := by
  unfold admitDesc
  simp only [State.ite_parts .., ite_self, and_self, implies_true, admitted_frame .., hf]

theorem fixDesc_frame (r : RingId) (x : Ring) (q : Slot) (d : Descriptor) (tag : Nat) (o : Op) (st : Status) (s :
    State) :
    (fixDesc r x q d tag o st s).now = s.now ∧ (fixDesc r x q d tag o st s).free = s.free ∧ (fixDesc r x q d tag o st
    s).life = s.life ∧ (fixDesc r x q d tag o st s).link = s.link ∧ (fixDesc r x q d tag o st s).gate = s.gate ∧
    (fixDesc r x q d tag o st s).units = s.units ∧ (fixDesc r x q d tag o st s).curves = s.curves ∧ (fixDesc r x q d
    tag o st s).sess = s.sess ∧ (fixDesc r x q d tag o st s).vault = s.vault ∧ (fixDesc r x q d tag o st s).ctrs =
    s.ctrs ∧ (fixDesc r x q d tag o st s).powder = s.powder ∧ (fixDesc r x q d tag o st s).merya = s.merya ∧
    (fixDesc r x q d tag o st s).prot = s.prot ∧ (fixDesc r x q d tag o st s).mem = s.mem ∧ (fixDesc r x q d tag o
    st s).stored = s.stored ∧ (fixDesc r x q d tag o st s).patrol = s.patrol ∧ (fixDesc r x q d tag o st s).trk =
    s.trk ∧ (fixDesc r x q d tag o st s).hut = s.hut ∧ (fixDesc r x q d tag o st s).alarm = s.alarm ∧ (fixDesc r x q
    d tag o st s).card = s.card ∧ (fixDesc r x q d tag o st s).evts = s.evts ∧ (fixDesc r x q d tag o st s).pending
    = s.pending := by
  simp only [fixDesc, State.ite_parts .., ite_self, and_self, implies_true, joinJobs_frame .., markArrived_frame ..]

theorem fixedDesc_frame (r : RingId) (x : Ring) (q : Slot) (d : Descriptor) (cookie : DWord) (tag : Nat) (st :
    Status) (s : State) :
    (fixedDesc r x q d cookie tag st s).now = s.now ∧ (fixedDesc r x q d cookie tag st s).life = s.life ∧ (fixedDesc r x
    q d cookie tag st s).units = s.units ∧ (fixedDesc r x q d cookie tag st s).curves = s.curves ∧ (fixedDesc r x q
    d cookie tag st s).sess = s.sess ∧ (fixedDesc r x q d cookie tag st s).vault = s.vault ∧ (fixedDesc r x q d
    cookie tag st s).ctrs = s.ctrs ∧ (fixedDesc r x q d cookie tag st s).powder = s.powder ∧ (fixedDesc r x q d
    cookie tag st s).patrol = s.patrol ∧ (fixedDesc r x q d cookie tag st s).hut = s.hut ∧ (fixedDesc r x q d cookie
    tag st s).alarm = s.alarm ∧ (fixedDesc r x q d cookie tag st s).card = s.card ∧ (fixedDesc r x q d cookie tag st
    s).tel = s.tel ∧ (fixedDesc r x q d cookie tag st s).pending = s.pending := by
  simp only [fixedDesc, State.ite_parts .., ite_self, and_self, implies_true, advanceRing_frame .., markArrived_frame ..]

theorem refuseDesc_frame (r : RingId) (x : Ring) (q : Slot) (d : Descriptor) (tag : Nat) (st : Status) (s : State) :
    (refuseDesc r x q d tag st s).now = s.now ∧ (refuseDesc r x q d tag st s).life = s.life ∧ (refuseDesc r x q d tag st
    s).curves = s.curves ∧ (refuseDesc r x q d tag st s).sess = s.sess ∧ (refuseDesc r x q d tag st s).ctrs = s.ctrs
    ∧ (refuseDesc r x q d tag st s).powder = s.powder ∧ (refuseDesc r x q d tag st s).patrol = s.patrol ∧
    (refuseDesc r x q d tag st s).hut = s.hut ∧ (refuseDesc r x q d tag st s).alarm = s.alarm ∧ (refuseDesc r x q d
    tag st s).card = s.card ∧ (refuseDesc r x q d tag st s).tel = s.tel ∧ (refuseDesc r x q d tag st s).pending =
    s.pending := by
  simp only [refuseDesc, State.ite_parts .., ite_self, and_self, implies_true, noteStatus_frame .., markArrived_frame ..,
    entryNow_frame ..]

theorem gateReads_frame (r : RingId) (x : Ring) (d : Descriptor) (tagged : Bool) (s : State) :
    (gateReads r x d tagged s).now = s.now ∧ (gateReads r x d tagged s).free = s.free ∧ (gateReads r x d tagged
    s).life = s.life ∧ (gateReads r x d tagged s).gate = s.gate ∧ (gateReads r x d tagged s).rings = s.rings ∧
    (gateReads r x d tagged s).units = s.units ∧ (gateReads r x d tagged s).curves = s.curves ∧ (gateReads r x d
    tagged s).sess = s.sess ∧ (gateReads r x d tagged s).vault = s.vault ∧ (gateReads r x d tagged s).ctrs = s.ctrs
    ∧ (gateReads r x d tagged s).powder = s.powder ∧ (gateReads r x d tagged s).merya = s.merya ∧ (gateReads r x d
    tagged s).prot = s.prot ∧ (gateReads r x d tagged s).mem = s.mem ∧ (gateReads r x d tagged s).patrol = s.patrol
    ∧ (gateReads r x d tagged s).hut = s.hut ∧ (gateReads r x d tagged s).alarm = s.alarm ∧ (gateReads r x d tagged
    s).card = s.card ∧ (gateReads r x d tagged s).tel = s.tel ∧ (gateReads r x d tagged s).pending = s.pending := by
  unfold gateReads
  (repeat' split) <;> simp only [State.ite_parts .., ite_self, and_self, implies_true, readContext_frame ..]

theorem arrive_now (go : Nat → State → State) (mine : Option Op → Bool) (a : Arrival) (s : State) (hf : ∀ n s, (go n
    s).now = s.now) : (arrive go mine a s).now = s.now := by
  unfold arrive
  split
  · rfl
  · dsimp only
    by_cases hm : (!mine (opOf (stagedDesc s a))) = true
    · rw [if_pos hm]
    · rw [if_neg hm]
      split
      · simp only [fixedDesc_frame .., noteStatus_frame .., faultDma_frame .., stageWords_frame .., charge_frame ..]
      · split
        · simp only [fixedDesc_frame .., stageWords_frame .., charge_frame ..]
        · rw [(placeRefills_frame _).1]
          split
          · simp only [refuseDesc_frame .., gateReads_frame .., stageWords_frame .., charge_frame ..]
          · simp only [fixDesc_frame .., gateReads_frame .., stageWords_frame .., charge_frame ..]
          · rw [admitDesc_now _ _ _ _ _ _ _ _ _ hf]; simp only [gateReads_frame .., stageWords_frame .., charge_frame ..]

theorem arrive_life (go : Nat → State → State) (mine : Option Op → Bool) (a : Arrival) (s : State) (hf : ∀ n s, (go
    n s).life = s.life) : (arrive go mine a s).life = s.life := by
  unfold arrive
  split
  · rfl
  · dsimp only
    by_cases hm : (!mine (opOf (stagedDesc s a))) = true
    · rw [if_pos hm]
    · rw [if_neg hm]
      split
      · simp only [fixedDesc_frame .., noteStatus_frame .., faultDma_frame .., stageWords_frame .., charge_frame ..]
      · split
        · simp only [fixedDesc_frame .., stageWords_frame .., charge_frame ..]
        · rw [(placeRefills_frame _).2.2.1]
          split
          · simp only [refuseDesc_frame .., gateReads_frame .., stageWords_frame .., charge_frame ..]
          · simp only [fixDesc_frame .., gateReads_frame .., stageWords_frame .., charge_frame ..]
          · rw [admitDesc_life _ _ _ _ _ _ _ _ _ hf]; simp only [gateReads_frame .., stageWords_frame .., charge_frame ..]

theorem arrive_curves (go : Nat → State → State) (mine : Option Op → Bool) (a : Arrival) (s : State) (hf : ∀ n s,
    (go n s).curves = s.curves) : (arrive go mine a s).curves = s.curves := by
  unfold arrive
  split
  · rfl
  · dsimp only
    by_cases hm : (!mine (opOf (stagedDesc s a))) = true
    · rw [if_pos hm]
    · rw [if_neg hm]
      split
      · simp only [fixedDesc_frame .., noteStatus_frame .., faultDma_frame .., stageWords_frame .., charge_frame ..]
      · split
        · simp only [fixedDesc_frame .., stageWords_frame .., charge_frame ..]
        · rw [(placeRefills_frame _).2.2.2.2.2.2.2.1]
          split
          · simp only [refuseDesc_frame .., gateReads_frame .., stageWords_frame .., charge_frame ..]
          · simp only [fixDesc_frame .., gateReads_frame .., stageWords_frame .., charge_frame ..]
          · rw [admitDesc_curves _ _ _ _ _ _ _ _ _ hf]; simp only [gateReads_frame .., stageWords_frame .., charge_frame ..]

theorem arrive_powder (go : Nat → State → State) (mine : Option Op → Bool) (a : Arrival) (s : State) (hf : ∀ n s,
    (go n s).powder = s.powder) : (arrive go mine a s).powder = s.powder := by
  unfold arrive
  split
  · rfl
  · dsimp only
    by_cases hm : (!mine (opOf (stagedDesc s a))) = true
    · rw [if_pos hm]
    · rw [if_neg hm]
      split
      · simp only [fixedDesc_frame .., noteStatus_frame .., faultDma_frame .., stageWords_frame .., charge_frame ..]
      · split
        · simp only [fixedDesc_frame .., stageWords_frame .., charge_frame ..]
        · rw [(placeRefills_frame _).2.2.2.2.2.2.2.2.2.2.2.1]
          split
          · simp only [refuseDesc_frame .., gateReads_frame .., stageWords_frame .., charge_frame ..]
          · simp only [fixDesc_frame .., gateReads_frame .., stageWords_frame .., charge_frame ..]
          · rw [admitDesc_powder _ _ _ _ _ _ _ _ _ hf]; simp only [gateReads_frame .., stageWords_frame .., charge_frame ..]

theorem arrive_patrol (go : Nat → State → State) (mine : Option Op → Bool) (a : Arrival) (s : State) (hf : ∀ n s,
    (go n s).patrol = s.patrol) : (arrive go mine a s).patrol = s.patrol := by
  unfold arrive
  split
  · rfl
  · dsimp only
    by_cases hm : (!mine (opOf (stagedDesc s a))) = true
    · rw [if_pos hm]
    · rw [if_neg hm]
      split
      · simp only [fixedDesc_frame .., noteStatus_frame .., faultDma_frame .., stageWords_frame .., charge_frame ..]
      · split
        · simp only [fixedDesc_frame .., stageWords_frame .., charge_frame ..]
        · rw [(placeRefills_frame _).2.2.2.2.2.2.2.2.2.2.2.2.2.2.2.1]
          split
          · simp only [refuseDesc_frame .., gateReads_frame .., stageWords_frame .., charge_frame ..]
          · simp only [fixDesc_frame .., gateReads_frame .., stageWords_frame .., charge_frame ..]
          · rw [admitDesc_patrol _ _ _ _ _ _ _ _ _ hf]; simp only [gateReads_frame .., stageWords_frame .., charge_frame ..]

theorem arrive_hut (go : Nat → State → State) (mine : Option Op → Bool) (a : Arrival) (s : State) (hf : ∀ n s, (go n
    s).hut = s.hut) : (arrive go mine a s).hut = s.hut := by
  unfold arrive
  split
  · rfl
  · dsimp only
    by_cases hm : (!mine (opOf (stagedDesc s a))) = true
    · rw [if_pos hm]
    · rw [if_neg hm]
      split
      · simp only [fixedDesc_frame .., noteStatus_frame .., faultDma_frame .., stageWords_frame .., charge_frame ..]
      · split
        · simp only [fixedDesc_frame .., stageWords_frame .., charge_frame ..]
        · rw [(placeRefills_frame _).2.2.2.2.2.2.2.2.2.2.2.2.2.2.2.2.2.1]
          split
          · simp only [refuseDesc_frame .., gateReads_frame .., stageWords_frame .., charge_frame ..]
          · simp only [fixDesc_frame .., gateReads_frame .., stageWords_frame .., charge_frame ..]
          · rw [admitDesc_hut _ _ _ _ _ _ _ _ _ hf]; simp only [gateReads_frame .., stageWords_frame .., charge_frame ..]

theorem arrive_alarm (go : Nat → State → State) (mine : Option Op → Bool) (a : Arrival) (s : State) (hf : ∀ n s, (go
    n s).alarm = s.alarm) : (arrive go mine a s).alarm = s.alarm := by
  unfold arrive
  split
  · rfl
  · dsimp only
    by_cases hm : (!mine (opOf (stagedDesc s a))) = true
    · rw [if_pos hm]
    · rw [if_neg hm]
      split
      · simp only [fixedDesc_frame .., noteStatus_frame .., faultDma_frame .., stageWords_frame .., charge_frame ..]
      · split
        · simp only [fixedDesc_frame .., stageWords_frame .., charge_frame ..]
        · rw [(placeRefills_frame _).2.2.2.2.2.2.2.2.2.2.2.2.2.2.2.2.2.2.1]
          split
          · simp only [refuseDesc_frame .., gateReads_frame .., stageWords_frame .., charge_frame ..]
          · simp only [fixDesc_frame .., gateReads_frame .., stageWords_frame .., charge_frame ..]
          · rw [admitDesc_alarm _ _ _ _ _ _ _ _ _ hf]; simp only [gateReads_frame .., stageWords_frame .., charge_frame ..]

theorem arrive_card (go : Nat → State → State) (mine : Option Op → Bool) (a : Arrival) (s : State) (hf : ∀ n s, (go
    n s).card = s.card) : (arrive go mine a s).card = s.card := by
  unfold arrive
  split
  · rfl
  · dsimp only
    by_cases hm : (!mine (opOf (stagedDesc s a))) = true
    · rw [if_pos hm]
    · rw [if_neg hm]
      split
      · simp only [fixedDesc_frame .., noteStatus_frame .., faultDma_frame .., stageWords_frame .., charge_frame ..]
      · split
        · simp only [fixedDesc_frame .., stageWords_frame .., charge_frame ..]
        · rw [(placeRefills_frame _).2.2.2.2.2.2.2.2.2.2.2.2.2.2.2.2.2.2.2.1]
          split
          · simp only [refuseDesc_frame .., gateReads_frame .., stageWords_frame .., charge_frame ..]
          · simp only [fixDesc_frame .., gateReads_frame .., stageWords_frame .., charge_frame ..]
          · rw [admitDesc_card _ _ _ _ _ _ _ _ _ hf]; simp only [gateReads_frame .., stageWords_frame .., charge_frame ..]

theorem arrive_pending (go : Nat → State → State) (mine : Option Op → Bool) (a : Arrival) (s : State) (hf : ∀ n s,
    (go n s).pending = s.pending) : (arrive go mine a s).pending = s.pending := by
  unfold arrive
  split
  · rfl
  · dsimp only
    by_cases hm : (!mine (opOf (stagedDesc s a))) = true
    · rw [if_pos hm]
    · rw [if_neg hm]
      split
      · simp only [fixedDesc_frame .., noteStatus_frame .., faultDma_frame .., stageWords_frame .., charge_frame ..]
      · split
        · simp only [fixedDesc_frame .., stageWords_frame .., charge_frame ..]
        · rw [(placeRefills_frame _).2.2.2.2.2.2.2.2.2.2.2.2.2.2.2.2.2.2.2.2.2.2]
          split
          · simp only [refuseDesc_frame .., gateReads_frame .., stageWords_frame .., charge_frame ..]
          · simp only [fixDesc_frame .., gateReads_frame .., stageWords_frame .., charge_frame ..]
          · rw [admitDesc_pending _ _ _ _ _ _ _ _ _ hf]; simp only [gateReads_frame .., stageWords_frame .., charge_frame ..]

theorem returnCredit_frame (n : Nat) (s : State) :
    (returnCredit n s).now = s.now ∧ (returnCredit n s).free = s.free ∧ (returnCredit n s).life = s.life ∧ (returnCredit
    n s).link = s.link ∧ (returnCredit n s).gate = s.gate ∧ (returnCredit n s).rings = s.rings ∧ (returnCredit n
    s).units = s.units ∧ (returnCredit n s).curves = s.curves ∧ (returnCredit n s).sess = s.sess ∧ (returnCredit n
    s).vault = s.vault ∧ (returnCredit n s).powder = s.powder ∧ (returnCredit n s).merya = s.merya ∧ (returnCredit n
    s).prot = s.prot ∧ (returnCredit n s).mem = s.mem ∧ (returnCredit n s).stored = s.stored ∧ (returnCredit n
    s).patrol = s.patrol ∧ (returnCredit n s).trk = s.trk ∧ (returnCredit n s).hut = s.hut ∧ (returnCredit n
    s).alarm = s.alarm ∧ (returnCredit n s).card = s.card ∧ (returnCredit n s).evts = s.evts ∧ (returnCredit n
    s).tel = s.tel ∧ (returnCredit n s).pending = s.pending := by
  simp only [returnCredit, State.ite_parts .., ite_self, and_self, implies_true]

/-! ### Blades.lean -/

theorem outputGone_frame (tag : Nat) (s : State) :
    (outputGone tag s).now = s.now ∧ (outputGone tag s).free = s.free ∧ (outputGone tag s).life = s.life ∧ (outputGone
    tag s).link = s.link ∧ (outputGone tag s).gate = s.gate ∧ (outputGone tag s).curves = s.curves ∧ (outputGone tag
    s).sess = s.sess ∧ (outputGone tag s).ctrs = s.ctrs ∧ (outputGone tag s).powder = s.powder ∧ (outputGone tag
    s).merya = s.merya ∧ (outputGone tag s).prot = s.prot ∧ (outputGone tag s).mem = s.mem ∧ (outputGone tag
    s).patrol = s.patrol ∧ (outputGone tag s).hut = s.hut ∧ (outputGone tag s).alarm = s.alarm ∧ (outputGone tag
    s).card = s.card ∧ (outputGone tag s).evts = s.evts ∧ (outputGone tag s).tel = s.tel ∧ (outputGone tag
    s).pending = s.pending := by
  unfold outputGone
  (repeat' split) <;> simp only [State.ite_parts .., ite_self, and_self, implies_true, leaveUnit_frame .., freeMemory_frame ..]

theorem releaseOutput_frame (tag : Nat) (s : State) :
    (releaseOutput tag s).now = s.now ∧ (releaseOutput tag s).free = s.free ∧ (releaseOutput tag s).life = s.life ∧
    (releaseOutput tag s).gate = s.gate ∧ (releaseOutput tag s).curves = s.curves ∧ (releaseOutput tag s).sess =
    s.sess ∧ (releaseOutput tag s).ctrs = s.ctrs ∧ (releaseOutput tag s).powder = s.powder ∧ (releaseOutput tag
    s).merya = s.merya ∧ (releaseOutput tag s).patrol = s.patrol ∧ (releaseOutput tag s).hut = s.hut ∧
    (releaseOutput tag s).alarm = s.alarm ∧ (releaseOutput tag s).card = s.card ∧ (releaseOutput tag s).tel = s.tel
    ∧ (releaseOutput tag s).pending = s.pending := by
  unfold releaseOutput
  (repeat' split) <;> simp only [State.ite_parts .., ite_self, and_self, implies_true, outputGone_frame .., modJob_frame .., issueOutput_frame ..]

theorem replayStep_frame (tag : Nat) (s : State) :
    (replayStep tag s).1.now = s.now ∧ (replayStep tag s).1.free = s.free ∧ (replayStep tag s).1.life = s.life ∧
    (replayStep tag s).1.gate = s.gate ∧ (replayStep tag s).1.units = s.units ∧ (replayStep tag s).1.curves =
    s.curves ∧ (replayStep tag s).1.sess = s.sess ∧ (replayStep tag s).1.vault = s.vault ∧ (replayStep tag s).1.ctrs
    = s.ctrs ∧ (replayStep tag s).1.powder = s.powder ∧ (replayStep tag s).1.merya = s.merya ∧ (replayStep tag
    s).1.prot = s.prot ∧ (replayStep tag s).1.mem = s.mem ∧ (replayStep tag s).1.patrol = s.patrol ∧ (replayStep tag
    s).1.hut = s.hut ∧ (replayStep tag s).1.alarm = s.alarm ∧ (replayStep tag s).1.card = s.card ∧ (replayStep tag
    s).1.tel = s.tel ∧ (replayStep tag s).1.pending = s.pending := by
  unfold replayStep
  (repeat' split) <;> simp only [State.ite_parts .., ite_self, and_self, implies_true, readContext_frame .., modJob_frame ..]

theorem giveOutput_frame (tag : Nat) (bs : Bytes) (s : State) :
    (giveOutput tag bs s).now = s.now ∧ (giveOutput tag bs s).free = s.free ∧ (giveOutput tag bs s).life = s.life ∧
    (giveOutput tag bs s).gate = s.gate ∧ (giveOutput tag bs s).curves = s.curves ∧ (giveOutput tag bs s).sess =
    s.sess ∧ (giveOutput tag bs s).ctrs = s.ctrs ∧ (giveOutput tag bs s).powder = s.powder ∧ (giveOutput tag bs
    s).merya = s.merya ∧ (giveOutput tag bs s).patrol = s.patrol ∧ (giveOutput tag bs s).hut = s.hut ∧ (giveOutput
    tag bs s).alarm = s.alarm ∧ (giveOutput tag bs s).card = s.card ∧ (giveOutput tag bs s).tel = s.tel ∧
    (giveOutput tag bs s).pending = s.pending := by
  simp only [giveOutput, State.ite_parts .., ite_self, and_self, implies_true, releaseOutput_frame .., modJob_frame ..]

theorem drawFree_frame (j : Job) (s : State) :
    (drawFree j s).now = s.now ∧ (drawFree j s).life = s.life ∧ (drawFree j s).link = s.link ∧ (drawFree j s).gate =
    s.gate ∧ (drawFree j s).rings = s.rings ∧ (drawFree j s).units = s.units ∧ (drawFree j s).curves = s.curves ∧
    (drawFree j s).sess = s.sess ∧ (drawFree j s).vault = s.vault ∧ (drawFree j s).ctrs = s.ctrs ∧ (drawFree j
    s).powder = s.powder ∧ (drawFree j s).merya = s.merya ∧ (drawFree j s).prot = s.prot ∧ (drawFree j s).mem =
    s.mem ∧ (drawFree j s).stored = s.stored ∧ (drawFree j s).patrol = s.patrol ∧ (drawFree j s).trk = s.trk ∧
    (drawFree j s).hut = s.hut ∧ (drawFree j s).alarm = s.alarm ∧ (drawFree j s).card = s.card ∧ (drawFree j s).evts
    = s.evts ∧ (drawFree j s).tel = s.tel ∧ (drawFree j s).pending = s.pending := by
  simp only [drawFree, State.ite_parts .., ite_self, and_self, implies_true]

theorem endRun_frame (tag : Nat) (bs : Bytes) (st : Status) (s : State) :
    (endRun tag bs st s).now = s.now ∧ (endRun tag bs st s).life = s.life ∧ (endRun tag bs st s).gate = s.gate ∧ (endRun
    tag bs st s).curves = s.curves ∧ (endRun tag bs st s).sess = s.sess ∧ (endRun tag bs st s).ctrs = s.ctrs ∧
    (endRun tag bs st s).powder = s.powder ∧ (endRun tag bs st s).merya = s.merya ∧ (endRun tag bs st s).patrol =
    s.patrol ∧ (endRun tag bs st s).hut = s.hut ∧ (endRun tag bs st s).alarm = s.alarm ∧ (endRun tag bs st s).card =
    s.card ∧ (endRun tag bs st s).tel = s.tel ∧ (endRun tag bs st s).pending = s.pending := by
  unfold endRun
  (repeat' split) <;> simp only [State.ite_parts .., ite_self, and_self, implies_true, finishJob_frame .., giveOutput_frame .., drawFree_frame ..]

theorem endSilent_frame (tag : Nat) (st : Status) (s : State) :
    (endSilent tag st s).now = s.now ∧ (endSilent tag st s).life = s.life ∧ (endSilent tag st s).gate = s.gate ∧
    (endSilent tag st s).curves = s.curves ∧ (endSilent tag st s).sess = s.sess ∧ (endSilent tag st s).ctrs = s.ctrs
    ∧ (endSilent tag st s).powder = s.powder ∧ (endSilent tag st s).merya = s.merya ∧ (endSilent tag st s).patrol =
    s.patrol ∧ (endSilent tag st s).hut = s.hut ∧ (endSilent tag st s).alarm = s.alarm ∧ (endSilent tag st s).card =
    s.card ∧ (endSilent tag st s).tel = s.tel ∧ (endSilent tag st s).pending = s.pending := by
  simp only [endSilent, State.ite_parts .., ite_self, and_self, implies_true, endRun_frame .., modJob_frame ..]

theorem bladeBoundary_frame (tag : Nat) (s : State) :
    (bladeBoundary tag s).now = s.now ∧ (bladeBoundary tag s).life = s.life ∧ (bladeBoundary tag s).gate = s.gate ∧
    (bladeBoundary tag s).curves = s.curves ∧ (bladeBoundary tag s).sess = s.sess ∧ (bladeBoundary tag s).ctrs =
    s.ctrs ∧ (bladeBoundary tag s).powder = s.powder ∧ (bladeBoundary tag s).merya = s.merya ∧ (bladeBoundary tag
    s).patrol = s.patrol ∧ (bladeBoundary tag s).hut = s.hut ∧ (bladeBoundary tag s).alarm = s.alarm ∧
    (bladeBoundary tag s).card = s.card ∧ (bladeBoundary tag s).tel = s.tel ∧ (bladeBoundary tag s).pending =
    s.pending := by
  simp only [bladeBoundary, State.ite_parts .., ite_self, and_self, implies_true, replayStep_frame .., endSilent_frame ..,
    giveOutput_frame ..]
  (repeat' split) <;> simp only [State.ite_parts .., ite_self, and_self, implies_true, replayStep_frame .., endSilent_frame .., giveOutput_frame ..]

theorem secondPassBegins_frame (tag : Nat) (s : State) :
    (secondPassBegins tag s).now = s.now ∧ (secondPassBegins tag s).free = s.free ∧ (secondPassBegins tag s).life =
    s.life ∧ (secondPassBegins tag s).link = s.link ∧ (secondPassBegins tag s).gate = s.gate ∧ (secondPassBegins tag
    s).units = s.units ∧ (secondPassBegins tag s).curves = s.curves ∧ (secondPassBegins tag s).sess = s.sess ∧
    (secondPassBegins tag s).vault = s.vault ∧ (secondPassBegins tag s).ctrs = s.ctrs ∧ (secondPassBegins tag
    s).powder = s.powder ∧ (secondPassBegins tag s).merya = s.merya ∧ (secondPassBegins tag s).prot = s.prot ∧
    (secondPassBegins tag s).mem = s.mem ∧ (secondPassBegins tag s).stored = s.stored ∧ (secondPassBegins tag
    s).patrol = s.patrol ∧ (secondPassBegins tag s).trk = s.trk ∧ (secondPassBegins tag s).hut = s.hut ∧
    (secondPassBegins tag s).alarm = s.alarm ∧ (secondPassBegins tag s).card = s.card ∧ (secondPassBegins tag
    s).evts = s.evts ∧ (secondPassBegins tag s).tel = s.tel ∧ (secondPassBegins tag s).pending = s.pending := by
  simp only [secondPassBegins, State.ite_parts .., ite_self, and_self, implies_true, modJob_frame ..]

theorem bladeDone_frame (tag : Nat) (s : State) :
    (bladeDone tag s).now = s.now ∧ (bladeDone tag s).life = s.life ∧ (bladeDone tag s).gate = s.gate ∧ (bladeDone tag
    s).curves = s.curves ∧ (bladeDone tag s).sess = s.sess ∧ (bladeDone tag s).ctrs = s.ctrs ∧ (bladeDone tag
    s).powder = s.powder ∧ (bladeDone tag s).merya = s.merya ∧ (bladeDone tag s).patrol = s.patrol ∧ (bladeDone tag
    s).hut = s.hut ∧ (bladeDone tag s).alarm = s.alarm ∧ (bladeDone tag s).card = s.card ∧ (bladeDone tag s).tel =
    s.tel ∧ (bladeDone tag s).pending = s.pending := by
  simp only [bladeDone, State.ite_parts .., ite_self, and_self, implies_true, finishJob_frame .., modJob_frame ..,
    replayStep_frame .., endSilent_frame .., endRun_frame .., secondPassBegins_frame ..]
  (repeat' split) <;> simp only [State.ite_parts .., ite_self, and_self, implies_true, finishJob_frame .., modJob_frame .., replayStep_frame ..,
    endSilent_frame .., endRun_frame .., secondPassBegins_frame ..]

/-! ### Edges.lean -/

theorem noteGenLimit_frame (n : Nat) (s : State) :
    (noteGenLimit n s).now = s.now ∧ (noteGenLimit n s).free = s.free ∧ (noteGenLimit n s).life = s.life ∧ (noteGenLimit
    n s).gate = s.gate ∧ (noteGenLimit n s).rings = s.rings ∧ (noteGenLimit n s).units = s.units ∧ (noteGenLimit n
    s).curves = s.curves ∧ (noteGenLimit n s).sess = s.sess ∧ (noteGenLimit n s).ctrs = s.ctrs ∧ (noteGenLimit n
    s).powder = s.powder ∧ (noteGenLimit n s).merya = s.merya ∧ (noteGenLimit n s).prot = s.prot ∧ (noteGenLimit n
    s).mem = s.mem ∧ (noteGenLimit n s).stored = s.stored ∧ (noteGenLimit n s).patrol = s.patrol ∧ (noteGenLimit n
    s).trk = s.trk ∧ (noteGenLimit n s).hut = s.hut ∧ (noteGenLimit n s).alarm = s.alarm ∧ (noteGenLimit n s).card =
    s.card ∧ (noteGenLimit n s).tel = s.tel ∧ (noteGenLimit n s).pending = s.pending := by
  simp only [noteGenLimit, State.ite_parts .., ite_self, and_self, implies_true, setVltEvt_frame ..]

theorem commitKeygen_frame (tag : Nat) (j : Job) (s : State) :
    (commitKeygen tag j s).now = s.now ∧ (commitKeygen tag j s).free = s.free ∧ (commitKeygen tag j s).life = s.life
    ∧ (commitKeygen tag j s).gate = s.gate ∧ (commitKeygen tag j s).units = s.units ∧ (commitKeygen tag j s).curves
    = s.curves ∧ (commitKeygen tag j s).sess = s.sess ∧ (commitKeygen tag j s).ctrs = s.ctrs ∧ (commitKeygen tag j
    s).powder = s.powder ∧ (commitKeygen tag j s).merya = s.merya ∧ (commitKeygen tag j s).prot = s.prot ∧
    (commitKeygen tag j s).mem = s.mem ∧ (commitKeygen tag j s).patrol = s.patrol ∧ (commitKeygen tag j s).trk =
    s.trk ∧ (commitKeygen tag j s).hut = s.hut ∧ (commitKeygen tag j s).alarm = s.alarm ∧ (commitKeygen tag j
    s).card = s.card ∧ (commitKeygen tag j s).tel = s.tel ∧ (commitKeygen tag j s).pending = s.pending := by
  simp only [commitKeygen, State.ite_parts .., ite_self, and_self, implies_true, writeCell_frame .., noteGenLimit_frame .., modJob_frame ..]

theorem keyUnread_frame (j : Job) (s : State) :
    (keyUnread j s).now = s.now ∧ (keyUnread j s).free = s.free ∧ (keyUnread j s).life = s.life ∧ (keyUnread j
    s).gate = s.gate ∧ (keyUnread j s).curves = s.curves ∧ (keyUnread j s).sess = s.sess ∧ (keyUnread j s).ctrs =
    s.ctrs ∧ (keyUnread j s).powder = s.powder ∧ (keyUnread j s).merya = s.merya ∧ (keyUnread j s).prot = s.prot ∧
    (keyUnread j s).mem = s.mem ∧ (keyUnread j s).patrol = s.patrol ∧ (keyUnread j s).hut = s.hut ∧ (keyUnread j
    s).alarm = s.alarm ∧ (keyUnread j s).card = s.card ∧ (keyUnread j s).tel = s.tel ∧ (keyUnread j s).pending =
    s.pending := by
  simp only [keyUnread, State.ite_parts .., ite_self, and_self, implies_true, finishJob_frame .., modJob_frame ..,
    readHolds_frame ..]

theorem arbiterGrant_frame (tag : Nat) (s : State) :
    (arbiterGrant tag s).now = s.now ∧ (arbiterGrant tag s).free = s.free ∧ (arbiterGrant tag s).life = s.life ∧
    (arbiterGrant tag s).gate = s.gate ∧ (arbiterGrant tag s).curves = s.curves ∧ (arbiterGrant tag s).sess = s.sess
    ∧ (arbiterGrant tag s).ctrs = s.ctrs ∧ (arbiterGrant tag s).powder = s.powder ∧ (arbiterGrant tag s).merya =
    s.merya ∧ (arbiterGrant tag s).prot = s.prot ∧ (arbiterGrant tag s).mem = s.mem ∧ (arbiterGrant tag s).patrol =
    s.patrol ∧ (arbiterGrant tag s).hut = s.hut ∧ (arbiterGrant tag s).alarm = s.alarm ∧ (arbiterGrant tag s).card =
    s.card ∧ (arbiterGrant tag s).tel = s.tel ∧ (arbiterGrant tag s).pending = s.pending := by
  unfold arbiterGrant
  (repeat' split) <;> simp only [State.ite_parts .., ite_self, and_self, implies_true, keyUnread_frame .., wakeJob_frame .., modJob_frame ..]

theorem curveDone_frame (j : Job) (s : State) :
    (curveDone j s).1.now = s.now ∧ (curveDone j s).1.free = s.free ∧ (curveDone j s).1.life = s.life ∧ (curveDone j
    s).1.link = s.link ∧ (curveDone j s).1.gate = s.gate ∧ (curveDone j s).1.rings = s.rings ∧ (curveDone j
    s).1.units = s.units ∧ (curveDone j s).1.sess = s.sess ∧ (curveDone j s).1.vault = s.vault ∧ (curveDone j
    s).1.ctrs = s.ctrs ∧ (curveDone j s).1.powder = s.powder ∧ (curveDone j s).1.merya = s.merya ∧ (curveDone j
    s).1.prot = s.prot ∧ (curveDone j s).1.mem = s.mem ∧ (curveDone j s).1.stored = s.stored ∧ (curveDone j
    s).1.patrol = s.patrol ∧ (curveDone j s).1.hut = s.hut ∧ (curveDone j s).1.alarm = s.alarm ∧ (curveDone j
    s).1.card = s.card ∧ (curveDone j s).1.evts = s.evts ∧ (curveDone j s).1.tel = s.tel ∧ (curveDone j s).1.pending
    = s.pending := by
  simp only [curveDone, State.ite_parts .., ite_self, and_self, implies_true, trkRequest_frame ..]

theorem curvePrepared_frame (j : Job) (s : State) :
    (curvePrepared j s).now = s.now ∧ (curvePrepared j s).free = s.free ∧ (curvePrepared j s).life = s.life ∧
    (curvePrepared j s).link = s.link ∧ (curvePrepared j s).gate = s.gate ∧ (curvePrepared j s).curves = s.curves ∧
    (curvePrepared j s).sess = s.sess ∧ (curvePrepared j s).ctrs = s.ctrs ∧ (curvePrepared j s).powder = s.powder ∧
    (curvePrepared j s).merya = s.merya ∧ (curvePrepared j s).prot = s.prot ∧ (curvePrepared j s).mem = s.mem ∧
    (curvePrepared j s).patrol = s.patrol ∧ (curvePrepared j s).hut = s.hut ∧ (curvePrepared j s).alarm = s.alarm ∧
    (curvePrepared j s).card = s.card ∧ (curvePrepared j s).evts = s.evts ∧ (curvePrepared j s).tel = s.tel ∧
    (curvePrepared j s).pending = s.pending := by
  unfold curvePrepared
  (repeat' split) <;> simp only [State.ite_parts .., ite_self, and_self, implies_true, freeMemory_frame .., modJob_frame .., leaveUnit_frame ..]

theorem groomerDraw_frame (s : State) (g : Nat) (n : Nat) :
    (groomerDraw s g n).2.now = s.now ∧ (groomerDraw s g n).2.free = s.free ∧ (groomerDraw s g n).2.life = s.life ∧
    (groomerDraw s g n).2.link = s.link ∧ (groomerDraw s g n).2.gate = s.gate ∧ (groomerDraw s g n).2.rings =
    s.rings ∧ (groomerDraw s g n).2.units = s.units ∧ (groomerDraw s g n).2.curves = s.curves ∧ (groomerDraw s g
    n).2.sess = s.sess ∧ (groomerDraw s g n).2.vault = s.vault ∧ (groomerDraw s g n).2.ctrs = s.ctrs ∧ (groomerDraw
    s g n).2.merya = s.merya ∧ (groomerDraw s g n).2.prot = s.prot ∧ (groomerDraw s g n).2.mem = s.mem ∧
    (groomerDraw s g n).2.stored = s.stored ∧ (groomerDraw s g n).2.patrol = s.patrol ∧ (groomerDraw s g n).2.trk =
    s.trk ∧ (groomerDraw s g n).2.hut = s.hut ∧ (groomerDraw s g n).2.alarm = s.alarm ∧ (groomerDraw s g n).2.card =
    s.card ∧ (groomerDraw s g n).2.evts = s.evts ∧ (groomerDraw s g n).2.tel = s.tel ∧ (groomerDraw s g n).2.pending
    = s.pending := by
  simp only [groomerDraw, State.ite_parts .., ite_self, and_self, implies_true]

theorem drawDone_frame (g : Nat) (s : State) :
    (drawDone g s).1.now = s.now ∧ (drawDone g s).1.life = s.life ∧ (drawDone g s).1.gate = s.gate ∧ (drawDone g
    s).1.curves = s.curves ∧ (drawDone g s).1.sess = s.sess ∧ (drawDone g s).1.ctrs = s.ctrs ∧ (drawDone g
    s).1.merya = s.merya ∧ (drawDone g s).1.patrol = s.patrol ∧ (drawDone g s).1.hut = s.hut ∧ (drawDone g
    s).1.alarm = s.alarm ∧ (drawDone g s).1.card = s.card ∧ (drawDone g s).1.tel = s.tel ∧ (drawDone g s).1.pending
    = s.pending := by
  simp only [drawDone, State.ite_parts .., ite_self, and_self, implies_true, groomerDraw_frame .., modJob_frame ..,
    drawFree_frame .., giveOutput_frame .., finishJob_frame .., wakeJob_frame ..]
  (repeat' split) <;> simp only [State.ite_parts .., ite_self, and_self, implies_true, groomerDraw_frame .., modJob_frame .., drawFree_frame ..,
    giveOutput_frame .., finishJob_frame .., wakeJob_frame ..]

theorem edgeDone_frame (tag : Nat) (s : State) :
    (edgeDone tag s).now = s.now ∧ (edgeDone tag s).life = s.life ∧ (edgeDone tag s).gate = s.gate ∧ (edgeDone tag
    s).curves = s.curves ∧ (edgeDone tag s).sess = s.sess ∧ (edgeDone tag s).ctrs = s.ctrs ∧ (edgeDone tag s).powder
    = s.powder ∧ (edgeDone tag s).merya = s.merya ∧ (edgeDone tag s).patrol = s.patrol ∧ (edgeDone tag s).hut =
    s.hut ∧ (edgeDone tag s).alarm = s.alarm ∧ (edgeDone tag s).card = s.card ∧ (edgeDone tag s).tel = s.tel ∧
    (edgeDone tag s).pending = s.pending := by
  unfold edgeDone
  (repeat' split) <;> simp only [State.ite_parts .., ite_self, and_self, implies_true, foldl_pending, foldl_tel, foldl_card, foldl_alarm, foldl_hut, foldl_patrol, foldl_merya, foldl_powder, foldl_ctrs, foldl_sess, foldl_curves, foldl_gate, foldl_life, foldl_now, readRange_frame .., finishJob_frame .., modJob_frame .., endSilent_frame ..,
    endRun_frame .., commitKeygen_frame ..]

theorem hashDone_frame (tag : Nat) (s : State) :
    (hashDone tag s).now = s.now ∧ (hashDone tag s).life = s.life ∧ (hashDone tag s).gate = s.gate ∧ (hashDone tag
    s).curves = s.curves ∧ (hashDone tag s).sess = s.sess ∧ (hashDone tag s).ctrs = s.ctrs ∧ (hashDone tag s).powder
    = s.powder ∧ (hashDone tag s).merya = s.merya ∧ (hashDone tag s).patrol = s.patrol ∧ (hashDone tag s).hut =
    s.hut ∧ (hashDone tag s).alarm = s.alarm ∧ (hashDone tag s).card = s.card ∧ (hashDone tag s).tel = s.tel ∧
    (hashDone tag s).pending = s.pending := by
  unfold hashDone
  (repeat' split) <;> simp only [State.ite_parts .., ite_self, and_self, implies_true, finishJob_frame .., endRun_frame .., modJob_frame ..,
    dispatchUnit_frame .., wakeJob_frame ..]

theorem liftDone_frame (tag : Nat) (s : State) :
    (liftDone tag s).now = s.now ∧ (liftDone tag s).free = s.free ∧ (liftDone tag s).life = s.life ∧ (liftDone tag
    s).gate = s.gate ∧ (liftDone tag s).curves = s.curves ∧ (liftDone tag s).sess = s.sess ∧ (liftDone tag s).ctrs =
    s.ctrs ∧ (liftDone tag s).powder = s.powder ∧ (liftDone tag s).merya = s.merya ∧ (liftDone tag s).prot = s.prot
    ∧ (liftDone tag s).mem = s.mem ∧ (liftDone tag s).patrol = s.patrol ∧ (liftDone tag s).hut = s.hut ∧ (liftDone
    tag s).alarm = s.alarm ∧ (liftDone tag s).card = s.card ∧ (liftDone tag s).tel = s.tel ∧ (liftDone tag
    s).pending = s.pending := by
  unfold liftDone
  (repeat' split) <;> simp only [State.ite_parts .., ite_self, and_self, implies_true, keyUnread_frame .., modJob_frame .., dispatchUnit_frame .., wakeJob_frame ..]

/-! ### Complete.lean -/

theorem countStatus_frame (j : Job) (st : Status) (s : State) :
    (countStatus j st s).now = s.now ∧ (countStatus j st s).free = s.free ∧ (countStatus j st s).life = s.life ∧
    (countStatus j st s).curves = s.curves ∧ (countStatus j st s).vault = s.vault ∧ (countStatus j st s).merya =
    s.merya ∧ (countStatus j st s).prot = s.prot ∧ (countStatus j st s).mem = s.mem ∧ (countStatus j st s).stored =
    s.stored ∧ (countStatus j st s).patrol = s.patrol ∧ (countStatus j st s).trk = s.trk ∧ (countStatus j st s).hut
    = s.hut ∧ (countStatus j st s).alarm = s.alarm ∧ (countStatus j st s).card = s.card ∧ (countStatus j st s).tel =
    s.tel ∧ (countStatus j st s).pending = s.pending := by
  simp only [countStatus, State.ite_parts .., ite_self, and_self, implies_true, setCtrEvt_frame .., setGateEvt_frame ..]

theorem noteContext_frame (j : Job) (c : SessionCopy) (st : Status) (s : State) :
    (noteContext j c st s).now = s.now ∧ (noteContext j c st s).free = s.free ∧ (noteContext j c st s).life = s.life
    ∧ (noteContext j c st s).link = s.link ∧ (noteContext j c st s).gate = s.gate ∧ (noteContext j c st s).rings =
    s.rings ∧ (noteContext j c st s).units = s.units ∧ (noteContext j c st s).curves = s.curves ∧ (noteContext j c
    st s).sess = s.sess ∧ (noteContext j c st s).vault = s.vault ∧ (noteContext j c st s).ctrs = s.ctrs ∧
    (noteContext j c st s).powder = s.powder ∧ (noteContext j c st s).merya = s.merya ∧ (noteContext j c st s).prot
    = s.prot ∧ (noteContext j c st s).mem = s.mem ∧ (noteContext j c st s).patrol = s.patrol ∧ (noteContext j c st
    s).trk = s.trk ∧ (noteContext j c st s).hut = s.hut ∧ (noteContext j c st s).alarm = s.alarm ∧ (noteContext j c
    st s).card = s.card ∧ (noteContext j c st s).evts = s.evts ∧ (noteContext j c st s).tel = s.tel ∧ (noteContext j
    c st s).pending = s.pending := by
  simp only [noteContext, State.ite_parts .., ite_self, and_self, implies_true, writeContextWords_frame ..]

theorem writeContext_frame (j : Job) (st : Status) (s : State) :
    (writeContext j st s).now = s.now ∧ (writeContext j st s).free = s.free ∧ (writeContext j st s).life = s.life ∧
    (writeContext j st s).link = s.link ∧ (writeContext j st s).gate = s.gate ∧ (writeContext j st s).rings =
    s.rings ∧ (writeContext j st s).units = s.units ∧ (writeContext j st s).curves = s.curves ∧ (writeContext j st
    s).vault = s.vault ∧ (writeContext j st s).ctrs = s.ctrs ∧ (writeContext j st s).powder = s.powder ∧
    (writeContext j st s).merya = s.merya ∧ (writeContext j st s).prot = s.prot ∧ (writeContext j st s).mem = s.mem
    ∧ (writeContext j st s).patrol = s.patrol ∧ (writeContext j st s).trk = s.trk ∧ (writeContext j st s).hut =
    s.hut ∧ (writeContext j st s).alarm = s.alarm ∧ (writeContext j st s).card = s.card ∧ (writeContext j st s).evts
    = s.evts ∧ (writeContext j st s).tel = s.tel ∧ (writeContext j st s).pending = s.pending := by
  unfold writeContext
  (repeat' split) <;> simp only [State.ite_parts .., ite_self, and_self, implies_true, noteContext_frame ..]

theorem giveBackCredit_frame (j : Job) (s : State) :
    (giveBackCredit j s).now = s.now ∧ (giveBackCredit j s).free = s.free ∧ (giveBackCredit j s).life = s.life ∧
    (giveBackCredit j s).link = s.link ∧ (giveBackCredit j s).gate = s.gate ∧ (giveBackCredit j s).rings = s.rings ∧
    (giveBackCredit j s).units = s.units ∧ (giveBackCredit j s).curves = s.curves ∧ (giveBackCredit j s).sess =
    s.sess ∧ (giveBackCredit j s).vault = s.vault ∧ (giveBackCredit j s).powder = s.powder ∧ (giveBackCredit j
    s).merya = s.merya ∧ (giveBackCredit j s).prot = s.prot ∧ (giveBackCredit j s).mem = s.mem ∧ (giveBackCredit j
    s).stored = s.stored ∧ (giveBackCredit j s).patrol = s.patrol ∧ (giveBackCredit j s).trk = s.trk ∧
    (giveBackCredit j s).hut = s.hut ∧ (giveBackCredit j s).alarm = s.alarm ∧ (giveBackCredit j s).card = s.card ∧
    (giveBackCredit j s).evts = s.evts ∧ (giveBackCredit j s).tel = s.tel ∧ (giveBackCredit j s).pending = s.pending := by
  unfold giveBackCredit
  (repeat' split) <;> simp only [State.ite_parts .., ite_self, and_self, implies_true, returnCredit_frame ..]

theorem wakePieces_frame (j : Job) (s : State) :
    (wakePieces j s).now = s.now ∧ (wakePieces j s).free = s.free ∧ (wakePieces j s).life = s.life ∧ (wakePieces j
    s).link = s.link ∧ (wakePieces j s).gate = s.gate ∧ (wakePieces j s).curves = s.curves ∧ (wakePieces j s).sess =
    s.sess ∧ (wakePieces j s).ctrs = s.ctrs ∧ (wakePieces j s).powder = s.powder ∧ (wakePieces j s).merya = s.merya
    ∧ (wakePieces j s).prot = s.prot ∧ (wakePieces j s).mem = s.mem ∧ (wakePieces j s).patrol = s.patrol ∧
    (wakePieces j s).hut = s.hut ∧ (wakePieces j s).alarm = s.alarm ∧ (wakePieces j s).card = s.card ∧ (wakePieces j
    s).evts = s.evts ∧ (wakePieces j s).tel = s.tel ∧ (wakePieces j s).pending = s.pending := by
  unfold wakePieces
  (repeat' split) <;> simp only [State.ite_parts .., ite_self, and_self, implies_true, foldl_now, foldl_free, foldl_life, foldl_link,
    foldl_gate, foldl_curves, foldl_sess, foldl_ctrs, foldl_powder, foldl_merya, foldl_prot, foldl_mem,
    foldl_patrol, foldl_hut, foldl_alarm, foldl_card, foldl_evts, foldl_tel, foldl_pending, wakeJob_frame ..]

theorem buildEntry_frame (tag : Nat) (s0 : State) :
    (buildEntry tag s0).now = s0.now ∧ (buildEntry tag s0).free = s0.free ∧ (buildEntry tag s0).life = s0.life ∧
    (buildEntry tag s0).curves = s0.curves ∧ (buildEntry tag s0).prot = s0.prot ∧ (buildEntry tag s0).patrol =
    s0.patrol ∧ (buildEntry tag s0).hut = s0.hut ∧ (buildEntry tag s0).alarm = s0.alarm ∧ (buildEntry tag s0).card =
    s0.card ∧ (buildEntry tag s0).tel = s0.tel ∧ (buildEntry tag s0).pending = s0.pending := by
  unfold buildEntry
  (repeat' split) <;> simp only [State.ite_parts .., ite_self, and_self, implies_true, foldl_now, foldl_free, foldl_life, foldl_curves,
    foldl_prot, foldl_patrol, foldl_hut, foldl_alarm, foldl_card, foldl_tel, foldl_pending, noteUe_frame ..,
    countStatus_frame .., writeContext_frame .., giveBackCredit_frame .., modJob_frame .., wakePieces_frame .., noteStatus_frame ..]

theorem writeCompletion_frame (tag : Nat) (s : State) :
    (writeCompletion tag s).now = s.now ∧ (writeCompletion tag s).life = s.life ∧ (writeCompletion tag s).curves =
    s.curves ∧ (writeCompletion tag s).patrol = s.patrol ∧ (writeCompletion tag s).hut = s.hut ∧ (writeCompletion
    tag s).alarm = s.alarm ∧ (writeCompletion tag s).card = s.card ∧ (writeCompletion tag s).tel = s.tel ∧
    (writeCompletion tag s).pending = s.pending := by
  simp only [writeCompletion, State.ite_parts .., ite_self, and_self, implies_true, advanceRing_frame ..,
    releaseOutput_frame .., buildEntry_frame .., dispatchUnit_frame ..]
  (repeat' split) <;> simp only [State.ite_parts .., ite_self, and_self, implies_true, advanceRing_frame .., releaseOutput_frame ..,
    buildEntry_frame .., dispatchUnit_frame ..]

/-! ### Rings.lean -/

theorem dbIgnored_frame (r : RingId) (s : State) :
    (dbIgnored r s).now = s.now ∧ (dbIgnored r s).free = s.free ∧ (dbIgnored r s).life = s.life ∧ (dbIgnored r s).gate =
    s.gate ∧ (dbIgnored r s).units = s.units ∧ (dbIgnored r s).curves = s.curves ∧ (dbIgnored r s).sess = s.sess ∧
    (dbIgnored r s).vault = s.vault ∧ (dbIgnored r s).ctrs = s.ctrs ∧ (dbIgnored r s).powder = s.powder ∧ (dbIgnored
    r s).prot = s.prot ∧ (dbIgnored r s).patrol = s.patrol ∧ (dbIgnored r s).hut = s.hut ∧ (dbIgnored r s).alarm =
    s.alarm ∧ (dbIgnored r s).card = s.card ∧ (dbIgnored r s).tel = s.tel ∧ (dbIgnored r s).pending = s.pending := by
  simp only [dbIgnored, State.ite_parts .., ite_self, and_self, implies_true, raiseRing_frame .., modRing_frame ..]

theorem dbOverflow_frame (r : RingId) (s : State) :
    (dbOverflow r s).now = s.now ∧ (dbOverflow r s).free = s.free ∧ (dbOverflow r s).life = s.life ∧ (dbOverflow r
    s).gate = s.gate ∧ (dbOverflow r s).units = s.units ∧ (dbOverflow r s).curves = s.curves ∧ (dbOverflow r s).sess
    = s.sess ∧ (dbOverflow r s).vault = s.vault ∧ (dbOverflow r s).ctrs = s.ctrs ∧ (dbOverflow r s).powder =
    s.powder ∧ (dbOverflow r s).prot = s.prot ∧ (dbOverflow r s).patrol = s.patrol ∧ (dbOverflow r s).hut = s.hut ∧
    (dbOverflow r s).alarm = s.alarm ∧ (dbOverflow r s).card = s.card ∧ (dbOverflow r s).tel = s.tel ∧ (dbOverflow r
    s).pending = s.pending := by
  simp only [dbOverflow, State.ite_parts .., ite_self, and_self, implies_true, raiseRing_frame .., modRing_frame ..]

theorem acceptDoorbell_frame (r : RingId) (value : Word) (s : State) :
    (acceptDoorbell r value s).now = s.now ∧ (acceptDoorbell r value s).free = s.free ∧ (acceptDoorbell r value s).life
    = s.life ∧ (acceptDoorbell r value s).units = s.units ∧ (acceptDoorbell r value s).curves = s.curves ∧
    (acceptDoorbell r value s).sess = s.sess ∧ (acceptDoorbell r value s).vault = s.vault ∧ (acceptDoorbell r value
    s).ctrs = s.ctrs ∧ (acceptDoorbell r value s).powder = s.powder ∧ (acceptDoorbell r value s).prot = s.prot ∧
    (acceptDoorbell r value s).patrol = s.patrol ∧ (acceptDoorbell r value s).hut = s.hut ∧ (acceptDoorbell r value
    s).alarm = s.alarm ∧ (acceptDoorbell r value s).card = s.card ∧ (acceptDoorbell r value s).tel = s.tel ∧
    (acceptDoorbell r value s).pending = s.pending := by
  simp only [acceptDoorbell, State.ite_parts .., ite_self, and_self, implies_true, dbIgnored_frame .., dbOverflow_frame ..,
    fetchRing_frame .., setRing_frame ..]

theorem doorbellRing_frame (r : RingId) (value : Word) (s : State) :
    (doorbellRing r value s).now = s.now ∧ (doorbellRing r value s).free = s.free ∧ (doorbellRing r value s).life =
    s.life ∧ (doorbellRing r value s).units = s.units ∧ (doorbellRing r value s).curves = s.curves ∧ (doorbellRing r
    value s).sess = s.sess ∧ (doorbellRing r value s).vault = s.vault ∧ (doorbellRing r value s).ctrs = s.ctrs ∧
    (doorbellRing r value s).powder = s.powder ∧ (doorbellRing r value s).prot = s.prot ∧ (doorbellRing r value
    s).patrol = s.patrol ∧ (doorbellRing r value s).hut = s.hut ∧ (doorbellRing r value s).alarm = s.alarm ∧
    (doorbellRing r value s).card = s.card ∧ (doorbellRing r value s).tel = s.tel ∧ (doorbellRing r value s).pending
    = s.pending := by
  simp only [doorbellRing, State.ite_parts .., ite_self, and_self, implies_true, modRing_frame .., acceptDoorbell_frame ..]

theorem enableIgnored_frame (r : RingId) (s : State) :
    (enableIgnored r s).now = s.now ∧ (enableIgnored r s).free = s.free ∧ (enableIgnored r s).life = s.life ∧
    (enableIgnored r s).gate = s.gate ∧ (enableIgnored r s).units = s.units ∧ (enableIgnored r s).curves = s.curves
    ∧ (enableIgnored r s).sess = s.sess ∧ (enableIgnored r s).vault = s.vault ∧ (enableIgnored r s).ctrs = s.ctrs ∧
    (enableIgnored r s).powder = s.powder ∧ (enableIgnored r s).prot = s.prot ∧ (enableIgnored r s).patrol =
    s.patrol ∧ (enableIgnored r s).hut = s.hut ∧ (enableIgnored r s).alarm = s.alarm ∧ (enableIgnored r s).card =
    s.card ∧ (enableIgnored r s).tel = s.tel ∧ (enableIgnored r s).pending = s.pending := by
  simp only [enableIgnored, State.ite_parts .., ite_self, and_self, implies_true, raiseRing_frame .., modRing_frame ..]

theorem enableRing_frame (r : RingId) (s : State) :
    (enableRing r s).now = s.now ∧ (enableRing r s).free = s.free ∧ (enableRing r s).life = s.life ∧ (enableRing r
    s).gate = s.gate ∧ (enableRing r s).units = s.units ∧ (enableRing r s).curves = s.curves ∧ (enableRing r s).sess
    = s.sess ∧ (enableRing r s).vault = s.vault ∧ (enableRing r s).ctrs = s.ctrs ∧ (enableRing r s).powder =
    s.powder ∧ (enableRing r s).prot = s.prot ∧ (enableRing r s).patrol = s.patrol ∧ (enableRing r s).hut = s.hut ∧
    (enableRing r s).alarm = s.alarm ∧ (enableRing r s).card = s.card ∧ (enableRing r s).tel = s.tel ∧ (enableRing r
    s).pending = s.pending := by
  simp only [enableRing, State.ite_parts .., ite_self, and_self, implies_true, setRing_frame .., enableIgnored_frame ..]
  (repeat' split) <;> simp only [State.ite_parts .., ite_self, and_self, implies_true, setRing_frame .., enableIgnored_frame ..]

theorem rearmCommand_frame (r : RingId) (flush : Option (List FlushRead)) (s : State) :
    (rearmCommand r flush s).now = s.now ∧ (rearmCommand r flush s).life = s.life ∧ (rearmCommand r flush s).units =
    s.units ∧ (rearmCommand r flush s).curves = s.curves ∧ (rearmCommand r flush s).sess = s.sess ∧ (rearmCommand r
    flush s).vault = s.vault ∧ (rearmCommand r flush s).ctrs = s.ctrs ∧ (rearmCommand r flush s).powder = s.powder ∧
    (rearmCommand r flush s).patrol = s.patrol ∧ (rearmCommand r flush s).hut = s.hut ∧ (rearmCommand r flush
    s).alarm = s.alarm ∧ (rearmCommand r flush s).card = s.card ∧ (rearmCommand r flush s).tel = s.tel ∧
    (rearmCommand r flush s).pending = s.pending := by
  simp only [rearmCommand, State.ite_parts .., ite_self, and_self, implies_true, settleRing_frame .., setRing_frame ..]

theorem disableRing_frame (r : RingId) (s : State) :
    (disableRing r s).now = s.now ∧ (disableRing r s).life = s.life ∧ (disableRing r s).units = s.units ∧ (disableRing r
    s).curves = s.curves ∧ (disableRing r s).sess = s.sess ∧ (disableRing r s).vault = s.vault ∧ (disableRing r
    s).ctrs = s.ctrs ∧ (disableRing r s).powder = s.powder ∧ (disableRing r s).patrol = s.patrol ∧ (disableRing r
    s).hut = s.hut ∧ (disableRing r s).alarm = s.alarm ∧ (disableRing r s).card = s.card ∧ (disableRing r s).tel =
    s.tel ∧ (disableRing r s).pending = s.pending := by
  simp only [disableRing, State.ite_parts .., ite_self, and_self, implies_true, settleRing_frame .., setRing_frame ..]
  (repeat' split) <;> simp only [State.ite_parts .., ite_self, and_self, implies_true, settleRing_frame .., setRing_frame ..]

theorem ringCtrl_frame (r : RingId) (value : Word) (reads : List FlushRead) (s : State) :
    (ringCtrl r value reads s).now = s.now ∧ (ringCtrl r value reads s).life = s.life ∧ (ringCtrl r value reads s).units
    = s.units ∧ (ringCtrl r value reads s).curves = s.curves ∧ (ringCtrl r value reads s).sess = s.sess ∧ (ringCtrl
    r value reads s).vault = s.vault ∧ (ringCtrl r value reads s).ctrs = s.ctrs ∧ (ringCtrl r value reads s).powder
    = s.powder ∧ (ringCtrl r value reads s).patrol = s.patrol ∧ (ringCtrl r value reads s).hut = s.hut ∧ (ringCtrl r
    value reads s).alarm = s.alarm ∧ (ringCtrl r value reads s).card = s.card ∧ (ringCtrl r value reads s).tel =
    s.tel ∧ (ringCtrl r value reads s).pending = s.pending := by
  simp only [ringCtrl, State.ite_parts .., ite_self, and_self, implies_true, disableRing_frame .., enableRing_frame ..,
    rearmCommand_frame ..]

theorem releaseDoorbell_frame (n : Nat) (s : State) :
    (releaseDoorbell n s).now = s.now ∧ (releaseDoorbell n s).free = s.free ∧ (releaseDoorbell n s).life = s.life ∧
    (releaseDoorbell n s).units = s.units ∧ (releaseDoorbell n s).curves = s.curves ∧ (releaseDoorbell n s).sess =
    s.sess ∧ (releaseDoorbell n s).vault = s.vault ∧ (releaseDoorbell n s).ctrs = s.ctrs ∧ (releaseDoorbell n
    s).powder = s.powder ∧ (releaseDoorbell n s).prot = s.prot ∧ (releaseDoorbell n s).patrol = s.patrol ∧
    (releaseDoorbell n s).hut = s.hut ∧ (releaseDoorbell n s).alarm = s.alarm ∧ (releaseDoorbell n s).card = s.card
    ∧ (releaseDoorbell n s).tel = s.tel ∧ (releaseDoorbell n s).pending = s.pending := by
  unfold releaseDoorbell
  (repeat' split) <;> simp only [State.ite_parts .., ite_self, and_self, implies_true, acceptDoorbell_frame .., modRing_frame ..]

theorem releaseDoorbells_frame (s : State) :
    (releaseDoorbells s).now = s.now ∧ (releaseDoorbells s).free = s.free ∧ (releaseDoorbells s).life = s.life ∧
    (releaseDoorbells s).units = s.units ∧ (releaseDoorbells s).curves = s.curves ∧ (releaseDoorbells s).sess =
    s.sess ∧ (releaseDoorbells s).vault = s.vault ∧ (releaseDoorbells s).ctrs = s.ctrs ∧ (releaseDoorbells s).powder
    = s.powder ∧ (releaseDoorbells s).prot = s.prot ∧ (releaseDoorbells s).patrol = s.patrol ∧ (releaseDoorbells
    s).hut = s.hut ∧ (releaseDoorbells s).alarm = s.alarm ∧ (releaseDoorbells s).card = s.card ∧ (releaseDoorbells
    s).tel = s.tel ∧ (releaseDoorbells s).pending = s.pending := by
  simp only [releaseDoorbells, State.ite_parts .., ite_self, and_self, implies_true, foldl_now, foldl_free, foldl_life,
    foldl_units, foldl_curves, foldl_sess, foldl_vault, foldl_ctrs, foldl_powder, foldl_prot, foldl_patrol,
    foldl_hut, foldl_alarm, foldl_card, foldl_tel, foldl_pending, releaseDoorbell_frame ..]

theorem ringStatusClear_frame (r : RingId) (value : Word) (s : State) :
    (ringStatusClear r value s).now = s.now ∧ (ringStatusClear r value s).free = s.free ∧ (ringStatusClear r value
    s).life = s.life ∧ (ringStatusClear r value s).link = s.link ∧ (ringStatusClear r value s).gate = s.gate ∧
    (ringStatusClear r value s).units = s.units ∧ (ringStatusClear r value s).curves = s.curves ∧ (ringStatusClear r
    value s).sess = s.sess ∧ (ringStatusClear r value s).vault = s.vault ∧ (ringStatusClear r value s).ctrs = s.ctrs
    ∧ (ringStatusClear r value s).powder = s.powder ∧ (ringStatusClear r value s).merya = s.merya ∧ (ringStatusClear
    r value s).prot = s.prot ∧ (ringStatusClear r value s).mem = s.mem ∧ (ringStatusClear r value s).stored =
    s.stored ∧ (ringStatusClear r value s).patrol = s.patrol ∧ (ringStatusClear r value s).trk = s.trk ∧
    (ringStatusClear r value s).hut = s.hut ∧ (ringStatusClear r value s).alarm = s.alarm ∧ (ringStatusClear r value
    s).card = s.card ∧ (ringStatusClear r value s).evts = s.evts ∧ (ringStatusClear r value s).tel = s.tel ∧
    (ringStatusClear r value s).pending = s.pending := by
  simp only [ringStatusClear, State.ite_parts .., ite_self, and_self, implies_true, modRing_frame ..]

theorem portWrite_frame (n : Nat) (off : Nat) (value : Word) (s : State) :
    (portWrite n off value s).now = s.now ∧ (portWrite n off value s).life = s.life ∧ (portWrite n off value s).units =
    s.units ∧ (portWrite n off value s).curves = s.curves ∧ (portWrite n off value s).sess = s.sess ∧ (portWrite n
    off value s).vault = s.vault ∧ (portWrite n off value s).ctrs = s.ctrs ∧ (portWrite n off value s).powder =
    s.powder ∧ (portWrite n off value s).patrol = s.patrol ∧ (portWrite n off value s).hut = s.hut ∧ (portWrite n
    off value s).alarm = s.alarm ∧ (portWrite n off value s).card = s.card ∧ (portWrite n off value s).tel = s.tel ∧
    (portWrite n off value s).pending = s.pending := by
  unfold portWrite
  (repeat' split) <;> simp only [State.ite_parts .., ite_self, and_self, implies_true, doorbellRing_frame .., ringCtrl_frame ..,
    ringStatusClear_frame ..]

/-! ### Counters.lean -/

theorem modCounter_frame (n : Nat) (f : Counter → Counter) (s : State) :
    (modCounter n f s).now = s.now ∧ (modCounter n f s).free = s.free ∧ (modCounter n f s).life = s.life ∧ (modCounter n
    f s).link = s.link ∧ (modCounter n f s).gate = s.gate ∧ (modCounter n f s).rings = s.rings ∧ (modCounter n f
    s).units = s.units ∧ (modCounter n f s).curves = s.curves ∧ (modCounter n f s).sess = s.sess ∧ (modCounter n f
    s).vault = s.vault ∧ (modCounter n f s).powder = s.powder ∧ (modCounter n f s).merya = s.merya ∧ (modCounter n f
    s).prot = s.prot ∧ (modCounter n f s).mem = s.mem ∧ (modCounter n f s).stored = s.stored ∧ (modCounter n f
    s).patrol = s.patrol ∧ (modCounter n f s).trk = s.trk ∧ (modCounter n f s).hut = s.hut ∧ (modCounter n f
    s).alarm = s.alarm ∧ (modCounter n f s).card = s.card ∧ (modCounter n f s).evts = s.evts ∧ (modCounter n f
    s).tel = s.tel ∧ (modCounter n f s).pending = s.pending := by
  simp only [modCounter, State.ite_parts .., ite_self, and_self, implies_true]

theorem writeCounter_frame (n : Nat) (v : DWord) (s : State) :
    (writeCounter n v s).now = s.now ∧ (writeCounter n v s).free = s.free ∧ (writeCounter n v s).life = s.life ∧
    (writeCounter n v s).link = s.link ∧ (writeCounter n v s).gate = s.gate ∧ (writeCounter n v s).rings = s.rings ∧
    (writeCounter n v s).units = s.units ∧ (writeCounter n v s).curves = s.curves ∧ (writeCounter n v s).sess =
    s.sess ∧ (writeCounter n v s).vault = s.vault ∧ (writeCounter n v s).powder = s.powder ∧ (writeCounter n v
    s).merya = s.merya ∧ (writeCounter n v s).prot = s.prot ∧ (writeCounter n v s).mem = s.mem ∧ (writeCounter n v
    s).patrol = s.patrol ∧ (writeCounter n v s).trk = s.trk ∧ (writeCounter n v s).hut = s.hut ∧ (writeCounter n v
    s).alarm = s.alarm ∧ (writeCounter n v s).card = s.card ∧ (writeCounter n v s).evts = s.evts ∧ (writeCounter n v
    s).tel = s.tel ∧ (writeCounter n v s).pending = s.pending := by
  simp only [writeCounter, State.ite_parts .., ite_self, and_self, implies_true, modCounter_frame .., noteWritten_frame ..,
    setCond_frame ..]

theorem dropHalf_frame (s : State) :
    (dropHalf s).now = s.now ∧ (dropHalf s).free = s.free ∧ (dropHalf s).life = s.life ∧ (dropHalf s).link = s.link ∧
    (dropHalf s).gate = s.gate ∧ (dropHalf s).rings = s.rings ∧ (dropHalf s).units = s.units ∧ (dropHalf s).curves =
    s.curves ∧ (dropHalf s).sess = s.sess ∧ (dropHalf s).vault = s.vault ∧ (dropHalf s).powder = s.powder ∧
    (dropHalf s).merya = s.merya ∧ (dropHalf s).prot = s.prot ∧ (dropHalf s).mem = s.mem ∧ (dropHalf s).stored =
    s.stored ∧ (dropHalf s).patrol = s.patrol ∧ (dropHalf s).trk = s.trk ∧ (dropHalf s).hut = s.hut ∧ (dropHalf
    s).alarm = s.alarm ∧ (dropHalf s).card = s.card ∧ (dropHalf s).evts = s.evts ∧ (dropHalf s).tel = s.tel ∧
    (dropHalf s).pending = s.pending := by
  simp only [dropHalf, State.ite_parts .., ite_self, and_self, implies_true]

theorem refillShort_frame (s : State) :
    (refillShort s).now = s.now ∧ (refillShort s).free = s.free ∧ (refillShort s).life = s.life ∧ (refillShort s).link =
    s.link ∧ (refillShort s).gate = s.gate ∧ (refillShort s).rings = s.rings ∧ (refillShort s).units = s.units ∧
    (refillShort s).curves = s.curves ∧ (refillShort s).sess = s.sess ∧ (refillShort s).vault = s.vault ∧
    (refillShort s).powder = s.powder ∧ (refillShort s).merya = s.merya ∧ (refillShort s).prot = s.prot ∧
    (refillShort s).mem = s.mem ∧ (refillShort s).stored = s.stored ∧ (refillShort s).patrol = s.patrol ∧
    (refillShort s).trk = s.trk ∧ (refillShort s).hut = s.hut ∧ (refillShort s).alarm = s.alarm ∧ (refillShort
    s).card = s.card ∧ (refillShort s).evts = s.evts ∧ (refillShort s).tel = s.tel ∧ (refillShort s).pending =
    s.pending := by
  simp only [refillShort, State.ite_parts .., ite_self, and_self, implies_true]

theorem increment_frame (n : Nat) (s : State) :
    (increment n s).now = s.now ∧ (increment n s).free = s.free ∧ (increment n s).life = s.life ∧ (increment n s).gate =
    s.gate ∧ (increment n s).rings = s.rings ∧ (increment n s).units = s.units ∧ (increment n s).curves = s.curves ∧
    (increment n s).sess = s.sess ∧ (increment n s).vault = s.vault ∧ (increment n s).powder = s.powder ∧ (increment
    n s).merya = s.merya ∧ (increment n s).prot = s.prot ∧ (increment n s).mem = s.mem ∧ (increment n s).patrol =
    s.patrol ∧ (increment n s).trk = s.trk ∧ (increment n s).hut = s.hut ∧ (increment n s).alarm = s.alarm ∧
    (increment n s).card = s.card ∧ (increment n s).tel = s.tel ∧ (increment n s).pending = s.pending := by
  simp only [increment, State.ite_parts .., ite_self, and_self, implies_true, writeCounter_frame .., takeCredit_frame ..]

theorem refillLong_frame (s : State) :
    (refillLong s).now = s.now ∧ (refillLong s).free = s.free ∧ (refillLong s).life = s.life ∧ (refillLong s).link =
    s.link ∧ (refillLong s).gate = s.gate ∧ (refillLong s).rings = s.rings ∧ (refillLong s).units = s.units ∧
    (refillLong s).curves = s.curves ∧ (refillLong s).sess = s.sess ∧ (refillLong s).vault = s.vault ∧ (refillLong
    s).powder = s.powder ∧ (refillLong s).merya = s.merya ∧ (refillLong s).prot = s.prot ∧ (refillLong s).mem =
    s.mem ∧ (refillLong s).stored = s.stored ∧ (refillLong s).patrol = s.patrol ∧ (refillLong s).trk = s.trk ∧
    (refillLong s).hut = s.hut ∧ (refillLong s).alarm = s.alarm ∧ (refillLong s).card = s.card ∧ (refillLong s).evts
    = s.evts ∧ (refillLong s).tel = s.tel ∧ (refillLong s).pending = s.pending := by
  simp only [refillLong, State.ite_parts .., ite_self, and_self, implies_true]

/-! ### Ops.lean -/

theorem badEntry_frame (s : State) :
    (badEntry s).now = s.now ∧ (badEntry s).free = s.free ∧ (badEntry s).life = s.life ∧ (badEntry s).gate = s.gate ∧
    (badEntry s).rings = s.rings ∧ (badEntry s).units = s.units ∧ (badEntry s).curves = s.curves ∧ (badEntry s).sess
    = s.sess ∧ (badEntry s).vault = s.vault ∧ (badEntry s).ctrs = s.ctrs ∧ (badEntry s).powder = s.powder ∧
    (badEntry s).merya = s.merya ∧ (badEntry s).mem = s.mem ∧ (badEntry s).stored = s.stored ∧ (badEntry s).patrol =
    s.patrol ∧ (badEntry s).trk = s.trk ∧ (badEntry s).hut = s.hut ∧ (badEntry s).alarm = s.alarm ∧ (badEntry
    s).card = s.card ∧ (badEntry s).tel = s.tel ∧ (badEntry s).pending = s.pending := by
  simp only [badEntry, State.ite_parts .., ite_self, and_self, implies_true, setPuEvt_frame ..]

theorem abandonLoads_frame (hit : Nat → Rink → Bool) (s : State) :
    (abandonLoads hit s).now = s.now ∧ (abandonLoads hit s).free = s.free ∧ (abandonLoads hit s).life = s.life ∧
    (abandonLoads hit s).link = s.link ∧ (abandonLoads hit s).gate = s.gate ∧ (abandonLoads hit s).rings = s.rings ∧
    (abandonLoads hit s).units = s.units ∧ (abandonLoads hit s).curves = s.curves ∧ (abandonLoads hit s).sess =
    s.sess ∧ (abandonLoads hit s).vault = s.vault ∧ (abandonLoads hit s).ctrs = s.ctrs ∧ (abandonLoads hit s).powder
    = s.powder ∧ (abandonLoads hit s).prot = s.prot ∧ (abandonLoads hit s).mem = s.mem ∧ (abandonLoads hit s).stored
    = s.stored ∧ (abandonLoads hit s).patrol = s.patrol ∧ (abandonLoads hit s).trk = s.trk ∧ (abandonLoads hit
    s).hut = s.hut ∧ (abandonLoads hit s).alarm = s.alarm ∧ (abandonLoads hit s).card = s.card ∧ (abandonLoads hit
    s).evts = s.evts ∧ (abandonLoads hit s).tel = s.tel ∧ (abandonLoads hit s).pending = s.pending := by
  simp only [abandonLoads, State.ite_parts .., ite_self, and_self, implies_true]

theorem lockedWrite_frame (s : State) :
    (lockedWrite s).now = s.now ∧ (lockedWrite s).free = s.free ∧ (lockedWrite s).life = s.life ∧ (lockedWrite s).gate =
    s.gate ∧ (lockedWrite s).rings = s.rings ∧ (lockedWrite s).units = s.units ∧ (lockedWrite s).curves = s.curves ∧
    (lockedWrite s).sess = s.sess ∧ (lockedWrite s).vault = s.vault ∧ (lockedWrite s).ctrs = s.ctrs ∧ (lockedWrite
    s).powder = s.powder ∧ (lockedWrite s).merya = s.merya ∧ (lockedWrite s).mem = s.mem ∧ (lockedWrite s).stored =
    s.stored ∧ (lockedWrite s).patrol = s.patrol ∧ (lockedWrite s).trk = s.trk ∧ (lockedWrite s).hut = s.hut ∧
    (lockedWrite s).alarm = s.alarm ∧ (lockedWrite s).card = s.card ∧ (lockedWrite s).tel = s.tel ∧ (lockedWrite
    s).pending = s.pending := by
  simp only [lockedWrite, State.ite_parts .., ite_self, and_self, implies_true, setPuEvt_frame ..]

theorem writeEntryWords_frame (grant : Bool) (set : Nat) (e : Nat) (w0 : Word) (w1 : Word) (s : State) :
    (writeEntryWords grant set e w0 w1 s).now = s.now ∧ (writeEntryWords grant set e w0 w1 s).free = s.free ∧
    (writeEntryWords grant set e w0 w1 s).life = s.life ∧ (writeEntryWords grant set e w0 w1 s).gate = s.gate ∧
    (writeEntryWords grant set e w0 w1 s).rings = s.rings ∧ (writeEntryWords grant set e w0 w1 s).units = s.units ∧
    (writeEntryWords grant set e w0 w1 s).curves = s.curves ∧ (writeEntryWords grant set e w0 w1 s).sess = s.sess ∧
    (writeEntryWords grant set e w0 w1 s).vault = s.vault ∧ (writeEntryWords grant set e w0 w1 s).ctrs = s.ctrs ∧
    (writeEntryWords grant set e w0 w1 s).powder = s.powder ∧ (writeEntryWords grant set e w0 w1 s).mem = s.mem ∧
    (writeEntryWords grant set e w0 w1 s).stored = s.stored ∧ (writeEntryWords grant set e w0 w1 s).patrol =
    s.patrol ∧ (writeEntryWords grant set e w0 w1 s).trk = s.trk ∧ (writeEntryWords grant set e w0 w1 s).hut = s.hut
    ∧ (writeEntryWords grant set e w0 w1 s).alarm = s.alarm ∧ (writeEntryWords grant set e w0 w1 s).card = s.card ∧
    (writeEntryWords grant set e w0 w1 s).tel = s.tel ∧ (writeEntryWords grant set e w0 w1 s).pending = s.pending := by
  simp only [writeEntryWords, State.ite_parts .., ite_self, and_self, implies_true, badEntry_frame .., abandonLoads_frame ..,
    lockedWrite_frame ..]

theorem writeTags_frame (first : Nat) (count : Nat) (tag : Nat) (s : State) :
    (writeTags first count tag s).now = s.now ∧ (writeTags first count tag s).free = s.free ∧ (writeTags first count tag
    s).life = s.life ∧ (writeTags first count tag s).gate = s.gate ∧ (writeTags first count tag s).rings = s.rings ∧
    (writeTags first count tag s).units = s.units ∧ (writeTags first count tag s).curves = s.curves ∧ (writeTags
    first count tag s).sess = s.sess ∧ (writeTags first count tag s).vault = s.vault ∧ (writeTags first count tag
    s).ctrs = s.ctrs ∧ (writeTags first count tag s).powder = s.powder ∧ (writeTags first count tag s).mem = s.mem ∧
    (writeTags first count tag s).stored = s.stored ∧ (writeTags first count tag s).patrol = s.patrol ∧ (writeTags
    first count tag s).trk = s.trk ∧ (writeTags first count tag s).hut = s.hut ∧ (writeTags first count tag s).alarm
    = s.alarm ∧ (writeTags first count tag s).card = s.card ∧ (writeTags first count tag s).tel = s.tel ∧ (writeTags
    first count tag s).pending = s.pending := by
  simp only [writeTags, State.ite_parts .., ite_self, and_self, implies_true, foldl_now, foldl_free, foldl_life,
    foldl_gate, foldl_rings, foldl_units, foldl_curves, foldl_sess, foldl_vault, foldl_ctrs, foldl_powder,
    foldl_mem, foldl_stored, foldl_patrol, foldl_trk, foldl_hut, foldl_alarm, foldl_card, foldl_tel, foldl_pending,
    badEntry_frame .., abandonLoads_frame ..]

theorem protWrite_frame (off : Nat) (v : Word) (s : State) :
    (protWrite off v s).now = s.now ∧ (protWrite off v s).free = s.free ∧ (protWrite off v s).life = s.life ∧ (protWrite
    off v s).gate = s.gate ∧ (protWrite off v s).rings = s.rings ∧ (protWrite off v s).units = s.units ∧ (protWrite
    off v s).curves = s.curves ∧ (protWrite off v s).sess = s.sess ∧ (protWrite off v s).vault = s.vault ∧
    (protWrite off v s).ctrs = s.ctrs ∧ (protWrite off v s).powder = s.powder ∧ (protWrite off v s).mem = s.mem ∧
    (protWrite off v s).stored = s.stored ∧ (protWrite off v s).patrol = s.patrol ∧ (protWrite off v s).trk = s.trk
    ∧ (protWrite off v s).hut = s.hut ∧ (protWrite off v s).alarm = s.alarm ∧ (protWrite off v s).card = s.card ∧
    (protWrite off v s).tel = s.tel ∧ (protWrite off v s).pending = s.pending := by
  simp only [protWrite, State.ite_parts .., ite_self, and_self, implies_true, writeEntryWords_frame .., writeTags_frame ..]
  (repeat' split) <;> simp only [State.ite_parts .., ite_self, and_self, implies_true, writeEntryWords_frame .., writeTags_frame ..]

theorem storeValue_frame (a : Nat) (size : Nat) (v : Nat) (s : State) :
    (storeValue a size v s).now = s.now ∧ (storeValue a size v s).life = s.life ∧ (storeValue a size v s).units =
    s.units ∧ (storeValue a size v s).curves = s.curves ∧ (storeValue a size v s).sess = s.sess ∧ (storeValue a size
    v s).vault = s.vault ∧ (storeValue a size v s).ctrs = s.ctrs ∧ (storeValue a size v s).powder = s.powder ∧
    (storeValue a size v s).patrol = s.patrol ∧ (storeValue a size v s).hut = s.hut ∧ (storeValue a size v s).alarm
    = s.alarm ∧ (storeValue a size v s).card = s.card ∧ (storeValue a size v s).tel = s.tel ∧ (storeValue a size v
    s).pending = s.pending := by
  simp only [storeValue, State.ite_parts .., ite_self, and_self, implies_true, portWrite_frame .., protWrite_frame ..,
    storeBytes_frame ..]
  (repeat' split) <;> simp only [State.ite_parts .., ite_self, and_self, implies_true, portWrite_frame .., protWrite_frame .., storeBytes_frame ..]

theorem resumeLoad_frame (c : Nat) (s : State) :
    (resumeLoad c s).now = s.now ∧ (resumeLoad c s).free = s.free ∧ (resumeLoad c s).life = s.life ∧ (resumeLoad c
    s).link = s.link ∧ (resumeLoad c s).gate = s.gate ∧ (resumeLoad c s).rings = s.rings ∧ (resumeLoad c s).units =
    s.units ∧ (resumeLoad c s).curves = s.curves ∧ (resumeLoad c s).sess = s.sess ∧ (resumeLoad c s).vault = s.vault
    ∧ (resumeLoad c s).ctrs = s.ctrs ∧ (resumeLoad c s).powder = s.powder ∧ (resumeLoad c s).prot = s.prot ∧
    (resumeLoad c s).mem = s.mem ∧ (resumeLoad c s).stored = s.stored ∧ (resumeLoad c s).patrol = s.patrol ∧
    (resumeLoad c s).trk = s.trk ∧ (resumeLoad c s).hut = s.hut ∧ (resumeLoad c s).alarm = s.alarm ∧ (resumeLoad c
    s).card = s.card ∧ (resumeLoad c s).evts = s.evts ∧ (resumeLoad c s).tel = s.tel ∧ (resumeLoad c s).pending =
    s.pending := by
  simp only [resumeLoad, State.ite_parts .., ite_self, and_self, implies_true, modCore_frame ..]
  (repeat' split) <;> simp only [State.ite_parts .., ite_self, and_self, implies_true, modCore_frame ..]

theorem noteBus_frame (user : Bool) (t : Trap) (s : State) :
    (noteBus user t s).now = s.now ∧ (noteBus user t s).free = s.free ∧ (noteBus user t s).life = s.life ∧ (noteBus user
    t s).gate = s.gate ∧ (noteBus user t s).rings = s.rings ∧ (noteBus user t s).units = s.units ∧ (noteBus user t
    s).curves = s.curves ∧ (noteBus user t s).sess = s.sess ∧ (noteBus user t s).vault = s.vault ∧ (noteBus user t
    s).ctrs = s.ctrs ∧ (noteBus user t s).powder = s.powder ∧ (noteBus user t s).merya = s.merya ∧ (noteBus user t
    s).prot = s.prot ∧ (noteBus user t s).mem = s.mem ∧ (noteBus user t s).stored = s.stored ∧ (noteBus user t
    s).patrol = s.patrol ∧ (noteBus user t s).trk = s.trk ∧ (noteBus user t s).hut = s.hut ∧ (noteBus user t
    s).alarm = s.alarm ∧ (noteBus user t s).card = s.card ∧ (noteBus user t s).tel = s.tel ∧ (noteBus user t
    s).pending = s.pending := by
  simp only [noteBus, State.ite_parts .., ite_self, and_self, implies_true, raiseIf_frame ..]

theorem stopApplet_frame (n : Nat) (cause : Nat) (epc : Word) (eaddr : Word) (s : State) :
    (stopApplet n cause epc eaddr s).now = s.now ∧ (stopApplet n cause epc eaddr s).life = s.life ∧ (stopApplet n cause
    epc eaddr s).units = s.units ∧ (stopApplet n cause epc eaddr s).curves = s.curves ∧ (stopApplet n cause epc
    eaddr s).sess = s.sess ∧ (stopApplet n cause epc eaddr s).vault = s.vault ∧ (stopApplet n cause epc eaddr
    s).ctrs = s.ctrs ∧ (stopApplet n cause epc eaddr s).powder = s.powder ∧ (stopApplet n cause epc eaddr s).patrol
    = s.patrol ∧ (stopApplet n cause epc eaddr s).hut = s.hut ∧ (stopApplet n cause epc eaddr s).alarm = s.alarm ∧
    (stopApplet n cause epc eaddr s).card = s.card ∧ (stopApplet n cause epc eaddr s).tel = s.tel ∧ (stopApplet n
    cause epc eaddr s).pending = s.pending := by
  simp only [stopApplet, State.ite_parts .., ite_self, and_self, implies_true, modApplet_frame .., raiseEvent_frame ..,
    moveApplet_frame .., disableRing_frame ..]

theorem tick_frame (s : State) :
    (tick s).free = s.free ∧ (tick s).life = s.life ∧ (tick s).link = s.link ∧ (tick s).gate = s.gate ∧ (tick s).rings =
    s.rings ∧ (tick s).units = s.units ∧ (tick s).curves = s.curves ∧ (tick s).sess = s.sess ∧ (tick s).vault =
    s.vault ∧ (tick s).ctrs = s.ctrs ∧ (tick s).powder = s.powder ∧ (tick s).merya = s.merya ∧ (tick s).prot =
    s.prot ∧ (tick s).mem = s.mem ∧ (tick s).stored = s.stored ∧ (tick s).patrol = s.patrol ∧ (tick s).trk = s.trk ∧
    (tick s).alarm = s.alarm ∧ (tick s).card = s.card ∧ (tick s).evts = s.evts ∧ (tick s).tel = s.tel ∧ (tick
    s).pending = s.pending := by
  simp only [tick, State.ite_parts .., ite_self, and_self, implies_true]

theorem noteBad_frame (t : Trap) (s : State) :
    (noteBad t s).now = s.now ∧ (noteBad t s).free = s.free ∧ (noteBad t s).life = s.life ∧ (noteBad t s).gate = s.gate
    ∧ (noteBad t s).rings = s.rings ∧ (noteBad t s).units = s.units ∧ (noteBad t s).curves = s.curves ∧ (noteBad t
    s).sess = s.sess ∧ (noteBad t s).vault = s.vault ∧ (noteBad t s).ctrs = s.ctrs ∧ (noteBad t s).powder = s.powder
    ∧ (noteBad t s).merya = s.merya ∧ (noteBad t s).prot = s.prot ∧ (noteBad t s).mem = s.mem ∧ (noteBad t s).patrol
    = s.patrol ∧ (noteBad t s).trk = s.trk ∧ (noteBad t s).hut = s.hut ∧ (noteBad t s).alarm = s.alarm ∧ (noteBad t
    s).card = s.card ∧ (noteBad t s).tel = s.tel ∧ (noteBad t s).pending = s.pending := by
  unfold noteBad
  (repeat' split) <;> simp only [State.ite_parts .., ite_self, and_self, implies_true, noteUe_frame ..]

theorem enterException_frame (c : Nat) (cause : Nat) (addr : Option Word) (s : State) :
    (enterException c cause addr s).now = s.now ∧ (enterException c cause addr s).free = s.free ∧ (enterException c
    cause addr s).life = s.life ∧ (enterException c cause addr s).link = s.link ∧ (enterException c cause addr
    s).gate = s.gate ∧ (enterException c cause addr s).rings = s.rings ∧ (enterException c cause addr s).units =
    s.units ∧ (enterException c cause addr s).curves = s.curves ∧ (enterException c cause addr s).sess = s.sess ∧
    (enterException c cause addr s).vault = s.vault ∧ (enterException c cause addr s).ctrs = s.ctrs ∧
    (enterException c cause addr s).powder = s.powder ∧ (enterException c cause addr s).prot = s.prot ∧
    (enterException c cause addr s).mem = s.mem ∧ (enterException c cause addr s).stored = s.stored ∧
    (enterException c cause addr s).patrol = s.patrol ∧ (enterException c cause addr s).trk = s.trk ∧
    (enterException c cause addr s).hut = s.hut ∧ (enterException c cause addr s).alarm = s.alarm ∧ (enterException
    c cause addr s).card = s.card ∧ (enterException c cause addr s).evts = s.evts ∧ (enterException c cause addr
    s).tel = s.tel ∧ (enterException c cause addr s).pending = s.pending := by
  simp only [enterException, State.ite_parts .., ite_self, and_self, implies_true, modCore_frame ..]

theorem noteDenied_frame (t : Trap) (s : State) :
    (noteDenied t s).now = s.now ∧ (noteDenied t s).free = s.free ∧ (noteDenied t s).life = s.life ∧ (noteDenied t
    s).gate = s.gate ∧ (noteDenied t s).rings = s.rings ∧ (noteDenied t s).units = s.units ∧ (noteDenied t s).curves
    = s.curves ∧ (noteDenied t s).sess = s.sess ∧ (noteDenied t s).vault = s.vault ∧ (noteDenied t s).ctrs = s.ctrs
    ∧ (noteDenied t s).powder = s.powder ∧ (noteDenied t s).merya = s.merya ∧ (noteDenied t s).mem = s.mem ∧
    (noteDenied t s).stored = s.stored ∧ (noteDenied t s).patrol = s.patrol ∧ (noteDenied t s).hut = s.hut ∧
    (noteDenied t s).alarm = s.alarm ∧ (noteDenied t s).card = s.card ∧ (noteDenied t s).tel = s.tel ∧ (noteDenied t
    s).pending = s.pending := by
  unfold noteDenied
  (repeat' split) <;> simp only [State.ite_parts .., ite_self, and_self, implies_true, captureFault_frame .., traceFault_frame ..]

theorem takeTrap_frame (c : Nat) (t : Trap) (s : State) :
    (takeTrap c t s).now = s.now ∧ (takeTrap c t s).life = s.life ∧ (takeTrap c t s).units = s.units ∧ (takeTrap c t
    s).curves = s.curves ∧ (takeTrap c t s).sess = s.sess ∧ (takeTrap c t s).vault = s.vault ∧ (takeTrap c t s).ctrs
    = s.ctrs ∧ (takeTrap c t s).powder = s.powder ∧ (takeTrap c t s).patrol = s.patrol ∧ (takeTrap c t s).hut =
    s.hut ∧ (takeTrap c t s).alarm = s.alarm ∧ (takeTrap c t s).card = s.card ∧ (takeTrap c t s).tel = s.tel ∧
    (takeTrap c t s).pending = s.pending := by
  simp only [takeTrap, State.ite_parts .., ite_self, and_self, implies_true, enterException_frame .., noteBus_frame ..,
    noteBad_frame .., noteDenied_frame .., modCore_frame .., stopApplet_frame ..]
  (repeat' split) <;> simp only [State.ite_parts .., ite_self, and_self, implies_true, enterException_frame .., noteBus_frame .., noteBad_frame ..,
    noteDenied_frame .., modCore_frame .., stopApplet_frame ..]

theorem correctAt_frame (a : Nat) (s : State) :
    (correctAt a s).now = s.now ∧ (correctAt a s).free = s.free ∧ (correctAt a s).life = s.life ∧ (correctAt a s).gate =
    s.gate ∧ (correctAt a s).rings = s.rings ∧ (correctAt a s).units = s.units ∧ (correctAt a s).curves = s.curves ∧
    (correctAt a s).sess = s.sess ∧ (correctAt a s).vault = s.vault ∧ (correctAt a s).ctrs = s.ctrs ∧ (correctAt a
    s).powder = s.powder ∧ (correctAt a s).merya = s.merya ∧ (correctAt a s).prot = s.prot ∧ (correctAt a s).mem =
    s.mem ∧ (correctAt a s).patrol = s.patrol ∧ (correctAt a s).hut = s.hut ∧ (correctAt a s).alarm = s.alarm ∧
    (correctAt a s).card = s.card ∧ (correctAt a s).tel = s.tel ∧ (correctAt a s).pending = s.pending := by
  unfold correctAt
  (repeat' split) <;> simp only [State.ite_parts .., ite_self, and_self, implies_true, noteCorrected_frame ..]

theorem runOn_now (c : Nat) (f : State → State) (s : State) (hf : ∀ s, (f s).now = s.now) : (runOn c f s).now =
    s.now := by
  unfold runOn
  (repeat' split) <;> simp only [State.ite_parts .., ite_self, and_self, implies_true, takeTrap_frame .., correctAt_frame .., hf]

theorem runOn_life (c : Nat) (f : State → State) (s : State) (hf : ∀ s, (f s).life = s.life) : (runOn c f s).life =
    s.life := by
  unfold runOn
  (repeat' split) <;> simp only [State.ite_parts .., ite_self, and_self, implies_true, takeTrap_frame .., correctAt_frame .., hf]

theorem runOn_units (c : Nat) (f : State → State) (s : State) (hf : ∀ s, (f s).units = s.units) : (runOn c f
    s).units = s.units := by
  unfold runOn
  (repeat' split) <;> simp only [State.ite_parts .., ite_self, and_self, implies_true, takeTrap_frame .., correctAt_frame .., hf]

theorem runOn_curves (c : Nat) (f : State → State) (s : State) (hf : ∀ s, (f s).curves = s.curves) : (runOn c f
    s).curves = s.curves := by
  unfold runOn
  (repeat' split) <;> simp only [State.ite_parts .., ite_self, and_self, implies_true, takeTrap_frame .., correctAt_frame .., hf]

theorem runOn_sess (c : Nat) (f : State → State) (s : State) (hf : ∀ s, (f s).sess = s.sess) : (runOn c f s).sess =
    s.sess := by
  unfold runOn
  (repeat' split) <;> simp only [State.ite_parts .., ite_self, and_self, implies_true, takeTrap_frame .., correctAt_frame .., hf]

theorem runOn_vault (c : Nat) (f : State → State) (s : State) (hf : ∀ s, (f s).vault = s.vault) : (runOn c f
    s).vault = s.vault := by
  unfold runOn
  (repeat' split) <;> simp only [State.ite_parts .., ite_self, and_self, implies_true, takeTrap_frame .., correctAt_frame .., hf]

theorem runOn_ctrs (c : Nat) (f : State → State) (s : State) (hf : ∀ s, (f s).ctrs = s.ctrs) : (runOn c f s).ctrs =
    s.ctrs := by
  unfold runOn
  (repeat' split) <;> simp only [State.ite_parts .., ite_self, and_self, implies_true, takeTrap_frame .., correctAt_frame .., hf]

theorem runOn_powder (c : Nat) (f : State → State) (s : State) (hf : ∀ s, (f s).powder = s.powder) : (runOn c f
    s).powder = s.powder := by
  unfold runOn
  (repeat' split) <;> simp only [State.ite_parts .., ite_self, and_self, implies_true, takeTrap_frame .., correctAt_frame .., hf]

theorem runOn_patrol (c : Nat) (f : State → State) (s : State) (hf : ∀ s, (f s).patrol = s.patrol) : (runOn c f
    s).patrol = s.patrol := by
  unfold runOn
  (repeat' split) <;> simp only [State.ite_parts .., ite_self, and_self, implies_true, takeTrap_frame .., correctAt_frame .., hf]

theorem runOn_hut (c : Nat) (f : State → State) (s : State) (hf : ∀ s, (f s).hut = s.hut) : (runOn c f s).hut =
    s.hut := by
  unfold runOn
  (repeat' split) <;> simp only [State.ite_parts .., ite_self, and_self, implies_true, takeTrap_frame .., correctAt_frame .., hf]

theorem runOn_alarm (c : Nat) (f : State → State) (s : State) (hf : ∀ s, (f s).alarm = s.alarm) : (runOn c f
    s).alarm = s.alarm := by
  unfold runOn
  (repeat' split) <;> simp only [State.ite_parts .., ite_self, and_self, implies_true, takeTrap_frame .., correctAt_frame .., hf]

theorem runOn_card (c : Nat) (f : State → State) (s : State) (hf : ∀ s, (f s).card = s.card) : (runOn c f s).card =
    s.card := by
  unfold runOn
  (repeat' split) <;> simp only [State.ite_parts .., ite_self, and_self, implies_true, takeTrap_frame .., correctAt_frame .., hf]

theorem runOn_tel (c : Nat) (f : State → State) (s : State) (hf : ∀ s, (f s).tel = s.tel) : (runOn c f s).tel =
    s.tel := by
  unfold runOn
  (repeat' split) <;> simp only [State.ite_parts .., ite_self, and_self, implies_true, takeTrap_frame .., correctAt_frame .., hf]

theorem runOn_pending (c : Nat) (f : State → State) (s : State) (hf : ∀ s, (f s).pending = s.pending) : (runOn c f
    s).pending = s.pending := by
  unfold runOn
  (repeat' split) <;> simp only [State.ite_parts .., ite_self, and_self, implies_true, takeTrap_frame .., correctAt_frame .., hf]

theorem randomLoad_frame (c : Nat) (rd : Fin 16) (size : Nat) (signed : Bool) (a : Word) (s : State) :
    (randomLoad c rd size signed a s).now = s.now ∧ (randomLoad c rd size signed a s).life = s.life ∧ (randomLoad c rd
    size signed a s).units = s.units ∧ (randomLoad c rd size signed a s).curves = s.curves ∧ (randomLoad c rd size
    signed a s).sess = s.sess ∧ (randomLoad c rd size signed a s).vault = s.vault ∧ (randomLoad c rd size signed a
    s).ctrs = s.ctrs ∧ (randomLoad c rd size signed a s).patrol = s.patrol ∧ (randomLoad c rd size signed a s).hut =
    s.hut ∧ (randomLoad c rd size signed a s).alarm = s.alarm ∧ (randomLoad c rd size signed a s).card = s.card ∧
    (randomLoad c rd size signed a s).tel = s.tel ∧ (randomLoad c rd size signed a s).pending = s.pending := by
  simp only [randomLoad, State.ite_parts .., ite_self, and_self, implies_true, takeTrap_frame .., placeRefill_frame ..,
    modCore_frame ..]

theorem resumeLoads_frame (s : State) :
    (resumeLoads s).now = s.now ∧ (resumeLoads s).free = s.free ∧ (resumeLoads s).life = s.life ∧ (resumeLoads s).link =
    s.link ∧ (resumeLoads s).gate = s.gate ∧ (resumeLoads s).rings = s.rings ∧ (resumeLoads s).units = s.units ∧
    (resumeLoads s).curves = s.curves ∧ (resumeLoads s).sess = s.sess ∧ (resumeLoads s).vault = s.vault ∧
    (resumeLoads s).ctrs = s.ctrs ∧ (resumeLoads s).powder = s.powder ∧ (resumeLoads s).prot = s.prot ∧ (resumeLoads
    s).mem = s.mem ∧ (resumeLoads s).stored = s.stored ∧ (resumeLoads s).patrol = s.patrol ∧ (resumeLoads s).trk =
    s.trk ∧ (resumeLoads s).hut = s.hut ∧ (resumeLoads s).alarm = s.alarm ∧ (resumeLoads s).card = s.card ∧
    (resumeLoads s).evts = s.evts ∧ (resumeLoads s).tel = s.tel ∧ (resumeLoads s).pending = s.pending := by
  simp only [resumeLoads, State.ite_parts .., ite_self, and_self, implies_true, foldl_now, foldl_free, foldl_life,
    foldl_link, foldl_gate, foldl_rings, foldl_units, foldl_curves, foldl_sess, foldl_vault, foldl_ctrs,
    foldl_powder, foldl_prot, foldl_mem, foldl_stored, foldl_patrol, foldl_trk, foldl_hut, foldl_alarm, foldl_card,
    foldl_evts, foldl_tel, foldl_pending, resumeLoad_frame ..]

end Sys2Proof.Machine
end

