-- ==== Sys2Proof/Laws/FramesMerya.lean ====
section
/-!
SUPPORT. Sys2Proof/Laws/FramesMerya.lean: for each operation on the state, once, the chapters of the part that it leaves as they are:
instructions, applets, Powder, the Vault, debug, Patrol and the Hut.  A chapter that a lemma does not name may change.
-/
namespace Sys2Proof.Machine

set_option linter.unusedSimpArgs false

/-! ### Rink.lean -/

theorem writeRd_frame (c : Nat) (rd : Fin 16) (f : Rink → Word) (s : State) :
    (writeRd c rd f s).now = s.now ∧ (writeRd c rd f s).life = s.life ∧ (writeRd c rd f s).units = s.units ∧ (writeRd c
    rd f s).curves = s.curves ∧ (writeRd c rd f s).sess = s.sess ∧ (writeRd c rd f s).vault = s.vault ∧ (writeRd c
    rd f s).ctrs = s.ctrs ∧ (writeRd c rd f s).powder = s.powder ∧ (writeRd c rd f s).patrol = s.patrol ∧ (writeRd c
    rd f s).hut = s.hut ∧ (writeRd c rd f s).alarm = s.alarm ∧ (writeRd c rd f s).card = s.card ∧ (writeRd c rd f
    s).tel = s.tel ∧ (writeRd c rd f s).pending = s.pending := by
  simp only [writeRd, State.ite_parts .., ite_self, and_self, implies_true, modCore_frame .., runOn_now, runOn_life,
    runOn_units, runOn_curves, runOn_sess, runOn_vault, runOn_ctrs, runOn_powder, runOn_patrol, runOn_hut,
    runOn_alarm, runOn_card, runOn_tel, runOn_pending]

theorem alu_frame (c : Nat) (rd : Fin 16) (rs1 : Fin 16) (rs2 : Fin 16) (f : Word → Word → Word) (s : State) :
    (alu c rd rs1 rs2 f s).now = s.now ∧ (alu c rd rs1 rs2 f s).life = s.life ∧ (alu c rd rs1 rs2 f s).units = s.units ∧
    (alu c rd rs1 rs2 f s).curves = s.curves ∧ (alu c rd rs1 rs2 f s).sess = s.sess ∧ (alu c rd rs1 rs2 f s).vault =
    s.vault ∧ (alu c rd rs1 rs2 f s).ctrs = s.ctrs ∧ (alu c rd rs1 rs2 f s).powder = s.powder ∧ (alu c rd rs1 rs2 f
    s).patrol = s.patrol ∧ (alu c rd rs1 rs2 f s).hut = s.hut ∧ (alu c rd rs1 rs2 f s).alarm = s.alarm ∧ (alu c rd
    rs1 rs2 f s).card = s.card ∧ (alu c rd rs1 rs2 f s).tel = s.tel ∧ (alu c rd rs1 rs2 f s).pending = s.pending := by
  simp only [alu, State.ite_parts .., ite_self, and_self, implies_true, writeRd_frame ..]

theorem store_frame (c : Nat) (rt : Fin 16) (rs1 : Fin 16) (imm : BitVec 16) (size : Nat) (s : State) :
    (store c rt rs1 imm size s).now = s.now ∧ (store c rt rs1 imm size s).life = s.life ∧ (store c rt rs1 imm size
    s).units = s.units ∧ (store c rt rs1 imm size s).curves = s.curves ∧ (store c rt rs1 imm size s).sess = s.sess ∧
    (store c rt rs1 imm size s).vault = s.vault ∧ (store c rt rs1 imm size s).ctrs = s.ctrs ∧ (store c rt rs1 imm
    size s).powder = s.powder ∧ (store c rt rs1 imm size s).patrol = s.patrol ∧ (store c rt rs1 imm size s).hut =
    s.hut ∧ (store c rt rs1 imm size s).alarm = s.alarm ∧ (store c rt rs1 imm size s).card = s.card ∧ (store c rt
    rs1 imm size s).tel = s.tel ∧ (store c rt rs1 imm size s).pending = s.pending := by
  refine ⟨?_, ?_, ?_, ?_, ?_, ?_, ?_, ?_, ?_, ?_, ?_, ?_, ?_, ?_⟩
  · unfold store
    split
    · exact runOn_now c _ s (fun s => by simp only [takeTrap_frame ..])
    · refine runOn_now c _ s (fun s => ?_)
      dsimp only
      split <;> simp only [storeValue_frame .., modCore_frame .., takeTrap_frame ..]
  · unfold store
    split
    · exact runOn_life c _ s (fun s => by simp only [takeTrap_frame ..])
    · refine runOn_life c _ s (fun s => ?_)
      dsimp only
      split <;> simp only [storeValue_frame .., modCore_frame .., takeTrap_frame ..]
  · unfold store
    split
    · exact runOn_units c _ s (fun s => by simp only [takeTrap_frame ..])
    · refine runOn_units c _ s (fun s => ?_)
      dsimp only
      split <;> simp only [storeValue_frame .., modCore_frame .., takeTrap_frame ..]
  · unfold store
    split
    · exact runOn_curves c _ s (fun s => by simp only [takeTrap_frame ..])
    · refine runOn_curves c _ s (fun s => ?_)
      dsimp only
      split <;> simp only [storeValue_frame .., modCore_frame .., takeTrap_frame ..]
  · unfold store
    split
    · exact runOn_sess c _ s (fun s => by simp only [takeTrap_frame ..])
    · refine runOn_sess c _ s (fun s => ?_)
      dsimp only
      split <;> simp only [storeValue_frame .., modCore_frame .., takeTrap_frame ..]
  · unfold store
    split
    · exact runOn_vault c _ s (fun s => by simp only [takeTrap_frame ..])
    · refine runOn_vault c _ s (fun s => ?_)
      dsimp only
      split <;> simp only [storeValue_frame .., modCore_frame .., takeTrap_frame ..]
  · unfold store
    split
    · exact runOn_ctrs c _ s (fun s => by simp only [takeTrap_frame ..])
    · refine runOn_ctrs c _ s (fun s => ?_)
      dsimp only
      split <;> simp only [storeValue_frame .., modCore_frame .., takeTrap_frame ..]
  · unfold store
    split
    · exact runOn_powder c _ s (fun s => by simp only [takeTrap_frame ..])
    · refine runOn_powder c _ s (fun s => ?_)
      dsimp only
      split <;> simp only [storeValue_frame .., modCore_frame .., takeTrap_frame ..]
  · unfold store
    split
    · exact runOn_patrol c _ s (fun s => by simp only [takeTrap_frame ..])
    · refine runOn_patrol c _ s (fun s => ?_)
      dsimp only
      split <;> simp only [storeValue_frame .., modCore_frame .., takeTrap_frame ..]
  · unfold store
    split
    · exact runOn_hut c _ s (fun s => by simp only [takeTrap_frame ..])
    · refine runOn_hut c _ s (fun s => ?_)
      dsimp only
      split <;> simp only [storeValue_frame .., modCore_frame .., takeTrap_frame ..]
  · unfold store
    split
    · exact runOn_alarm c _ s (fun s => by simp only [takeTrap_frame ..])
    · refine runOn_alarm c _ s (fun s => ?_)
      dsimp only
      split <;> simp only [storeValue_frame .., modCore_frame .., takeTrap_frame ..]
  · unfold store
    split
    · exact runOn_card c _ s (fun s => by simp only [takeTrap_frame ..])
    · refine runOn_card c _ s (fun s => ?_)
      dsimp only
      split <;> simp only [storeValue_frame .., modCore_frame .., takeTrap_frame ..]
  · unfold store
    split
    · exact runOn_tel c _ s (fun s => by simp only [takeTrap_frame ..])
    · refine runOn_tel c _ s (fun s => ?_)
      dsimp only
      split <;> simp only [storeValue_frame .., modCore_frame .., takeTrap_frame ..]
  · unfold store
    split
    · exact runOn_pending c _ s (fun s => by simp only [takeTrap_frame ..])
    · refine runOn_pending c _ s (fun s => ?_)
      dsimp only
      split <;> simp only [storeValue_frame .., modCore_frame .., takeTrap_frame ..]

theorem supervisorOnly_now (c : Nat) (f : State → State) (s : State) (hf : ∀ s, (f s).now = s.now) : (supervisorOnly
    c f s).now = s.now := by
  unfold supervisorOnly
  simp only [State.ite_parts .., ite_self, and_self, implies_true, takeTrap_frame .., hf, runOn_now]

theorem supervisorOnly_life (c : Nat) (f : State → State) (s : State) (hf : ∀ s, (f s).life = s.life) :
    (supervisorOnly c f s).life = s.life := by
  unfold supervisorOnly
  simp only [State.ite_parts .., ite_self, and_self, implies_true, takeTrap_frame .., hf, runOn_life]

theorem supervisorOnly_units (c : Nat) (f : State → State) (s : State) (hf : ∀ s, (f s).units = s.units) :
    (supervisorOnly c f s).units = s.units := by
  unfold supervisorOnly
  simp only [State.ite_parts .., ite_self, and_self, implies_true, takeTrap_frame .., hf, runOn_units]

theorem supervisorOnly_curves (c : Nat) (f : State → State) (s : State) (hf : ∀ s, (f s).curves = s.curves) :
    (supervisorOnly c f s).curves = s.curves := by
  unfold supervisorOnly
  simp only [State.ite_parts .., ite_self, and_self, implies_true, takeTrap_frame .., hf, runOn_curves]

theorem supervisorOnly_sess (c : Nat) (f : State → State) (s : State) (hf : ∀ s, (f s).sess = s.sess) :
    (supervisorOnly c f s).sess = s.sess := by
  unfold supervisorOnly
  simp only [State.ite_parts .., ite_self, and_self, implies_true, takeTrap_frame .., hf, runOn_sess]

theorem supervisorOnly_vault (c : Nat) (f : State → State) (s : State) (hf : ∀ s, (f s).vault = s.vault) :
    (supervisorOnly c f s).vault = s.vault := by
  unfold supervisorOnly
  simp only [State.ite_parts .., ite_self, and_self, implies_true, takeTrap_frame .., hf, runOn_vault]

theorem supervisorOnly_ctrs (c : Nat) (f : State → State) (s : State) (hf : ∀ s, (f s).ctrs = s.ctrs) :
    (supervisorOnly c f s).ctrs = s.ctrs := by
  unfold supervisorOnly
  simp only [State.ite_parts .., ite_self, and_self, implies_true, takeTrap_frame .., hf, runOn_ctrs]

theorem supervisorOnly_powder (c : Nat) (f : State → State) (s : State) (hf : ∀ s, (f s).powder = s.powder) :
    (supervisorOnly c f s).powder = s.powder := by
  unfold supervisorOnly
  simp only [State.ite_parts .., ite_self, and_self, implies_true, takeTrap_frame .., hf, runOn_powder]

theorem supervisorOnly_patrol (c : Nat) (f : State → State) (s : State) (hf : ∀ s, (f s).patrol = s.patrol) :
    (supervisorOnly c f s).patrol = s.patrol := by
  unfold supervisorOnly
  simp only [State.ite_parts .., ite_self, and_self, implies_true, takeTrap_frame .., hf, runOn_patrol]

theorem supervisorOnly_hut (c : Nat) (f : State → State) (s : State) (hf : ∀ s, (f s).hut = s.hut) : (supervisorOnly
    c f s).hut = s.hut := by
  unfold supervisorOnly
  simp only [State.ite_parts .., ite_self, and_self, implies_true, takeTrap_frame .., hf, runOn_hut]

theorem supervisorOnly_alarm (c : Nat) (f : State → State) (s : State) (hf : ∀ s, (f s).alarm = s.alarm) :
    (supervisorOnly c f s).alarm = s.alarm := by
  unfold supervisorOnly
  simp only [State.ite_parts .., ite_self, and_self, implies_true, takeTrap_frame .., hf, runOn_alarm]

theorem supervisorOnly_card (c : Nat) (f : State → State) (s : State) (hf : ∀ s, (f s).card = s.card) :
    (supervisorOnly c f s).card = s.card := by
  unfold supervisorOnly
  simp only [State.ite_parts .., ite_self, and_self, implies_true, takeTrap_frame .., hf, runOn_card]

theorem supervisorOnly_tel (c : Nat) (f : State → State) (s : State) (hf : ∀ s, (f s).tel = s.tel) : (supervisorOnly
    c f s).tel = s.tel := by
  unfold supervisorOnly
  simp only [State.ite_parts .., ite_self, and_self, implies_true, takeTrap_frame .., hf, runOn_tel]

theorem supervisorOnly_pending (c : Nat) (f : State → State) (s : State) (hf : ∀ s, (f s).pending = s.pending) :
    (supervisorOnly c f s).pending = s.pending := by
  unfold supervisorOnly
  simp only [State.ite_parts .., ite_self, and_self, implies_true, takeTrap_frame .., hf, runOn_pending]

theorem sysWrite_frame (c : Nat) (n : Nat) (v : Word) (s : State) :
    (sysWrite c n v s).now = s.now ∧ (sysWrite c n v s).life = s.life ∧ (sysWrite c n v s).link = s.link ∧ (sysWrite c n
    v s).gate = s.gate ∧ (sysWrite c n v s).rings = s.rings ∧ (sysWrite c n v s).units = s.units ∧ (sysWrite c n v
    s).curves = s.curves ∧ (sysWrite c n v s).sess = s.sess ∧ (sysWrite c n v s).vault = s.vault ∧ (sysWrite c n v
    s).ctrs = s.ctrs ∧ (sysWrite c n v s).powder = s.powder ∧ (sysWrite c n v s).prot = s.prot ∧ (sysWrite c n v
    s).mem = s.mem ∧ (sysWrite c n v s).stored = s.stored ∧ (sysWrite c n v s).patrol = s.patrol ∧ (sysWrite c n v
    s).trk = s.trk ∧ (sysWrite c n v s).hut = s.hut ∧ (sysWrite c n v s).alarm = s.alarm ∧ (sysWrite c n v s).card =
    s.card ∧ (sysWrite c n v s).evts = s.evts ∧ (sysWrite c n v s).tel = s.tel ∧ (sysWrite c n v s).pending =
    s.pending := by
  unfold sysWrite
  dsimp only
  split <;> simp only [modApplet_frame .., setCore_frame .., and_self]

theorem aluImm_frame (c : Nat) (rd : Fin 16) (rs1 : Fin 16) (f : Word → Word) (s : State) :
    (aluImm c rd rs1 f s).now = s.now ∧ (aluImm c rd rs1 f s).life = s.life ∧ (aluImm c rd rs1 f s).units = s.units ∧
    (aluImm c rd rs1 f s).curves = s.curves ∧ (aluImm c rd rs1 f s).sess = s.sess ∧ (aluImm c rd rs1 f s).vault =
    s.vault ∧ (aluImm c rd rs1 f s).ctrs = s.ctrs ∧ (aluImm c rd rs1 f s).powder = s.powder ∧ (aluImm c rd rs1 f
    s).patrol = s.patrol ∧ (aluImm c rd rs1 f s).hut = s.hut ∧ (aluImm c rd rs1 f s).alarm = s.alarm ∧ (aluImm c rd
    rs1 f s).card = s.card ∧ (aluImm c rd rs1 f s).tel = s.tel ∧ (aluImm c rd rs1 f s).pending = s.pending := by
  simp only [aluImm, State.ite_parts .., ite_self, and_self, implies_true, writeRd_frame ..]

theorem shiftImm_frame (c : Nat) (rd : Fin 16) (rs1 : Fin 16) (imm : BitVec 16) (f : Word → Nat → Word) (s : State)
    :
    (shiftImm c rd rs1 imm f s).now = s.now ∧ (shiftImm c rd rs1 imm f s).life = s.life ∧ (shiftImm c rd rs1 imm f
    s).units = s.units ∧ (shiftImm c rd rs1 imm f s).curves = s.curves ∧ (shiftImm c rd rs1 imm f s).sess = s.sess ∧
    (shiftImm c rd rs1 imm f s).vault = s.vault ∧ (shiftImm c rd rs1 imm f s).ctrs = s.ctrs ∧ (shiftImm c rd rs1 imm
    f s).powder = s.powder ∧ (shiftImm c rd rs1 imm f s).patrol = s.patrol ∧ (shiftImm c rd rs1 imm f s).hut = s.hut
    ∧ (shiftImm c rd rs1 imm f s).alarm = s.alarm ∧ (shiftImm c rd rs1 imm f s).card = s.card ∧ (shiftImm c rd rs1
    imm f s).tel = s.tel ∧ (shiftImm c rd rs1 imm f s).pending = s.pending := by
  simp only [shiftImm, State.ite_parts .., ite_self, and_self, implies_true, takeTrap_frame .., aluImm_frame .., runOn_now,
    runOn_life, runOn_units, runOn_curves, runOn_sess, runOn_vault, runOn_ctrs, runOn_powder, runOn_patrol,
    runOn_hut, runOn_alarm, runOn_card, runOn_tel, runOn_pending]

theorem load_frame (c : Nat) (rd : Fin 16) (rs1 : Fin 16) (imm : BitVec 16) (size : Nat) (signed : Bool) (s : State)
    :
    (load c rd rs1 imm size signed s).now = s.now ∧ (load c rd rs1 imm size signed s).life = s.life ∧ (load c rd rs1 imm
    size signed s).units = s.units ∧ (load c rd rs1 imm size signed s).curves = s.curves ∧ (load c rd rs1 imm size
    signed s).sess = s.sess ∧ (load c rd rs1 imm size signed s).vault = s.vault ∧ (load c rd rs1 imm size signed
    s).ctrs = s.ctrs ∧ (load c rd rs1 imm size signed s).patrol = s.patrol ∧ (load c rd rs1 imm size signed s).hut =
    s.hut ∧ (load c rd rs1 imm size signed s).alarm = s.alarm ∧ (load c rd rs1 imm size signed s).card = s.card ∧
    (load c rd rs1 imm size signed s).tel = s.tel ∧ (load c rd rs1 imm size signed s).pending = s.pending := by
  refine ⟨?_, ?_, ?_, ?_, ?_, ?_, ?_, ?_, ?_, ?_, ?_, ?_, ?_⟩
  · unfold load
    split
    · exact runOn_now c _ s (fun s => by simp only [takeTrap_frame ..])
    · refine runOn_now c _ s (fun s => ?_)
      dsimp only
      split <;> simp only [modCore_frame .., takeTrap_frame .., randomLoad_frame .., correctAt_frame .., State.ite_parts .., ite_self]
  · unfold load
    split
    · exact runOn_life c _ s (fun s => by simp only [takeTrap_frame ..])
    · refine runOn_life c _ s (fun s => ?_)
      dsimp only
      split <;> simp only [modCore_frame .., takeTrap_frame .., randomLoad_frame .., correctAt_frame .., State.ite_parts .., ite_self]
  · unfold load
    split
    · exact runOn_units c _ s (fun s => by simp only [takeTrap_frame ..])
    · refine runOn_units c _ s (fun s => ?_)
      dsimp only
      split <;> simp only [modCore_frame .., takeTrap_frame .., randomLoad_frame .., correctAt_frame .., State.ite_parts .., ite_self]
  · unfold load
    split
    · exact runOn_curves c _ s (fun s => by simp only [takeTrap_frame ..])
    · refine runOn_curves c _ s (fun s => ?_)
      dsimp only
      split <;> simp only [modCore_frame .., takeTrap_frame .., randomLoad_frame .., correctAt_frame .., State.ite_parts .., ite_self]
  · unfold load
    split
    · exact runOn_sess c _ s (fun s => by simp only [takeTrap_frame ..])
    · refine runOn_sess c _ s (fun s => ?_)
      dsimp only
      split <;> simp only [modCore_frame .., takeTrap_frame .., randomLoad_frame .., correctAt_frame .., State.ite_parts .., ite_self]
  · unfold load
    split
    · exact runOn_vault c _ s (fun s => by simp only [takeTrap_frame ..])
    · refine runOn_vault c _ s (fun s => ?_)
      dsimp only
      split <;> simp only [modCore_frame .., takeTrap_frame .., randomLoad_frame .., correctAt_frame .., State.ite_parts .., ite_self]
  · unfold load
    split
    · exact runOn_ctrs c _ s (fun s => by simp only [takeTrap_frame ..])
    · refine runOn_ctrs c _ s (fun s => ?_)
      dsimp only
      split <;> simp only [modCore_frame .., takeTrap_frame .., randomLoad_frame .., correctAt_frame .., State.ite_parts .., ite_self]
  · unfold load
    split
    · exact runOn_patrol c _ s (fun s => by simp only [takeTrap_frame ..])
    · refine runOn_patrol c _ s (fun s => ?_)
      dsimp only
      split <;> simp only [modCore_frame .., takeTrap_frame .., randomLoad_frame .., correctAt_frame .., State.ite_parts .., ite_self]
  · unfold load
    split
    · exact runOn_hut c _ s (fun s => by simp only [takeTrap_frame ..])
    · refine runOn_hut c _ s (fun s => ?_)
      dsimp only
      split <;> simp only [modCore_frame .., takeTrap_frame .., randomLoad_frame .., correctAt_frame .., State.ite_parts .., ite_self]
  · unfold load
    split
    · exact runOn_alarm c _ s (fun s => by simp only [takeTrap_frame ..])
    · refine runOn_alarm c _ s (fun s => ?_)
      dsimp only
      split <;> simp only [modCore_frame .., takeTrap_frame .., randomLoad_frame .., correctAt_frame .., State.ite_parts .., ite_self]
  · unfold load
    split
    · exact runOn_card c _ s (fun s => by simp only [takeTrap_frame ..])
    · refine runOn_card c _ s (fun s => ?_)
      dsimp only
      split <;> simp only [modCore_frame .., takeTrap_frame .., randomLoad_frame .., correctAt_frame .., State.ite_parts .., ite_self]
  · unfold load
    split
    · exact runOn_tel c _ s (fun s => by simp only [takeTrap_frame ..])
    · refine runOn_tel c _ s (fun s => ?_)
      dsimp only
      split <;> simp only [modCore_frame .., takeTrap_frame .., randomLoad_frame .., correctAt_frame .., State.ite_parts .., ite_self]
  · unfold load
    split
    · exact runOn_pending c _ s (fun s => by simp only [takeTrap_frame ..])
    · refine runOn_pending c _ s (fun s => ?_)
      dsimp only
      split <;> simp only [modCore_frame .., takeTrap_frame .., randomLoad_frame .., correctAt_frame .., State.ite_parts .., ite_self]

theorem branch_frame (c : Nat) (rs1 : Fin 16) (rs2 : Fin 16) (off : BitVec 18) (taken : Word → Word → Bool) (s :
    State) :
    (branch c rs1 rs2 off taken s).now = s.now ∧ (branch c rs1 rs2 off taken s).life = s.life ∧ (branch c rs1 rs2 off
    taken s).units = s.units ∧ (branch c rs1 rs2 off taken s).curves = s.curves ∧ (branch c rs1 rs2 off taken
    s).sess = s.sess ∧ (branch c rs1 rs2 off taken s).vault = s.vault ∧ (branch c rs1 rs2 off taken s).ctrs = s.ctrs
    ∧ (branch c rs1 rs2 off taken s).powder = s.powder ∧ (branch c rs1 rs2 off taken s).patrol = s.patrol ∧ (branch
    c rs1 rs2 off taken s).hut = s.hut ∧ (branch c rs1 rs2 off taken s).alarm = s.alarm ∧ (branch c rs1 rs2 off
    taken s).card = s.card ∧ (branch c rs1 rs2 off taken s).tel = s.tel ∧ (branch c rs1 rs2 off taken s).pending =
    s.pending := by
  simp only [branch, State.ite_parts .., ite_self, and_self, implies_true, modCore_frame .., runOn_now, runOn_life,
    runOn_units, runOn_curves, runOn_sess, runOn_vault, runOn_ctrs, runOn_powder, runOn_patrol, runOn_hut,
    runOn_alarm, runOn_card, runOn_tel, runOn_pending]

/-! ### Applets.lean -/

theorem returnStatus_frame (c : Nat) (st : Word) (s : State) :
    (returnStatus c st s).now = s.now ∧ (returnStatus c st s).free = s.free ∧ (returnStatus c st s).life = s.life ∧
    (returnStatus c st s).link = s.link ∧ (returnStatus c st s).gate = s.gate ∧ (returnStatus c st s).rings =
    s.rings ∧ (returnStatus c st s).units = s.units ∧ (returnStatus c st s).curves = s.curves ∧ (returnStatus c st
    s).sess = s.sess ∧ (returnStatus c st s).vault = s.vault ∧ (returnStatus c st s).ctrs = s.ctrs ∧ (returnStatus c
    st s).powder = s.powder ∧ (returnStatus c st s).prot = s.prot ∧ (returnStatus c st s).mem = s.mem ∧
    (returnStatus c st s).stored = s.stored ∧ (returnStatus c st s).patrol = s.patrol ∧ (returnStatus c st s).trk =
    s.trk ∧ (returnStatus c st s).hut = s.hut ∧ (returnStatus c st s).alarm = s.alarm ∧ (returnStatus c st s).card =
    s.card ∧ (returnStatus c st s).evts = s.evts ∧ (returnStatus c st s).tel = s.tel ∧ (returnStatus c st s).pending
    = s.pending := by
  simp only [returnStatus, State.ite_parts .., ite_self, and_self, implies_true, modCore_frame ..]

theorem returnValue_frame (c : Nat) (st : Word) (v : Nat) (s : State) :
    (returnValue c st v s).now = s.now ∧ (returnValue c st v s).free = s.free ∧ (returnValue c st v s).life = s.life ∧
    (returnValue c st v s).link = s.link ∧ (returnValue c st v s).gate = s.gate ∧ (returnValue c st v s).rings =
    s.rings ∧ (returnValue c st v s).units = s.units ∧ (returnValue c st v s).curves = s.curves ∧ (returnValue c st
    v s).sess = s.sess ∧ (returnValue c st v s).vault = s.vault ∧ (returnValue c st v s).ctrs = s.ctrs ∧
    (returnValue c st v s).powder = s.powder ∧ (returnValue c st v s).prot = s.prot ∧ (returnValue c st v s).mem =
    s.mem ∧ (returnValue c st v s).stored = s.stored ∧ (returnValue c st v s).patrol = s.patrol ∧ (returnValue c st
    v s).trk = s.trk ∧ (returnValue c st v s).hut = s.hut ∧ (returnValue c st v s).alarm = s.alarm ∧ (returnValue c
    st v s).card = s.card ∧ (returnValue c st v s).evts = s.evts ∧ (returnValue c st v s).tel = s.tel ∧ (returnValue
    c st v s).pending = s.pending := by
  simp only [returnValue, State.ite_parts .., ite_self, and_self, implies_true, modCore_frame ..]

theorem serveCtrRead_frame (c : Nat) (n : Nat) (s : State) :
    (serveCtrRead c n s).now = s.now ∧ (serveCtrRead c n s).free = s.free ∧ (serveCtrRead c n s).life = s.life ∧
    (serveCtrRead c n s).link = s.link ∧ (serveCtrRead c n s).gate = s.gate ∧ (serveCtrRead c n s).rings = s.rings ∧
    (serveCtrRead c n s).units = s.units ∧ (serveCtrRead c n s).curves = s.curves ∧ (serveCtrRead c n s).sess =
    s.sess ∧ (serveCtrRead c n s).vault = s.vault ∧ (serveCtrRead c n s).ctrs = s.ctrs ∧ (serveCtrRead c n s).powder
    = s.powder ∧ (serveCtrRead c n s).prot = s.prot ∧ (serveCtrRead c n s).mem = s.mem ∧ (serveCtrRead c n s).stored
    = s.stored ∧ (serveCtrRead c n s).patrol = s.patrol ∧ (serveCtrRead c n s).trk = s.trk ∧ (serveCtrRead c n
    s).hut = s.hut ∧ (serveCtrRead c n s).alarm = s.alarm ∧ (serveCtrRead c n s).card = s.card ∧ (serveCtrRead c n
    s).evts = s.evts ∧ (serveCtrRead c n s).tel = s.tel ∧ (serveCtrRead c n s).pending = s.pending := by
  simp only [serveCtrRead, State.ite_parts .., ite_self, and_self, implies_true, returnStatus_frame .., returnValue_frame ..]
  (repeat' split) <;> simp only [State.ite_parts .., ite_self, and_self, implies_true, returnStatus_frame .., returnValue_frame ..]

theorem releaseCore_frame (c : Nat) (s : State) :
    (releaseCore c s).now = s.now ∧ (releaseCore c s).free = s.free ∧ (releaseCore c s).life = s.life ∧ (releaseCore c
    s).link = s.link ∧ (releaseCore c s).gate = s.gate ∧ (releaseCore c s).rings = s.rings ∧ (releaseCore c s).units
    = s.units ∧ (releaseCore c s).curves = s.curves ∧ (releaseCore c s).sess = s.sess ∧ (releaseCore c s).vault =
    s.vault ∧ (releaseCore c s).ctrs = s.ctrs ∧ (releaseCore c s).powder = s.powder ∧ (releaseCore c s).prot =
    s.prot ∧ (releaseCore c s).mem = s.mem ∧ (releaseCore c s).stored = s.stored ∧ (releaseCore c s).patrol =
    s.patrol ∧ (releaseCore c s).trk = s.trk ∧ (releaseCore c s).hut = s.hut ∧ (releaseCore c s).alarm = s.alarm ∧
    (releaseCore c s).card = s.card ∧ (releaseCore c s).evts = s.evts ∧ (releaseCore c s).tel = s.tel ∧ (releaseCore
    c s).pending = s.pending := by
  simp only [releaseCore, State.ite_parts .., ite_self, and_self, implies_true, modApplet_frame .., modCore_frame ..]
  (repeat' split) <;> simp only [State.ite_parts .., ite_self, and_self, implies_true, modApplet_frame .., modCore_frame ..]

theorem drawFor_frame (c : Nat) (g : Nat) (s : State) :
    (drawFor c g s).now = s.now ∧ (drawFor c g s).free = s.free ∧ (drawFor c g s).life = s.life ∧ (drawFor c g s).link =
    s.link ∧ (drawFor c g s).gate = s.gate ∧ (drawFor c g s).rings = s.rings ∧ (drawFor c g s).units = s.units ∧
    (drawFor c g s).curves = s.curves ∧ (drawFor c g s).sess = s.sess ∧ (drawFor c g s).vault = s.vault ∧ (drawFor c
    g s).ctrs = s.ctrs ∧ (drawFor c g s).prot = s.prot ∧ (drawFor c g s).mem = s.mem ∧ (drawFor c g s).stored =
    s.stored ∧ (drawFor c g s).patrol = s.patrol ∧ (drawFor c g s).trk = s.trk ∧ (drawFor c g s).hut = s.hut ∧
    (drawFor c g s).alarm = s.alarm ∧ (drawFor c g s).card = s.card ∧ (drawFor c g s).evts = s.evts ∧ (drawFor c g
    s).tel = s.tel ∧ (drawFor c g s).pending = s.pending := by
  simp only [drawFor, State.ite_parts .., ite_self, and_self, implies_true, groomerDraw_frame .., modCore_frame ..]

theorem drawRefill_frame (g : Nat) (s : State) :
    (drawRefill g s).now = s.now ∧ (drawRefill g s).free = s.free ∧ (drawRefill g s).life = s.life ∧ (drawRefill g
    s).link = s.link ∧ (drawRefill g s).gate = s.gate ∧ (drawRefill g s).rings = s.rings ∧ (drawRefill g s).units =
    s.units ∧ (drawRefill g s).curves = s.curves ∧ (drawRefill g s).sess = s.sess ∧ (drawRefill g s).vault = s.vault
    ∧ (drawRefill g s).ctrs = s.ctrs ∧ (drawRefill g s).prot = s.prot ∧ (drawRefill g s).mem = s.mem ∧ (drawRefill g
    s).stored = s.stored ∧ (drawRefill g s).patrol = s.patrol ∧ (drawRefill g s).trk = s.trk ∧ (drawRefill g s).hut
    = s.hut ∧ (drawRefill g s).alarm = s.alarm ∧ (drawRefill g s).card = s.card ∧ (drawRefill g s).evts = s.evts ∧
    (drawRefill g s).tel = s.tel ∧ (drawRefill g s).pending = s.pending := by
  simp only [drawRefill, State.ite_parts .., ite_self, and_self, implies_true, drawFor_frame ..]
  (repeat' split) <;> simp only [State.ite_parts .., ite_self, and_self, implies_true, drawFor_frame ..]

theorem serveYield_frame (c : Nat) (n : Nat) (s : State) :
    (serveYield c n s).now = s.now ∧ (serveYield c n s).free = s.free ∧ (serveYield c n s).life = s.life ∧ (serveYield c
    n s).gate = s.gate ∧ (serveYield c n s).rings = s.rings ∧ (serveYield c n s).units = s.units ∧ (serveYield c n
    s).curves = s.curves ∧ (serveYield c n s).sess = s.sess ∧ (serveYield c n s).vault = s.vault ∧ (serveYield c n
    s).ctrs = s.ctrs ∧ (serveYield c n s).powder = s.powder ∧ (serveYield c n s).prot = s.prot ∧ (serveYield c n
    s).mem = s.mem ∧ (serveYield c n s).stored = s.stored ∧ (serveYield c n s).patrol = s.patrol ∧ (serveYield c n
    s).trk = s.trk ∧ (serveYield c n s).hut = s.hut ∧ (serveYield c n s).alarm = s.alarm ∧ (serveYield c n s).card =
    s.card ∧ (serveYield c n s).tel = s.tel ∧ (serveYield c n s).pending = s.pending := by
  simp only [serveYield, State.ite_parts .., ite_self, and_self, implies_true, moveApplet_frame .., releaseCore_frame ..,
    returnStatus_frame ..]

theorem dropCore_frame (n : Nat) (s : State) :
    (dropCore n s).now = s.now ∧ (dropCore n s).free = s.free ∧ (dropCore n s).life = s.life ∧ (dropCore n s).link =
    s.link ∧ (dropCore n s).gate = s.gate ∧ (dropCore n s).rings = s.rings ∧ (dropCore n s).units = s.units ∧
    (dropCore n s).curves = s.curves ∧ (dropCore n s).sess = s.sess ∧ (dropCore n s).vault = s.vault ∧ (dropCore n
    s).ctrs = s.ctrs ∧ (dropCore n s).powder = s.powder ∧ (dropCore n s).prot = s.prot ∧ (dropCore n s).mem = s.mem
    ∧ (dropCore n s).stored = s.stored ∧ (dropCore n s).patrol = s.patrol ∧ (dropCore n s).trk = s.trk ∧ (dropCore n
    s).hut = s.hut ∧ (dropCore n s).alarm = s.alarm ∧ (dropCore n s).card = s.card ∧ (dropCore n s).evts = s.evts ∧
    (dropCore n s).tel = s.tel ∧ (dropCore n s).pending = s.pending := by
  simp only [dropCore, State.ite_parts .., ite_self, and_self, implies_true, foldl_now, foldl_free, foldl_life,
    foldl_link, foldl_gate, foldl_rings, foldl_units, foldl_curves, foldl_sess, foldl_vault, foldl_ctrs,
    foldl_powder, foldl_prot, foldl_mem, foldl_stored, foldl_patrol, foldl_trk, foldl_hut, foldl_alarm, foldl_card,
    foldl_evts, foldl_tel, foldl_pending, releaseCore_frame ..]

theorem removeApplet_frame (n : Nat) (s : State) :
    (removeApplet n s).now = s.now ∧ (removeApplet n s).life = s.life ∧ (removeApplet n s).units = s.units ∧
    (removeApplet n s).curves = s.curves ∧ (removeApplet n s).sess = s.sess ∧ (removeApplet n s).vault = s.vault ∧
    (removeApplet n s).ctrs = s.ctrs ∧ (removeApplet n s).powder = s.powder ∧ (removeApplet n s).patrol = s.patrol ∧
    (removeApplet n s).hut = s.hut ∧ (removeApplet n s).alarm = s.alarm ∧ (removeApplet n s).card = s.card ∧
    (removeApplet n s).tel = s.tel ∧ (removeApplet n s).pending = s.pending := by
  simp only [removeApplet, State.ite_parts .., ite_self, and_self, implies_true, disableRing_frame .., moveApplet_frame ..,
    modApplet_frame .., dropCore_frame ..]

theorem serveTrkAppend_frame (c : Nat) (n : Nat) (s : State) :
    (serveTrkAppend c n s).now = s.now ∧ (serveTrkAppend c n s).free = s.free ∧ (serveTrkAppend c n s).life = s.life ∧
    (serveTrkAppend c n s).gate = s.gate ∧ (serveTrkAppend c n s).rings = s.rings ∧ (serveTrkAppend c n s).units =
    s.units ∧ (serveTrkAppend c n s).curves = s.curves ∧ (serveTrkAppend c n s).sess = s.sess ∧ (serveTrkAppend c n
    s).vault = s.vault ∧ (serveTrkAppend c n s).ctrs = s.ctrs ∧ (serveTrkAppend c n s).powder = s.powder ∧
    (serveTrkAppend c n s).prot = s.prot ∧ (serveTrkAppend c n s).mem = s.mem ∧ (serveTrkAppend c n s).hut = s.hut ∧
    (serveTrkAppend c n s).alarm = s.alarm ∧ (serveTrkAppend c n s).card = s.card ∧ (serveTrkAppend c n s).tel =
    s.tel ∧ (serveTrkAppend c n s).pending = s.pending := by
  simp only [serveTrkAppend, State.ite_parts .., ite_self, and_self, implies_true, returnStatus_frame ..,
    appendCommit_frame .., returnValue_frame ..]

theorem clearWindow_frame (n : Nat) (s : State) :
    (clearWindow n s).now = s.now ∧ (clearWindow n s).free = s.free ∧ (clearWindow n s).life = s.life ∧ (clearWindow n
    s).link = s.link ∧ (clearWindow n s).gate = s.gate ∧ (clearWindow n s).rings = s.rings ∧ (clearWindow n s).units
    = s.units ∧ (clearWindow n s).curves = s.curves ∧ (clearWindow n s).sess = s.sess ∧ (clearWindow n s).vault =
    s.vault ∧ (clearWindow n s).ctrs = s.ctrs ∧ (clearWindow n s).powder = s.powder ∧ (clearWindow n s).merya =
    s.merya ∧ (clearWindow n s).prot = s.prot ∧ (clearWindow n s).patrol = s.patrol ∧ (clearWindow n s).trk = s.trk
    ∧ (clearWindow n s).hut = s.hut ∧ (clearWindow n s).alarm = s.alarm ∧ (clearWindow n s).card = s.card ∧
    (clearWindow n s).evts = s.evts ∧ (clearWindow n s).tel = s.tel ∧ (clearWindow n s).pending = s.pending := by
  simp only [clearWindow, State.ite_parts .., ite_self, and_self, implies_true]

theorem beginSlice_frame (c : Nat) (n : Nat) (s : State) :
    (beginSlice c n s).now = s.now ∧ (beginSlice c n s).life = s.life ∧ (beginSlice c n s).units = s.units ∧ (beginSlice
    c n s).curves = s.curves ∧ (beginSlice c n s).sess = s.sess ∧ (beginSlice c n s).vault = s.vault ∧ (beginSlice c
    n s).ctrs = s.ctrs ∧ (beginSlice c n s).powder = s.powder ∧ (beginSlice c n s).patrol = s.patrol ∧ (beginSlice c
    n s).hut = s.hut ∧ (beginSlice c n s).alarm = s.alarm ∧ (beginSlice c n s).card = s.card ∧ (beginSlice c n
    s).tel = s.tel ∧ (beginSlice c n s).pending = s.pending := by
  simp only [beginSlice, State.ite_parts .., ite_self, and_self, implies_true, modCore_frame .., modApplet_frame ..,
    takeTrap_frame ..]

theorem giveCore_frame (c : Nat) (n : Nat) (s : State) :
    (giveCore c n s).now = s.now ∧ (giveCore c n s).life = s.life ∧ (giveCore c n s).units = s.units ∧ (giveCore c n
    s).curves = s.curves ∧ (giveCore c n s).sess = s.sess ∧ (giveCore c n s).vault = s.vault ∧ (giveCore c n s).ctrs
    = s.ctrs ∧ (giveCore c n s).powder = s.powder ∧ (giveCore c n s).patrol = s.patrol ∧ (giveCore c n s).hut =
    s.hut ∧ (giveCore c n s).alarm = s.alarm ∧ (giveCore c n s).card = s.card ∧ (giveCore c n s).tel = s.tel ∧
    (giveCore c n s).pending = s.pending := by
  simp only [giveCore, State.ite_parts .., ite_self, and_self, implies_true, beginSlice_frame .., moveApplet_frame ..,
    modCore_frame ..]

theorem dispatchCore_frame (c : Nat) (s : State) :
    (dispatchCore c s).now = s.now ∧ (dispatchCore c s).life = s.life ∧ (dispatchCore c s).units = s.units ∧
    (dispatchCore c s).curves = s.curves ∧ (dispatchCore c s).sess = s.sess ∧ (dispatchCore c s).vault = s.vault ∧
    (dispatchCore c s).ctrs = s.ctrs ∧ (dispatchCore c s).powder = s.powder ∧ (dispatchCore c s).patrol = s.patrol ∧
    (dispatchCore c s).hut = s.hut ∧ (dispatchCore c s).alarm = s.alarm ∧ (dispatchCore c s).card = s.card ∧
    (dispatchCore c s).tel = s.tel ∧ (dispatchCore c s).pending = s.pending := by
  unfold dispatchCore
  (repeat' split) <;> simp only [State.ite_parts .., ite_self, and_self, implies_true, placeRefill_frame .., giveCore_frame ..]

theorem serveCtrIncrement_frame (c : Nat) (n : Nat) (s : State) :
    (serveCtrIncrement c n s).now = s.now ∧ (serveCtrIncrement c n s).free = s.free ∧ (serveCtrIncrement c n s).life =
    s.life ∧ (serveCtrIncrement c n s).gate = s.gate ∧ (serveCtrIncrement c n s).rings = s.rings ∧
    (serveCtrIncrement c n s).units = s.units ∧ (serveCtrIncrement c n s).curves = s.curves ∧ (serveCtrIncrement c n
    s).sess = s.sess ∧ (serveCtrIncrement c n s).vault = s.vault ∧ (serveCtrIncrement c n s).powder = s.powder ∧
    (serveCtrIncrement c n s).prot = s.prot ∧ (serveCtrIncrement c n s).mem = s.mem ∧ (serveCtrIncrement c n
    s).patrol = s.patrol ∧ (serveCtrIncrement c n s).trk = s.trk ∧ (serveCtrIncrement c n s).hut = s.hut ∧
    (serveCtrIncrement c n s).alarm = s.alarm ∧ (serveCtrIncrement c n s).card = s.card ∧ (serveCtrIncrement c n
    s).tel = s.tel ∧ (serveCtrIncrement c n s).pending = s.pending := by
  simp only [serveCtrIncrement, State.ite_parts .., ite_self, and_self, implies_true, returnStatus_frame ..,
    increment_frame .., returnValue_frame ..]
  (repeat' split) <;> simp only [State.ite_parts .., ite_self, and_self, implies_true, returnStatus_frame .., increment_frame ..,
    returnValue_frame ..]

theorem setGrants_frame (n : Nat) (es : List PuEntry) (s : State) :
    (setGrants n es s).now = s.now ∧ (setGrants n es s).free = s.free ∧ (setGrants n es s).life = s.life ∧ (setGrants n
    es s).link = s.link ∧ (setGrants n es s).gate = s.gate ∧ (setGrants n es s).rings = s.rings ∧ (setGrants n es
    s).units = s.units ∧ (setGrants n es s).curves = s.curves ∧ (setGrants n es s).sess = s.sess ∧ (setGrants n es
    s).vault = s.vault ∧ (setGrants n es s).ctrs = s.ctrs ∧ (setGrants n es s).powder = s.powder ∧ (setGrants n es
    s).merya = s.merya ∧ (setGrants n es s).mem = s.mem ∧ (setGrants n es s).stored = s.stored ∧ (setGrants n es
    s).patrol = s.patrol ∧ (setGrants n es s).trk = s.trk ∧ (setGrants n es s).hut = s.hut ∧ (setGrants n es
    s).alarm = s.alarm ∧ (setGrants n es s).card = s.card ∧ (setGrants n es s).evts = s.evts ∧ (setGrants n es
    s).tel = s.tel ∧ (setGrants n es s).pending = s.pending := by
  simp only [setGrants, State.ite_parts .., ite_self, and_self, implies_true, foldl_now, foldl_free, foldl_life,
    foldl_link, foldl_gate, foldl_rings, foldl_units, foldl_curves, foldl_sess, foldl_vault, foldl_ctrs,
    foldl_powder, foldl_merya, foldl_mem, foldl_stored, foldl_patrol, foldl_trk, foldl_hut, foldl_alarm, foldl_card,
    foldl_evts, foldl_tel, foldl_pending]

theorem tagWindow_frame (n : Nat) (tag : Nat) (s : State) :
    (tagWindow n tag s).now = s.now ∧ (tagWindow n tag s).free = s.free ∧ (tagWindow n tag s).life = s.life ∧ (tagWindow
    n tag s).link = s.link ∧ (tagWindow n tag s).gate = s.gate ∧ (tagWindow n tag s).rings = s.rings ∧ (tagWindow n
    tag s).units = s.units ∧ (tagWindow n tag s).curves = s.curves ∧ (tagWindow n tag s).sess = s.sess ∧ (tagWindow
    n tag s).vault = s.vault ∧ (tagWindow n tag s).ctrs = s.ctrs ∧ (tagWindow n tag s).powder = s.powder ∧
    (tagWindow n tag s).merya = s.merya ∧ (tagWindow n tag s).mem = s.mem ∧ (tagWindow n tag s).stored = s.stored ∧
    (tagWindow n tag s).patrol = s.patrol ∧ (tagWindow n tag s).trk = s.trk ∧ (tagWindow n tag s).hut = s.hut ∧
    (tagWindow n tag s).alarm = s.alarm ∧ (tagWindow n tag s).card = s.card ∧ (tagWindow n tag s).evts = s.evts ∧
    (tagWindow n tag s).tel = s.tel ∧ (tagWindow n tag s).pending = s.pending := by
  simp only [tagWindow, State.ite_parts .., ite_self, and_self, implies_true, foldl_now, foldl_free, foldl_life,
    foldl_link, foldl_gate, foldl_rings, foldl_units, foldl_curves, foldl_sess, foldl_vault, foldl_ctrs,
    foldl_powder, foldl_merya, foldl_mem, foldl_stored, foldl_patrol, foldl_trk, foldl_hut, foldl_alarm, foldl_card,
    foldl_evts, foldl_tel, foldl_pending]

theorem emptyApplet_frame (n : Nat) (s : State) :
    (emptyApplet n s).now = s.now ∧ (emptyApplet n s).free = s.free ∧ (emptyApplet n s).life = s.life ∧ (emptyApplet n
    s).gate = s.gate ∧ (emptyApplet n s).rings = s.rings ∧ (emptyApplet n s).units = s.units ∧ (emptyApplet n
    s).curves = s.curves ∧ (emptyApplet n s).sess = s.sess ∧ (emptyApplet n s).vault = s.vault ∧ (emptyApplet n
    s).powder = s.powder ∧ (emptyApplet n s).patrol = s.patrol ∧ (emptyApplet n s).trk = s.trk ∧ (emptyApplet n
    s).hut = s.hut ∧ (emptyApplet n s).alarm = s.alarm ∧ (emptyApplet n s).card = s.card ∧ (emptyApplet n s).tel =
    s.tel ∧ (emptyApplet n s).pending = s.pending := by
  simp only [emptyApplet, State.ite_parts .., ite_self, and_self, implies_true, moveApplet_frame .., setGrants_frame ..,
    tagWindow_frame .., clearWindow_frame .., setApplet_frame ..]

theorem ringDisabled_frame (n : Nat) (s : State) :
    (ringDisabled n s).now = s.now ∧ (ringDisabled n s).free = s.free ∧ (ringDisabled n s).life = s.life ∧ (ringDisabled
    n s).gate = s.gate ∧ (ringDisabled n s).rings = s.rings ∧ (ringDisabled n s).units = s.units ∧ (ringDisabled n
    s).curves = s.curves ∧ (ringDisabled n s).sess = s.sess ∧ (ringDisabled n s).vault = s.vault ∧ (ringDisabled n
    s).powder = s.powder ∧ (ringDisabled n s).patrol = s.patrol ∧ (ringDisabled n s).trk = s.trk ∧ (ringDisabled n
    s).hut = s.hut ∧ (ringDisabled n s).alarm = s.alarm ∧ (ringDisabled n s).card = s.card ∧ (ringDisabled n s).tel
    = s.tel ∧ (ringDisabled n s).pending = s.pending := by
  simp only [ringDisabled, State.ite_parts .., ite_self, and_self, implies_true, emptyApplet_frame .., moveApplet_frame ..,
    modApplet_frame ..]

theorem serveTimer_frame (c : Nat) (n : Nat) (s : State) :
    (serveTimer c n s).now = s.now ∧ (serveTimer c n s).free = s.free ∧ (serveTimer c n s).life = s.life ∧ (serveTimer c
    n s).link = s.link ∧ (serveTimer c n s).gate = s.gate ∧ (serveTimer c n s).rings = s.rings ∧ (serveTimer c n
    s).units = s.units ∧ (serveTimer c n s).curves = s.curves ∧ (serveTimer c n s).sess = s.sess ∧ (serveTimer c n
    s).vault = s.vault ∧ (serveTimer c n s).ctrs = s.ctrs ∧ (serveTimer c n s).powder = s.powder ∧ (serveTimer c n
    s).prot = s.prot ∧ (serveTimer c n s).mem = s.mem ∧ (serveTimer c n s).stored = s.stored ∧ (serveTimer c n
    s).patrol = s.patrol ∧ (serveTimer c n s).trk = s.trk ∧ (serveTimer c n s).hut = s.hut ∧ (serveTimer c n
    s).alarm = s.alarm ∧ (serveTimer c n s).card = s.card ∧ (serveTimer c n s).evts = s.evts ∧ (serveTimer c n
    s).tel = s.tel ∧ (serveTimer c n s).pending = s.pending := by
  simp only [serveTimer, State.ite_parts .., ite_self, and_self, implies_true, returnStatus_frame .., modApplet_frame ..]

theorem purgeApplet_frame (n : Nat) (s : State) :
    (purgeApplet n s).now = s.now ∧ (purgeApplet n s).life = s.life ∧ (purgeApplet n s).units = s.units ∧ (purgeApplet n
    s).curves = s.curves ∧ (purgeApplet n s).sess = s.sess ∧ (purgeApplet n s).vault = s.vault ∧ (purgeApplet n
    s).ctrs = s.ctrs ∧ (purgeApplet n s).powder = s.powder ∧ (purgeApplet n s).patrol = s.patrol ∧ (purgeApplet n
    s).hut = s.hut ∧ (purgeApplet n s).alarm = s.alarm ∧ (purgeApplet n s).card = s.card ∧ (purgeApplet n s).tel =
    s.tel ∧ (purgeApplet n s).pending = s.pending := by
  simp only [purgeApplet, State.ite_parts .., ite_self, and_self, implies_true, disableRing_frame .., moveApplet_frame ..,
    modApplet_frame .., dropCore_frame ..]

theorem startComplete_frame (n : Nat) (readable : Bool) (s : State) :
    (startComplete n readable s).now = s.now ∧ (startComplete n readable s).free = s.free ∧ (startComplete n readable
    s).life = s.life ∧ (startComplete n readable s).gate = s.gate ∧ (startComplete n readable s).rings = s.rings ∧
    (startComplete n readable s).units = s.units ∧ (startComplete n readable s).curves = s.curves ∧ (startComplete n
    readable s).sess = s.sess ∧ (startComplete n readable s).vault = s.vault ∧ (startComplete n readable s).ctrs =
    s.ctrs ∧ (startComplete n readable s).powder = s.powder ∧ (startComplete n readable s).patrol = s.patrol ∧
    (startComplete n readable s).hut = s.hut ∧ (startComplete n readable s).alarm = s.alarm ∧ (startComplete n
    readable s).card = s.card ∧ (startComplete n readable s).tel = s.tel ∧ (startComplete n readable s).pending =
    s.pending := by
  simp only [startComplete, State.ite_parts .., ite_self, and_self, implies_true, foldl_now, foldl_free, foldl_life,
    foldl_gate, foldl_rings, foldl_units, foldl_curves, foldl_sess, foldl_vault, foldl_ctrs, foldl_powder,
    foldl_patrol, foldl_hut, foldl_alarm, foldl_card, foldl_tel, foldl_pending, moveApplet_frame .., storeBytes_frame ..,
    clearWindow_frame .., setGrants_frame .., tagWindow_frame .., postMail_frame .., modApplet_frame ..]

theorem service_now (c : Nat) (f : Nat → State → State) (s : State) (hf : ∀ n s, (f n s).now = s.now) : (service c f
    s).now = s.now := by
  unfold service
  refine runOn_now c _ s (fun s => ?_)
  dsimp only
  split <;> simp only [hf, modCore_frame .., takeTrap_frame ..]

theorem service_life (c : Nat) (f : Nat → State → State) (s : State) (hf : ∀ n s, (f n s).life = s.life) : (service
    c f s).life = s.life := by
  unfold service
  refine runOn_life c _ s (fun s => ?_)
  dsimp only
  split <;> simp only [hf, modCore_frame .., takeTrap_frame ..]

theorem service_units (c : Nat) (f : Nat → State → State) (s : State) (hf : ∀ n s, (f n s).units = s.units) :
    (service c f s).units = s.units := by
  unfold service
  refine runOn_units c _ s (fun s => ?_)
  dsimp only
  split <;> simp only [hf, modCore_frame .., takeTrap_frame ..]

theorem service_curves (c : Nat) (f : Nat → State → State) (s : State) (hf : ∀ n s, (f n s).curves = s.curves) :
    (service c f s).curves = s.curves := by
  unfold service
  refine runOn_curves c _ s (fun s => ?_)
  dsimp only
  split <;> simp only [hf, modCore_frame .., takeTrap_frame ..]

theorem service_sess (c : Nat) (f : Nat → State → State) (s : State) (hf : ∀ n s, (f n s).sess = s.sess) : (service
    c f s).sess = s.sess := by
  unfold service
  refine runOn_sess c _ s (fun s => ?_)
  dsimp only
  split <;> simp only [hf, modCore_frame .., takeTrap_frame ..]

theorem service_vault (c : Nat) (f : Nat → State → State) (s : State) (hf : ∀ n s, (f n s).vault = s.vault) :
    (service c f s).vault = s.vault := by
  unfold service
  refine runOn_vault c _ s (fun s => ?_)
  dsimp only
  split <;> simp only [hf, modCore_frame .., takeTrap_frame ..]

theorem service_ctrs (c : Nat) (f : Nat → State → State) (s : State) (hf : ∀ n s, (f n s).ctrs = s.ctrs) : (service
    c f s).ctrs = s.ctrs := by
  unfold service
  refine runOn_ctrs c _ s (fun s => ?_)
  dsimp only
  split <;> simp only [hf, modCore_frame .., takeTrap_frame ..]

theorem service_powder (c : Nat) (f : Nat → State → State) (s : State) (hf : ∀ n s, (f n s).powder = s.powder) :
    (service c f s).powder = s.powder := by
  unfold service
  refine runOn_powder c _ s (fun s => ?_)
  dsimp only
  split <;> simp only [hf, modCore_frame .., takeTrap_frame ..]

theorem service_patrol (c : Nat) (f : Nat → State → State) (s : State) (hf : ∀ n s, (f n s).patrol = s.patrol) :
    (service c f s).patrol = s.patrol := by
  unfold service
  refine runOn_patrol c _ s (fun s => ?_)
  dsimp only
  split <;> simp only [hf, modCore_frame .., takeTrap_frame ..]

theorem service_hut (c : Nat) (f : Nat → State → State) (s : State) (hf : ∀ n s, (f n s).hut = s.hut) : (service c f
    s).hut = s.hut := by
  unfold service
  refine runOn_hut c _ s (fun s => ?_)
  dsimp only
  split <;> simp only [hf, modCore_frame .., takeTrap_frame ..]

theorem service_alarm (c : Nat) (f : Nat → State → State) (s : State) (hf : ∀ n s, (f n s).alarm = s.alarm) :
    (service c f s).alarm = s.alarm := by
  unfold service
  refine runOn_alarm c _ s (fun s => ?_)
  dsimp only
  split <;> simp only [hf, modCore_frame .., takeTrap_frame ..]

theorem service_card (c : Nat) (f : Nat → State → State) (s : State) (hf : ∀ n s, (f n s).card = s.card) : (service
    c f s).card = s.card := by
  unfold service
  refine runOn_card c _ s (fun s => ?_)
  dsimp only
  split <;> simp only [hf, modCore_frame .., takeTrap_frame ..]

theorem service_tel (c : Nat) (f : Nat → State → State) (s : State) (hf : ∀ n s, (f n s).tel = s.tel) : (service c f
    s).tel = s.tel := by
  unfold service
  refine runOn_tel c _ s (fun s => ?_)
  dsimp only
  split <;> simp only [hf, modCore_frame .., takeTrap_frame ..]

theorem service_pending (c : Nat) (f : Nat → State → State) (s : State) (hf : ∀ n s, (f n s).pending = s.pending) :
    (service c f s).pending = s.pending := by
  unfold service
  refine runOn_pending c _ s (fun s => ?_)
  dsimp only
  split <;> simp only [hf, modCore_frame .., takeTrap_frame ..]

theorem serveRingConfig_frame (c : Nat) (n : Nat) (s : State) :
    (serveRingConfig c n s).now = s.now ∧ (serveRingConfig c n s).free = s.free ∧ (serveRingConfig c n s).life = s.life
    ∧ (serveRingConfig c n s).link = s.link ∧ (serveRingConfig c n s).gate = s.gate ∧ (serveRingConfig c n s).units
    = s.units ∧ (serveRingConfig c n s).curves = s.curves ∧ (serveRingConfig c n s).sess = s.sess ∧ (serveRingConfig
    c n s).vault = s.vault ∧ (serveRingConfig c n s).ctrs = s.ctrs ∧ (serveRingConfig c n s).powder = s.powder ∧
    (serveRingConfig c n s).prot = s.prot ∧ (serveRingConfig c n s).mem = s.mem ∧ (serveRingConfig c n s).stored =
    s.stored ∧ (serveRingConfig c n s).patrol = s.patrol ∧ (serveRingConfig c n s).trk = s.trk ∧ (serveRingConfig c
    n s).hut = s.hut ∧ (serveRingConfig c n s).alarm = s.alarm ∧ (serveRingConfig c n s).card = s.card ∧
    (serveRingConfig c n s).evts = s.evts ∧ (serveRingConfig c n s).tel = s.tel ∧ (serveRingConfig c n s).pending =
    s.pending := by
  simp only [serveRingConfig, State.ite_parts .., ite_self, and_self, implies_true, returnStatus_frame .., modRing_frame ..]

theorem serveEvent_frame (c : Nat) (n : Nat) (s : State) :
    (serveEvent c n s).now = s.now ∧ (serveEvent c n s).free = s.free ∧ (serveEvent c n s).life = s.life ∧ (serveEvent c
    n s).gate = s.gate ∧ (serveEvent c n s).rings = s.rings ∧ (serveEvent c n s).units = s.units ∧ (serveEvent c n
    s).curves = s.curves ∧ (serveEvent c n s).sess = s.sess ∧ (serveEvent c n s).vault = s.vault ∧ (serveEvent c n
    s).ctrs = s.ctrs ∧ (serveEvent c n s).powder = s.powder ∧ (serveEvent c n s).prot = s.prot ∧ (serveEvent c n
    s).mem = s.mem ∧ (serveEvent c n s).stored = s.stored ∧ (serveEvent c n s).patrol = s.patrol ∧ (serveEvent c n
    s).trk = s.trk ∧ (serveEvent c n s).hut = s.hut ∧ (serveEvent c n s).alarm = s.alarm ∧ (serveEvent c n s).card =
    s.card ∧ (serveEvent c n s).tel = s.tel ∧ (serveEvent c n s).pending = s.pending := by
  simp only [serveEvent, State.ite_parts .., ite_self, and_self, implies_true, returnStatus_frame .., raiseEvent_frame ..]

theorem refillArrives_frame (c : Nat) (s : State) :
    (refillArrives c s).now = s.now ∧ (refillArrives c s).free = s.free ∧ (refillArrives c s).life = s.life ∧
    (refillArrives c s).link = s.link ∧ (refillArrives c s).gate = s.gate ∧ (refillArrives c s).rings = s.rings ∧
    (refillArrives c s).units = s.units ∧ (refillArrives c s).curves = s.curves ∧ (refillArrives c s).sess = s.sess
    ∧ (refillArrives c s).vault = s.vault ∧ (refillArrives c s).ctrs = s.ctrs ∧ (refillArrives c s).prot = s.prot ∧
    (refillArrives c s).mem = s.mem ∧ (refillArrives c s).stored = s.stored ∧ (refillArrives c s).patrol = s.patrol
    ∧ (refillArrives c s).trk = s.trk ∧ (refillArrives c s).hut = s.hut ∧ (refillArrives c s).alarm = s.alarm ∧
    (refillArrives c s).card = s.card ∧ (refillArrives c s).evts = s.evts ∧ (refillArrives c s).tel = s.tel ∧
    (refillArrives c s).pending = s.pending := by
  simp only [refillArrives, State.ite_parts .., ite_self, and_self, implies_true, foldl_now, foldl_free, foldl_life,
    foldl_link, foldl_gate, foldl_rings, foldl_units, foldl_curves, foldl_sess, foldl_vault, foldl_ctrs, foldl_prot,
    foldl_mem, foldl_stored, foldl_patrol, foldl_trk, foldl_hut, foldl_alarm, foldl_card, foldl_evts, foldl_tel,
    foldl_pending, drawFor_frame .., placeRefill_frame .., resumeLoad_frame .., modCore_frame ..]

theorem endSlice_frame (c : Nat) (s : State) :
    (endSlice c s).now = s.now ∧ (endSlice c s).life = s.life ∧ (endSlice c s).units = s.units ∧ (endSlice c s).curves =
    s.curves ∧ (endSlice c s).sess = s.sess ∧ (endSlice c s).vault = s.vault ∧ (endSlice c s).ctrs = s.ctrs ∧
    (endSlice c s).powder = s.powder ∧ (endSlice c s).patrol = s.patrol ∧ (endSlice c s).hut = s.hut ∧ (endSlice c
    s).alarm = s.alarm ∧ (endSlice c s).card = s.card ∧ (endSlice c s).tel = s.tel ∧ (endSlice c s).pending =
    s.pending := by
  simp only [endSlice, State.ite_parts .., ite_self, and_self, implies_true, modCore_frame .., giveCore_frame ..,
    moveApplet_frame .., releaseCore_frame .., beginSlice_frame ..]
  (repeat' split) <;> simp only [State.ite_parts .., ite_self, and_self, implies_true, modCore_frame .., giveCore_frame .., moveApplet_frame ..,
    releaseCore_frame .., beginSlice_frame ..]

theorem serveWait_frame (c : Nat) (n : Nat) (s : State) :
    (serveWait c n s).now = s.now ∧ (serveWait c n s).free = s.free ∧ (serveWait c n s).life = s.life ∧ (serveWait c n
    s).gate = s.gate ∧ (serveWait c n s).rings = s.rings ∧ (serveWait c n s).units = s.units ∧ (serveWait c n
    s).curves = s.curves ∧ (serveWait c n s).sess = s.sess ∧ (serveWait c n s).vault = s.vault ∧ (serveWait c n
    s).ctrs = s.ctrs ∧ (serveWait c n s).powder = s.powder ∧ (serveWait c n s).prot = s.prot ∧ (serveWait c n s).mem
    = s.mem ∧ (serveWait c n s).stored = s.stored ∧ (serveWait c n s).patrol = s.patrol ∧ (serveWait c n s).trk =
    s.trk ∧ (serveWait c n s).hut = s.hut ∧ (serveWait c n s).alarm = s.alarm ∧ (serveWait c n s).card = s.card ∧
    (serveWait c n s).tel = s.tel ∧ (serveWait c n s).pending = s.pending := by
  simp only [serveWait, State.ite_parts .., ite_self, and_self, implies_true, modCore_frame .., setApplet_frame ..,
    moveApplet_frame .., releaseCore_frame ..]
  (repeat' split) <;> simp only [State.ite_parts .., ite_self, and_self, implies_true, modCore_frame .., setApplet_frame .., moveApplet_frame ..,
    releaseCore_frame ..]

/-! ### Powder.lean -/

theorem takeBlocks_frame {n : Nat} {s t : State} {bs : List Bytes} (h : takeBlocks n s = some (bs, t)) :
    t.now = s.now ∧ t.free = s.free ∧ t.life = s.life ∧ t.link = s.link ∧ t.gate = s.gate ∧ t.rings = s.rings ∧ t.units
    = s.units ∧ t.curves = s.curves ∧ t.sess = s.sess ∧ t.vault = s.vault ∧ t.ctrs = s.ctrs ∧ t.merya = s.merya ∧
    t.prot = s.prot ∧ t.mem = s.mem ∧ t.stored = s.stored ∧ t.patrol = s.patrol ∧ t.trk = s.trk ∧ t.hut = s.hut ∧
    t.alarm = s.alarm ∧ t.card = s.card ∧ t.evts = s.evts ∧ t.tel = s.tel ∧ t.pending = s.pending := by
  unfold takeBlocks at h
  split at h
  · cases h
  · cases h; simp only [and_self]

theorem zeroiseGroomers_frame (s : State) :
    (zeroiseGroomers s).now = s.now ∧ (zeroiseGroomers s).free = s.free ∧ (zeroiseGroomers s).life = s.life ∧
    (zeroiseGroomers s).gate = s.gate ∧ (zeroiseGroomers s).rings = s.rings ∧ (zeroiseGroomers s).units = s.units ∧
    (zeroiseGroomers s).curves = s.curves ∧ (zeroiseGroomers s).sess = s.sess ∧ (zeroiseGroomers s).vault = s.vault
    ∧ (zeroiseGroomers s).ctrs = s.ctrs ∧ (zeroiseGroomers s).merya = s.merya ∧ (zeroiseGroomers s).prot = s.prot ∧
    (zeroiseGroomers s).mem = s.mem ∧ (zeroiseGroomers s).stored = s.stored ∧ (zeroiseGroomers s).patrol = s.patrol
    ∧ (zeroiseGroomers s).trk = s.trk ∧ (zeroiseGroomers s).hut = s.hut ∧ (zeroiseGroomers s).alarm = s.alarm ∧
    (zeroiseGroomers s).card = s.card ∧ (zeroiseGroomers s).tel = s.tel ∧ (zeroiseGroomers s).pending = s.pending := by
  simp only [zeroiseGroomers, State.ite_parts .., ite_self, and_self, implies_true, raiseEvent_frame ..]

theorem clearPowder_frame (s : State) :
    (clearPowder s).now = s.now ∧ (clearPowder s).free = s.free ∧ (clearPowder s).life = s.life ∧ (clearPowder s).gate =
    s.gate ∧ (clearPowder s).rings = s.rings ∧ (clearPowder s).units = s.units ∧ (clearPowder s).curves = s.curves ∧
    (clearPowder s).sess = s.sess ∧ (clearPowder s).vault = s.vault ∧ (clearPowder s).ctrs = s.ctrs ∧ (clearPowder
    s).merya = s.merya ∧ (clearPowder s).prot = s.prot ∧ (clearPowder s).mem = s.mem ∧ (clearPowder s).stored =
    s.stored ∧ (clearPowder s).patrol = s.patrol ∧ (clearPowder s).trk = s.trk ∧ (clearPowder s).hut = s.hut ∧
    (clearPowder s).alarm = s.alarm ∧ (clearPowder s).card = s.card ∧ (clearPowder s).tel = s.tel ∧ (clearPowder
    s).pending = s.pending := by
  simp only [clearPowder, State.ite_parts .., ite_self, and_self, implies_true, zeroiseGroomers_frame ..]

theorem restartPowder_frame (s : State) :
    (restartPowder s).now = s.now ∧ (restartPowder s).free = s.free ∧ (restartPowder s).life = s.life ∧ (restartPowder
    s).gate = s.gate ∧ (restartPowder s).rings = s.rings ∧ (restartPowder s).units = s.units ∧ (restartPowder
    s).curves = s.curves ∧ (restartPowder s).sess = s.sess ∧ (restartPowder s).vault = s.vault ∧ (restartPowder
    s).ctrs = s.ctrs ∧ (restartPowder s).merya = s.merya ∧ (restartPowder s).prot = s.prot ∧ (restartPowder s).mem =
    s.mem ∧ (restartPowder s).stored = s.stored ∧ (restartPowder s).patrol = s.patrol ∧ (restartPowder s).trk =
    s.trk ∧ (restartPowder s).hut = s.hut ∧ (restartPowder s).alarm = s.alarm ∧ (restartPowder s).card = s.card ∧
    (restartPowder s).tel = s.tel ∧ (restartPowder s).pending = s.pending := by
  simp only [restartPowder, State.ite_parts .., ite_self, and_self, implies_true, clearPowder_frame ..]

theorem servoStep_frame (cell : Nat) (ones : Nat) (s : State) :
    (servoStep cell ones s).now = s.now ∧ (servoStep cell ones s).free = s.free ∧ (servoStep cell ones s).life = s.life
    ∧ (servoStep cell ones s).link = s.link ∧ (servoStep cell ones s).gate = s.gate ∧ (servoStep cell ones s).rings
    = s.rings ∧ (servoStep cell ones s).units = s.units ∧ (servoStep cell ones s).curves = s.curves ∧ (servoStep
    cell ones s).sess = s.sess ∧ (servoStep cell ones s).vault = s.vault ∧ (servoStep cell ones s).ctrs = s.ctrs ∧
    (servoStep cell ones s).merya = s.merya ∧ (servoStep cell ones s).prot = s.prot ∧ (servoStep cell ones s).mem =
    s.mem ∧ (servoStep cell ones s).stored = s.stored ∧ (servoStep cell ones s).patrol = s.patrol ∧ (servoStep cell
    ones s).trk = s.trk ∧ (servoStep cell ones s).hut = s.hut ∧ (servoStep cell ones s).alarm = s.alarm ∧ (servoStep
    cell ones s).card = s.card ∧ (servoStep cell ones s).evts = s.evts ∧ (servoStep cell ones s).tel = s.tel ∧
    (servoStep cell ones s).pending = s.pending := by
  simp only [servoStep, State.ite_parts .., ite_self, and_self, implies_true]

theorem firstSeed_frame (s : State) :
    (firstSeed s).now = s.now ∧ (firstSeed s).free = s.free ∧ (firstSeed s).life = s.life ∧ (firstSeed s).gate = s.gate
    ∧ (firstSeed s).rings = s.rings ∧ (firstSeed s).units = s.units ∧ (firstSeed s).curves = s.curves ∧ (firstSeed
    s).sess = s.sess ∧ (firstSeed s).vault = s.vault ∧ (firstSeed s).ctrs = s.ctrs ∧ (firstSeed s).prot = s.prot ∧
    (firstSeed s).mem = s.mem ∧ (firstSeed s).stored = s.stored ∧ (firstSeed s).patrol = s.patrol ∧ (firstSeed
    s).trk = s.trk ∧ (firstSeed s).hut = s.hut ∧ (firstSeed s).alarm = s.alarm ∧ (firstSeed s).card = s.card ∧
    (firstSeed s).tel = s.tel ∧ (firstSeed s).pending = s.pending := by
  simp only [firstSeed, State.ite_parts .., ite_self, and_self, implies_true, resumeLoads_frame .., setPwdEvt_frame ..]

theorem seedMasks_frame (block : Bytes) (s : State) :
    (seedMasks block s).now = s.now ∧ (seedMasks block s).free = s.free ∧ (seedMasks block s).life = s.life ∧ (seedMasks
    block s).link = s.link ∧ (seedMasks block s).gate = s.gate ∧ (seedMasks block s).rings = s.rings ∧ (seedMasks
    block s).curves = s.curves ∧ (seedMasks block s).sess = s.sess ∧ (seedMasks block s).vault = s.vault ∧
    (seedMasks block s).ctrs = s.ctrs ∧ (seedMasks block s).powder = s.powder ∧ (seedMasks block s).merya = s.merya
    ∧ (seedMasks block s).prot = s.prot ∧ (seedMasks block s).mem = s.mem ∧ (seedMasks block s).stored = s.stored ∧
    (seedMasks block s).patrol = s.patrol ∧ (seedMasks block s).trk = s.trk ∧ (seedMasks block s).hut = s.hut ∧
    (seedMasks block s).alarm = s.alarm ∧ (seedMasks block s).card = s.card ∧ (seedMasks block s).evts = s.evts ∧
    (seedMasks block s).tel = s.tel ∧ (seedMasks block s).pending = s.pending := by
  simp only [seedMasks, State.ite_parts .., ite_self, and_self, implies_true]

theorem seedMasksFromReserve_frame (s : State) :
    (seedMasksFromReserve s).now = s.now ∧ (seedMasksFromReserve s).free = s.free ∧ (seedMasksFromReserve s).life =
    s.life ∧ (seedMasksFromReserve s).link = s.link ∧ (seedMasksFromReserve s).gate = s.gate ∧ (seedMasksFromReserve
    s).rings = s.rings ∧ (seedMasksFromReserve s).curves = s.curves ∧ (seedMasksFromReserve s).sess = s.sess ∧
    (seedMasksFromReserve s).vault = s.vault ∧ (seedMasksFromReserve s).ctrs = s.ctrs ∧ (seedMasksFromReserve
    s).powder = s.powder ∧ (seedMasksFromReserve s).merya = s.merya ∧ (seedMasksFromReserve s).prot = s.prot ∧
    (seedMasksFromReserve s).mem = s.mem ∧ (seedMasksFromReserve s).stored = s.stored ∧ (seedMasksFromReserve
    s).patrol = s.patrol ∧ (seedMasksFromReserve s).trk = s.trk ∧ (seedMasksFromReserve s).hut = s.hut ∧
    (seedMasksFromReserve s).alarm = s.alarm ∧ (seedMasksFromReserve s).card = s.card ∧ (seedMasksFromReserve
    s).evts = s.evts ∧ (seedMasksFromReserve s).tel = s.tel ∧ (seedMasksFromReserve s).pending = s.pending := by
  simp only [seedMasksFromReserve, State.ite_parts .., ite_self, and_self, implies_true, seedMasks_frame ..]

theorem feedPattern_frame (n : Nat) (s : State) :
    (feedPattern n s).1.now = s.now ∧ (feedPattern n s).1.free = s.free ∧ (feedPattern n s).1.life = s.life ∧
    (feedPattern n s).1.link = s.link ∧ (feedPattern n s).1.gate = s.gate ∧ (feedPattern n s).1.rings = s.rings ∧
    (feedPattern n s).1.units = s.units ∧ (feedPattern n s).1.curves = s.curves ∧ (feedPattern n s).1.sess = s.sess
    ∧ (feedPattern n s).1.vault = s.vault ∧ (feedPattern n s).1.ctrs = s.ctrs ∧ (feedPattern n s).1.merya = s.merya
    ∧ (feedPattern n s).1.prot = s.prot ∧ (feedPattern n s).1.mem = s.mem ∧ (feedPattern n s).1.stored = s.stored ∧
    (feedPattern n s).1.patrol = s.patrol ∧ (feedPattern n s).1.trk = s.trk ∧ (feedPattern n s).1.hut = s.hut ∧
    (feedPattern n s).1.alarm = s.alarm ∧ (feedPattern n s).1.card = s.card ∧ (feedPattern n s).1.evts = s.evts ∧
    (feedPattern n s).1.tel = s.tel ∧ (feedPattern n s).1.pending = s.pending := by
  simp only [feedPattern, State.ite_parts .., ite_self, and_self, implies_true]

theorem failLoad_frame (c : Nat) (s : State) :
    (failLoad c s).now = s.now ∧ (failLoad c s).life = s.life ∧ (failLoad c s).units = s.units ∧ (failLoad c s).curves =
    s.curves ∧ (failLoad c s).sess = s.sess ∧ (failLoad c s).vault = s.vault ∧ (failLoad c s).ctrs = s.ctrs ∧
    (failLoad c s).patrol = s.patrol ∧ (failLoad c s).hut = s.hut ∧ (failLoad c s).alarm = s.alarm ∧ (failLoad c
    s).card = s.card ∧ (failLoad c s).tel = s.tel ∧ (failLoad c s).pending = s.pending := by
  unfold failLoad
  (repeat' split) <;> simp only [State.ite_parts .., ite_self, and_self, implies_true, takeTrap_frame ..]

theorem failLoads_frame (s : State) :
    (failLoads s).now = s.now ∧ (failLoads s).life = s.life ∧ (failLoads s).units = s.units ∧ (failLoads s).curves =
    s.curves ∧ (failLoads s).sess = s.sess ∧ (failLoads s).vault = s.vault ∧ (failLoads s).ctrs = s.ctrs ∧
    (failLoads s).patrol = s.patrol ∧ (failLoads s).hut = s.hut ∧ (failLoads s).alarm = s.alarm ∧ (failLoads s).card
    = s.card ∧ (failLoads s).tel = s.tel ∧ (failLoads s).pending = s.pending := by
  simp only [failLoads, State.ite_parts .., ite_self, and_self, implies_true, foldl_now, foldl_life, foldl_units,
    foldl_curves, foldl_sess, foldl_vault, foldl_ctrs, foldl_patrol, foldl_hut, foldl_alarm, foldl_card, foldl_tel,
    foldl_pending, modCore_frame .., failLoad_frame ..]

theorem failDraws_frame (s : State) :
    (failDraws s).now = s.now ∧ (failDraws s).free = s.free ∧ (failDraws s).life = s.life ∧ (failDraws s).link = s.link
    ∧ (failDraws s).gate = s.gate ∧ (failDraws s).curves = s.curves ∧ (failDraws s).sess = s.sess ∧ (failDraws
    s).ctrs = s.ctrs ∧ (failDraws s).powder = s.powder ∧ (failDraws s).merya = s.merya ∧ (failDraws s).prot = s.prot
    ∧ (failDraws s).mem = s.mem ∧ (failDraws s).patrol = s.patrol ∧ (failDraws s).hut = s.hut ∧ (failDraws s).alarm
    = s.alarm ∧ (failDraws s).card = s.card ∧ (failDraws s).evts = s.evts ∧ (failDraws s).tel = s.tel ∧ (failDraws
    s).pending = s.pending := by
  simp only [failDraws, State.ite_parts .., ite_self, and_self, implies_true, foldl_now, foldl_free, foldl_life,
    foldl_link, foldl_gate, foldl_curves, foldl_sess, foldl_ctrs, foldl_powder, foldl_merya, foldl_prot, foldl_mem,
    foldl_patrol, foldl_hut, foldl_alarm, foldl_card, foldl_evts, foldl_tel, foldl_pending, finishJob_frame ..,
    modJob_frame ..]

theorem noteLevel_frame (src : Nat) (before : Machine.Level) (s : State) :
    (noteLevel src before s).now = s.now ∧ (noteLevel src before s).free = s.free ∧ (noteLevel src before s).life =
    s.life ∧ (noteLevel src before s).gate = s.gate ∧ (noteLevel src before s).rings = s.rings ∧ (noteLevel src
    before s).units = s.units ∧ (noteLevel src before s).curves = s.curves ∧ (noteLevel src before s).sess = s.sess
    ∧ (noteLevel src before s).vault = s.vault ∧ (noteLevel src before s).ctrs = s.ctrs ∧ (noteLevel src before
    s).powder = s.powder ∧ (noteLevel src before s).merya = s.merya ∧ (noteLevel src before s).prot = s.prot ∧
    (noteLevel src before s).mem = s.mem ∧ (noteLevel src before s).stored = s.stored ∧ (noteLevel src before s).trk
    = s.trk ∧ (noteLevel src before s).hut = s.hut ∧ (noteLevel src before s).alarm = s.alarm ∧ (noteLevel src
    before s).card = s.card ∧ (noteLevel src before s).tel = s.tel ∧ (noteLevel src before s).pending = s.pending := by
  simp only [noteLevel, State.ite_parts .., ite_self, and_self, implies_true, setPtlEvt_frame ..]

theorem declareFailed_frame (before : Machine.Level) (s : State) :
    (declareFailed before s).now = s.now ∧ (declareFailed before s).free = s.free ∧ (declareFailed before s).life =
    s.life ∧ (declareFailed before s).gate = s.gate ∧ (declareFailed before s).rings = s.rings ∧ (declareFailed
    before s).units = s.units ∧ (declareFailed before s).curves = s.curves ∧ (declareFailed before s).sess = s.sess
    ∧ (declareFailed before s).vault = s.vault ∧ (declareFailed before s).ctrs = s.ctrs ∧ (declareFailed before
    s).merya = s.merya ∧ (declareFailed before s).prot = s.prot ∧ (declareFailed before s).mem = s.mem ∧
    (declareFailed before s).stored = s.stored ∧ (declareFailed before s).hut = s.hut ∧ (declareFailed before
    s).alarm = s.alarm ∧ (declareFailed before s).card = s.card ∧ (declareFailed before s).tel = s.tel ∧
    (declareFailed before s).pending = s.pending := by
  simp only [declareFailed, State.ite_parts .., ite_self, and_self, implies_true, setPwdEvt_frame .., noteLevel_frame ..,
    trkRequest_frame ..]

theorem healthFails_frame (cell : Nat) (t : HealthTest) (s : State) :
    (healthFails cell t s).now = s.now ∧ (healthFails cell t s).life = s.life ∧ (healthFails cell t s).curves = s.curves
    ∧ (healthFails cell t s).sess = s.sess ∧ (healthFails cell t s).ctrs = s.ctrs ∧ (healthFails cell t s).hut =
    s.hut ∧ (healthFails cell t s).alarm = s.alarm ∧ (healthFails cell t s).card = s.card ∧ (healthFails cell t
    s).tel = s.tel ∧ (healthFails cell t s).pending = s.pending := by
  simp only [healthFails, State.ite_parts .., ite_self, and_self, implies_true, raiseEvent_frame .., setPwdEvt_frame ..,
    failLoads_frame .., failDraws_frame .., clearPowder_frame .., trkRequest_frame .., declareFailed_frame ..]

theorem startupPass_frame (s : State) :
    (startupPass s).now = s.now ∧ (startupPass s).life = s.life ∧ (startupPass s).curves = s.curves ∧ (startupPass
    s).sess = s.sess ∧ (startupPass s).ctrs = s.ctrs ∧ (startupPass s).hut = s.hut ∧ (startupPass s).alarm = s.alarm
    ∧ (startupPass s).card = s.card ∧ (startupPass s).tel = s.tel ∧ (startupPass s).pending = s.pending := by
  unfold startupPass
  (try dsimp only)
  split
  · simp only [and_self]
  · split
    · split
      · simp only [and_self]
      · split
        · rename_i h
          have h1 := congrArg Prod.fst h
          dsimp only at h1
          simp only [healthFails_frame .., ← h1, feedPattern_frame .., and_self]
        · rename_i h
          have h1 := congrArg Prod.fst h
          dsimp only at h1
          simp only [← h1, feedPattern_frame .., and_self]
    · simp only [and_self]

theorem refreshMask_frame (g : Nat) (s : State) :
    (refreshMask g s).now = s.now ∧ (refreshMask g s).free = s.free ∧ (refreshMask g s).life = s.life ∧ (refreshMask g
    s).link = s.link ∧ (refreshMask g s).gate = s.gate ∧ (refreshMask g s).rings = s.rings ∧ (refreshMask g
    s).curves = s.curves ∧ (refreshMask g s).sess = s.sess ∧ (refreshMask g s).vault = s.vault ∧ (refreshMask g
    s).ctrs = s.ctrs ∧ (refreshMask g s).merya = s.merya ∧ (refreshMask g s).prot = s.prot ∧ (refreshMask g s).mem =
    s.mem ∧ (refreshMask g s).stored = s.stored ∧ (refreshMask g s).patrol = s.patrol ∧ (refreshMask g s).trk =
    s.trk ∧ (refreshMask g s).hut = s.hut ∧ (refreshMask g s).alarm = s.alarm ∧ (refreshMask g s).card = s.card ∧
    (refreshMask g s).evts = s.evts ∧ (refreshMask g s).tel = s.tel ∧ (refreshMask g s).pending = s.pending := by
  simp only [refreshMask]
  split
  · simp only [and_self]
  · split
    · simp only [and_self]
    · rename_i h; have := takeBlocks_frame h; simp only [this, and_self]

theorem markReseed_frame (g : Nat) (s : State) :
    (markReseed g s).now = s.now ∧ (markReseed g s).free = s.free ∧ (markReseed g s).life = s.life ∧ (markReseed g
    s).link = s.link ∧ (markReseed g s).gate = s.gate ∧ (markReseed g s).rings = s.rings ∧ (markReseed g s).units =
    s.units ∧ (markReseed g s).curves = s.curves ∧ (markReseed g s).sess = s.sess ∧ (markReseed g s).vault = s.vault
    ∧ (markReseed g s).ctrs = s.ctrs ∧ (markReseed g s).merya = s.merya ∧ (markReseed g s).prot = s.prot ∧
    (markReseed g s).mem = s.mem ∧ (markReseed g s).stored = s.stored ∧ (markReseed g s).patrol = s.patrol ∧
    (markReseed g s).trk = s.trk ∧ (markReseed g s).hut = s.hut ∧ (markReseed g s).alarm = s.alarm ∧ (markReseed g
    s).card = s.card ∧ (markReseed g s).evts = s.evts ∧ (markReseed g s).tel = s.tel ∧ (markReseed g s).pending =
    s.pending := by
  simp only [markReseed, State.ite_parts .., ite_self, and_self, implies_true]

theorem confirmRestart_frame (s : State) :
    (confirmRestart s).now = s.now ∧ (confirmRestart s).free = s.free ∧ (confirmRestart s).life = s.life ∧
    (confirmRestart s).gate = s.gate ∧ (confirmRestart s).rings = s.rings ∧ (confirmRestart s).units = s.units ∧
    (confirmRestart s).curves = s.curves ∧ (confirmRestart s).sess = s.sess ∧ (confirmRestart s).vault = s.vault ∧
    (confirmRestart s).ctrs = s.ctrs ∧ (confirmRestart s).merya = s.merya ∧ (confirmRestart s).prot = s.prot ∧
    (confirmRestart s).mem = s.mem ∧ (confirmRestart s).stored = s.stored ∧ (confirmRestart s).patrol = s.patrol ∧
    (confirmRestart s).hut = s.hut ∧ (confirmRestart s).alarm = s.alarm ∧ (confirmRestart s).card = s.card ∧
    (confirmRestart s).tel = s.tel ∧ (confirmRestart s).pending = s.pending := by
  simp only [confirmRestart, State.ite_parts .., ite_self, and_self, implies_true, setPwdEvt_frame .., trkRequest_frame ..]

theorem seedIfDone_frame (s : State) :
    (seedIfDone s).now = s.now ∧ (seedIfDone s).free = s.free ∧ (seedIfDone s).life = s.life ∧ (seedIfDone s).gate =
    s.gate ∧ (seedIfDone s).rings = s.rings ∧ (seedIfDone s).units = s.units ∧ (seedIfDone s).curves = s.curves ∧
    (seedIfDone s).sess = s.sess ∧ (seedIfDone s).vault = s.vault ∧ (seedIfDone s).ctrs = s.ctrs ∧ (seedIfDone
    s).prot = s.prot ∧ (seedIfDone s).mem = s.mem ∧ (seedIfDone s).stored = s.stored ∧ (seedIfDone s).patrol =
    s.patrol ∧ (seedIfDone s).trk = s.trk ∧ (seedIfDone s).hut = s.hut ∧ (seedIfDone s).alarm = s.alarm ∧
    (seedIfDone s).card = s.card ∧ (seedIfDone s).tel = s.tel ∧ (seedIfDone s).pending = s.pending := by
  simp only [seedIfDone, State.ite_parts .., ite_self, and_self, implies_true, firstSeed_frame ..]

theorem groomerLost_frame (s : State) :
    (groomerLost s).now = s.now ∧ (groomerLost s).free = s.free ∧ (groomerLost s).life = s.life ∧ (groomerLost s).gate =
    s.gate ∧ (groomerLost s).rings = s.rings ∧ (groomerLost s).units = s.units ∧ (groomerLost s).curves = s.curves ∧
    (groomerLost s).sess = s.sess ∧ (groomerLost s).vault = s.vault ∧ (groomerLost s).ctrs = s.ctrs ∧ (groomerLost
    s).prot = s.prot ∧ (groomerLost s).mem = s.mem ∧ (groomerLost s).stored = s.stored ∧ (groomerLost s).patrol =
    s.patrol ∧ (groomerLost s).trk = s.trk ∧ (groomerLost s).hut = s.hut ∧ (groomerLost s).alarm = s.alarm ∧
    (groomerLost s).card = s.card ∧ (groomerLost s).tel = s.tel ∧ (groomerLost s).pending = s.pending := by
  simp only [groomerLost, State.ite_parts .., ite_self, and_self, implies_true, resumeLoads_frame .., seedIfDone_frame ..]

theorem dropProvisioningKey_frame (s : State) :
    (dropProvisioningKey s).now = s.now ∧ (dropProvisioningKey s).free = s.free ∧ (dropProvisioningKey s).link = s.link
    ∧ (dropProvisioningKey s).gate = s.gate ∧ (dropProvisioningKey s).rings = s.rings ∧ (dropProvisioningKey
    s).units = s.units ∧ (dropProvisioningKey s).curves = s.curves ∧ (dropProvisioningKey s).sess = s.sess ∧
    (dropProvisioningKey s).ctrs = s.ctrs ∧ (dropProvisioningKey s).powder = s.powder ∧ (dropProvisioningKey
    s).merya = s.merya ∧ (dropProvisioningKey s).prot = s.prot ∧ (dropProvisioningKey s).mem = s.mem ∧
    (dropProvisioningKey s).stored = s.stored ∧ (dropProvisioningKey s).patrol = s.patrol ∧ (dropProvisioningKey
    s).trk = s.trk ∧ (dropProvisioningKey s).hut = s.hut ∧ (dropProvisioningKey s).alarm = s.alarm ∧
    (dropProvisioningKey s).card = s.card ∧ (dropProvisioningKey s).evts = s.evts ∧ (dropProvisioningKey s).tel =
    s.tel ∧ (dropProvisioningKey s).pending = s.pending := by
  simp only [dropProvisioningKey, State.ite_parts .., ite_self, and_self, implies_true]

theorem writeTest_frame (v : Word) (s : State) :
    (writeTest v s).now = s.now ∧ (writeTest v s).free = s.free ∧ (writeTest v s).gate = s.gate ∧ (writeTest v s).rings
    = s.rings ∧ (writeTest v s).units = s.units ∧ (writeTest v s).curves = s.curves ∧ (writeTest v s).sess = s.sess
    ∧ (writeTest v s).ctrs = s.ctrs ∧ (writeTest v s).merya = s.merya ∧ (writeTest v s).prot = s.prot ∧ (writeTest v
    s).mem = s.mem ∧ (writeTest v s).stored = s.stored ∧ (writeTest v s).patrol = s.patrol ∧ (writeTest v s).trk =
    s.trk ∧ (writeTest v s).hut = s.hut ∧ (writeTest v s).alarm = s.alarm ∧ (writeTest v s).card = s.card ∧
    (writeTest v s).tel = s.tel ∧ (writeTest v s).pending = s.pending := by
  simp only [writeTest, State.ite_parts .., ite_self, and_self, implies_true, restartPowder_frame ..,
    dropProvisioningKey_frame ..]

theorem readRaw_frame (sample : Word) (s : State) :
    (readRaw sample s).now = s.now ∧ (readRaw sample s).free = s.free ∧ (readRaw sample s).life = s.life ∧ (readRaw
    sample s).gate = s.gate ∧ (readRaw sample s).rings = s.rings ∧ (readRaw sample s).units = s.units ∧ (readRaw
    sample s).curves = s.curves ∧ (readRaw sample s).sess = s.sess ∧ (readRaw sample s).vault = s.vault ∧ (readRaw
    sample s).ctrs = s.ctrs ∧ (readRaw sample s).merya = s.merya ∧ (readRaw sample s).prot = s.prot ∧ (readRaw
    sample s).mem = s.mem ∧ (readRaw sample s).stored = s.stored ∧ (readRaw sample s).patrol = s.patrol ∧ (readRaw
    sample s).trk = s.trk ∧ (readRaw sample s).hut = s.hut ∧ (readRaw sample s).alarm = s.alarm ∧ (readRaw sample
    s).card = s.card ∧ (readRaw sample s).evts = s.evts ∧ (readRaw sample s).tel = s.tel ∧ (readRaw sample
    s).pending = s.pending := by
  simp only [readRaw, State.ite_parts .., ite_self, and_self, implies_true]

theorem windowDone_frame (ones : List Nat) (maxRun : List Nat) (s : State) :
    (windowDone ones maxRun s).now = s.now ∧ (windowDone ones maxRun s).life = s.life ∧ (windowDone ones maxRun
    s).curves = s.curves ∧ (windowDone ones maxRun s).sess = s.sess ∧ (windowDone ones maxRun s).ctrs = s.ctrs ∧
    (windowDone ones maxRun s).hut = s.hut ∧ (windowDone ones maxRun s).alarm = s.alarm ∧ (windowDone ones maxRun
    s).card = s.card ∧ (windowDone ones maxRun s).tel = s.tel ∧ (windowDone ones maxRun s).pending = s.pending := by
  unfold windowDone
  (try dsimp only)
  split
  · simp only [and_self]
  · split
    · split
      · simp only [and_self]
      · split
        · rename_i h
          have h1 := congrArg Prod.fst h
          dsimp only at h1
          simp only [healthFails_frame .., ← h1, feedPattern_frame .., and_self]
        · rename_i h
          have h1 := congrArg Prod.fst h
          dsimp only at h1
          simp only [← h1, feedPattern_frame .., and_self]
    · simp only [and_self]

theorem instantiate_frame (g : Nat) (b0 : Bytes) (b1 : Bytes) (s : State) :
    (instantiate g b0 b1 s).now = s.now ∧ (instantiate g b0 b1 s).free = s.free ∧ (instantiate g b0 b1 s).life = s.life
    ∧ (instantiate g b0 b1 s).link = s.link ∧ (instantiate g b0 b1 s).gate = s.gate ∧ (instantiate g b0 b1 s).rings
    = s.rings ∧ (instantiate g b0 b1 s).units = s.units ∧ (instantiate g b0 b1 s).curves = s.curves ∧ (instantiate g
    b0 b1 s).sess = s.sess ∧ (instantiate g b0 b1 s).vault = s.vault ∧ (instantiate g b0 b1 s).ctrs = s.ctrs ∧
    (instantiate g b0 b1 s).merya = s.merya ∧ (instantiate g b0 b1 s).prot = s.prot ∧ (instantiate g b0 b1 s).mem =
    s.mem ∧ (instantiate g b0 b1 s).stored = s.stored ∧ (instantiate g b0 b1 s).patrol = s.patrol ∧ (instantiate g
    b0 b1 s).trk = s.trk ∧ (instantiate g b0 b1 s).hut = s.hut ∧ (instantiate g b0 b1 s).alarm = s.alarm ∧
    (instantiate g b0 b1 s).card = s.card ∧ (instantiate g b0 b1 s).evts = s.evts ∧ (instantiate g b0 b1 s).tel =
    s.tel ∧ (instantiate g b0 b1 s).pending = s.pending := by
  simp only [instantiate, State.ite_parts .., ite_self, and_self, implies_true]

theorem groomerSeeded_frame (g : Nat) (s : State) :
    (groomerSeeded g s).now = s.now ∧ (groomerSeeded g s).free = s.free ∧ (groomerSeeded g s).life = s.life ∧
    (groomerSeeded g s).gate = s.gate ∧ (groomerSeeded g s).rings = s.rings ∧ (groomerSeeded g s).units = s.units ∧
    (groomerSeeded g s).curves = s.curves ∧ (groomerSeeded g s).sess = s.sess ∧ (groomerSeeded g s).vault = s.vault
    ∧ (groomerSeeded g s).ctrs = s.ctrs ∧ (groomerSeeded g s).prot = s.prot ∧ (groomerSeeded g s).mem = s.mem ∧
    (groomerSeeded g s).stored = s.stored ∧ (groomerSeeded g s).patrol = s.patrol ∧ (groomerSeeded g s).trk = s.trk
    ∧ (groomerSeeded g s).hut = s.hut ∧ (groomerSeeded g s).alarm = s.alarm ∧ (groomerSeeded g s).card = s.card ∧
    (groomerSeeded g s).tel = s.tel ∧ (groomerSeeded g s).pending = s.pending := by
  simp only [groomerSeeded]
  split
  · simp only [and_self]
  · split
    · simp only [and_self]
    · rename_i h; have := takeBlocks_frame h; simp only [seedIfDone_frame .., instantiate_frame .., this, and_self]

theorem conditioned_frame (raw : Bytes) (s : State) :
    (conditioned raw s).now = s.now ∧ (conditioned raw s).life = s.life ∧ (conditioned raw s).curves = s.curves ∧
    (conditioned raw s).sess = s.sess ∧ (conditioned raw s).ctrs = s.ctrs ∧ (conditioned raw s).hut = s.hut ∧
    (conditioned raw s).alarm = s.alarm ∧ (conditioned raw s).card = s.card ∧ (conditioned raw s).tel = s.tel ∧
    (conditioned raw s).pending = s.pending := by
  unfold conditioned
  (try dsimp only)
  split
  · simp only [and_self]
  · split
    · split
      · simp only [and_self]
      · split
        · rename_i h
          have h1 := congrArg Prod.fst h
          dsimp only at h1
          simp only [healthFails_frame .., ← h1, feedPattern_frame .., and_self]
        · rename_i h
          have h1 := congrArg Prod.fst h
          dsimp only at h1
          simp only [← h1, feedPattern_frame .., and_self]
    · simp only [and_self]

theorem writeTestData_frame (v : Word) (s : State) :
    (writeTestData v s).now = s.now ∧ (writeTestData v s).free = s.free ∧ (writeTestData v s).life = s.life ∧
    (writeTestData v s).link = s.link ∧ (writeTestData v s).gate = s.gate ∧ (writeTestData v s).rings = s.rings ∧
    (writeTestData v s).units = s.units ∧ (writeTestData v s).curves = s.curves ∧ (writeTestData v s).sess = s.sess
    ∧ (writeTestData v s).vault = s.vault ∧ (writeTestData v s).ctrs = s.ctrs ∧ (writeTestData v s).merya = s.merya
    ∧ (writeTestData v s).prot = s.prot ∧ (writeTestData v s).mem = s.mem ∧ (writeTestData v s).stored = s.stored ∧
    (writeTestData v s).patrol = s.patrol ∧ (writeTestData v s).trk = s.trk ∧ (writeTestData v s).hut = s.hut ∧
    (writeTestData v s).alarm = s.alarm ∧ (writeTestData v s).card = s.card ∧ (writeTestData v s).evts = s.evts ∧
    (writeTestData v s).tel = s.tel ∧ (writeTestData v s).pending = s.pending := by
  simp only [writeTestData, State.ite_parts .., ite_self, and_self, implies_true]

theorem forceReseed_frame (g : Nat) (s : State) :
    (forceReseed g s).now = s.now ∧ (forceReseed g s).free = s.free ∧ (forceReseed g s).life = s.life ∧ (forceReseed g
    s).gate = s.gate ∧ (forceReseed g s).rings = s.rings ∧ (forceReseed g s).units = s.units ∧ (forceReseed g
    s).curves = s.curves ∧ (forceReseed g s).sess = s.sess ∧ (forceReseed g s).vault = s.vault ∧ (forceReseed g
    s).ctrs = s.ctrs ∧ (forceReseed g s).merya = s.merya ∧ (forceReseed g s).prot = s.prot ∧ (forceReseed g s).mem =
    s.mem ∧ (forceReseed g s).stored = s.stored ∧ (forceReseed g s).patrol = s.patrol ∧ (forceReseed g s).trk =
    s.trk ∧ (forceReseed g s).hut = s.hut ∧ (forceReseed g s).alarm = s.alarm ∧ (forceReseed g s).card = s.card ∧
    (forceReseed g s).tel = s.tel ∧ (forceReseed g s).pending = s.pending := by
  simp only [forceReseed, State.ite_parts .., ite_self, and_self, implies_true, setGrmEvt_frame ..]

theorem groomerDraws_frame (g : Nat) (s0 : State) :
    (groomerDraws g s0).now = s0.now ∧ (groomerDraws g s0).life = s0.life ∧ (groomerDraws g s0).gate = s0.gate ∧
    (groomerDraws g s0).curves = s0.curves ∧ (groomerDraws g s0).sess = s0.sess ∧ (groomerDraws g s0).ctrs = s0.ctrs
    ∧ (groomerDraws g s0).patrol = s0.patrol ∧ (groomerDraws g s0).hut = s0.hut ∧ (groomerDraws g s0).alarm =
    s0.alarm ∧ (groomerDraws g s0).card = s0.card ∧ (groomerDraws g s0).tel = s0.tel ∧ (groomerDraws g s0).pending =
    s0.pending := by
  unfold groomerDraws
  have hp := placeRefills_frame s0
  generalize placeRefills s0 = s at hp
  dsimp only
  split
  · split <;> simp only [drawRefill_frame .., drawDone_frame .., hp, and_self]
  · simp only [drawRefill_frame .., hp, and_self]
  · simp only [drawDone_frame .., hp, and_self]

theorem trimAtLimit_frame (cell : Nat) (s : State) :
    (trimAtLimit cell s).now = s.now ∧ (trimAtLimit cell s).free = s.free ∧ (trimAtLimit cell s).life = s.life ∧
    (trimAtLimit cell s).gate = s.gate ∧ (trimAtLimit cell s).rings = s.rings ∧ (trimAtLimit cell s).units = s.units
    ∧ (trimAtLimit cell s).curves = s.curves ∧ (trimAtLimit cell s).sess = s.sess ∧ (trimAtLimit cell s).vault =
    s.vault ∧ (trimAtLimit cell s).ctrs = s.ctrs ∧ (trimAtLimit cell s).merya = s.merya ∧ (trimAtLimit cell s).prot
    = s.prot ∧ (trimAtLimit cell s).mem = s.mem ∧ (trimAtLimit cell s).stored = s.stored ∧ (trimAtLimit cell
    s).patrol = s.patrol ∧ (trimAtLimit cell s).trk = s.trk ∧ (trimAtLimit cell s).hut = s.hut ∧ (trimAtLimit cell
    s).alarm = s.alarm ∧ (trimAtLimit cell s).card = s.card ∧ (trimAtLimit cell s).tel = s.tel ∧ (trimAtLimit cell
    s).pending = s.pending := by
  simp only [trimAtLimit, State.ite_parts .., ite_self, and_self, implies_true, setPwdEvt_frame ..]

theorem reseeded_frame (g : Nat) (s : State) :
    (reseeded g s).now = s.now ∧ (reseeded g s).free = s.free ∧ (reseeded g s).life = s.life ∧ (reseeded g s).link =
    s.link ∧ (reseeded g s).gate = s.gate ∧ (reseeded g s).rings = s.rings ∧ (reseeded g s).units = s.units ∧
    (reseeded g s).curves = s.curves ∧ (reseeded g s).sess = s.sess ∧ (reseeded g s).vault = s.vault ∧ (reseeded g
    s).ctrs = s.ctrs ∧ (reseeded g s).prot = s.prot ∧ (reseeded g s).mem = s.mem ∧ (reseeded g s).stored = s.stored
    ∧ (reseeded g s).patrol = s.patrol ∧ (reseeded g s).trk = s.trk ∧ (reseeded g s).hut = s.hut ∧ (reseeded g
    s).alarm = s.alarm ∧ (reseeded g s).card = s.card ∧ (reseeded g s).evts = s.evts ∧ (reseeded g s).tel = s.tel ∧
    (reseeded g s).pending = s.pending := by
  simp only [reseeded]
  split
  · simp only [and_self]
  · split
    · simp only [and_self]
    · rename_i h; have := takeBlocks_frame h; simp only [resumeLoads_frame .., this, and_self]

theorem healthFailed_frame (cell : Nat) (t : HealthTest) (s : State) :
    (healthFailed cell t s).now = s.now ∧ (healthFailed cell t s).life = s.life ∧ (healthFailed cell t s).curves =
    s.curves ∧ (healthFailed cell t s).sess = s.sess ∧ (healthFailed cell t s).ctrs = s.ctrs ∧ (healthFailed cell t
    s).hut = s.hut ∧ (healthFailed cell t s).alarm = s.alarm ∧ (healthFailed cell t s).card = s.card ∧ (healthFailed
    cell t s).tel = s.tel ∧ (healthFailed cell t s).pending = s.pending := by
  unfold healthFailed
  dsimp only
  split
  · split
    · simp only [and_self]
    · split
      · rename_i h
        have h1 := congrArg Prod.fst h
        dsimp only at h1
        simp only [healthFails_frame .., ← h1, feedPattern_frame .., and_self]
      · simp only [and_self]
  · split <;> simp only [healthFails_frame .., and_self]

/-! ### Vault.lean -/

theorem setVSlot_frame (r : SlotRef) (v : VSlot) (s : State) :
    (setVSlot r v s).now = s.now ∧ (setVSlot r v s).free = s.free ∧ (setVSlot r v s).life = s.life ∧ (setVSlot r v
    s).link = s.link ∧ (setVSlot r v s).gate = s.gate ∧ (setVSlot r v s).rings = s.rings ∧ (setVSlot r v s).units =
    s.units ∧ (setVSlot r v s).curves = s.curves ∧ (setVSlot r v s).sess = s.sess ∧ (setVSlot r v s).ctrs = s.ctrs ∧
    (setVSlot r v s).powder = s.powder ∧ (setVSlot r v s).merya = s.merya ∧ (setVSlot r v s).prot = s.prot ∧
    (setVSlot r v s).mem = s.mem ∧ (setVSlot r v s).stored = s.stored ∧ (setVSlot r v s).patrol = s.patrol ∧
    (setVSlot r v s).trk = s.trk ∧ (setVSlot r v s).hut = s.hut ∧ (setVSlot r v s).alarm = s.alarm ∧ (setVSlot r v
    s).card = s.card ∧ (setVSlot r v s).evts = s.evts ∧ (setVSlot r v s).tel = s.tel ∧ (setVSlot r v s).pending =
    s.pending := by
  simp only [setVSlot, State.ite_parts .., ite_self, and_self, implies_true]

theorem revokeJob_frame (j : Job) (s : State) :
    (revokeJob j s).now = s.now ∧ (revokeJob j s).free = s.free ∧ (revokeJob j s).life = s.life ∧ (revokeJob j s).link =
    s.link ∧ (revokeJob j s).gate = s.gate ∧ (revokeJob j s).curves = s.curves ∧ (revokeJob j s).sess = s.sess ∧
    (revokeJob j s).ctrs = s.ctrs ∧ (revokeJob j s).powder = s.powder ∧ (revokeJob j s).merya = s.merya ∧ (revokeJob
    j s).prot = s.prot ∧ (revokeJob j s).mem = s.mem ∧ (revokeJob j s).patrol = s.patrol ∧ (revokeJob j s).hut =
    s.hut ∧ (revokeJob j s).alarm = s.alarm ∧ (revokeJob j s).card = s.card ∧ (revokeJob j s).evts = s.evts ∧
    (revokeJob j s).tel = s.tel ∧ (revokeJob j s).pending = s.pending := by
  unfold revokeJob
  simp only [State.ite_parts .., ite_self, and_self, implies_true, finishJob_frame .., modJob_frame ..]

theorem revokeHolders_frame (s : State) :
    (revokeHolders s).now = s.now ∧ (revokeHolders s).free = s.free ∧ (revokeHolders s).life = s.life ∧ (revokeHolders
    s).link = s.link ∧ (revokeHolders s).gate = s.gate ∧ (revokeHolders s).curves = s.curves ∧ (revokeHolders
    s).sess = s.sess ∧ (revokeHolders s).ctrs = s.ctrs ∧ (revokeHolders s).powder = s.powder ∧ (revokeHolders
    s).merya = s.merya ∧ (revokeHolders s).prot = s.prot ∧ (revokeHolders s).mem = s.mem ∧ (revokeHolders s).patrol
    = s.patrol ∧ (revokeHolders s).hut = s.hut ∧ (revokeHolders s).alarm = s.alarm ∧ (revokeHolders s).card = s.card
    ∧ (revokeHolders s).evts = s.evts ∧ (revokeHolders s).tel = s.tel ∧ (revokeHolders s).pending = s.pending := by
  simp only [revokeHolders, State.ite_parts .., ite_self, and_self, implies_true, foldl_now, foldl_free, foldl_life,
    foldl_link, foldl_gate, foldl_curves, foldl_sess, foldl_ctrs, foldl_powder, foldl_merya, foldl_prot, foldl_mem,
    foldl_patrol, foldl_hut, foldl_alarm, foldl_card, foldl_evts, foldl_tel, foldl_pending, revokeJob_frame ..]

theorem writeSlot_frame (r : SlotRef) (revoke : Bool) (key : Bytes) (kek : Bool) (kind : BitVec 16) (digest : Bytes)
    (s : State) :
    (writeSlot r revoke key kek kind digest s).now = s.now ∧ (writeSlot r revoke key kek kind digest s).free = s.free ∧
    (writeSlot r revoke key kek kind digest s).life = s.life ∧ (writeSlot r revoke key kek kind digest s).gate =
    s.gate ∧ (writeSlot r revoke key kek kind digest s).curves = s.curves ∧ (writeSlot r revoke key kek kind digest
    s).sess = s.sess ∧ (writeSlot r revoke key kek kind digest s).ctrs = s.ctrs ∧ (writeSlot r revoke key kek kind
    digest s).powder = s.powder ∧ (writeSlot r revoke key kek kind digest s).merya = s.merya ∧ (writeSlot r revoke
    key kek kind digest s).prot = s.prot ∧ (writeSlot r revoke key kek kind digest s).mem = s.mem ∧ (writeSlot r
    revoke key kek kind digest s).patrol = s.patrol ∧ (writeSlot r revoke key kek kind digest s).hut = s.hut ∧
    (writeSlot r revoke key kek kind digest s).alarm = s.alarm ∧ (writeSlot r revoke key kek kind digest s).card =
    s.card ∧ (writeSlot r revoke key kek kind digest s).tel = s.tel ∧ (writeSlot r revoke key kek kind digest
    s).pending = s.pending := by
  simp only [writeSlot, State.ite_parts .., ite_self, and_self, implies_true, writeCell_frame .., setVSlot_frame .., noteGenLimit_frame ..,
    revokeHolders_frame ..]

theorem eraseSlot_frame (r : SlotRef) (revoke : Bool) (s : State) :
    (eraseSlot r revoke s).now = s.now ∧ (eraseSlot r revoke s).free = s.free ∧ (eraseSlot r revoke s).life = s.life ∧
    (eraseSlot r revoke s).link = s.link ∧ (eraseSlot r revoke s).gate = s.gate ∧ (eraseSlot r revoke s).curves =
    s.curves ∧ (eraseSlot r revoke s).sess = s.sess ∧ (eraseSlot r revoke s).ctrs = s.ctrs ∧ (eraseSlot r revoke
    s).powder = s.powder ∧ (eraseSlot r revoke s).merya = s.merya ∧ (eraseSlot r revoke s).prot = s.prot ∧
    (eraseSlot r revoke s).mem = s.mem ∧ (eraseSlot r revoke s).patrol = s.patrol ∧ (eraseSlot r revoke s).hut =
    s.hut ∧ (eraseSlot r revoke s).alarm = s.alarm ∧ (eraseSlot r revoke s).card = s.card ∧ (eraseSlot r revoke
    s).evts = s.evts ∧ (eraseSlot r revoke s).tel = s.tel ∧ (eraseSlot r revoke s).pending = s.pending := by
  simp only [eraseSlot, State.ite_parts .., ite_self, and_self, implies_true, setVSlot_frame .., revokeHolders_frame ..]

theorem modVSlot_frame (r : SlotRef) (f : VSlot → VSlot) (s : State) :
    (modVSlot r f s).now = s.now ∧ (modVSlot r f s).free = s.free ∧ (modVSlot r f s).life = s.life ∧ (modVSlot r f
    s).link = s.link ∧ (modVSlot r f s).gate = s.gate ∧ (modVSlot r f s).rings = s.rings ∧ (modVSlot r f s).units =
    s.units ∧ (modVSlot r f s).curves = s.curves ∧ (modVSlot r f s).sess = s.sess ∧ (modVSlot r f s).ctrs = s.ctrs ∧
    (modVSlot r f s).powder = s.powder ∧ (modVSlot r f s).merya = s.merya ∧ (modVSlot r f s).prot = s.prot ∧
    (modVSlot r f s).mem = s.mem ∧ (modVSlot r f s).stored = s.stored ∧ (modVSlot r f s).patrol = s.patrol ∧
    (modVSlot r f s).trk = s.trk ∧ (modVSlot r f s).hut = s.hut ∧ (modVSlot r f s).alarm = s.alarm ∧ (modVSlot r f
    s).card = s.card ∧ (modVSlot r f s).evts = s.evts ∧ (modVSlot r f s).tel = s.tel ∧ (modVSlot r f s).pending =
    s.pending := by
  simp only [modVSlot, State.ite_parts .., ite_self, and_self, implies_true, setVSlot_frame ..]

theorem eraseCell_frame (r : SlotRef) (gen : Nat) (s : State) :
    (eraseCell r gen s).now = s.now ∧ (eraseCell r gen s).free = s.free ∧ (eraseCell r gen s).life = s.life ∧
    (eraseCell r gen s).gate = s.gate ∧ (eraseCell r gen s).rings = s.rings ∧ (eraseCell r gen s).units = s.units ∧
    (eraseCell r gen s).curves = s.curves ∧ (eraseCell r gen s).sess = s.sess ∧ (eraseCell r gen s).ctrs = s.ctrs ∧
    (eraseCell r gen s).powder = s.powder ∧ (eraseCell r gen s).merya = s.merya ∧ (eraseCell r gen s).prot = s.prot
    ∧ (eraseCell r gen s).mem = s.mem ∧ (eraseCell r gen s).patrol = s.patrol ∧ (eraseCell r gen s).hut = s.hut ∧
    (eraseCell r gen s).alarm = s.alarm ∧ (eraseCell r gen s).card = s.card ∧ (eraseCell r gen s).tel = s.tel ∧
    (eraseCell r gen s).pending = s.pending := by
  unfold eraseCell
  (repeat' split) <;> simp only [State.ite_parts .., ite_self, and_self, implies_true, writeCell_frame .., trkRequest_frame .., setVltEvt_frame .., modVSlot_frame ..]

theorem eraseIdle_frame (r : SlotRef) (s : State) :
    (eraseIdle r s).now = s.now ∧ (eraseIdle r s).free = s.free ∧ (eraseIdle r s).life = s.life ∧ (eraseIdle r
    s).gate = s.gate ∧ (eraseIdle r s).rings = s.rings ∧ (eraseIdle r s).units = s.units ∧ (eraseIdle r s).curves =
    s.curves ∧ (eraseIdle r s).sess = s.sess ∧ (eraseIdle r s).ctrs = s.ctrs ∧ (eraseIdle r s).powder = s.powder ∧
    (eraseIdle r s).merya = s.merya ∧ (eraseIdle r s).prot = s.prot ∧ (eraseIdle r s).mem = s.mem ∧ (eraseIdle r
    s).patrol = s.patrol ∧ (eraseIdle r s).hut = s.hut ∧ (eraseIdle r s).alarm = s.alarm ∧ (eraseIdle r s).card =
    s.card ∧ (eraseIdle r s).tel = s.tel ∧ (eraseIdle r s).pending = s.pending := by
  simp only [eraseIdle, State.ite_parts .., ite_self, and_self, implies_true, foldl_now, foldl_free, foldl_life,
    foldl_gate, foldl_rings, foldl_units, foldl_curves, foldl_sess, foldl_ctrs, foldl_powder, foldl_merya,
    foldl_prot, foldl_mem, foldl_patrol, foldl_hut, foldl_alarm, foldl_card, foldl_tel, foldl_pending,
    eraseCell_frame ..]

theorem latchVault_frame (s : State) :
    (latchVault s).now = s.now ∧ (latchVault s).free = s.free ∧ (latchVault s).life = s.life ∧ (latchVault s).link =
    s.link ∧ (latchVault s).gate = s.gate ∧ (latchVault s).rings = s.rings ∧ (latchVault s).units = s.units ∧
    (latchVault s).curves = s.curves ∧ (latchVault s).sess = s.sess ∧ (latchVault s).ctrs = s.ctrs ∧ (latchVault
    s).powder = s.powder ∧ (latchVault s).merya = s.merya ∧ (latchVault s).prot = s.prot ∧ (latchVault s).mem =
    s.mem ∧ (latchVault s).stored = s.stored ∧ (latchVault s).patrol = s.patrol ∧ (latchVault s).trk = s.trk ∧
    (latchVault s).hut = s.hut ∧ (latchVault s).alarm = s.alarm ∧ (latchVault s).card = s.card ∧ (latchVault s).evts
    = s.evts ∧ (latchVault s).tel = s.tel ∧ (latchVault s).pending = s.pending := by
  simp only [latchVault, State.ite_parts .., ite_self, and_self, implies_true]

/-! ### Debug.lean -/

theorem openDebug_frame (minutes : Nat) (s : State) :
    (openDebug minutes s).now = s.now ∧ (openDebug minutes s).free = s.free ∧ (openDebug minutes s).life = s.life ∧
    (openDebug minutes s).gate = s.gate ∧ (openDebug minutes s).rings = s.rings ∧ (openDebug minutes s).units =
    s.units ∧ (openDebug minutes s).curves = s.curves ∧ (openDebug minutes s).sess = s.sess ∧ (openDebug minutes
    s).vault = s.vault ∧ (openDebug minutes s).ctrs = s.ctrs ∧ (openDebug minutes s).powder = s.powder ∧ (openDebug
    minutes s).merya = s.merya ∧ (openDebug minutes s).mem = s.mem ∧ (openDebug minutes s).stored = s.stored ∧
    (openDebug minutes s).patrol = s.patrol ∧ (openDebug minutes s).trk = s.trk ∧ (openDebug minutes s).hut = s.hut
    ∧ (openDebug minutes s).alarm = s.alarm ∧ (openDebug minutes s).card = s.card ∧ (openDebug minutes s).tel =
    s.tel ∧ (openDebug minutes s).pending = s.pending := by
  simp only [openDebug, State.ite_parts .., ite_self, and_self, implies_true, setPuEvt_frame ..]

theorem setDebugReg_frame (write : Bool) (err : Bool) (a : Word) (data : Word) (s : State) :
    (setDebugReg write err a data s).now = s.now ∧ (setDebugReg write err a data s).free = s.free ∧ (setDebugReg write
    err a data s).life = s.life ∧ (setDebugReg write err a data s).link = s.link ∧ (setDebugReg write err a data
    s).gate = s.gate ∧ (setDebugReg write err a data s).rings = s.rings ∧ (setDebugReg write err a data s).units =
    s.units ∧ (setDebugReg write err a data s).curves = s.curves ∧ (setDebugReg write err a data s).sess = s.sess ∧
    (setDebugReg write err a data s).vault = s.vault ∧ (setDebugReg write err a data s).ctrs = s.ctrs ∧ (setDebugReg
    write err a data s).powder = s.powder ∧ (setDebugReg write err a data s).merya = s.merya ∧ (setDebugReg write
    err a data s).mem = s.mem ∧ (setDebugReg write err a data s).stored = s.stored ∧ (setDebugReg write err a data
    s).patrol = s.patrol ∧ (setDebugReg write err a data s).trk = s.trk ∧ (setDebugReg write err a data s).hut =
    s.hut ∧ (setDebugReg write err a data s).alarm = s.alarm ∧ (setDebugReg write err a data s).card = s.card ∧
    (setDebugReg write err a data s).evts = s.evts ∧ (setDebugReg write err a data s).tel = s.tel ∧ (setDebugReg
    write err a data s).pending = s.pending := by
  simp only [setDebugReg, State.ite_parts .., ite_self, and_self, implies_true]

theorem resumeHeld_frame (keep : Nat → Bool) (s : State) :
    (resumeHeld keep s).now = s.now ∧ (resumeHeld keep s).free = s.free ∧ (resumeHeld keep s).life = s.life ∧
    (resumeHeld keep s).link = s.link ∧ (resumeHeld keep s).gate = s.gate ∧ (resumeHeld keep s).rings = s.rings ∧
    (resumeHeld keep s).units = s.units ∧ (resumeHeld keep s).curves = s.curves ∧ (resumeHeld keep s).sess = s.sess
    ∧ (resumeHeld keep s).vault = s.vault ∧ (resumeHeld keep s).ctrs = s.ctrs ∧ (resumeHeld keep s).powder =
    s.powder ∧ (resumeHeld keep s).prot = s.prot ∧ (resumeHeld keep s).mem = s.mem ∧ (resumeHeld keep s).stored =
    s.stored ∧ (resumeHeld keep s).patrol = s.patrol ∧ (resumeHeld keep s).trk = s.trk ∧ (resumeHeld keep s).hut =
    s.hut ∧ (resumeHeld keep s).alarm = s.alarm ∧ (resumeHeld keep s).card = s.card ∧ (resumeHeld keep s).evts =
    s.evts ∧ (resumeHeld keep s).tel = s.tel ∧ (resumeHeld keep s).pending = s.pending := by
  simp only [resumeHeld, State.ite_parts .., ite_self, and_self, implies_true, foldl_now, foldl_free, foldl_life,
    foldl_link, foldl_gate, foldl_rings, foldl_units, foldl_curves, foldl_sess, foldl_vault, foldl_ctrs,
    foldl_powder, foldl_prot, foldl_mem, foldl_stored, foldl_patrol, foldl_trk, foldl_hut, foldl_alarm, foldl_card,
    foldl_evts, foldl_tel, foldl_pending, modCore_frame .., modApplet_frame ..]

theorem noteDrain_frame (inFlight : Bool) (s : State) :
    (noteDrain inFlight s).now = s.now ∧ (noteDrain inFlight s).free = s.free ∧ (noteDrain inFlight s).life = s.life ∧
    (noteDrain inFlight s).link = s.link ∧ (noteDrain inFlight s).gate = s.gate ∧ (noteDrain inFlight s).rings =
    s.rings ∧ (noteDrain inFlight s).units = s.units ∧ (noteDrain inFlight s).curves = s.curves ∧ (noteDrain
    inFlight s).sess = s.sess ∧ (noteDrain inFlight s).vault = s.vault ∧ (noteDrain inFlight s).ctrs = s.ctrs ∧
    (noteDrain inFlight s).powder = s.powder ∧ (noteDrain inFlight s).merya = s.merya ∧ (noteDrain inFlight s).mem =
    s.mem ∧ (noteDrain inFlight s).stored = s.stored ∧ (noteDrain inFlight s).patrol = s.patrol ∧ (noteDrain
    inFlight s).trk = s.trk ∧ (noteDrain inFlight s).hut = s.hut ∧ (noteDrain inFlight s).alarm = s.alarm ∧
    (noteDrain inFlight s).card = s.card ∧ (noteDrain inFlight s).evts = s.evts ∧ (noteDrain inFlight s).tel = s.tel
    ∧ (noteDrain inFlight s).pending = s.pending := by
  simp only [noteDrain, State.ite_parts .., ite_self, and_self, implies_true]

theorem drained_frame (ticks : Nat) (s : State) :
    (drained ticks s).now = s.now ∧ (drained ticks s).free = s.free ∧ (drained ticks s).life = s.life ∧ (drained ticks
    s).link = s.link ∧ (drained ticks s).gate = s.gate ∧ (drained ticks s).rings = s.rings ∧ (drained ticks s).units
    = s.units ∧ (drained ticks s).curves = s.curves ∧ (drained ticks s).sess = s.sess ∧ (drained ticks s).vault =
    s.vault ∧ (drained ticks s).ctrs = s.ctrs ∧ (drained ticks s).powder = s.powder ∧ (drained ticks s).merya =
    s.merya ∧ (drained ticks s).mem = s.mem ∧ (drained ticks s).stored = s.stored ∧ (drained ticks s).patrol =
    s.patrol ∧ (drained ticks s).trk = s.trk ∧ (drained ticks s).hut = s.hut ∧ (drained ticks s).alarm = s.alarm ∧
    (drained ticks s).card = s.card ∧ (drained ticks s).evts = s.evts ∧ (drained ticks s).tel = s.tel ∧ (drained
    ticks s).pending = s.pending := by
  unfold drained
  (repeat' split) <;> simp only [State.ite_parts .., ite_self, and_self, implies_true]

theorem entryWrite_frame (grant : Bool) (set : Nat) (e : Nat) (w0 : Word) (w1 : Word) (inFlight : Bool) (s : State)
    :
    (entryWrite grant set e w0 w1 inFlight s).now = s.now ∧ (entryWrite grant set e w0 w1 inFlight s).free = s.free ∧
    (entryWrite grant set e w0 w1 inFlight s).life = s.life ∧ (entryWrite grant set e w0 w1 inFlight s).gate =
    s.gate ∧ (entryWrite grant set e w0 w1 inFlight s).rings = s.rings ∧ (entryWrite grant set e w0 w1 inFlight
    s).units = s.units ∧ (entryWrite grant set e w0 w1 inFlight s).curves = s.curves ∧ (entryWrite grant set e w0 w1
    inFlight s).sess = s.sess ∧ (entryWrite grant set e w0 w1 inFlight s).vault = s.vault ∧ (entryWrite grant set e
    w0 w1 inFlight s).ctrs = s.ctrs ∧ (entryWrite grant set e w0 w1 inFlight s).powder = s.powder ∧ (entryWrite
    grant set e w0 w1 inFlight s).mem = s.mem ∧ (entryWrite grant set e w0 w1 inFlight s).stored = s.stored ∧
    (entryWrite grant set e w0 w1 inFlight s).patrol = s.patrol ∧ (entryWrite grant set e w0 w1 inFlight s).trk =
    s.trk ∧ (entryWrite grant set e w0 w1 inFlight s).hut = s.hut ∧ (entryWrite grant set e w0 w1 inFlight s).alarm
    = s.alarm ∧ (entryWrite grant set e w0 w1 inFlight s).card = s.card ∧ (entryWrite grant set e w0 w1 inFlight
    s).tel = s.tel ∧ (entryWrite grant set e w0 w1 inFlight s).pending = s.pending := by
  unfold entryWrite
  (repeat' split) <;> simp only [State.ite_parts .., ite_self, and_self, implies_true, noteDrain_frame .., writeEntryWords_frame ..]

theorem denyDebug_frame (a : Word) (s : State) :
    (denyDebug a s).now = s.now ∧ (denyDebug a s).free = s.free ∧ (denyDebug a s).life = s.life ∧ (denyDebug a s).gate =
    s.gate ∧ (denyDebug a s).rings = s.rings ∧ (denyDebug a s).units = s.units ∧ (denyDebug a s).curves = s.curves ∧
    (denyDebug a s).sess = s.sess ∧ (denyDebug a s).vault = s.vault ∧ (denyDebug a s).ctrs = s.ctrs ∧ (denyDebug a
    s).powder = s.powder ∧ (denyDebug a s).merya = s.merya ∧ (denyDebug a s).mem = s.mem ∧ (denyDebug a s).stored =
    s.stored ∧ (denyDebug a s).patrol = s.patrol ∧ (denyDebug a s).hut = s.hut ∧ (denyDebug a s).alarm = s.alarm ∧
    (denyDebug a s).card = s.card ∧ (denyDebug a s).tel = s.tel ∧ (denyDebug a s).pending = s.pending := by
  simp only [denyDebug, State.ite_parts .., ite_self, and_self, implies_true, trkMerge_frame .., setPuEvt_frame ..]

theorem debugStore_frame (a : Word) (data : Word) (s : State) :
    (debugStore a data s).now = s.now ∧ (debugStore a data s).life = s.life ∧ (debugStore a data s).units = s.units ∧
    (debugStore a data s).curves = s.curves ∧ (debugStore a data s).sess = s.sess ∧ (debugStore a data s).vault =
    s.vault ∧ (debugStore a data s).ctrs = s.ctrs ∧ (debugStore a data s).powder = s.powder ∧ (debugStore a data
    s).patrol = s.patrol ∧ (debugStore a data s).hut = s.hut ∧ (debugStore a data s).alarm = s.alarm ∧ (debugStore a
    data s).card = s.card ∧ (debugStore a data s).tel = s.tel ∧ (debugStore a data s).pending = s.pending := by
  simp only [debugStore, State.ite_parts .., ite_self, and_self, implies_true, resumeHeld_frame .., storeValue_frame ..]

theorem accessDebug_frame (write : Bool) (a : Word) (data : Word) (s : State) :
    (accessDebug write a data s).now = s.now ∧ (accessDebug write a data s).life = s.life ∧ (accessDebug write a data
    s).units = s.units ∧ (accessDebug write a data s).curves = s.curves ∧ (accessDebug write a data s).sess = s.sess
    ∧ (accessDebug write a data s).vault = s.vault ∧ (accessDebug write a data s).ctrs = s.ctrs ∧ (accessDebug write
    a data s).powder = s.powder ∧ (accessDebug write a data s).patrol = s.patrol ∧ (accessDebug write a data s).hut
    = s.hut ∧ (accessDebug write a data s).alarm = s.alarm ∧ (accessDebug write a data s).card = s.card ∧
    (accessDebug write a data s).tel = s.tel ∧ (accessDebug write a data s).pending = s.pending := by
  simp only [accessDebug, State.ite_parts .., ite_self, and_self, implies_true, setDebugReg_frame .., denyDebug_frame ..,
    captureFault_frame .., noteUe_frame .., correctAt_frame .., debugStore_frame ..]
  (repeat' split) <;> simp only [State.ite_parts .., ite_self, and_self, implies_true, setDebugReg_frame .., denyDebug_frame ..,
    captureFault_frame .., noteUe_frame .., correctAt_frame .., debugStore_frame ..]

theorem closeDebug_frame (s : State) :
    (closeDebug s).now = s.now ∧ (closeDebug s).free = s.free ∧ (closeDebug s).life = s.life ∧ (closeDebug s).gate =
    s.gate ∧ (closeDebug s).rings = s.rings ∧ (closeDebug s).units = s.units ∧ (closeDebug s).curves = s.curves ∧
    (closeDebug s).sess = s.sess ∧ (closeDebug s).vault = s.vault ∧ (closeDebug s).ctrs = s.ctrs ∧ (closeDebug
    s).powder = s.powder ∧ (closeDebug s).mem = s.mem ∧ (closeDebug s).stored = s.stored ∧ (closeDebug s).patrol =
    s.patrol ∧ (closeDebug s).trk = s.trk ∧ (closeDebug s).hut = s.hut ∧ (closeDebug s).alarm = s.alarm ∧
    (closeDebug s).card = s.card ∧ (closeDebug s).tel = s.tel ∧ (closeDebug s).pending = s.pending := by
  simp only [closeDebug, State.ite_parts .., ite_self, and_self, implies_true, resumeHeld_frame .., setPuEvt_frame ..]

/-! ### Patrol.lean -/

theorem endRise_frame (j : Job) (s : State) :
    (endRise j s).now = s.now ∧ (endRise j s).free = s.free ∧ (endRise j s).life = s.life ∧ (endRise j s).link = s.link
    ∧ (endRise j s).gate = s.gate ∧ (endRise j s).units = s.units ∧ (endRise j s).curves = s.curves ∧ (endRise j
    s).sess = s.sess ∧ (endRise j s).ctrs = s.ctrs ∧ (endRise j s).powder = s.powder ∧ (endRise j s).merya = s.merya
    ∧ (endRise j s).prot = s.prot ∧ (endRise j s).mem = s.mem ∧ (endRise j s).patrol = s.patrol ∧ (endRise j s).hut
    = s.hut ∧ (endRise j s).alarm = s.alarm ∧ (endRise j s).card = s.card ∧ (endRise j s).evts = s.evts ∧ (endRise j
    s).tel = s.tel ∧ (endRise j s).pending = s.pending := by
  simp only [endRise, State.ite_parts .., ite_self, and_self, implies_true, modJob_frame .., endJob_frame ..]

theorem endAtRise_frame (lvl : Machine.Level) (s : State) :
    (endAtRise lvl s).now = s.now ∧ (endAtRise lvl s).free = s.free ∧ (endAtRise lvl s).life = s.life ∧ (endAtRise lvl
    s).link = s.link ∧ (endAtRise lvl s).gate = s.gate ∧ (endAtRise lvl s).curves = s.curves ∧ (endAtRise lvl
    s).sess = s.sess ∧ (endAtRise lvl s).ctrs = s.ctrs ∧ (endAtRise lvl s).powder = s.powder ∧ (endAtRise lvl
    s).merya = s.merya ∧ (endAtRise lvl s).prot = s.prot ∧ (endAtRise lvl s).mem = s.mem ∧ (endAtRise lvl s).patrol
    = s.patrol ∧ (endAtRise lvl s).hut = s.hut ∧ (endAtRise lvl s).alarm = s.alarm ∧ (endAtRise lvl s).card = s.card
    ∧ (endAtRise lvl s).evts = s.evts ∧ (endAtRise lvl s).tel = s.tel ∧ (endAtRise lvl s).pending = s.pending := by
  simp only [endAtRise, State.ite_parts .., ite_self, and_self, implies_true, foldl_now, foldl_free, foldl_life,
    foldl_link, foldl_gate, foldl_curves, foldl_sess, foldl_ctrs, foldl_powder, foldl_merya, foldl_prot, foldl_mem,
    foldl_patrol, foldl_hut, foldl_alarm, foldl_card, foldl_evts, foldl_tel, foldl_pending, settleUnits_frame ..,
    endRise_frame ..]

theorem purgeBanks_frame (s : State) :
    (purgeBanks s).now = s.now ∧ (purgeBanks s).free = s.free ∧ (purgeBanks s).life = s.life ∧ (purgeBanks s).link =
    s.link ∧ (purgeBanks s).gate = s.gate ∧ (purgeBanks s).rings = s.rings ∧ (purgeBanks s).units = s.units ∧
    (purgeBanks s).curves = s.curves ∧ (purgeBanks s).sess = s.sess ∧ (purgeBanks s).vault = s.vault ∧ (purgeBanks
    s).ctrs = s.ctrs ∧ (purgeBanks s).powder = s.powder ∧ (purgeBanks s).merya = s.merya ∧ (purgeBanks s).prot =
    s.prot ∧ (purgeBanks s).mem = s.mem ∧ (purgeBanks s).patrol = s.patrol ∧ (purgeBanks s).trk = s.trk ∧
    (purgeBanks s).hut = s.hut ∧ (purgeBanks s).alarm = s.alarm ∧ (purgeBanks s).card = s.card ∧ (purgeBanks s).evts
    = s.evts ∧ (purgeBanks s).tel = s.tel ∧ (purgeBanks s).pending = s.pending := by
  simp only [purgeBanks, State.ite_parts .., ite_self, and_self, implies_true, foldl_now, foldl_free, foldl_life,
    foldl_link, foldl_gate, foldl_rings, foldl_units, foldl_curves, foldl_sess, foldl_vault, foldl_ctrs,
    foldl_powder, foldl_merya, foldl_prot, foldl_mem, foldl_patrol, foldl_trk, foldl_hut, foldl_alarm, foldl_card,
    foldl_evts, foldl_tel, foldl_pending, clearRange_frame ..]

theorem razeBegin_frame (s : State) :
    (razeBegin s).now = s.now ∧ (razeBegin s).free = s.free ∧ (razeBegin s).life = s.life ∧ (razeBegin s).link = s.link
    ∧ (razeBegin s).gate = s.gate ∧ (razeBegin s).rings = s.rings ∧ (razeBegin s).units = s.units ∧ (razeBegin
    s).curves = s.curves ∧ (razeBegin s).sess = s.sess ∧ (razeBegin s).ctrs = s.ctrs ∧ (razeBegin s).powder =
    s.powder ∧ (razeBegin s).merya = s.merya ∧ (razeBegin s).prot = s.prot ∧ (razeBegin s).mem = s.mem ∧ (razeBegin
    s).stored = s.stored ∧ (razeBegin s).trk = s.trk ∧ (razeBegin s).alarm = s.alarm ∧ (razeBegin s).card = s.card ∧
    (razeBegin s).evts = s.evts ∧ (razeBegin s).tel = s.tel ∧ (razeBegin s).pending = s.pending := by
  simp only [razeBegin, State.ite_parts .., ite_self, and_self, implies_true, foldl_now, foldl_free, foldl_life,
    foldl_link, foldl_gate, foldl_rings, foldl_units, foldl_curves, foldl_sess, foldl_ctrs, foldl_powder,
    foldl_merya, foldl_prot, foldl_mem, foldl_stored, foldl_trk, foldl_alarm, foldl_card, foldl_evts, foldl_tel,
    foldl_pending, modVSlot_frame ..]

theorem purgeSram_frame (s : State) :
    (purgeSram s).now = s.now ∧ (purgeSram s).free = s.free ∧ (purgeSram s).life = s.life ∧ (purgeSram s).link = s.link
    ∧ (purgeSram s).gate = s.gate ∧ (purgeSram s).rings = s.rings ∧ (purgeSram s).units = s.units ∧ (purgeSram
    s).curves = s.curves ∧ (purgeSram s).sess = s.sess ∧ (purgeSram s).vault = s.vault ∧ (purgeSram s).ctrs = s.ctrs
    ∧ (purgeSram s).powder = s.powder ∧ (purgeSram s).merya = s.merya ∧ (purgeSram s).prot = s.prot ∧ (purgeSram
    s).patrol = s.patrol ∧ (purgeSram s).trk = s.trk ∧ (purgeSram s).hut = s.hut ∧ (purgeSram s).alarm = s.alarm ∧
    (purgeSram s).card = s.card ∧ (purgeSram s).evts = s.evts ∧ (purgeSram s).tel = s.tel ∧ (purgeSram s).pending =
    s.pending := by
  simp only [purgeSram, State.ite_parts .., ite_self, and_self, implies_true, foldl_now, foldl_free, foldl_life,
    foldl_link, foldl_gate, foldl_rings, foldl_units, foldl_curves, foldl_sess, foldl_vault, foldl_ctrs,
    foldl_powder, foldl_merya, foldl_prot, foldl_patrol, foldl_trk, foldl_hut, foldl_alarm, foldl_card, foldl_evts,
    foldl_tel, foldl_pending, clearWindow_frame ..]

theorem purgeSessions_frame (s : State) :
    (purgeSessions s).now = s.now ∧ (purgeSessions s).free = s.free ∧ (purgeSessions s).life = s.life ∧ (purgeSessions
    s).link = s.link ∧ (purgeSessions s).gate = s.gate ∧ (purgeSessions s).rings = s.rings ∧ (purgeSessions s).units
    = s.units ∧ (purgeSessions s).curves = s.curves ∧ (purgeSessions s).vault = s.vault ∧ (purgeSessions s).ctrs =
    s.ctrs ∧ (purgeSessions s).powder = s.powder ∧ (purgeSessions s).merya = s.merya ∧ (purgeSessions s).prot =
    s.prot ∧ (purgeSessions s).mem = s.mem ∧ (purgeSessions s).patrol = s.patrol ∧ (purgeSessions s).trk = s.trk ∧
    (purgeSessions s).hut = s.hut ∧ (purgeSessions s).alarm = s.alarm ∧ (purgeSessions s).card = s.card ∧
    (purgeSessions s).evts = s.evts ∧ (purgeSessions s).tel = s.tel ∧ (purgeSessions s).pending = s.pending := by
  simp only [purgeSessions, State.ite_parts .., ite_self, and_self, implies_true]

theorem purgePowder_frame (s : State) :
    (purgePowder s).now = s.now ∧ (purgePowder s).free = s.free ∧ (purgePowder s).life = s.life ∧ (purgePowder s).gate =
    s.gate ∧ (purgePowder s).rings = s.rings ∧ (purgePowder s).units = s.units ∧ (purgePowder s).curves = s.curves ∧
    (purgePowder s).sess = s.sess ∧ (purgePowder s).vault = s.vault ∧ (purgePowder s).ctrs = s.ctrs ∧ (purgePowder
    s).merya = s.merya ∧ (purgePowder s).prot = s.prot ∧ (purgePowder s).mem = s.mem ∧ (purgePowder s).stored =
    s.stored ∧ (purgePowder s).patrol = s.patrol ∧ (purgePowder s).trk = s.trk ∧ (purgePowder s).hut = s.hut ∧
    (purgePowder s).alarm = s.alarm ∧ (purgePowder s).card = s.card ∧ (purgePowder s).tel = s.tel ∧ (purgePowder
    s).pending = s.pending := by
  simp only [purgePowder, State.ite_parts .., ite_self, and_self, implies_true, restartPowder_frame .., clearPowder_frame ..]

theorem purgeVolatile_frame (s : State) :
    (purgeVolatile s).now = s.now ∧ (purgeVolatile s).free = s.free ∧ (purgeVolatile s).life = s.life ∧ (purgeVolatile
    s).link = s.link ∧ (purgeVolatile s).gate = s.gate ∧ (purgeVolatile s).rings = s.rings ∧ (purgeVolatile
    s).curves = s.curves ∧ (purgeVolatile s).sess = s.sess ∧ (purgeVolatile s).vault = s.vault ∧ (purgeVolatile
    s).ctrs = s.ctrs ∧ (purgeVolatile s).powder = s.powder ∧ (purgeVolatile s).prot = s.prot ∧ (purgeVolatile s).mem
    = s.mem ∧ (purgeVolatile s).stored = s.stored ∧ (purgeVolatile s).patrol = s.patrol ∧ (purgeVolatile s).trk =
    s.trk ∧ (purgeVolatile s).hut = s.hut ∧ (purgeVolatile s).alarm = s.alarm ∧ (purgeVolatile s).card = s.card ∧
    (purgeVolatile s).evts = s.evts ∧ (purgeVolatile s).tel = s.tel ∧ (purgeVolatile s).pending = s.pending := by
  simp only [purgeVolatile, State.ite_parts .., ite_self, and_self, implies_true]

theorem purgeClear_frame (s : State) :
    (purgeClear s).now = s.now ∧ (purgeClear s).life = s.life ∧ (purgeClear s).curves = s.curves ∧ (purgeClear s).vault
    = s.vault ∧ (purgeClear s).ctrs = s.ctrs ∧ (purgeClear s).alarm = s.alarm ∧ (purgeClear s).card = s.card ∧
    (purgeClear s).tel = s.tel ∧ (purgeClear s).pending = s.pending := by
  simp only [purgeClear, State.ite_parts .., ite_self, and_self, implies_true, foldl_now, foldl_life, foldl_curves,
    foldl_vault, foldl_ctrs, foldl_alarm, foldl_card, foldl_tel, foldl_pending, purgeSram_frame ..,
    purgeSessions_frame .., purgePowder_frame .., purgeBanks_frame .., purgeVolatile_frame .., seedMasksFromReserve_frame ..,
    purgeApplet_frame .., setPtlEvt_frame ..]

theorem latchRise_frame (src : Nat) (lvl : Machine.Level) (s : State) :
    (latchRise src lvl s).now = s.now ∧ (latchRise src lvl s).free = s.free ∧ (latchRise src lvl s).life = s.life ∧
    (latchRise src lvl s).gate = s.gate ∧ (latchRise src lvl s).rings = s.rings ∧ (latchRise src lvl s).units =
    s.units ∧ (latchRise src lvl s).curves = s.curves ∧ (latchRise src lvl s).sess = s.sess ∧ (latchRise src lvl
    s).vault = s.vault ∧ (latchRise src lvl s).ctrs = s.ctrs ∧ (latchRise src lvl s).powder = s.powder ∧ (latchRise
    src lvl s).mem = s.mem ∧ (latchRise src lvl s).stored = s.stored ∧ (latchRise src lvl s).alarm = s.alarm ∧
    (latchRise src lvl s).card = s.card ∧ (latchRise src lvl s).tel = s.tel ∧ (latchRise src lvl s).pending =
    s.pending := by
  simp only [latchRise, State.ite_parts .., ite_self, and_self, implies_true, closeDebug_frame .., trkRequest_frame ..]

theorem respond_frame (src : Nat) (level : Machine.Level) (s : State) :
    (respond src level s).now = s.now ∧ (respond src level s).life = s.life ∧ (respond src level s).curves = s.curves ∧
    (respond src level s).ctrs = s.ctrs ∧ (respond src level s).alarm = s.alarm ∧ (respond src level s).card =
    s.card ∧ (respond src level s).tel = s.tel ∧ (respond src level s).pending = s.pending := by
  simp only [respond, State.ite_parts .., ite_self, and_self, implies_true, endAtRise_frame .., razeBegin_frame ..,
    purgeClear_frame .., latchRise_frame ..]

theorem tripActs_frame (src : Nat) (before : Machine.Level) (s : State) :
    (tripActs src before s).now = s.now ∧ (tripActs src before s).life = s.life ∧ (tripActs src before s).curves =
    s.curves ∧ (tripActs src before s).ctrs = s.ctrs ∧ (tripActs src before s).alarm = s.alarm ∧ (tripActs src
    before s).card = s.card ∧ (tripActs src before s).tel = s.tel ∧ (tripActs src before s).pending = s.pending := by
  simp only [tripActs, State.ite_parts .., ite_self, and_self, implies_true, raiseEvent_frame .., noteLevel_frame ..,
    respond_frame .., trkMerge_frame ..]

theorem trip_frame (src : Nat) (a : Bool) (b : Bool) (s : State) :
    (trip src a b s).now = s.now ∧ (trip src a b s).life = s.life ∧ (trip src a b s).curves = s.curves ∧ (trip src a b
    s).ctrs = s.ctrs ∧ (trip src a b s).alarm = s.alarm ∧ (trip src a b s).card = s.card ∧ (trip src a b s).tel =
    s.tel ∧ (trip src a b s).pending = s.pending := by
  simp only [trip, State.ite_parts .., ite_self, and_self, implies_true, tripActs_frame ..]

theorem updateQuantity_frame (q : Nat) (s : State) :
    (updateQuantity q s).now = s.now ∧ (updateQuantity q s).life = s.life ∧ (updateQuantity q s).curves = s.curves ∧
    (updateQuantity q s).ctrs = s.ctrs ∧ (updateQuantity q s).alarm = s.alarm ∧ (updateQuantity q s).card = s.card ∧
    (updateQuantity q s).tel = s.tel ∧ (updateQuantity q s).pending = s.pending := by
  simp only [updateQuantity, State.ite_parts .., ite_self, and_self, implies_true, trip_frame ..]

theorem setDisagree_frame (src : Nat) (on : Bool) (s : State) :
    (setDisagree src on s).now = s.now ∧ (setDisagree src on s).life = s.life ∧ (setDisagree src on s).curves = s.curves
    ∧ (setDisagree src on s).ctrs = s.ctrs ∧ (setDisagree src on s).alarm = s.alarm ∧ (setDisagree src on s).card =
    s.card ∧ (setDisagree src on s).tel = s.tel ∧ (setDisagree src on s).pending = s.pending := by
  unfold setDisagree
  (repeat' split) <;> simp only [State.ite_parts .., ite_self, and_self, implies_true, updateQuantity_frame .., setPtlEvt_frame ..]

theorem stimulus_frame (failing : List Nat) (s : State) :
    (stimulus failing s).now = s.now ∧ (stimulus failing s).life = s.life ∧ (stimulus failing s).curves = s.curves ∧
    (stimulus failing s).ctrs = s.ctrs ∧ (stimulus failing s).alarm = s.alarm ∧ (stimulus failing s).card = s.card ∧
    (stimulus failing s).tel = s.tel ∧ (stimulus failing s).pending = s.pending := by
  simp only [stimulus, State.ite_parts .., ite_self, and_self, implies_true, foldl_now, foldl_life, foldl_curves,
    foldl_ctrs, foldl_alarm, foldl_card, foldl_tel, foldl_pending, setDisagree_frame ..]

theorem checkCluster_frame (s : State) :
    (checkCluster s).now = s.now ∧ (checkCluster s).life = s.life ∧ (checkCluster s).curves = s.curves ∧ (checkCluster
    s).ctrs = s.ctrs ∧ (checkCluster s).alarm = s.alarm ∧ (checkCluster s).card = s.card ∧ (checkCluster s).tel =
    s.tel ∧ (checkCluster s).pending = s.pending := by
  simp only [checkCluster, State.ite_parts .., ite_self, and_self, implies_true, trip_frame ..]

theorem tripAgain_frame (src : Nat) (s : State) :
    (tripAgain src s).now = s.now ∧ (tripAgain src s).life = s.life ∧ (tripAgain src s).curves = s.curves ∧ (tripAgain
    src s).ctrs = s.ctrs ∧ (tripAgain src s).alarm = s.alarm ∧ (tripAgain src s).card = s.card ∧ (tripAgain src
    s).tel = s.tel ∧ (tripAgain src s).pending = s.pending := by
  simp only [tripAgain, State.ite_parts .., ite_self, and_self, implies_true, tripActs_frame ..]

theorem detectorReport_frame (src : Nat) (a : Bool) (b : Bool) (s : State) :
    (detectorReport src a b s).now = s.now ∧ (detectorReport src a b s).life = s.life ∧ (detectorReport src a b
    s).curves = s.curves ∧ (detectorReport src a b s).ctrs = s.ctrs ∧ (detectorReport src a b s).alarm = s.alarm ∧
    (detectorReport src a b s).card = s.card ∧ (detectorReport src a b s).tel = s.tel ∧ (detectorReport src a b
    s).pending = s.pending := by
  simp only [detectorReport, State.ite_parts .., ite_self, and_self, implies_true, trip_frame .., setDisagree_frame ..]

theorem razeEnd_frame (s : State) :
    (razeEnd s).now = s.now ∧ (razeEnd s).free = s.free ∧ (razeEnd s).life = s.life ∧ (razeEnd s).gate = s.gate ∧
    (razeEnd s).rings = s.rings ∧ (razeEnd s).units = s.units ∧ (razeEnd s).curves = s.curves ∧ (razeEnd s).sess =
    s.sess ∧ (razeEnd s).ctrs = s.ctrs ∧ (razeEnd s).powder = s.powder ∧ (razeEnd s).merya = s.merya ∧ (razeEnd
    s).prot = s.prot ∧ (razeEnd s).mem = s.mem ∧ (razeEnd s).alarm = s.alarm ∧ (razeEnd s).card = s.card ∧ (razeEnd
    s).tel = s.tel ∧ (razeEnd s).pending = s.pending := by
  simp only [razeEnd, State.ite_parts .., ite_self, and_self, implies_true, foldl_now, foldl_free, foldl_life,
    foldl_gate, foldl_rings, foldl_units, foldl_curves, foldl_sess, foldl_ctrs, foldl_powder, foldl_merya,
    foldl_prot, foldl_mem, foldl_alarm, foldl_card, foldl_tel, foldl_pending, trkRequest_frame ..,
    modVSlot_frame .., setVltEvt_frame .., setPtlEvt_frame ..]

theorem sourceClears_frame (src : Nat) (s : State) :
    (sourceClears src s).now = s.now ∧ (sourceClears src s).free = s.free ∧ (sourceClears src s).life = s.life ∧
    (sourceClears src s).gate = s.gate ∧ (sourceClears src s).rings = s.rings ∧ (sourceClears src s).units = s.units
    ∧ (sourceClears src s).curves = s.curves ∧ (sourceClears src s).sess = s.sess ∧ (sourceClears src s).vault =
    s.vault ∧ (sourceClears src s).ctrs = s.ctrs ∧ (sourceClears src s).powder = s.powder ∧ (sourceClears src
    s).merya = s.merya ∧ (sourceClears src s).prot = s.prot ∧ (sourceClears src s).mem = s.mem ∧ (sourceClears src
    s).stored = s.stored ∧ (sourceClears src s).trk = s.trk ∧ (sourceClears src s).hut = s.hut ∧ (sourceClears src
    s).alarm = s.alarm ∧ (sourceClears src s).card = s.card ∧ (sourceClears src s).tel = s.tel ∧ (sourceClears src
    s).pending = s.pending := by
  simp only [sourceClears, State.ite_parts .., ite_self, and_self, implies_true, noteLevel_frame ..]

theorem disagreement_frame (src : Nat) (a : Bool) (b : Bool) (s : State) :
    (disagreement src a b s).now = s.now ∧ (disagreement src a b s).life = s.life ∧ (disagreement src a b s).curves =
    s.curves ∧ (disagreement src a b s).ctrs = s.ctrs ∧ (disagreement src a b s).alarm = s.alarm ∧ (disagreement src
    a b s).card = s.card ∧ (disagreement src a b s).tel = s.tel ∧ (disagreement src a b s).pending = s.pending := by
  simp only [disagreement, State.ite_parts .., ite_self, and_self, implies_true, trip_frame .., setDisagree_frame ..]

theorem unlockPart_frame (both : Bool) (s : State) :
    (unlockPart both s).now = s.now ∧ (unlockPart both s).life = s.life ∧ (unlockPart both s).curves = s.curves ∧
    (unlockPart both s).ctrs = s.ctrs ∧ (unlockPart both s).alarm = s.alarm ∧ (unlockPart both s).card = s.card ∧
    (unlockPart both s).tel = s.tel ∧ (unlockPart both s).pending = s.pending := by
  simp only [unlockPart, State.ite_parts .., ite_self, and_self, implies_true, noteLevel_frame .., setPtlEvt_frame ..,
    respond_frame ..]
  (repeat' split) <;> simp only [State.ite_parts .., ite_self, and_self, implies_true, noteLevel_frame .., setPtlEvt_frame .., respond_frame ..]

/-! ### Hut.lean -/

theorem freezeKeys_frame (s : State) :
    (freezeKeys s).now = s.now ∧ (freezeKeys s).free = s.free ∧ (freezeKeys s).life = s.life ∧ (freezeKeys s).link =
    s.link ∧ (freezeKeys s).gate = s.gate ∧ (freezeKeys s).curves = s.curves ∧ (freezeKeys s).sess = s.sess ∧
    (freezeKeys s).ctrs = s.ctrs ∧ (freezeKeys s).powder = s.powder ∧ (freezeKeys s).merya = s.merya ∧ (freezeKeys
    s).prot = s.prot ∧ (freezeKeys s).mem = s.mem ∧ (freezeKeys s).patrol = s.patrol ∧ (freezeKeys s).hut = s.hut ∧
    (freezeKeys s).alarm = s.alarm ∧ (freezeKeys s).card = s.card ∧ (freezeKeys s).evts = s.evts ∧ (freezeKeys
    s).tel = s.tel ∧ (freezeKeys s).pending = s.pending := by
  simp only [freezeKeys, State.ite_parts .., ite_self, and_self, implies_true, foldl_now, foldl_free, foldl_life,
    foldl_link, foldl_gate, foldl_curves, foldl_sess, foldl_ctrs, foldl_powder, foldl_merya, foldl_prot, foldl_mem,
    foldl_patrol, foldl_hut, foldl_alarm, foldl_card, foldl_evts, foldl_tel, foldl_pending, settleUnits_frame ..,
    endJob_frame .., modJob_frame ..]

theorem exitWhiteout_frame (s : State) :
    (exitWhiteout s).now = s.now ∧ (exitWhiteout s).life = s.life ∧ (exitWhiteout s).curves = s.curves ∧ (exitWhiteout
    s).ctrs = s.ctrs ∧ (exitWhiteout s).card = s.card ∧ (exitWhiteout s).tel = s.tel ∧ (exitWhiteout s).pending =
    s.pending := by
  simp only [exitWhiteout, State.ite_parts .., ite_self, and_self, implies_true, foldl_now, foldl_life, foldl_curves,
    foldl_ctrs, foldl_card, foldl_tel, foldl_pending, setWoEvt_frame .., tripAgain_frame ..]

theorem enterWhiteout_frame (cause : Nat) (input : Nat) (zones : Word) (reason : Word) (s : State) :
    (enterWhiteout cause input zones reason s).now = s.now ∧ (enterWhiteout cause input zones reason s).free = s.free ∧
    (enterWhiteout cause input zones reason s).life = s.life ∧ (enterWhiteout cause input zones reason s).curves =
    s.curves ∧ (enterWhiteout cause input zones reason s).sess = s.sess ∧ (enterWhiteout cause input zones reason
    s).ctrs = s.ctrs ∧ (enterWhiteout cause input zones reason s).powder = s.powder ∧ (enterWhiteout cause input
    zones reason s).mem = s.mem ∧ (enterWhiteout cause input zones reason s).card = s.card ∧ (enterWhiteout cause
    input zones reason s).tel = s.tel ∧ (enterWhiteout cause input zones reason s).pending = s.pending := by
  simp only [enterWhiteout, State.ite_parts .., ite_self, and_self, implies_true, noteLevel_frame .., setWoEvt_frame ..,
    freezeKeys_frame .., closeDebug_frame ..]

theorem alarmActs_frame (n : Nat) (s : State) :
    (alarmActs n s).now = s.now ∧ (alarmActs n s).free = s.free ∧ (alarmActs n s).life = s.life ∧ (alarmActs n s).curves
    = s.curves ∧ (alarmActs n s).sess = s.sess ∧ (alarmActs n s).ctrs = s.ctrs ∧ (alarmActs n s).powder = s.powder ∧
    (alarmActs n s).card = s.card ∧ (alarmActs n s).tel = s.tel ∧ (alarmActs n s).pending = s.pending := by
  unfold alarmActs
  (repeat' split) <;> simp only [State.ite_parts .., ite_self, and_self, implies_true, postMail_frame .., enterWhiteout_frame ..]

theorem alarmSample_frame (levels : List Nat) (vref : Nat) (s : State) :
    (alarmSample levels vref s).now = s.now ∧ (alarmSample levels vref s).free = s.free ∧ (alarmSample levels vref
    s).life = s.life ∧ (alarmSample levels vref s).link = s.link ∧ (alarmSample levels vref s).gate = s.gate ∧
    (alarmSample levels vref s).rings = s.rings ∧ (alarmSample levels vref s).units = s.units ∧ (alarmSample levels
    vref s).curves = s.curves ∧ (alarmSample levels vref s).sess = s.sess ∧ (alarmSample levels vref s).vault =
    s.vault ∧ (alarmSample levels vref s).ctrs = s.ctrs ∧ (alarmSample levels vref s).powder = s.powder ∧
    (alarmSample levels vref s).merya = s.merya ∧ (alarmSample levels vref s).prot = s.prot ∧ (alarmSample levels
    vref s).mem = s.mem ∧ (alarmSample levels vref s).stored = s.stored ∧ (alarmSample levels vref s).patrol =
    s.patrol ∧ (alarmSample levels vref s).trk = s.trk ∧ (alarmSample levels vref s).hut = s.hut ∧ (alarmSample
    levels vref s).card = s.card ∧ (alarmSample levels vref s).evts = s.evts ∧ (alarmSample levels vref s).tel =
    s.tel ∧ (alarmSample levels vref s).pending = s.pending := by
  simp only [alarmSample, State.ite_parts .., ite_self, and_self, implies_true]

theorem addHot_frame (ms : Nat) (s : State) :
    (addHot ms s).now = s.now ∧ (addHot ms s).free = s.free ∧ (addHot ms s).life = s.life ∧ (addHot ms s).link = s.link
    ∧ (addHot ms s).gate = s.gate ∧ (addHot ms s).rings = s.rings ∧ (addHot ms s).units = s.units ∧ (addHot ms
    s).curves = s.curves ∧ (addHot ms s).sess = s.sess ∧ (addHot ms s).vault = s.vault ∧ (addHot ms s).ctrs = s.ctrs
    ∧ (addHot ms s).powder = s.powder ∧ (addHot ms s).merya = s.merya ∧ (addHot ms s).prot = s.prot ∧ (addHot ms
    s).mem = s.mem ∧ (addHot ms s).stored = s.stored ∧ (addHot ms s).patrol = s.patrol ∧ (addHot ms s).trk = s.trk ∧
    (addHot ms s).alarm = s.alarm ∧ (addHot ms s).card = s.card ∧ (addHot ms s).evts = s.evts ∧ (addHot ms s).tel =
    s.tel ∧ (addHot ms s).pending = s.pending := by
  simp only [addHot, State.ite_parts .., ite_self, and_self, implies_true]

theorem writeHutEntry_frame (e : HutEntry) (s : State) :
    (writeHutEntry e s).now = s.now ∧ (writeHutEntry e s).free = s.free ∧ (writeHutEntry e s).life = s.life ∧
    (writeHutEntry e s).link = s.link ∧ (writeHutEntry e s).gate = s.gate ∧ (writeHutEntry e s).rings = s.rings ∧
    (writeHutEntry e s).units = s.units ∧ (writeHutEntry e s).curves = s.curves ∧ (writeHutEntry e s).sess = s.sess
    ∧ (writeHutEntry e s).vault = s.vault ∧ (writeHutEntry e s).ctrs = s.ctrs ∧ (writeHutEntry e s).powder =
    s.powder ∧ (writeHutEntry e s).merya = s.merya ∧ (writeHutEntry e s).prot = s.prot ∧ (writeHutEntry e s).mem =
    s.mem ∧ (writeHutEntry e s).stored = s.stored ∧ (writeHutEntry e s).patrol = s.patrol ∧ (writeHutEntry e s).trk
    = s.trk ∧ (writeHutEntry e s).alarm = s.alarm ∧ (writeHutEntry e s).card = s.card ∧ (writeHutEntry e s).evts =
    s.evts ∧ (writeHutEntry e s).tel = s.tel ∧ (writeHutEntry e s).pending = s.pending := by
  simp only [writeHutEntry, State.ite_parts .., ite_self, and_self, implies_true]

theorem cellFails_frame (s : State) (src : Nat) (old : Nat) (new : Nat) (v1 : Nat) (v2 : Nat) :
    (cellFails s src old new v1 v2).now = s.now ∧ (cellFails s src old new v1 v2).free = s.free ∧ (cellFails s src old
    new v1 v2).life = s.life ∧ (cellFails s src old new v1 v2).link = s.link ∧ (cellFails s src old new v1 v2).gate
    = s.gate ∧ (cellFails s src old new v1 v2).rings = s.rings ∧ (cellFails s src old new v1 v2).units = s.units ∧
    (cellFails s src old new v1 v2).curves = s.curves ∧ (cellFails s src old new v1 v2).sess = s.sess ∧ (cellFails s
    src old new v1 v2).vault = s.vault ∧ (cellFails s src old new v1 v2).ctrs = s.ctrs ∧ (cellFails s src old new v1
    v2).powder = s.powder ∧ (cellFails s src old new v1 v2).merya = s.merya ∧ (cellFails s src old new v1 v2).prot =
    s.prot ∧ (cellFails s src old new v1 v2).mem = s.mem ∧ (cellFails s src old new v1 v2).stored = s.stored ∧
    (cellFails s src old new v1 v2).patrol = s.patrol ∧ (cellFails s src old new v1 v2).trk = s.trk ∧ (cellFails s
    src old new v1 v2).alarm = s.alarm ∧ (cellFails s src old new v1 v2).card = s.card ∧ (cellFails s src old new v1
    v2).evts = s.evts ∧ (cellFails s src old new v1 v2).tel = s.tel ∧ (cellFails s src old new v1 v2).pending =
    s.pending := by
  simp only [cellFails, State.ite_parts .., ite_self, and_self, implies_true, writeHutEntry_frame ..]

theorem supplySwitch_frame (vio : Bool) (v1 : Nat) (v2 : Nat) (s : State) :
    (supplySwitch vio v1 v2 s).now = s.now ∧ (supplySwitch vio v1 v2 s).free = s.free ∧ (supplySwitch vio v1 v2 s).life
    = s.life ∧ (supplySwitch vio v1 v2 s).gate = s.gate ∧ (supplySwitch vio v1 v2 s).rings = s.rings ∧ (supplySwitch
    vio v1 v2 s).units = s.units ∧ (supplySwitch vio v1 v2 s).curves = s.curves ∧ (supplySwitch vio v1 v2 s).sess =
    s.sess ∧ (supplySwitch vio v1 v2 s).vault = s.vault ∧ (supplySwitch vio v1 v2 s).ctrs = s.ctrs ∧ (supplySwitch
    vio v1 v2 s).powder = s.powder ∧ (supplySwitch vio v1 v2 s).merya = s.merya ∧ (supplySwitch vio v1 v2 s).prot =
    s.prot ∧ (supplySwitch vio v1 v2 s).mem = s.mem ∧ (supplySwitch vio v1 v2 s).stored = s.stored ∧ (supplySwitch
    vio v1 v2 s).patrol = s.patrol ∧ (supplySwitch vio v1 v2 s).trk = s.trk ∧ (supplySwitch vio v1 v2 s).alarm =
    s.alarm ∧ (supplySwitch vio v1 v2 s).card = s.card ∧ (supplySwitch vio v1 v2 s).tel = s.tel ∧ (supplySwitch vio
    v1 v2 s).pending = s.pending := by
  simp only [supplySwitch, State.ite_parts .., ite_self, and_self, implies_true, cellFails_frame .., setHutEvt_frame ..]

theorem setAlmEvt_frame (n : Nat) (s : State) :
    (setAlmEvt n s).now = s.now ∧ (setAlmEvt n s).free = s.free ∧ (setAlmEvt n s).life = s.life ∧ (setAlmEvt n s).gate =
    s.gate ∧ (setAlmEvt n s).rings = s.rings ∧ (setAlmEvt n s).units = s.units ∧ (setAlmEvt n s).curves = s.curves ∧
    (setAlmEvt n s).sess = s.sess ∧ (setAlmEvt n s).vault = s.vault ∧ (setAlmEvt n s).ctrs = s.ctrs ∧ (setAlmEvt n
    s).powder = s.powder ∧ (setAlmEvt n s).merya = s.merya ∧ (setAlmEvt n s).prot = s.prot ∧ (setAlmEvt n s).mem =
    s.mem ∧ (setAlmEvt n s).stored = s.stored ∧ (setAlmEvt n s).patrol = s.patrol ∧ (setAlmEvt n s).trk = s.trk ∧
    (setAlmEvt n s).hut = s.hut ∧ (setAlmEvt n s).card = s.card ∧ (setAlmEvt n s).tel = s.tel ∧ (setAlmEvt n
    s).pending = s.pending := by
  simp only [setAlmEvt, State.ite_parts .., ite_self, and_self, implies_true, raiseEvent_frame ..]

theorem alarmAccept_frame (n : Nat) (s : State) :
    (alarmAccept n s).now = s.now ∧ (alarmAccept n s).free = s.free ∧ (alarmAccept n s).life = s.life ∧ (alarmAccept n
    s).curves = s.curves ∧ (alarmAccept n s).sess = s.sess ∧ (alarmAccept n s).ctrs = s.ctrs ∧ (alarmAccept n
    s).powder = s.powder ∧ (alarmAccept n s).card = s.card ∧ (alarmAccept n s).tel = s.tel ∧ (alarmAccept n
    s).pending = s.pending := by
  simp only [alarmAccept, State.ite_parts .., ite_self, and_self, implies_true, setAlmEvt_frame .., alarmActs_frame ..]

theorem crystalStops_frame (s : State) :
    (crystalStops s).now = s.now ∧ (crystalStops s).free = s.free ∧ (crystalStops s).life = s.life ∧ (crystalStops
    s).gate = s.gate ∧ (crystalStops s).rings = s.rings ∧ (crystalStops s).units = s.units ∧ (crystalStops s).curves
    = s.curves ∧ (crystalStops s).sess = s.sess ∧ (crystalStops s).vault = s.vault ∧ (crystalStops s).ctrs = s.ctrs
    ∧ (crystalStops s).powder = s.powder ∧ (crystalStops s).merya = s.merya ∧ (crystalStops s).prot = s.prot ∧
    (crystalStops s).mem = s.mem ∧ (crystalStops s).stored = s.stored ∧ (crystalStops s).patrol = s.patrol ∧
    (crystalStops s).trk = s.trk ∧ (crystalStops s).alarm = s.alarm ∧ (crystalStops s).card = s.card ∧ (crystalStops
    s).tel = s.tel ∧ (crystalStops s).pending = s.pending := by
  simp only [crystalStops, State.ite_parts .., ite_self, and_self, implies_true, writeHutEntry_frame .., setHutEvt_frame ..]

theorem hutTrips_frame (src : Nat) (a : Bool) (b : Bool) (tj : Int) (v1 : Nat) (v2 : Nat) (s : State) :
    (hutTrips src a b tj v1 v2 s).now = s.now ∧ (hutTrips src a b tj v1 v2 s).free = s.free ∧ (hutTrips src a b tj v1 v2
    s).life = s.life ∧ (hutTrips src a b tj v1 v2 s).link = s.link ∧ (hutTrips src a b tj v1 v2 s).gate = s.gate ∧
    (hutTrips src a b tj v1 v2 s).rings = s.rings ∧ (hutTrips src a b tj v1 v2 s).units = s.units ∧ (hutTrips src a
    b tj v1 v2 s).curves = s.curves ∧ (hutTrips src a b tj v1 v2 s).sess = s.sess ∧ (hutTrips src a b tj v1 v2
    s).vault = s.vault ∧ (hutTrips src a b tj v1 v2 s).ctrs = s.ctrs ∧ (hutTrips src a b tj v1 v2 s).powder =
    s.powder ∧ (hutTrips src a b tj v1 v2 s).merya = s.merya ∧ (hutTrips src a b tj v1 v2 s).prot = s.prot ∧
    (hutTrips src a b tj v1 v2 s).mem = s.mem ∧ (hutTrips src a b tj v1 v2 s).stored = s.stored ∧ (hutTrips src a b
    tj v1 v2 s).patrol = s.patrol ∧ (hutTrips src a b tj v1 v2 s).trk = s.trk ∧ (hutTrips src a b tj v1 v2 s).alarm
    = s.alarm ∧ (hutTrips src a b tj v1 v2 s).card = s.card ∧ (hutTrips src a b tj v1 v2 s).evts = s.evts ∧
    (hutTrips src a b tj v1 v2 s).tel = s.tel ∧ (hutTrips src a b tj v1 v2 s).pending = s.pending := by
  simp only [hutTrips, State.ite_parts .., ite_self, and_self, implies_true, writeHutEntry_frame ..]

end Sys2Proof.Machine
end

