-- ==== Sys2Proof/Laws/FramesCommands.lean ====
section
/-!
SUPPORT. Sys2Proof/Laws/FramesCommands.lean: for each operation on the state, once, the chapters of the part that it leaves as they are:
critical commands, exports, the card port, stored data, gathering and speed.  A chapter that a lemma does not name may change.
-/
namespace Sys2Proof.Machine

set_option linter.unusedSimpArgs false

/-! ### Critical.lean -/

theorem commitUnlock_frame (auth : Nat) (s : State) :
    (commitUnlock auth s).1.now = s.now ∧ (commitUnlock auth s).1.life = s.life ∧ (commitUnlock auth s).1.curves =
    s.curves ∧ (commitUnlock auth s).1.alarm = s.alarm ∧ (commitUnlock auth s).1.card = s.card ∧ (commitUnlock auth
    s).1.tel = s.tel ∧ (commitUnlock auth s).1.pending = s.pending := by
  unfold commitUnlock
  (repeat' split) <;> simp only [State.ite_parts .., ite_self, and_self, implies_true, unlockPart_frame ..]

theorem commitAppletLoad_frame (b : CmdBlock) (src : Bytes) (s : State) :
    (commitAppletLoad b src s).now = s.now ∧ (commitAppletLoad b src s).free = s.free ∧ (commitAppletLoad b src s).life
    = s.life ∧ (commitAppletLoad b src s).gate = s.gate ∧ (commitAppletLoad b src s).units = s.units ∧
    (commitAppletLoad b src s).curves = s.curves ∧ (commitAppletLoad b src s).sess = s.sess ∧ (commitAppletLoad b
    src s).vault = s.vault ∧ (commitAppletLoad b src s).ctrs = s.ctrs ∧ (commitAppletLoad b src s).powder = s.powder
    ∧ (commitAppletLoad b src s).prot = s.prot ∧ (commitAppletLoad b src s).mem = s.mem ∧ (commitAppletLoad b src
    s).stored = s.stored ∧ (commitAppletLoad b src s).patrol = s.patrol ∧ (commitAppletLoad b src s).trk = s.trk ∧
    (commitAppletLoad b src s).hut = s.hut ∧ (commitAppletLoad b src s).alarm = s.alarm ∧ (commitAppletLoad b src
    s).card = s.card ∧ (commitAppletLoad b src s).tel = s.tel ∧ (commitAppletLoad b src s).pending = s.pending := by
  simp only [commitAppletLoad, State.ite_parts .., ite_self, and_self, implies_true, moveApplet_frame .., modRing_frame ..,
    modApplet_frame ..]

theorem transition_frame (next : LcState) (s : State) :
    (transition next s).now = s.now ∧ (transition next s).free = s.free ∧ (transition next s).gate = s.gate ∧
    (transition next s).rings = s.rings ∧ (transition next s).units = s.units ∧ (transition next s).curves =
    s.curves ∧ (transition next s).sess = s.sess ∧ (transition next s).vault = s.vault ∧ (transition next s).powder
    = s.powder ∧ (transition next s).merya = s.merya ∧ (transition next s).prot = s.prot ∧ (transition next s).mem =
    s.mem ∧ (transition next s).patrol = s.patrol ∧ (transition next s).hut = s.hut ∧ (transition next s).alarm =
    s.alarm ∧ (transition next s).card = s.card ∧ (transition next s).tel = s.tel ∧ (transition next s).pending =
    s.pending := by
  simp only [transition, State.ite_parts .., ite_self, and_self, implies_true, writeCounter_frame .., setLcEvt_frame ..,
    trkRequest_frame ..]

theorem provisionPart_frame (plain : Bytes) (s : State) :
    (provisionPart plain s).now = s.now ∧ (provisionPart plain s).curves = s.curves ∧ (provisionPart plain s).alarm =
    s.alarm ∧ (provisionPart plain s).card = s.card ∧ (provisionPart plain s).tel = s.tel ∧ (provisionPart plain
    s).pending = s.pending := by
  simp only [provisionPart, State.ite_parts .., ite_self, and_self, implies_true, foldl_now, foldl_curves, foldl_alarm,
    foldl_card, foldl_tel, foldl_pending, writeSlot_frame .., dropProvisioningKey_frame .., restartPowder_frame ..,
    tripAgain_frame ..]

theorem retirePart_frame (s : State) :
    (retirePart s).now = s.now ∧ (retirePart s).life = s.life ∧ (retirePart s).curves = s.curves ∧ (retirePart s).powder
    = s.powder ∧ (retirePart s).patrol = s.patrol ∧ (retirePart s).hut = s.hut ∧ (retirePart s).alarm = s.alarm ∧
    (retirePart s).card = s.card ∧ (retirePart s).tel = s.tel ∧ (retirePart s).pending = s.pending := by
  simp only [retirePart, State.ite_parts .., ite_self, and_self, implies_true, foldl_now, foldl_life, foldl_curves,
    foldl_powder, foldl_patrol, foldl_hut, foldl_alarm, foldl_card, foldl_tel, foldl_pending, eraseSlot_frame ..,
    ringDisabled_frame .., removeApplet_frame .., purgeSessions_frame ..]

theorem commitLcAdvance_frame (b : CmdBlock) (plain : Bytes) (s : State) :
    (commitLcAdvance b plain s).now = s.now ∧ (commitLcAdvance b plain s).curves = s.curves ∧ (commitLcAdvance b plain
    s).alarm = s.alarm ∧ (commitLcAdvance b plain s).card = s.card ∧ (commitLcAdvance b plain s).tel = s.tel ∧
    (commitLcAdvance b plain s).pending = s.pending := by
  simp only [commitLcAdvance, State.ite_parts .., ite_self, and_self, implies_true, closeDebug_frame .., transition_frame ..,
    provisionPart_frame .., retirePart_frame ..]
  (repeat' split) <;> simp only [State.ite_parts .., ite_self, and_self, implies_true, closeDebug_frame .., transition_frame ..,
    provisionPart_frame .., retirePart_frame ..]

theorem commitReceipt_frame (s : State) :
    (commitReceipt s).now = s.now ∧ (commitReceipt s).free = s.free ∧ (commitReceipt s).life = s.life ∧ (commitReceipt
    s).gate = s.gate ∧ (commitReceipt s).rings = s.rings ∧ (commitReceipt s).units = s.units ∧ (commitReceipt
    s).curves = s.curves ∧ (commitReceipt s).sess = s.sess ∧ (commitReceipt s).vault = s.vault ∧ (commitReceipt
    s).ctrs = s.ctrs ∧ (commitReceipt s).powder = s.powder ∧ (commitReceipt s).merya = s.merya ∧ (commitReceipt
    s).prot = s.prot ∧ (commitReceipt s).mem = s.mem ∧ (commitReceipt s).stored = s.stored ∧ (commitReceipt
    s).patrol = s.patrol ∧ (commitReceipt s).hut = s.hut ∧ (commitReceipt s).alarm = s.alarm ∧ (commitReceipt
    s).card = s.card ∧ (commitReceipt s).tel = s.tel ∧ (commitReceipt s).pending = s.pending := by
  unfold commitReceipt
  (repeat' split) <;> simp only [State.ite_parts .., ite_self, and_self, implies_true, trkRequest_frame .., setTrkEvt_frame ..]

theorem rewriteContext_frame (n : Nat) (s : State) :
    (rewriteContext n s).now = s.now ∧ (rewriteContext n s).free = s.free ∧ (rewriteContext n s).life = s.life ∧
    (rewriteContext n s).link = s.link ∧ (rewriteContext n s).gate = s.gate ∧ (rewriteContext n s).rings = s.rings ∧
    (rewriteContext n s).units = s.units ∧ (rewriteContext n s).curves = s.curves ∧ (rewriteContext n s).sess =
    s.sess ∧ (rewriteContext n s).vault = s.vault ∧ (rewriteContext n s).ctrs = s.ctrs ∧ (rewriteContext n s).powder
    = s.powder ∧ (rewriteContext n s).merya = s.merya ∧ (rewriteContext n s).prot = s.prot ∧ (rewriteContext n
    s).mem = s.mem ∧ (rewriteContext n s).patrol = s.patrol ∧ (rewriteContext n s).trk = s.trk ∧ (rewriteContext n
    s).hut = s.hut ∧ (rewriteContext n s).alarm = s.alarm ∧ (rewriteContext n s).card = s.card ∧ (rewriteContext n
    s).evts = s.evts ∧ (rewriteContext n s).tel = s.tel ∧ (rewriteContext n s).pending = s.pending := by
  simp only [rewriteContext, State.ite_parts .., ite_self, and_self, implies_true, writeContextWords_frame ..]

theorem commitSesSet_frame (b : CmdBlock) (s : State) :
    (commitSesSet b s).now = s.now ∧ (commitSesSet b s).free = s.free ∧ (commitSesSet b s).life = s.life ∧ (commitSesSet
    b s).link = s.link ∧ (commitSesSet b s).gate = s.gate ∧ (commitSesSet b s).rings = s.rings ∧ (commitSesSet b
    s).units = s.units ∧ (commitSesSet b s).curves = s.curves ∧ (commitSesSet b s).vault = s.vault ∧ (commitSesSet b
    s).ctrs = s.ctrs ∧ (commitSesSet b s).powder = s.powder ∧ (commitSesSet b s).merya = s.merya ∧ (commitSesSet b
    s).mem = s.mem ∧ (commitSesSet b s).patrol = s.patrol ∧ (commitSesSet b s).trk = s.trk ∧ (commitSesSet b s).hut
    = s.hut ∧ (commitSesSet b s).alarm = s.alarm ∧ (commitSesSet b s).card = s.card ∧ (commitSesSet b s).evts =
    s.evts ∧ (commitSesSet b s).tel = s.tel ∧ (commitSesSet b s).pending = s.pending := by
  simp only [commitSesSet, State.ite_parts .., ite_self, and_self, implies_true, rewriteContext_frame ..]

theorem commitSesClear_frame (b : CmdBlock) (s : State) :
    (commitSesClear b s).now = s.now ∧ (commitSesClear b s).free = s.free ∧ (commitSesClear b s).life = s.life ∧
    (commitSesClear b s).link = s.link ∧ (commitSesClear b s).gate = s.gate ∧ (commitSesClear b s).rings = s.rings ∧
    (commitSesClear b s).units = s.units ∧ (commitSesClear b s).curves = s.curves ∧ (commitSesClear b s).vault =
    s.vault ∧ (commitSesClear b s).ctrs = s.ctrs ∧ (commitSesClear b s).powder = s.powder ∧ (commitSesClear b
    s).merya = s.merya ∧ (commitSesClear b s).prot = s.prot ∧ (commitSesClear b s).mem = s.mem ∧ (commitSesClear b
    s).patrol = s.patrol ∧ (commitSesClear b s).trk = s.trk ∧ (commitSesClear b s).hut = s.hut ∧ (commitSesClear b
    s).alarm = s.alarm ∧ (commitSesClear b s).card = s.card ∧ (commitSesClear b s).evts = s.evts ∧ (commitSesClear b
    s).tel = s.tel ∧ (commitSesClear b s).pending = s.pending := by
  simp only [commitSesClear, State.ite_parts .., ite_self, and_self, implies_true, rewriteContext_frame ..]

theorem commitBody_frame (j : Job) (c : CmdCode) (b : CmdBlock) (s : State) :
    (commitBody j c b s).1.now = s.now ∧ (commitBody j c b s).1.card = s.card ∧ (commitBody j c b s).1.tel = s.tel ∧
    (commitBody j c b s).1.pending = s.pending := by
  unfold commitBody
  (repeat' split) <;> simp only [State.ite_parts .., ite_self, and_self, implies_true, enterWhiteout_frame .., exitWhiteout_frame ..,
    commitUnlock_frame .., writeSlot_frame .., eraseSlot_frame .., writtenWords_frame .., commitAppletLoad_frame ..,
    removeApplet_frame .., noteLevel_frame .., modCounter_frame .., openDebug_frame .., commitLcAdvance_frame ..,
    commitReceipt_frame .., commitSesSet_frame .., commitSesClear_frame ..]

theorem failCommand_frame (j : Job) (b : CmdBlock) (st : Status) (reason : Nat) (s : State) :
    (failCommand j b st reason s).now = s.now ∧ (failCommand j b st reason s).life = s.life ∧ (failCommand j b st reason
    s).link = s.link ∧ (failCommand j b st reason s).gate = s.gate ∧ (failCommand j b st reason s).curves = s.curves
    ∧ (failCommand j b st reason s).sess = s.sess ∧ (failCommand j b st reason s).ctrs = s.ctrs ∧ (failCommand j b
    st reason s).powder = s.powder ∧ (failCommand j b st reason s).merya = s.merya ∧ (failCommand j b st reason
    s).prot = s.prot ∧ (failCommand j b st reason s).mem = s.mem ∧ (failCommand j b st reason s).patrol = s.patrol ∧
    (failCommand j b st reason s).hut = s.hut ∧ (failCommand j b st reason s).alarm = s.alarm ∧ (failCommand j b st
    reason s).card = s.card ∧ (failCommand j b st reason s).evts = s.evts ∧ (failCommand j b st reason s).tel =
    s.tel ∧ (failCommand j b st reason s).pending = s.pending := by
  simp only [failCommand, State.ite_parts .., ite_self, and_self, implies_true, trkRequest_frame .., finishJob_frame ..,
    modJob_frame .., drawFree_frame ..]

theorem noteLost_frame (j : Job) (c : CmdCode) (st : Status) (s : State) :
    (noteLost j c st s).now = s.now ∧ (noteLost j c st s).free = s.free ∧ (noteLost j c st s).life = s.life ∧
    (noteLost j c st s).gate = s.gate ∧ (noteLost j c st s).rings = s.rings ∧ (noteLost j c st s).units = s.units ∧
    (noteLost j c st s).curves = s.curves ∧ (noteLost j c st s).sess = s.sess ∧ (noteLost j c st s).vault = s.vault
    ∧ (noteLost j c st s).ctrs = s.ctrs ∧ (noteLost j c st s).powder = s.powder ∧ (noteLost j c st s).merya =
    s.merya ∧ (noteLost j c st s).prot = s.prot ∧ (noteLost j c st s).mem = s.mem ∧ (noteLost j c st s).patrol =
    s.patrol ∧ (noteLost j c st s).hut = s.hut ∧ (noteLost j c st s).alarm = s.alarm ∧ (noteLost j c st s).card =
    s.card ∧ (noteLost j c st s).tel = s.tel ∧ (noteLost j c st s).pending = s.pending := by
  unfold noteLost
  (repeat' split) <;> simp only [State.ite_parts .., ite_self, and_self, implies_true, readHolds_frame ..]

theorem spendCounter_frame (j : Job) (b : CmdBlock) (s : State) :
    (spendCounter j b s).now = s.now ∧ (spendCounter j b s).free = s.free ∧ (spendCounter j b s).life = s.life ∧
    (spendCounter j b s).link = s.link ∧ (spendCounter j b s).gate = s.gate ∧ (spendCounter j b s).units = s.units ∧
    (spendCounter j b s).curves = s.curves ∧ (spendCounter j b s).sess = s.sess ∧ (spendCounter j b s).vault =
    s.vault ∧ (spendCounter j b s).powder = s.powder ∧ (spendCounter j b s).merya = s.merya ∧ (spendCounter j b
    s).prot = s.prot ∧ (spendCounter j b s).mem = s.mem ∧ (spendCounter j b s).patrol = s.patrol ∧ (spendCounter j b
    s).trk = s.trk ∧ (spendCounter j b s).hut = s.hut ∧ (spendCounter j b s).alarm = s.alarm ∧ (spendCounter j b
    s).card = s.card ∧ (spendCounter j b s).evts = s.evts ∧ (spendCounter j b s).tel = s.tel ∧ (spendCounter j b
    s).pending = s.pending := by
  simp only [spendCounter, State.ite_parts .., ite_self, and_self, implies_true, modJob_frame .., writeCounter_frame ..]

theorem commandPrepared_frame (j : Job) (key : Bytes) (s : State) :
    (commandPrepared j key s).now = s.now ∧ (commandPrepared j key s).free = s.free ∧ (commandPrepared j key s).life =
    s.life ∧ (commandPrepared j key s).link = s.link ∧ (commandPrepared j key s).gate = s.gate ∧ (commandPrepared j
    key s).curves = s.curves ∧ (commandPrepared j key s).sess = s.sess ∧ (commandPrepared j key s).ctrs = s.ctrs ∧
    (commandPrepared j key s).powder = s.powder ∧ (commandPrepared j key s).merya = s.merya ∧ (commandPrepared j key
    s).prot = s.prot ∧ (commandPrepared j key s).mem = s.mem ∧ (commandPrepared j key s).patrol = s.patrol ∧
    (commandPrepared j key s).hut = s.hut ∧ (commandPrepared j key s).alarm = s.alarm ∧ (commandPrepared j key
    s).card = s.card ∧ (commandPrepared j key s).evts = s.evts ∧ (commandPrepared j key s).tel = s.tel ∧
    (commandPrepared j key s).pending = s.pending := by
  unfold commandPrepared
  (repeat' split) <;> simp only [State.ite_parts .., ite_self, and_self, implies_true, freeMemory_frame .., modJob_frame .., leaveUnit_frame ..]

theorem prepareCommand_frame (j : Job) (c : CmdCode) (b : CmdBlock) (s : State) :
    (prepareCommand j c b s).now = s.now ∧ (prepareCommand j c b s).life = s.life ∧ (prepareCommand j c b s).gate =
    s.gate ∧ (prepareCommand j c b s).curves = s.curves ∧ (prepareCommand j c b s).sess = s.sess ∧ (prepareCommand j
    c b s).ctrs = s.ctrs ∧ (prepareCommand j c b s).powder = s.powder ∧ (prepareCommand j c b s).merya = s.merya ∧
    (prepareCommand j c b s).prot = s.prot ∧ (prepareCommand j c b s).mem = s.mem ∧ (prepareCommand j c b s).patrol
    = s.patrol ∧ (prepareCommand j c b s).hut = s.hut ∧ (prepareCommand j c b s).alarm = s.alarm ∧ (prepareCommand j
    c b s).card = s.card ∧ (prepareCommand j c b s).tel = s.tel ∧ (prepareCommand j c b s).pending = s.pending := by
  simp only [prepareCommand, State.ite_parts .., ite_self, and_self, implies_true, noteLost_frame .., failCommand_frame .., wakeJob_frame ..,
    modJob_frame .., commandPrepared_frame ..]

theorem releaseBarrier_frame (tag : Nat) (s : State) :
    (releaseBarrier tag s).now = s.now ∧ (releaseBarrier tag s).life = s.life ∧ (releaseBarrier tag s).gate = s.gate
    ∧ (releaseBarrier tag s).curves = s.curves ∧ (releaseBarrier tag s).sess = s.sess ∧ (releaseBarrier tag
    s).powder = s.powder ∧ (releaseBarrier tag s).merya = s.merya ∧ (releaseBarrier tag s).prot = s.prot ∧
    (releaseBarrier tag s).mem = s.mem ∧ (releaseBarrier tag s).patrol = s.patrol ∧ (releaseBarrier tag s).hut =
    s.hut ∧ (releaseBarrier tag s).alarm = s.alarm ∧ (releaseBarrier tag s).card = s.card ∧ (releaseBarrier tag
    s).tel = s.tel ∧ (releaseBarrier tag s).pending = s.pending := by
  simp only [releaseBarrier, State.ite_parts .., ite_self, and_self, implies_true, noteLost_frame .., failCommand_frame .., spendCounter_frame ..,
    prepareCommand_frame ..]
  (repeat' split) <;> simp only [State.ite_parts .., ite_self, and_self, implies_true, noteLost_frame .., failCommand_frame .., spendCounter_frame ..,
    prepareCommand_frame ..]

theorem handOver_frame (j : Job) (c : CmdCode) (b : CmdBlock) (seq : Nat) (s : State) :
    (handOver j c b seq s).now = s.now ∧ (handOver j c b seq s).free = s.free ∧ (handOver j c b seq s).life = s.life ∧
    (handOver j c b seq s).gate = s.gate ∧ (handOver j c b seq s).rings = s.rings ∧ (handOver j c b seq s).units =
    s.units ∧ (handOver j c b seq s).curves = s.curves ∧ (handOver j c b seq s).sess = s.sess ∧ (handOver j c b seq
    s).vault = s.vault ∧ (handOver j c b seq s).ctrs = s.ctrs ∧ (handOver j c b seq s).powder = s.powder ∧ (handOver
    j c b seq s).prot = s.prot ∧ (handOver j c b seq s).patrol = s.patrol ∧ (handOver j c b seq s).hut = s.hut ∧
    (handOver j c b seq s).alarm = s.alarm ∧ (handOver j c b seq s).card = s.card ∧ (handOver j c b seq s).tel =
    s.tel ∧ (handOver j c b seq s).pending = s.pending := by
  simp only [handOver, State.ite_parts .., ite_self, and_self, implies_true, postMail_frame .., raiseIf_frame ..]
  (repeat' split) <;> simp only [State.ite_parts .., ite_self, and_self, implies_true, postMail_frame .., raiseIf_frame ..]

theorem commitCommand_frame (j : Job) (c : CmdCode) (b : CmdBlock) (s : State) :
    (commitCommand j c b s).now = s.now ∧ (commitCommand j c b s).card = s.card ∧ (commitCommand j c b s).tel = s.tel ∧
    (commitCommand j c b s).pending = s.pending := by
  simp only [commitCommand, State.ite_parts .., ite_self, and_self, implies_true, modJob_frame .., commitBody_frame ..,
    appendCommit_frame .., finishJob_frame .., handOver_frame .., drawFree_frame ..]

theorem completeEntry_frame (tag : Nat) (s : State) :
    (completeEntry tag s).now = s.now ∧ (completeEntry tag s).card = s.card ∧ (completeEntry tag s).tel = s.tel ∧
    (completeEntry tag s).pending = s.pending := by
  unfold completeEntry
  (repeat' split) <;> simp only [State.ite_parts .., ite_self, and_self, implies_true, writeCompletion_frame .., failCommand_frame ..,
    commitCommand_frame ..]

theorem curveEnds_frame (tag : Nat) (s : State) :
    (curveEnds tag s).now = s.now ∧ (curveEnds tag s).life = s.life ∧ (curveEnds tag s).link = s.link ∧ (curveEnds tag
    s).gate = s.gate ∧ (curveEnds tag s).sess = s.sess ∧ (curveEnds tag s).ctrs = s.ctrs ∧ (curveEnds tag s).powder
    = s.powder ∧ (curveEnds tag s).merya = s.merya ∧ (curveEnds tag s).prot = s.prot ∧ (curveEnds tag s).mem = s.mem
    ∧ (curveEnds tag s).patrol = s.patrol ∧ (curveEnds tag s).hut = s.hut ∧ (curveEnds tag s).alarm = s.alarm ∧
    (curveEnds tag s).card = s.card ∧ (curveEnds tag s).evts = s.evts ∧ (curveEnds tag s).tel = s.tel ∧ (curveEnds
    tag s).pending = s.pending := by
  simp only [curveEnds, State.ite_parts .., ite_self, and_self, implies_true, finishJob_frame .., curveDone_frame ..,
    modJob_frame .., curvePrepared_frame .., failCommand_frame ..]
  (repeat' split) <;> simp only [State.ite_parts .., ite_self, and_self, implies_true, finishJob_frame .., curveDone_frame .., modJob_frame ..,
    curvePrepared_frame .., failCommand_frame ..]

/-! ### Export.lean -/

theorem readEntries_frame (l : List (TrkEntry × Nat)) (s : State) :
    (readEntries l s).now = s.now ∧ (readEntries l s).free = s.free ∧ (readEntries l s).life = s.life ∧ (readEntries l
    s).gate = s.gate ∧ (readEntries l s).rings = s.rings ∧ (readEntries l s).units = s.units ∧ (readEntries l
    s).curves = s.curves ∧ (readEntries l s).sess = s.sess ∧ (readEntries l s).vault = s.vault ∧ (readEntries l
    s).ctrs = s.ctrs ∧ (readEntries l s).powder = s.powder ∧ (readEntries l s).merya = s.merya ∧ (readEntries l
    s).prot = s.prot ∧ (readEntries l s).mem = s.mem ∧ (readEntries l s).patrol = s.patrol ∧ (readEntries l s).hut =
    s.hut ∧ (readEntries l s).alarm = s.alarm ∧ (readEntries l s).card = s.card ∧ (readEntries l s).tel = s.tel ∧
    (readEntries l s).pending = s.pending := by
  simp only [readEntries, State.ite_parts .., ite_self, and_self, implies_true, foldl_now, foldl_free, foldl_life,
    foldl_gate, foldl_rings, foldl_units, foldl_curves, foldl_sess, foldl_vault, foldl_ctrs, foldl_powder,
    foldl_merya, foldl_prot, foldl_mem, foldl_patrol, foldl_hut, foldl_alarm, foldl_card, foldl_tel, foldl_pending,
    readWords_frame ..]

theorem buildImage_frame (l : List (TrkEntry × Nat)) (id : Nat) (s : State) :
    (buildImage l id s).2.now = s.now ∧ (buildImage l id s).2.free = s.free ∧ (buildImage l id s).2.life = s.life ∧
    (buildImage l id s).2.gate = s.gate ∧ (buildImage l id s).2.rings = s.rings ∧ (buildImage l id s).2.units =
    s.units ∧ (buildImage l id s).2.curves = s.curves ∧ (buildImage l id s).2.sess = s.sess ∧ (buildImage l id
    s).2.vault = s.vault ∧ (buildImage l id s).2.ctrs = s.ctrs ∧ (buildImage l id s).2.powder = s.powder ∧
    (buildImage l id s).2.merya = s.merya ∧ (buildImage l id s).2.prot = s.prot ∧ (buildImage l id s).2.mem = s.mem
    ∧ (buildImage l id s).2.hut = s.hut ∧ (buildImage l id s).2.alarm = s.alarm ∧ (buildImage l id s).2.card =
    s.card ∧ (buildImage l id s).2.tel = s.tel ∧ (buildImage l id s).2.pending = s.pending := by
  unfold buildImage
  (repeat' split) <;> simp only [State.ite_parts .., ite_self, and_self, implies_true, appendCommit_frame .., readEntries_frame ..,
    setTrkEvt_frame ..]

theorem requestBack_frame (tag : Nat) (s : State) :
    (requestBack tag s).now = s.now ∧ (requestBack tag s).free = s.free ∧ (requestBack tag s).life = s.life ∧
    (requestBack tag s).gate = s.gate ∧ (requestBack tag s).rings = s.rings ∧ (requestBack tag s).units = s.units ∧
    (requestBack tag s).curves = s.curves ∧ (requestBack tag s).sess = s.sess ∧ (requestBack tag s).vault = s.vault
    ∧ (requestBack tag s).ctrs = s.ctrs ∧ (requestBack tag s).powder = s.powder ∧ (requestBack tag s).merya =
    s.merya ∧ (requestBack tag s).prot = s.prot ∧ (requestBack tag s).mem = s.mem ∧ (requestBack tag s).stored =
    s.stored ∧ (requestBack tag s).patrol = s.patrol ∧ (requestBack tag s).trk = s.trk ∧ (requestBack tag s).hut =
    s.hut ∧ (requestBack tag s).alarm = s.alarm ∧ (requestBack tag s).card = s.card ∧ (requestBack tag s).evts =
    s.evts ∧ (requestBack tag s).tel = s.tel ∧ (requestBack tag s).pending = s.pending := by
  unfold requestBack
  (repeat' split) <;> simp only [State.ite_parts .., ite_self, and_self, implies_true, requestReads_frame ..]

theorem startExport_now (toCard : State → State) (tag : Nat) (s : State) (hf : ∀ s, (toCard s).now = s.now) :
    (startExport toCard tag s).now = s.now := by
  unfold startExport
  split
  · rfl
  · dsimp only
    split
    · simp only [finishJob_frame .., modJob_frame .., writeCounter_frame ..]
      split <;> simp only [captureFault_frame .., modJob_frame .., writeCounter_frame ..]
    · split
      · simp only [finishJob_frame .., readHolds_frame .., modJob_frame .., writeCounter_frame ..]
      · split
        · rename_i h
          have := congrArg Prod.snd h
          dsimp only at this
          simp only [finishJob_frame .., ← this, buildImage_frame .., modJob_frame .., writeCounter_frame ..]
        · rename_i h
          have := congrArg Prod.snd h
          dsimp only at this
          split <;> simp only [hf, requestBack_frame .., drawFree_frame .., giveOutput_frame .., ← this, buildImage_frame .., modJob_frame ..,
            writeCounter_frame ..]

theorem startExport_life (toCard : State → State) (tag : Nat) (s : State) (hf : ∀ s, (toCard s).life = s.life) :
    (startExport toCard tag s).life = s.life := by
  unfold startExport
  split
  · rfl
  · dsimp only
    split
    · simp only [finishJob_frame .., modJob_frame .., writeCounter_frame ..]
      split <;> simp only [captureFault_frame .., modJob_frame .., writeCounter_frame ..]
    · split
      · simp only [finishJob_frame .., readHolds_frame .., modJob_frame .., writeCounter_frame ..]
      · split
        · rename_i h
          have := congrArg Prod.snd h
          dsimp only at this
          simp only [finishJob_frame .., ← this, buildImage_frame .., modJob_frame .., writeCounter_frame ..]
        · rename_i h
          have := congrArg Prod.snd h
          dsimp only at this
          split <;> simp only [hf, requestBack_frame .., drawFree_frame .., giveOutput_frame .., ← this, buildImage_frame .., modJob_frame ..,
            writeCounter_frame ..]

theorem startExport_gate (toCard : State → State) (tag : Nat) (s : State) (hf : ∀ s, (toCard s).gate = s.gate) :
    (startExport toCard tag s).gate = s.gate := by
  unfold startExport
  split
  · rfl
  · dsimp only
    split
    · simp only [finishJob_frame .., modJob_frame .., writeCounter_frame ..]
      split <;> simp only [captureFault_frame .., modJob_frame .., writeCounter_frame ..]
    · split
      · simp only [finishJob_frame .., readHolds_frame .., modJob_frame .., writeCounter_frame ..]
      · split
        · rename_i h
          have := congrArg Prod.snd h
          dsimp only at this
          simp only [finishJob_frame .., ← this, buildImage_frame .., modJob_frame .., writeCounter_frame ..]
        · rename_i h
          have := congrArg Prod.snd h
          dsimp only at this
          split <;> simp only [hf, requestBack_frame .., drawFree_frame .., giveOutput_frame .., ← this, buildImage_frame .., modJob_frame ..,
            writeCounter_frame ..]

theorem startExport_curves (toCard : State → State) (tag : Nat) (s : State) (hf : ∀ s, (toCard s).curves = s.curves)
    : (startExport toCard tag s).curves = s.curves := by
  unfold startExport
  split
  · rfl
  · dsimp only
    split
    · simp only [finishJob_frame .., modJob_frame .., writeCounter_frame ..]
      split <;> simp only [captureFault_frame .., modJob_frame .., writeCounter_frame ..]
    · split
      · simp only [finishJob_frame .., readHolds_frame .., modJob_frame .., writeCounter_frame ..]
      · split
        · rename_i h
          have := congrArg Prod.snd h
          dsimp only at this
          simp only [finishJob_frame .., ← this, buildImage_frame .., modJob_frame .., writeCounter_frame ..]
        · rename_i h
          have := congrArg Prod.snd h
          dsimp only at this
          split <;> simp only [hf, requestBack_frame .., drawFree_frame .., giveOutput_frame .., ← this, buildImage_frame .., modJob_frame ..,
            writeCounter_frame ..]

theorem startExport_sess (toCard : State → State) (tag : Nat) (s : State) (hf : ∀ s, (toCard s).sess = s.sess) :
    (startExport toCard tag s).sess = s.sess := by
  unfold startExport
  split
  · rfl
  · dsimp only
    split
    · simp only [finishJob_frame .., modJob_frame .., writeCounter_frame ..]
      split <;> simp only [captureFault_frame .., modJob_frame .., writeCounter_frame ..]
    · split
      · simp only [finishJob_frame .., readHolds_frame .., modJob_frame .., writeCounter_frame ..]
      · split
        · rename_i h
          have := congrArg Prod.snd h
          dsimp only at this
          simp only [finishJob_frame .., ← this, buildImage_frame .., modJob_frame .., writeCounter_frame ..]
        · rename_i h
          have := congrArg Prod.snd h
          dsimp only at this
          split <;> simp only [hf, requestBack_frame .., drawFree_frame .., giveOutput_frame .., ← this, buildImage_frame .., modJob_frame ..,
            writeCounter_frame ..]

theorem startExport_powder (toCard : State → State) (tag : Nat) (s : State) (hf : ∀ s, (toCard s).powder = s.powder)
    : (startExport toCard tag s).powder = s.powder := by
  unfold startExport
  split
  · rfl
  · dsimp only
    split
    · simp only [finishJob_frame .., modJob_frame .., writeCounter_frame ..]
      split <;> simp only [captureFault_frame .., modJob_frame .., writeCounter_frame ..]
    · split
      · simp only [finishJob_frame .., readHolds_frame .., modJob_frame .., writeCounter_frame ..]
      · split
        · rename_i h
          have := congrArg Prod.snd h
          dsimp only at this
          simp only [finishJob_frame .., ← this, buildImage_frame .., modJob_frame .., writeCounter_frame ..]
        · rename_i h
          have := congrArg Prod.snd h
          dsimp only at this
          split <;> simp only [hf, requestBack_frame .., drawFree_frame .., giveOutput_frame .., ← this, buildImage_frame .., modJob_frame ..,
            writeCounter_frame ..]

theorem startExport_merya (toCard : State → State) (tag : Nat) (s : State) (hf : ∀ s, (toCard s).merya = s.merya) :
    (startExport toCard tag s).merya = s.merya := by
  unfold startExport
  split
  · rfl
  · dsimp only
    split
    · simp only [finishJob_frame .., modJob_frame .., writeCounter_frame ..]
      split <;> simp only [captureFault_frame .., modJob_frame .., writeCounter_frame ..]
    · split
      · simp only [finishJob_frame .., readHolds_frame .., modJob_frame .., writeCounter_frame ..]
      · split
        · rename_i h
          have := congrArg Prod.snd h
          dsimp only at this
          simp only [finishJob_frame .., ← this, buildImage_frame .., modJob_frame .., writeCounter_frame ..]
        · rename_i h
          have := congrArg Prod.snd h
          dsimp only at this
          split <;> simp only [hf, requestBack_frame .., drawFree_frame .., giveOutput_frame .., ← this, buildImage_frame .., modJob_frame ..,
            writeCounter_frame ..]

theorem startExport_hut (toCard : State → State) (tag : Nat) (s : State) (hf : ∀ s, (toCard s).hut = s.hut) :
    (startExport toCard tag s).hut = s.hut := by
  unfold startExport
  split
  · rfl
  · dsimp only
    split
    · simp only [finishJob_frame .., modJob_frame .., writeCounter_frame ..]
      split <;> simp only [captureFault_frame .., modJob_frame .., writeCounter_frame ..]
    · split
      · simp only [finishJob_frame .., readHolds_frame .., modJob_frame .., writeCounter_frame ..]
      · split
        · rename_i h
          have := congrArg Prod.snd h
          dsimp only at this
          simp only [finishJob_frame .., ← this, buildImage_frame .., modJob_frame .., writeCounter_frame ..]
        · rename_i h
          have := congrArg Prod.snd h
          dsimp only at this
          split <;> simp only [hf, requestBack_frame .., drawFree_frame .., giveOutput_frame .., ← this, buildImage_frame .., modJob_frame ..,
            writeCounter_frame ..]

theorem startExport_alarm (toCard : State → State) (tag : Nat) (s : State) (hf : ∀ s, (toCard s).alarm = s.alarm) :
    (startExport toCard tag s).alarm = s.alarm := by
  unfold startExport
  split
  · rfl
  · dsimp only
    split
    · simp only [finishJob_frame .., modJob_frame .., writeCounter_frame ..]
      split <;> simp only [captureFault_frame .., modJob_frame .., writeCounter_frame ..]
    · split
      · simp only [finishJob_frame .., readHolds_frame .., modJob_frame .., writeCounter_frame ..]
      · split
        · rename_i h
          have := congrArg Prod.snd h
          dsimp only at this
          simp only [finishJob_frame .., ← this, buildImage_frame .., modJob_frame .., writeCounter_frame ..]
        · rename_i h
          have := congrArg Prod.snd h
          dsimp only at this
          split <;> simp only [hf, requestBack_frame .., drawFree_frame .., giveOutput_frame .., ← this, buildImage_frame .., modJob_frame ..,
            writeCounter_frame ..]

theorem startExport_card (toCard : State → State) (tag : Nat) (s : State) (hf : ∀ s, (toCard s).card = s.card) :
    (startExport toCard tag s).card = s.card := by
  unfold startExport
  split
  · rfl
  · dsimp only
    split
    · simp only [finishJob_frame .., modJob_frame .., writeCounter_frame ..]
      split <;> simp only [captureFault_frame .., modJob_frame .., writeCounter_frame ..]
    · split
      · simp only [finishJob_frame .., readHolds_frame .., modJob_frame .., writeCounter_frame ..]
      · split
        · rename_i h
          have := congrArg Prod.snd h
          dsimp only at this
          simp only [finishJob_frame .., ← this, buildImage_frame .., modJob_frame .., writeCounter_frame ..]
        · rename_i h
          have := congrArg Prod.snd h
          dsimp only at this
          split <;> simp only [hf, requestBack_frame .., drawFree_frame .., giveOutput_frame .., ← this, buildImage_frame .., modJob_frame ..,
            writeCounter_frame ..]

theorem startExport_tel (toCard : State → State) (tag : Nat) (s : State) (hf : ∀ s, (toCard s).tel = s.tel) :
    (startExport toCard tag s).tel = s.tel := by
  unfold startExport
  split
  · rfl
  · dsimp only
    split
    · simp only [finishJob_frame .., modJob_frame .., writeCounter_frame ..]
      split <;> simp only [captureFault_frame .., modJob_frame .., writeCounter_frame ..]
    · split
      · simp only [finishJob_frame .., readHolds_frame .., modJob_frame .., writeCounter_frame ..]
      · split
        · rename_i h
          have := congrArg Prod.snd h
          dsimp only at this
          simp only [finishJob_frame .., ← this, buildImage_frame .., modJob_frame .., writeCounter_frame ..]
        · rename_i h
          have := congrArg Prod.snd h
          dsimp only at this
          split <;> simp only [hf, requestBack_frame .., drawFree_frame .., giveOutput_frame .., ← this, buildImage_frame .., modJob_frame ..,
            writeCounter_frame ..]

theorem startExport_pending (toCard : State → State) (tag : Nat) (s : State) (hf : ∀ s, (toCard s).pending =
    s.pending) : (startExport toCard tag s).pending = s.pending := by
  unfold startExport
  split
  · rfl
  · dsimp only
    split
    · simp only [finishJob_frame .., modJob_frame .., writeCounter_frame ..]
      split <;> simp only [captureFault_frame .., modJob_frame .., writeCounter_frame ..]
    · split
      · simp only [finishJob_frame .., readHolds_frame .., modJob_frame .., writeCounter_frame ..]
      · split
        · rename_i h
          have := congrArg Prod.snd h
          dsimp only at this
          simp only [finishJob_frame .., ← this, buildImage_frame .., modJob_frame .., writeCounter_frame ..]
        · rename_i h
          have := congrArg Prod.snd h
          dsimp only at this
          split <;> simp only [hf, requestBack_frame .., drawFree_frame .., giveOutput_frame .., ← this, buildImage_frame .., modJob_frame ..,
            writeCounter_frame ..]

theorem exportsFuel_now (toCard : State → State) (x1 : Nat) (x2 : State) (hf : ∀ s, (toCard s).now = s.now) :
    (exportsFuel toCard x1 x2).now = x2.now := by
  induction x1 generalizing x2 with
  | zero => rfl
  | succ n ih =>
    unfold exportsFuel
    split
    · rfl
    · split
      · rw [ih, startExport_now toCard _ _ hf]
      · rfl

theorem exportsFuel_life (toCard : State → State) (x1 : Nat) (x2 : State) (hf : ∀ s, (toCard s).life = s.life) :
    (exportsFuel toCard x1 x2).life = x2.life := by
  induction x1 generalizing x2 with
  | zero => rfl
  | succ n ih =>
    unfold exportsFuel
    split
    · rfl
    · split
      · rw [ih, startExport_life toCard _ _ hf]
      · rfl

theorem exportsFuel_gate (toCard : State → State) (x1 : Nat) (x2 : State) (hf : ∀ s, (toCard s).gate = s.gate) :
    (exportsFuel toCard x1 x2).gate = x2.gate := by
  induction x1 generalizing x2 with
  | zero => rfl
  | succ n ih =>
    unfold exportsFuel
    split
    · rfl
    · split
      · rw [ih, startExport_gate toCard _ _ hf]
      · rfl

theorem exportsFuel_curves (toCard : State → State) (x1 : Nat) (x2 : State) (hf : ∀ s, (toCard s).curves = s.curves)
    : (exportsFuel toCard x1 x2).curves = x2.curves := by
  induction x1 generalizing x2 with
  | zero => rfl
  | succ n ih =>
    unfold exportsFuel
    split
    · rfl
    · split
      · rw [ih, startExport_curves toCard _ _ hf]
      · rfl

theorem exportsFuel_sess (toCard : State → State) (x1 : Nat) (x2 : State) (hf : ∀ s, (toCard s).sess = s.sess) :
    (exportsFuel toCard x1 x2).sess = x2.sess := by
  induction x1 generalizing x2 with
  | zero => rfl
  | succ n ih =>
    unfold exportsFuel
    split
    · rfl
    · split
      · rw [ih, startExport_sess toCard _ _ hf]
      · rfl

theorem exportsFuel_powder (toCard : State → State) (x1 : Nat) (x2 : State) (hf : ∀ s, (toCard s).powder = s.powder)
    : (exportsFuel toCard x1 x2).powder = x2.powder := by
  induction x1 generalizing x2 with
  | zero => rfl
  | succ n ih =>
    unfold exportsFuel
    split
    · rfl
    · split
      · rw [ih, startExport_powder toCard _ _ hf]
      · rfl

theorem exportsFuel_merya (toCard : State → State) (x1 : Nat) (x2 : State) (hf : ∀ s, (toCard s).merya = s.merya) :
    (exportsFuel toCard x1 x2).merya = x2.merya := by
  induction x1 generalizing x2 with
  | zero => rfl
  | succ n ih =>
    unfold exportsFuel
    split
    · rfl
    · split
      · rw [ih, startExport_merya toCard _ _ hf]
      · rfl

theorem exportsFuel_hut (toCard : State → State) (x1 : Nat) (x2 : State) (hf : ∀ s, (toCard s).hut = s.hut) :
    (exportsFuel toCard x1 x2).hut = x2.hut := by
  induction x1 generalizing x2 with
  | zero => rfl
  | succ n ih =>
    unfold exportsFuel
    split
    · rfl
    · split
      · rw [ih, startExport_hut toCard _ _ hf]
      · rfl

theorem exportsFuel_alarm (toCard : State → State) (x1 : Nat) (x2 : State) (hf : ∀ s, (toCard s).alarm = s.alarm) :
    (exportsFuel toCard x1 x2).alarm = x2.alarm := by
  induction x1 generalizing x2 with
  | zero => rfl
  | succ n ih =>
    unfold exportsFuel
    split
    · rfl
    · split
      · rw [ih, startExport_alarm toCard _ _ hf]
      · rfl

theorem exportsFuel_card (toCard : State → State) (x1 : Nat) (x2 : State) (hf : ∀ s, (toCard s).card = s.card) :
    (exportsFuel toCard x1 x2).card = x2.card := by
  induction x1 generalizing x2 with
  | zero => rfl
  | succ n ih =>
    unfold exportsFuel
    split
    · rfl
    · split
      · rw [ih, startExport_card toCard _ _ hf]
      · rfl

theorem exportsFuel_tel (toCard : State → State) (x1 : Nat) (x2 : State) (hf : ∀ s, (toCard s).tel = s.tel) :
    (exportsFuel toCard x1 x2).tel = x2.tel := by
  induction x1 generalizing x2 with
  | zero => rfl
  | succ n ih =>
    unfold exportsFuel
    split
    · rfl
    · split
      · rw [ih, startExport_tel toCard _ _ hf]
      · rfl

theorem exportsFuel_pending (toCard : State → State) (x1 : Nat) (x2 : State) (hf : ∀ s, (toCard s).pending =
    s.pending) : (exportsFuel toCard x1 x2).pending = x2.pending := by
  induction x1 generalizing x2 with
  | zero => rfl
  | succ n ih =>
    unfold exportsFuel
    split
    · rfl
    · split
      · rw [ih, startExport_pending toCard _ _ hf]
      · rfl

theorem runExports_now (toCard : State → State) (s : State) (hf : ∀ s, (toCard s).now = s.now) : (runExports toCard
    s).now = s.now := by
  unfold runExports
  simp only [State.ite_parts .., ite_self, and_self, implies_true, hf, exportsFuel_now]

theorem runExports_life (toCard : State → State) (s : State) (hf : ∀ s, (toCard s).life = s.life) : (runExports
    toCard s).life = s.life := by
  unfold runExports
  simp only [State.ite_parts .., ite_self, and_self, implies_true, hf, exportsFuel_life]

theorem runExports_gate (toCard : State → State) (s : State) (hf : ∀ s, (toCard s).gate = s.gate) : (runExports
    toCard s).gate = s.gate := by
  unfold runExports
  simp only [State.ite_parts .., ite_self, and_self, implies_true, hf, exportsFuel_gate]

theorem runExports_curves (toCard : State → State) (s : State) (hf : ∀ s, (toCard s).curves = s.curves) :
    (runExports toCard s).curves = s.curves := by
  unfold runExports
  simp only [State.ite_parts .., ite_self, and_self, implies_true, hf, exportsFuel_curves]

theorem runExports_sess (toCard : State → State) (s : State) (hf : ∀ s, (toCard s).sess = s.sess) : (runExports
    toCard s).sess = s.sess := by
  unfold runExports
  simp only [State.ite_parts .., ite_self, and_self, implies_true, hf, exportsFuel_sess]

theorem runExports_powder (toCard : State → State) (s : State) (hf : ∀ s, (toCard s).powder = s.powder) :
    (runExports toCard s).powder = s.powder := by
  unfold runExports
  simp only [State.ite_parts .., ite_self, and_self, implies_true, hf, exportsFuel_powder]

theorem runExports_merya (toCard : State → State) (s : State) (hf : ∀ s, (toCard s).merya = s.merya) : (runExports
    toCard s).merya = s.merya := by
  unfold runExports
  simp only [State.ite_parts .., ite_self, and_self, implies_true, hf, exportsFuel_merya]

theorem runExports_hut (toCard : State → State) (s : State) (hf : ∀ s, (toCard s).hut = s.hut) : (runExports toCard
    s).hut = s.hut := by
  unfold runExports
  simp only [State.ite_parts .., ite_self, and_self, implies_true, hf, exportsFuel_hut]

theorem runExports_alarm (toCard : State → State) (s : State) (hf : ∀ s, (toCard s).alarm = s.alarm) : (runExports
    toCard s).alarm = s.alarm := by
  unfold runExports
  simp only [State.ite_parts .., ite_self, and_self, implies_true, hf, exportsFuel_alarm]

theorem runExports_card (toCard : State → State) (s : State) (hf : ∀ s, (toCard s).card = s.card) : (runExports
    toCard s).card = s.card := by
  unfold runExports
  simp only [State.ite_parts .., ite_self, and_self, implies_true, hf, exportsFuel_card]

theorem runExports_tel (toCard : State → State) (s : State) (hf : ∀ s, (toCard s).tel = s.tel) : (runExports toCard
    s).tel = s.tel := by
  unfold runExports
  simp only [State.ite_parts .., ite_self, and_self, implies_true, hf, exportsFuel_tel]

theorem runExports_pending (toCard : State → State) (s : State) (hf : ∀ s, (toCard s).pending = s.pending) :
    (runExports toCard s).pending = s.pending := by
  unfold runExports
  simp only [State.ite_parts .., ite_self, and_self, implies_true, hf, exportsFuel_pending]

theorem exportVerified_frame (tag : Nat) (s : State) :
    (exportVerified tag s).now = s.now ∧ (exportVerified tag s).free = s.free ∧ (exportVerified tag s).life = s.life ∧
    (exportVerified tag s).link = s.link ∧ (exportVerified tag s).gate = s.gate ∧ (exportVerified tag s).curves =
    s.curves ∧ (exportVerified tag s).sess = s.sess ∧ (exportVerified tag s).ctrs = s.ctrs ∧ (exportVerified tag
    s).powder = s.powder ∧ (exportVerified tag s).merya = s.merya ∧ (exportVerified tag s).prot = s.prot ∧
    (exportVerified tag s).mem = s.mem ∧ (exportVerified tag s).patrol = s.patrol ∧ (exportVerified tag s).hut =
    s.hut ∧ (exportVerified tag s).alarm = s.alarm ∧ (exportVerified tag s).card = s.card ∧ (exportVerified tag
    s).evts = s.evts ∧ (exportVerified tag s).tel = s.tel ∧ (exportVerified tag s).pending = s.pending := by
  unfold exportVerified
  (repeat' split) <;> simp only [State.ite_parts .., ite_self, and_self, implies_true, finishJob_frame .., modJob_frame ..]

theorem hostReadBack_now (toCard : State → State) (tag : Nat) (data : Bytes) (s : State) (hf : ∀ s, (toCard s).now =
    s.now) : (hostReadBack toCard tag data s).now = s.now := by
  unfold hostReadBack
  (repeat' split) <;> simp only [State.ite_parts .., ite_self, and_self, implies_true, finishJob_frame .., exportVerified_frame .., hf,
    runExports_now]

theorem hostReadBack_life (toCard : State → State) (tag : Nat) (data : Bytes) (s : State) (hf : ∀ s, (toCard s).life
    = s.life) : (hostReadBack toCard tag data s).life = s.life := by
  unfold hostReadBack
  (repeat' split) <;> simp only [State.ite_parts .., ite_self, and_self, implies_true, finishJob_frame .., exportVerified_frame .., hf,
    runExports_life]

theorem hostReadBack_gate (toCard : State → State) (tag : Nat) (data : Bytes) (s : State) (hf : ∀ s, (toCard s).gate
    = s.gate) : (hostReadBack toCard tag data s).gate = s.gate := by
  unfold hostReadBack
  (repeat' split) <;> simp only [State.ite_parts .., ite_self, and_self, implies_true, finishJob_frame .., exportVerified_frame .., hf,
    runExports_gate]

theorem hostReadBack_curves (toCard : State → State) (tag : Nat) (data : Bytes) (s : State) (hf : ∀ s, (toCard
    s).curves = s.curves) : (hostReadBack toCard tag data s).curves = s.curves := by
  unfold hostReadBack
  (repeat' split) <;> simp only [State.ite_parts .., ite_self, and_self, implies_true, finishJob_frame .., exportVerified_frame .., hf,
    runExports_curves]

theorem hostReadBack_sess (toCard : State → State) (tag : Nat) (data : Bytes) (s : State) (hf : ∀ s, (toCard s).sess
    = s.sess) : (hostReadBack toCard tag data s).sess = s.sess := by
  unfold hostReadBack
  (repeat' split) <;> simp only [State.ite_parts .., ite_self, and_self, implies_true, finishJob_frame .., exportVerified_frame .., hf,
    runExports_sess]

theorem hostReadBack_powder (toCard : State → State) (tag : Nat) (data : Bytes) (s : State) (hf : ∀ s, (toCard
    s).powder = s.powder) : (hostReadBack toCard tag data s).powder = s.powder := by
  unfold hostReadBack
  (repeat' split) <;> simp only [State.ite_parts .., ite_self, and_self, implies_true, finishJob_frame .., exportVerified_frame .., hf,
    runExports_powder]

theorem hostReadBack_merya (toCard : State → State) (tag : Nat) (data : Bytes) (s : State) (hf : ∀ s, (toCard
    s).merya = s.merya) : (hostReadBack toCard tag data s).merya = s.merya := by
  unfold hostReadBack
  (repeat' split) <;> simp only [State.ite_parts .., ite_self, and_self, implies_true, finishJob_frame .., exportVerified_frame .., hf,
    runExports_merya]

theorem hostReadBack_hut (toCard : State → State) (tag : Nat) (data : Bytes) (s : State) (hf : ∀ s, (toCard s).hut =
    s.hut) : (hostReadBack toCard tag data s).hut = s.hut := by
  unfold hostReadBack
  (repeat' split) <;> simp only [State.ite_parts .., ite_self, and_self, implies_true, finishJob_frame .., exportVerified_frame .., hf,
    runExports_hut]

theorem hostReadBack_alarm (toCard : State → State) (tag : Nat) (data : Bytes) (s : State) (hf : ∀ s, (toCard
    s).alarm = s.alarm) : (hostReadBack toCard tag data s).alarm = s.alarm := by
  unfold hostReadBack
  (repeat' split) <;> simp only [State.ite_parts .., ite_self, and_self, implies_true, finishJob_frame .., exportVerified_frame .., hf,
    runExports_alarm]

theorem hostReadBack_card (toCard : State → State) (tag : Nat) (data : Bytes) (s : State) (hf : ∀ s, (toCard s).card
    = s.card) : (hostReadBack toCard tag data s).card = s.card := by
  unfold hostReadBack
  (repeat' split) <;> simp only [State.ite_parts .., ite_self, and_self, implies_true, finishJob_frame .., exportVerified_frame .., hf,
    runExports_card]

theorem hostReadBack_tel (toCard : State → State) (tag : Nat) (data : Bytes) (s : State) (hf : ∀ s, (toCard s).tel =
    s.tel) : (hostReadBack toCard tag data s).tel = s.tel := by
  unfold hostReadBack
  (repeat' split) <;> simp only [State.ite_parts .., ite_self, and_self, implies_true, finishJob_frame .., exportVerified_frame .., hf,
    runExports_tel]

theorem hostReadBack_pending (toCard : State → State) (tag : Nat) (data : Bytes) (s : State) (hf : ∀ s, (toCard
    s).pending = s.pending) : (hostReadBack toCard tag data s).pending = s.pending := by
  unfold hostReadBack
  (repeat' split) <;> simp only [State.ite_parts .., ite_self, and_self, implies_true, finishJob_frame .., exportVerified_frame .., hf,
    runExports_pending]

/-! ### Card.lean -/

theorem modCard_frame (f : Card → Card) (s : State) :
    (modCard f s).now = s.now ∧ (modCard f s).free = s.free ∧ (modCard f s).life = s.life ∧ (modCard f s).link = s.link
    ∧ (modCard f s).gate = s.gate ∧ (modCard f s).rings = s.rings ∧ (modCard f s).units = s.units ∧ (modCard f
    s).curves = s.curves ∧ (modCard f s).sess = s.sess ∧ (modCard f s).vault = s.vault ∧ (modCard f s).ctrs = s.ctrs
    ∧ (modCard f s).powder = s.powder ∧ (modCard f s).merya = s.merya ∧ (modCard f s).prot = s.prot ∧ (modCard f
    s).mem = s.mem ∧ (modCard f s).stored = s.stored ∧ (modCard f s).patrol = s.patrol ∧ (modCard f s).trk = s.trk ∧
    (modCard f s).hut = s.hut ∧ (modCard f s).alarm = s.alarm ∧ (modCard f s).evts = s.evts ∧ (modCard f s).tel =
    s.tel ∧ (modCard f s).pending = s.pending := by
  simp only [modCard, State.ite_parts .., ite_self, and_self, implies_true]

theorem toPhase_frame (p : CardPhase) (s : State) :
    (toPhase p s).now = s.now ∧ (toPhase p s).free = s.free ∧ (toPhase p s).life = s.life ∧ (toPhase p s).link = s.link
    ∧ (toPhase p s).gate = s.gate ∧ (toPhase p s).rings = s.rings ∧ (toPhase p s).units = s.units ∧ (toPhase p
    s).curves = s.curves ∧ (toPhase p s).sess = s.sess ∧ (toPhase p s).vault = s.vault ∧ (toPhase p s).ctrs = s.ctrs
    ∧ (toPhase p s).powder = s.powder ∧ (toPhase p s).merya = s.merya ∧ (toPhase p s).prot = s.prot ∧ (toPhase p
    s).mem = s.mem ∧ (toPhase p s).stored = s.stored ∧ (toPhase p s).patrol = s.patrol ∧ (toPhase p s).trk = s.trk ∧
    (toPhase p s).hut = s.hut ∧ (toPhase p s).alarm = s.alarm ∧ (toPhase p s).evts = s.evts ∧ (toPhase p s).tel =
    s.tel ∧ (toPhase p s).pending = s.pending := by
  simp only [toPhase, State.ite_parts .., ite_self, and_self, implies_true, modCard_frame ..]

theorem cardReady_frame (s : State) :
    (cardReady s).now = s.now ∧ (cardReady s).free = s.free ∧ (cardReady s).life = s.life ∧ (cardReady s).gate = s.gate
    ∧ (cardReady s).rings = s.rings ∧ (cardReady s).units = s.units ∧ (cardReady s).curves = s.curves ∧ (cardReady
    s).sess = s.sess ∧ (cardReady s).vault = s.vault ∧ (cardReady s).ctrs = s.ctrs ∧ (cardReady s).powder = s.powder
    ∧ (cardReady s).merya = s.merya ∧ (cardReady s).prot = s.prot ∧ (cardReady s).mem = s.mem ∧ (cardReady s).stored
    = s.stored ∧ (cardReady s).patrol = s.patrol ∧ (cardReady s).trk = s.trk ∧ (cardReady s).hut = s.hut ∧
    (cardReady s).alarm = s.alarm ∧ (cardReady s).tel = s.tel ∧ (cardReady s).pending = s.pending := by
  simp only [cardReady, State.ite_parts .., ite_self, and_self, implies_true, setCardEvt_frame .., modCard_frame ..]

theorem identProbe_frame (s : State) :
    (identProbe s).now = s.now ∧ (identProbe s).free = s.free ∧ (identProbe s).life = s.life ∧ (identProbe s).gate =
    s.gate ∧ (identProbe s).rings = s.rings ∧ (identProbe s).units = s.units ∧ (identProbe s).curves = s.curves ∧
    (identProbe s).sess = s.sess ∧ (identProbe s).vault = s.vault ∧ (identProbe s).ctrs = s.ctrs ∧ (identProbe
    s).powder = s.powder ∧ (identProbe s).merya = s.merya ∧ (identProbe s).prot = s.prot ∧ (identProbe s).mem =
    s.mem ∧ (identProbe s).stored = s.stored ∧ (identProbe s).patrol = s.patrol ∧ (identProbe s).trk = s.trk ∧
    (identProbe s).hut = s.hut ∧ (identProbe s).alarm = s.alarm ∧ (identProbe s).tel = s.tel ∧ (identProbe
    s).pending = s.pending := by
  simp only [identProbe, State.ite_parts .., ite_self, and_self, implies_true, toPhase_frame .., cardReady_frame ..]

theorem identSpeed_frame (s : State) :
    (identSpeed s).now = s.now ∧ (identSpeed s).free = s.free ∧ (identSpeed s).life = s.life ∧ (identSpeed s).gate =
    s.gate ∧ (identSpeed s).rings = s.rings ∧ (identSpeed s).units = s.units ∧ (identSpeed s).curves = s.curves ∧
    (identSpeed s).sess = s.sess ∧ (identSpeed s).vault = s.vault ∧ (identSpeed s).ctrs = s.ctrs ∧ (identSpeed
    s).powder = s.powder ∧ (identSpeed s).merya = s.merya ∧ (identSpeed s).prot = s.prot ∧ (identSpeed s).mem =
    s.mem ∧ (identSpeed s).stored = s.stored ∧ (identSpeed s).patrol = s.patrol ∧ (identSpeed s).trk = s.trk ∧
    (identSpeed s).hut = s.hut ∧ (identSpeed s).alarm = s.alarm ∧ (identSpeed s).tel = s.tel ∧ (identSpeed
    s).pending = s.pending := by
  simp only [identSpeed, State.ite_parts .., ite_self, and_self, implies_true, toPhase_frame .., identProbe_frame ..]

theorem readIdentity_frame (b : Bytes) (s : State) :
    (readIdentity b s).now = s.now ∧ (readIdentity b s).free = s.free ∧ (readIdentity b s).life = s.life ∧ (readIdentity
    b s).link = s.link ∧ (readIdentity b s).gate = s.gate ∧ (readIdentity b s).rings = s.rings ∧ (readIdentity b
    s).units = s.units ∧ (readIdentity b s).curves = s.curves ∧ (readIdentity b s).sess = s.sess ∧ (readIdentity b
    s).vault = s.vault ∧ (readIdentity b s).ctrs = s.ctrs ∧ (readIdentity b s).powder = s.powder ∧ (readIdentity b
    s).merya = s.merya ∧ (readIdentity b s).prot = s.prot ∧ (readIdentity b s).mem = s.mem ∧ (readIdentity b
    s).stored = s.stored ∧ (readIdentity b s).patrol = s.patrol ∧ (readIdentity b s).trk = s.trk ∧ (readIdentity b
    s).hut = s.hut ∧ (readIdentity b s).alarm = s.alarm ∧ (readIdentity b s).evts = s.evts ∧ (readIdentity b s).tel
    = s.tel ∧ (readIdentity b s).pending = s.pending := by
  simp only [readIdentity, State.ite_parts .., ite_self, and_self, implies_true, modCard_frame ..]

theorem freePort_frame (s : State) :
    (freePort s).now = s.now ∧ (freePort s).free = s.free ∧ (freePort s).life = s.life ∧ (freePort s).link = s.link ∧
    (freePort s).gate = s.gate ∧ (freePort s).rings = s.rings ∧ (freePort s).units = s.units ∧ (freePort s).curves =
    s.curves ∧ (freePort s).sess = s.sess ∧ (freePort s).vault = s.vault ∧ (freePort s).ctrs = s.ctrs ∧ (freePort
    s).powder = s.powder ∧ (freePort s).merya = s.merya ∧ (freePort s).prot = s.prot ∧ (freePort s).mem = s.mem ∧
    (freePort s).stored = s.stored ∧ (freePort s).patrol = s.patrol ∧ (freePort s).trk = s.trk ∧ (freePort s).hut =
    s.hut ∧ (freePort s).alarm = s.alarm ∧ (freePort s).evts = s.evts ∧ (freePort s).tel = s.tel ∧ (freePort
    s).pending = s.pending := by
  simp only [freePort, State.ite_parts .., ite_self, and_self, implies_true, modCard_frame ..]

theorem endFlow_frame (reason : Nat) (s : State) :
    (endFlow reason s).now = s.now ∧ (endFlow reason s).free = s.free ∧ (endFlow reason s).life = s.life ∧ (endFlow
    reason s).gate = s.gate ∧ (endFlow reason s).rings = s.rings ∧ (endFlow reason s).units = s.units ∧ (endFlow
    reason s).curves = s.curves ∧ (endFlow reason s).sess = s.sess ∧ (endFlow reason s).vault = s.vault ∧ (endFlow
    reason s).ctrs = s.ctrs ∧ (endFlow reason s).powder = s.powder ∧ (endFlow reason s).merya = s.merya ∧ (endFlow
    reason s).prot = s.prot ∧ (endFlow reason s).mem = s.mem ∧ (endFlow reason s).stored = s.stored ∧ (endFlow
    reason s).patrol = s.patrol ∧ (endFlow reason s).trk = s.trk ∧ (endFlow reason s).hut = s.hut ∧ (endFlow reason
    s).alarm = s.alarm ∧ (endFlow reason s).tel = s.tel ∧ (endFlow reason s).pending = s.pending := by
  simp only [endFlow, State.ite_parts .., ite_self, and_self, implies_true, freePort_frame .., modCard_frame ..,
    setCardEvt_frame ..]

theorem noteFailure_frame (st : Status) (reason : Nat) (s : State) :
    (noteFailure st reason s).now = s.now ∧ (noteFailure st reason s).free = s.free ∧ (noteFailure st reason s).life =
    s.life ∧ (noteFailure st reason s).gate = s.gate ∧ (noteFailure st reason s).rings = s.rings ∧ (noteFailure st
    reason s).units = s.units ∧ (noteFailure st reason s).curves = s.curves ∧ (noteFailure st reason s).sess =
    s.sess ∧ (noteFailure st reason s).vault = s.vault ∧ (noteFailure st reason s).ctrs = s.ctrs ∧ (noteFailure st
    reason s).powder = s.powder ∧ (noteFailure st reason s).merya = s.merya ∧ (noteFailure st reason s).prot =
    s.prot ∧ (noteFailure st reason s).mem = s.mem ∧ (noteFailure st reason s).stored = s.stored ∧ (noteFailure st
    reason s).patrol = s.patrol ∧ (noteFailure st reason s).trk = s.trk ∧ (noteFailure st reason s).hut = s.hut ∧
    (noteFailure st reason s).alarm = s.alarm ∧ (noteFailure st reason s).tel = s.tel ∧ (noteFailure st reason
    s).pending = s.pending := by
  simp only [noteFailure, State.ite_parts .., ite_self, and_self, implies_true, modCard_frame .., setCardEvt_frame ..]

theorem fixCardJob_frame (j : Job) (st : Status) (reason : Nat) (bytes : Option Nat) (s : State) :
    (fixCardJob j st reason bytes s).now = s.now ∧ (fixCardJob j st reason bytes s).free = s.free ∧ (fixCardJob j st
    reason bytes s).life = s.life ∧ (fixCardJob j st reason bytes s).gate = s.gate ∧ (fixCardJob j st reason bytes
    s).curves = s.curves ∧ (fixCardJob j st reason bytes s).sess = s.sess ∧ (fixCardJob j st reason bytes s).ctrs =
    s.ctrs ∧ (fixCardJob j st reason bytes s).powder = s.powder ∧ (fixCardJob j st reason bytes s).merya = s.merya ∧
    (fixCardJob j st reason bytes s).prot = s.prot ∧ (fixCardJob j st reason bytes s).mem = s.mem ∧ (fixCardJob j st
    reason bytes s).patrol = s.patrol ∧ (fixCardJob j st reason bytes s).hut = s.hut ∧ (fixCardJob j st reason bytes
    s).alarm = s.alarm ∧ (fixCardJob j st reason bytes s).tel = s.tel ∧ (fixCardJob j st reason bytes s).pending =
    s.pending := by
  simp only [fixCardJob, State.ite_parts .., ite_self, and_self, implies_true, modJob_frame .., finishJob_frame ..,
    noteFailure_frame ..]

theorem endExchange_frame (st : Status) (reason : Nat) (bytes : Option Nat) (s : State) :
    (endExchange st reason bytes s).now = s.now ∧ (endExchange st reason bytes s).free = s.free ∧ (endExchange st reason
    bytes s).life = s.life ∧ (endExchange st reason bytes s).gate = s.gate ∧ (endExchange st reason bytes s).curves
    = s.curves ∧ (endExchange st reason bytes s).sess = s.sess ∧ (endExchange st reason bytes s).ctrs = s.ctrs ∧
    (endExchange st reason bytes s).powder = s.powder ∧ (endExchange st reason bytes s).merya = s.merya ∧
    (endExchange st reason bytes s).prot = s.prot ∧ (endExchange st reason bytes s).mem = s.mem ∧ (endExchange st
    reason bytes s).patrol = s.patrol ∧ (endExchange st reason bytes s).hut = s.hut ∧ (endExchange st reason bytes
    s).alarm = s.alarm ∧ (endExchange st reason bytes s).tel = s.tel ∧ (endExchange st reason bytes s).pending =
    s.pending := by
  unfold endExchange
  (repeat' split) <;> simp only [State.ite_parts .., ite_self, and_self, implies_true, endFlow_frame .., freePort_frame .., fixCardJob_frame ..]

theorem readEnds_frame (s : State) :
    (readEnds s).now = s.now ∧ (readEnds s).free = s.free ∧ (readEnds s).life = s.life ∧ (readEnds s).gate = s.gate ∧
    (readEnds s).curves = s.curves ∧ (readEnds s).sess = s.sess ∧ (readEnds s).ctrs = s.ctrs ∧ (readEnds s).powder =
    s.powder ∧ (readEnds s).merya = s.merya ∧ (readEnds s).prot = s.prot ∧ (readEnds s).mem = s.mem ∧ (readEnds
    s).patrol = s.patrol ∧ (readEnds s).hut = s.hut ∧ (readEnds s).alarm = s.alarm ∧ (readEnds s).tel = s.tel ∧
    (readEnds s).pending = s.pending := by
  simp only [readEnds, State.ite_parts .., ite_self, and_self, implies_true, endExchange_frame ..]

theorem readBlock_frame (data : Bytes) (s : State) :
    (readBlock data s).now = s.now ∧ (readBlock data s).free = s.free ∧ (readBlock data s).life = s.life ∧ (readBlock
    data s).gate = s.gate ∧ (readBlock data s).curves = s.curves ∧ (readBlock data s).sess = s.sess ∧ (readBlock
    data s).ctrs = s.ctrs ∧ (readBlock data s).powder = s.powder ∧ (readBlock data s).merya = s.merya ∧ (readBlock
    data s).patrol = s.patrol ∧ (readBlock data s).hut = s.hut ∧ (readBlock data s).alarm = s.alarm ∧ (readBlock
    data s).tel = s.tel ∧ (readBlock data s).pending = s.pending := by
  simp only [readBlock, State.ite_parts .., ite_self, and_self, implies_true, modCard_frame .., giveOutput_frame ..,
    readEnds_frame .., toPhase_frame ..]
  (repeat' split) <;> simp only [State.ite_parts .., ite_self, and_self, implies_true, modCard_frame .., giveOutput_frame .., readEnds_frame ..,
    toPhase_frame ..]

theorem readBackEnds_frame (s : State) :
    (readBackEnds s).now = s.now ∧ (readBackEnds s).free = s.free ∧ (readBackEnds s).life = s.life ∧ (readBackEnds
    s).gate = s.gate ∧ (readBackEnds s).curves = s.curves ∧ (readBackEnds s).sess = s.sess ∧ (readBackEnds s).ctrs =
    s.ctrs ∧ (readBackEnds s).powder = s.powder ∧ (readBackEnds s).merya = s.merya ∧ (readBackEnds s).prot = s.prot
    ∧ (readBackEnds s).mem = s.mem ∧ (readBackEnds s).patrol = s.patrol ∧ (readBackEnds s).hut = s.hut ∧
    (readBackEnds s).alarm = s.alarm ∧ (readBackEnds s).tel = s.tel ∧ (readBackEnds s).pending = s.pending := by
  unfold readBackEnds
  (repeat' split) <;> simp only [State.ite_parts .., ite_self, and_self, implies_true, freePort_frame .., exportVerified_frame ..,
    endExchange_frame ..]

theorem readBackBlock_frame (data : Bytes) (s : State) :
    (readBackBlock data s).now = s.now ∧ (readBackBlock data s).free = s.free ∧ (readBackBlock data s).life = s.life ∧
    (readBackBlock data s).gate = s.gate ∧ (readBackBlock data s).curves = s.curves ∧ (readBackBlock data s).sess =
    s.sess ∧ (readBackBlock data s).ctrs = s.ctrs ∧ (readBackBlock data s).powder = s.powder ∧ (readBackBlock data
    s).merya = s.merya ∧ (readBackBlock data s).prot = s.prot ∧ (readBackBlock data s).mem = s.mem ∧ (readBackBlock
    data s).patrol = s.patrol ∧ (readBackBlock data s).hut = s.hut ∧ (readBackBlock data s).alarm = s.alarm ∧
    (readBackBlock data s).tel = s.tel ∧ (readBackBlock data s).pending = s.pending := by
  simp only [readBackBlock, State.ite_parts .., ite_self, and_self, implies_true, modCard_frame .., readBackEnds_frame ..,
    toPhase_frame ..]

theorem closeMbx_frame (s : State) :
    (closeMbx s).now = s.now ∧ (closeMbx s).free = s.free ∧ (closeMbx s).life = s.life ∧ (closeMbx s).link = s.link ∧
    (closeMbx s).gate = s.gate ∧ (closeMbx s).rings = s.rings ∧ (closeMbx s).units = s.units ∧ (closeMbx s).curves =
    s.curves ∧ (closeMbx s).sess = s.sess ∧ (closeMbx s).vault = s.vault ∧ (closeMbx s).ctrs = s.ctrs ∧ (closeMbx
    s).powder = s.powder ∧ (closeMbx s).merya = s.merya ∧ (closeMbx s).prot = s.prot ∧ (closeMbx s).mem = s.mem ∧
    (closeMbx s).stored = s.stored ∧ (closeMbx s).patrol = s.patrol ∧ (closeMbx s).trk = s.trk ∧ (closeMbx s).hut =
    s.hut ∧ (closeMbx s).alarm = s.alarm ∧ (closeMbx s).evts = s.evts ∧ (closeMbx s).tel = s.tel ∧ (closeMbx
    s).pending = s.pending := by
  simp only [closeMbx, State.ite_parts .., ite_self, and_self, implies_true, modCard_frame ..]

theorem afterIdentity_frame (s : State) :
    (afterIdentity s).now = s.now ∧ (afterIdentity s).free = s.free ∧ (afterIdentity s).life = s.life ∧ (afterIdentity
    s).gate = s.gate ∧ (afterIdentity s).curves = s.curves ∧ (afterIdentity s).sess = s.sess ∧ (afterIdentity
    s).ctrs = s.ctrs ∧ (afterIdentity s).powder = s.powder ∧ (afterIdentity s).merya = s.merya ∧ (afterIdentity
    s).prot = s.prot ∧ (afterIdentity s).mem = s.mem ∧ (afterIdentity s).patrol = s.patrol ∧ (afterIdentity s).hut =
    s.hut ∧ (afterIdentity s).alarm = s.alarm ∧ (afterIdentity s).tel = s.tel ∧ (afterIdentity s).pending =
    s.pending := by
  simp only [afterIdentity, State.ite_parts .., ite_self, and_self, implies_true, modCard_frame .., toPhase_frame ..,
    endExchange_frame .., closeMbx_frame ..]

theorem flowEnd_frame (s : State) :
    (flowEnd s).1.now = s.now ∧ (flowEnd s).1.free = s.free ∧ (flowEnd s).1.life = s.life ∧ (flowEnd s).1.curves =
    s.curves ∧ (flowEnd s).1.vault = s.vault ∧ (flowEnd s).1.merya = s.merya ∧ (flowEnd s).1.prot = s.prot ∧
    (flowEnd s).1.mem = s.mem ∧ (flowEnd s).1.stored = s.stored ∧ (flowEnd s).1.patrol = s.patrol ∧ (flowEnd
    s).1.trk = s.trk ∧ (flowEnd s).1.hut = s.hut ∧ (flowEnd s).1.alarm = s.alarm ∧ (flowEnd s).1.card = s.card ∧
    (flowEnd s).1.tel = s.tel ∧ (flowEnd s).1.pending = s.pending := by
  unfold flowEnd
  (repeat' split) <;> simp only [State.ite_parts .., ite_self, and_self, implies_true, countStatus_frame .., giveBackCredit_frame ..]

theorem flowCommit_frame (b : CmdBlock) (s : State) :
    (flowCommit b s).now = s.now ∧ (flowCommit b s).card = s.card ∧ (flowCommit b s).tel = s.tel ∧ (flowCommit b
    s).pending = s.pending := by
  unfold flowCommit
  (repeat' split) <;> simp only [State.ite_parts .., ite_self, and_self, implies_true, commitCommand_frame ..]

theorem runFlowCommand_frame (b : CmdBlock) (s : State) :
    (runFlowCommand b s).1.now = s.now ∧ (runFlowCommand b s).1.card = s.card ∧ (runFlowCommand b s).1.pending =
    s.pending := by
  unfold runFlowCommand
  dsimp only
  split
  · simp only [and_self]
  · simp only [and_self]
  · simp only [flowEnd_frame .., flowCommit_frame .., releaseBarrier_frame .., joinJobs_frame .., takeCredit_frame .., and_self]

theorem startAnswer_frame (st : Nat) (result : DWord) (s : State) :
    (startAnswer st result s).now = s.now ∧ (startAnswer st result s).free = s.free ∧ (startAnswer st result s).life =
    s.life ∧ (startAnswer st result s).link = s.link ∧ (startAnswer st result s).gate = s.gate ∧ (startAnswer st
    result s).rings = s.rings ∧ (startAnswer st result s).units = s.units ∧ (startAnswer st result s).curves =
    s.curves ∧ (startAnswer st result s).sess = s.sess ∧ (startAnswer st result s).vault = s.vault ∧ (startAnswer st
    result s).ctrs = s.ctrs ∧ (startAnswer st result s).powder = s.powder ∧ (startAnswer st result s).merya =
    s.merya ∧ (startAnswer st result s).prot = s.prot ∧ (startAnswer st result s).mem = s.mem ∧ (startAnswer st
    result s).stored = s.stored ∧ (startAnswer st result s).patrol = s.patrol ∧ (startAnswer st result s).trk =
    s.trk ∧ (startAnswer st result s).hut = s.hut ∧ (startAnswer st result s).alarm = s.alarm ∧ (startAnswer st
    result s).evts = s.evts ∧ (startAnswer st result s).tel = s.tel ∧ (startAnswer st result s).pending = s.pending := by
  simp only [startAnswer, State.ite_parts .., ite_self, and_self, implies_true, toPhase_frame .., modCard_frame ..]

theorem flowRan_frame (auth : Nat) (st : Status) (res : DWord) (s : State) :
    (flowRan auth st res s).now = s.now ∧ (flowRan auth st res s).free = s.free ∧ (flowRan auth st res s).life = s.life
    ∧ (flowRan auth st res s).link = s.link ∧ (flowRan auth st res s).gate = s.gate ∧ (flowRan auth st res s).rings
    = s.rings ∧ (flowRan auth st res s).units = s.units ∧ (flowRan auth st res s).curves = s.curves ∧ (flowRan auth
    st res s).sess = s.sess ∧ (flowRan auth st res s).vault = s.vault ∧ (flowRan auth st res s).ctrs = s.ctrs ∧
    (flowRan auth st res s).powder = s.powder ∧ (flowRan auth st res s).merya = s.merya ∧ (flowRan auth st res
    s).prot = s.prot ∧ (flowRan auth st res s).mem = s.mem ∧ (flowRan auth st res s).stored = s.stored ∧ (flowRan
    auth st res s).patrol = s.patrol ∧ (flowRan auth st res s).trk = s.trk ∧ (flowRan auth st res s).hut = s.hut ∧
    (flowRan auth st res s).alarm = s.alarm ∧ (flowRan auth st res s).evts = s.evts ∧ (flowRan auth st res s).tel =
    s.tel ∧ (flowRan auth st res s).pending = s.pending := by
  simp only [flowRan, State.ite_parts .., ite_self, and_self, implies_true, startAnswer_frame .., modCard_frame ..]

theorem flowResponse_frame (len : Nat) (payload : Bytes) (s : State) :
    (flowResponse len payload s).now = s.now ∧ (flowResponse len payload s).pending = s.pending := by
  unfold flowResponse
  dsimp only
  split
  · simp only [endFlow_frame .., and_self]
  · simp only [flowRan_frame .., runFlowCommand_frame .., and_self]

theorem mailboxResponse_frame (b : Bytes) (s : State) :
    (mailboxResponse b s).now = s.now ∧ (mailboxResponse b s).pending = s.pending := by
  simp only [mailboxResponse, State.ite_parts .., ite_self, and_self, implies_true, endExchange_frame .., toPhase_frame ..,
    closeMbx_frame .., modCard_frame .., flowResponse_frame .., endFlow_frame .., giveOutput_frame .., freePort_frame ..]
  (repeat' split) <;> simp only [State.ite_parts .., ite_self, and_self, implies_true, endExchange_frame .., toPhase_frame .., closeMbx_frame ..,
    modCard_frame .., flowResponse_frame .., endFlow_frame .., giveOutput_frame .., freePort_frame ..]

theorem goodBlock_frame (data : Bytes) (s : State) :
    (goodBlock data s).now = s.now ∧ (goodBlock data s).pending = s.pending := by
  unfold goodBlock
  (repeat' split) <;> simp only [State.ite_parts .., ite_self, and_self, implies_true, cardReady_frame .., modCard_frame .., readIdentity_frame ..,
    readBlock_frame .., readBackBlock_frame .., endExchange_frame .., afterIdentity_frame .., mailboxResponse_frame ..]

theorem openMbx_frame (s : State) :
    (openMbx s).now = s.now ∧ (openMbx s).free = s.free ∧ (openMbx s).life = s.life ∧ (openMbx s).link = s.link ∧
    (openMbx s).gate = s.gate ∧ (openMbx s).rings = s.rings ∧ (openMbx s).units = s.units ∧ (openMbx s).curves =
    s.curves ∧ (openMbx s).sess = s.sess ∧ (openMbx s).vault = s.vault ∧ (openMbx s).ctrs = s.ctrs ∧ (openMbx
    s).powder = s.powder ∧ (openMbx s).merya = s.merya ∧ (openMbx s).prot = s.prot ∧ (openMbx s).mem = s.mem ∧
    (openMbx s).stored = s.stored ∧ (openMbx s).patrol = s.patrol ∧ (openMbx s).trk = s.trk ∧ (openMbx s).hut =
    s.hut ∧ (openMbx s).alarm = s.alarm ∧ (openMbx s).evts = s.evts ∧ (openMbx s).tel = s.tel ∧ (openMbx s).pending
    = s.pending := by
  simp only [openMbx, State.ite_parts .., ite_self, and_self, implies_true, modCard_frame ..]

theorem mbxState_frame (state : Nat) (ready : Bool) (error : Bool) (s : State) :
    (mbxState state ready error s).now = s.now ∧ (mbxState state ready error s).free = s.free ∧ (mbxState state ready
    error s).life = s.life ∧ (mbxState state ready error s).gate = s.gate ∧ (mbxState state ready error s).curves =
    s.curves ∧ (mbxState state ready error s).sess = s.sess ∧ (mbxState state ready error s).ctrs = s.ctrs ∧
    (mbxState state ready error s).powder = s.powder ∧ (mbxState state ready error s).merya = s.merya ∧ (mbxState
    state ready error s).prot = s.prot ∧ (mbxState state ready error s).mem = s.mem ∧ (mbxState state ready error
    s).patrol = s.patrol ∧ (mbxState state ready error s).hut = s.hut ∧ (mbxState state ready error s).alarm =
    s.alarm ∧ (mbxState state ready error s).tel = s.tel ∧ (mbxState state ready error s).pending = s.pending := by
  simp only [mbxState, State.ite_parts .., ite_self, and_self, implies_true, endExchange_frame .., toPhase_frame ..,
    openMbx_frame ..]

theorem forgetCard_frame (s : State) :
    (forgetCard s).now = s.now ∧ (forgetCard s).free = s.free ∧ (forgetCard s).life = s.life ∧ (forgetCard s).link =
    s.link ∧ (forgetCard s).gate = s.gate ∧ (forgetCard s).rings = s.rings ∧ (forgetCard s).units = s.units ∧
    (forgetCard s).curves = s.curves ∧ (forgetCard s).sess = s.sess ∧ (forgetCard s).vault = s.vault ∧ (forgetCard
    s).ctrs = s.ctrs ∧ (forgetCard s).powder = s.powder ∧ (forgetCard s).merya = s.merya ∧ (forgetCard s).prot =
    s.prot ∧ (forgetCard s).mem = s.mem ∧ (forgetCard s).stored = s.stored ∧ (forgetCard s).patrol = s.patrol ∧
    (forgetCard s).trk = s.trk ∧ (forgetCard s).hut = s.hut ∧ (forgetCard s).alarm = s.alarm ∧ (forgetCard s).evts =
    s.evts ∧ (forgetCard s).tel = s.tel ∧ (forgetCard s).pending = s.pending := by
  simp only [forgetCard, State.ite_parts .., ite_self, and_self, implies_true, modCard_frame ..]

theorem nextBlock_frame (s : State) :
    (nextBlock s).now = s.now ∧ (nextBlock s).free = s.free ∧ (nextBlock s).life = s.life ∧ (nextBlock s).link = s.link
    ∧ (nextBlock s).gate = s.gate ∧ (nextBlock s).rings = s.rings ∧ (nextBlock s).units = s.units ∧ (nextBlock
    s).curves = s.curves ∧ (nextBlock s).sess = s.sess ∧ (nextBlock s).vault = s.vault ∧ (nextBlock s).ctrs = s.ctrs
    ∧ (nextBlock s).powder = s.powder ∧ (nextBlock s).merya = s.merya ∧ (nextBlock s).prot = s.prot ∧ (nextBlock
    s).mem = s.mem ∧ (nextBlock s).stored = s.stored ∧ (nextBlock s).patrol = s.patrol ∧ (nextBlock s).trk = s.trk ∧
    (nextBlock s).hut = s.hut ∧ (nextBlock s).alarm = s.alarm ∧ (nextBlock s).evts = s.evts ∧ (nextBlock s).tel =
    s.tel ∧ (nextBlock s).pending = s.pending := by
  unfold nextBlock
  (repeat' split) <;> simp only [State.ite_parts .., ite_self, and_self, implies_true, toPhase_frame .., modCard_frame ..]

theorem blockDone_frame (s : State) :
    (blockDone s).now = s.now ∧ (blockDone s).free = s.free ∧ (blockDone s).life = s.life ∧ (blockDone s).link = s.link
    ∧ (blockDone s).gate = s.gate ∧ (blockDone s).rings = s.rings ∧ (blockDone s).units = s.units ∧ (blockDone
    s).curves = s.curves ∧ (blockDone s).sess = s.sess ∧ (blockDone s).vault = s.vault ∧ (blockDone s).ctrs = s.ctrs
    ∧ (blockDone s).powder = s.powder ∧ (blockDone s).merya = s.merya ∧ (blockDone s).prot = s.prot ∧ (blockDone
    s).mem = s.mem ∧ (blockDone s).stored = s.stored ∧ (blockDone s).patrol = s.patrol ∧ (blockDone s).trk = s.trk ∧
    (blockDone s).hut = s.hut ∧ (blockDone s).alarm = s.alarm ∧ (blockDone s).evts = s.evts ∧ (blockDone s).tel =
    s.tel ∧ (blockDone s).pending = s.pending := by
  simp only [blockDone, State.ite_parts .., ite_self, and_self, implies_true, toPhase_frame .., nextBlock_frame ..]

theorem busyReleased_frame (s : State) :
    (busyReleased s).now = s.now ∧ (busyReleased s).free = s.free ∧ (busyReleased s).life = s.life ∧ (busyReleased
    s).link = s.link ∧ (busyReleased s).gate = s.gate ∧ (busyReleased s).rings = s.rings ∧ (busyReleased s).units =
    s.units ∧ (busyReleased s).curves = s.curves ∧ (busyReleased s).sess = s.sess ∧ (busyReleased s).vault = s.vault
    ∧ (busyReleased s).ctrs = s.ctrs ∧ (busyReleased s).powder = s.powder ∧ (busyReleased s).merya = s.merya ∧
    (busyReleased s).prot = s.prot ∧ (busyReleased s).mem = s.mem ∧ (busyReleased s).stored = s.stored ∧
    (busyReleased s).patrol = s.patrol ∧ (busyReleased s).trk = s.trk ∧ (busyReleased s).hut = s.hut ∧ (busyReleased
    s).alarm = s.alarm ∧ (busyReleased s).evts = s.evts ∧ (busyReleased s).tel = s.tel ∧ (busyReleased s).pending =
    s.pending := by
  unfold busyReleased
  (repeat' split) <;> simp only [State.ite_parts .., ite_self, and_self, implies_true, blockDone_frame .., toPhase_frame ..]

theorem noteReason_frame (r : Nat) (s : State) :
    (noteReason r s).now = s.now ∧ (noteReason r s).free = s.free ∧ (noteReason r s).life = s.life ∧ (noteReason r
    s).link = s.link ∧ (noteReason r s).gate = s.gate ∧ (noteReason r s).rings = s.rings ∧ (noteReason r s).units =
    s.units ∧ (noteReason r s).curves = s.curves ∧ (noteReason r s).sess = s.sess ∧ (noteReason r s).vault = s.vault
    ∧ (noteReason r s).ctrs = s.ctrs ∧ (noteReason r s).powder = s.powder ∧ (noteReason r s).merya = s.merya ∧
    (noteReason r s).prot = s.prot ∧ (noteReason r s).mem = s.mem ∧ (noteReason r s).stored = s.stored ∧ (noteReason
    r s).patrol = s.patrol ∧ (noteReason r s).trk = s.trk ∧ (noteReason r s).hut = s.hut ∧ (noteReason r s).alarm =
    s.alarm ∧ (noteReason r s).evts = s.evts ∧ (noteReason r s).tel = s.tel ∧ (noteReason r s).pending = s.pending := by
  simp only [noteReason, State.ite_parts .., ite_self, and_self, implies_true, modCard_frame ..]

theorem cutPower_frame (state : CardState) (s : State) :
    (cutPower state s).now = s.now ∧ (cutPower state s).free = s.free ∧ (cutPower state s).life = s.life ∧ (cutPower
    state s).link = s.link ∧ (cutPower state s).gate = s.gate ∧ (cutPower state s).rings = s.rings ∧ (cutPower state
    s).units = s.units ∧ (cutPower state s).curves = s.curves ∧ (cutPower state s).sess = s.sess ∧ (cutPower state
    s).vault = s.vault ∧ (cutPower state s).ctrs = s.ctrs ∧ (cutPower state s).powder = s.powder ∧ (cutPower state
    s).merya = s.merya ∧ (cutPower state s).prot = s.prot ∧ (cutPower state s).mem = s.mem ∧ (cutPower state
    s).stored = s.stored ∧ (cutPower state s).patrol = s.patrol ∧ (cutPower state s).trk = s.trk ∧ (cutPower state
    s).hut = s.hut ∧ (cutPower state s).alarm = s.alarm ∧ (cutPower state s).evts = s.evts ∧ (cutPower state s).tel
    = s.tel ∧ (cutPower state s).pending = s.pending := by
  simp only [cutPower, State.ite_parts .., ite_self, and_self, implies_true, modCard_frame .., forgetCard_frame ..]

theorem rejectCard_frame (reason : Nat) (s : State) :
    (rejectCard reason s).now = s.now ∧ (rejectCard reason s).free = s.free ∧ (rejectCard reason s).life = s.life ∧
    (rejectCard reason s).gate = s.gate ∧ (rejectCard reason s).rings = s.rings ∧ (rejectCard reason s).units =
    s.units ∧ (rejectCard reason s).curves = s.curves ∧ (rejectCard reason s).sess = s.sess ∧ (rejectCard reason
    s).vault = s.vault ∧ (rejectCard reason s).ctrs = s.ctrs ∧ (rejectCard reason s).powder = s.powder ∧ (rejectCard
    reason s).merya = s.merya ∧ (rejectCard reason s).prot = s.prot ∧ (rejectCard reason s).mem = s.mem ∧
    (rejectCard reason s).stored = s.stored ∧ (rejectCard reason s).patrol = s.patrol ∧ (rejectCard reason s).trk =
    s.trk ∧ (rejectCard reason s).hut = s.hut ∧ (rejectCard reason s).alarm = s.alarm ∧ (rejectCard reason s).tel =
    s.tel ∧ (rejectCard reason s).pending = s.pending := by
  simp only [rejectCard, State.ite_parts .., ite_self, and_self, implies_true, setCardEvt_frame .., noteReason_frame ..,
    cutPower_frame ..]

theorem identFails_frame (step : Nat) (reason : Nat) (s : State) :
    (identFails step reason s).now = s.now ∧ (identFails step reason s).free = s.free ∧ (identFails step reason s).life
    = s.life ∧ (identFails step reason s).gate = s.gate ∧ (identFails step reason s).rings = s.rings ∧ (identFails
    step reason s).units = s.units ∧ (identFails step reason s).curves = s.curves ∧ (identFails step reason s).sess
    = s.sess ∧ (identFails step reason s).vault = s.vault ∧ (identFails step reason s).ctrs = s.ctrs ∧ (identFails
    step reason s).powder = s.powder ∧ (identFails step reason s).merya = s.merya ∧ (identFails step reason s).prot
    = s.prot ∧ (identFails step reason s).mem = s.mem ∧ (identFails step reason s).stored = s.stored ∧ (identFails
    step reason s).patrol = s.patrol ∧ (identFails step reason s).trk = s.trk ∧ (identFails step reason s).hut =
    s.hut ∧ (identFails step reason s).alarm = s.alarm ∧ (identFails step reason s).tel = s.tel ∧ (identFails step
    reason s).pending = s.pending := by
  unfold identFails
  (repeat' split) <;> simp only [State.ite_parts .., ite_self, and_self, implies_true, rejectCard_frame .., identProbe_frame .., toPhase_frame ..]

theorem recordFailure_frame (reason : Nat) (s : State) :
    (recordFailure reason s).now = s.now ∧ (recordFailure reason s).free = s.free ∧ (recordFailure reason s).life =
    s.life ∧ (recordFailure reason s).link = s.link ∧ (recordFailure reason s).gate = s.gate ∧ (recordFailure reason
    s).rings = s.rings ∧ (recordFailure reason s).units = s.units ∧ (recordFailure reason s).curves = s.curves ∧
    (recordFailure reason s).sess = s.sess ∧ (recordFailure reason s).vault = s.vault ∧ (recordFailure reason
    s).ctrs = s.ctrs ∧ (recordFailure reason s).powder = s.powder ∧ (recordFailure reason s).merya = s.merya ∧
    (recordFailure reason s).prot = s.prot ∧ (recordFailure reason s).mem = s.mem ∧ (recordFailure reason s).stored
    = s.stored ∧ (recordFailure reason s).patrol = s.patrol ∧ (recordFailure reason s).trk = s.trk ∧ (recordFailure
    reason s).hut = s.hut ∧ (recordFailure reason s).alarm = s.alarm ∧ (recordFailure reason s).evts = s.evts ∧
    (recordFailure reason s).tel = s.tel ∧ (recordFailure reason s).pending = s.pending := by
  simp only [recordFailure, State.ite_parts .., ite_self, and_self, implies_true, modCard_frame ..]

theorem confirmFails_frame (reason : Nat) (s : State) :
    (confirmFails reason s).now = s.now ∧ (confirmFails reason s).free = s.free ∧ (confirmFails reason s).life = s.life
    ∧ (confirmFails reason s).gate = s.gate ∧ (confirmFails reason s).curves = s.curves ∧ (confirmFails reason
    s).sess = s.sess ∧ (confirmFails reason s).ctrs = s.ctrs ∧ (confirmFails reason s).powder = s.powder ∧
    (confirmFails reason s).merya = s.merya ∧ (confirmFails reason s).prot = s.prot ∧ (confirmFails reason s).mem =
    s.mem ∧ (confirmFails reason s).patrol = s.patrol ∧ (confirmFails reason s).hut = s.hut ∧ (confirmFails reason
    s).alarm = s.alarm ∧ (confirmFails reason s).tel = s.tel ∧ (confirmFails reason s).pending = s.pending := by
  simp only [confirmFails, State.ite_parts .., ite_self, and_self, implies_true, endExchange_frame ..]

theorem requestUnknown_frame (reason : Nat) (s : State) :
    (requestUnknown reason s).now = s.now ∧ (requestUnknown reason s).free = s.free ∧ (requestUnknown reason s).life =
    s.life ∧ (requestUnknown reason s).gate = s.gate ∧ (requestUnknown reason s).curves = s.curves ∧ (requestUnknown
    reason s).sess = s.sess ∧ (requestUnknown reason s).ctrs = s.ctrs ∧ (requestUnknown reason s).powder = s.powder
    ∧ (requestUnknown reason s).merya = s.merya ∧ (requestUnknown reason s).prot = s.prot ∧ (requestUnknown reason
    s).mem = s.mem ∧ (requestUnknown reason s).patrol = s.patrol ∧ (requestUnknown reason s).hut = s.hut ∧
    (requestUnknown reason s).alarm = s.alarm ∧ (requestUnknown reason s).tel = s.tel ∧ (requestUnknown reason
    s).pending = s.pending := by
  simp only [requestUnknown, State.ite_parts .., ite_self, and_self, implies_true, endExchange_frame .., openMbx_frame ..]

theorem busFails_frame (reason : Nat) (s : State) :
    (busFails reason s).now = s.now ∧ (busFails reason s).free = s.free ∧ (busFails reason s).life = s.life ∧ (busFails
    reason s).gate = s.gate ∧ (busFails reason s).curves = s.curves ∧ (busFails reason s).sess = s.sess ∧ (busFails
    reason s).ctrs = s.ctrs ∧ (busFails reason s).powder = s.powder ∧ (busFails reason s).merya = s.merya ∧
    (busFails reason s).prot = s.prot ∧ (busFails reason s).mem = s.mem ∧ (busFails reason s).patrol = s.patrol ∧
    (busFails reason s).hut = s.hut ∧ (busFails reason s).alarm = s.alarm ∧ (busFails reason s).tel = s.tel ∧
    (busFails reason s).pending = s.pending := by
  unfold busFails
  (repeat' split) <;> simp only [State.ite_parts .., ite_self, and_self, implies_true, identFails_frame .., cardReady_frame .., endExchange_frame ..,
    recordFailure_frame .., readEnds_frame .., toPhase_frame .., confirmFails_frame .., requestUnknown_frame ..,
    readBackEnds_frame ..]

theorem startOnPort_frame (j : Job) (s : State) :
    (startOnPort j s).now = s.now ∧ (startOnPort j s).free = s.free ∧ (startOnPort j s).life = s.life ∧ (startOnPort j
    s).gate = s.gate ∧ (startOnPort j s).curves = s.curves ∧ (startOnPort j s).sess = s.sess ∧ (startOnPort j
    s).ctrs = s.ctrs ∧ (startOnPort j s).powder = s.powder ∧ (startOnPort j s).merya = s.merya ∧ (startOnPort j
    s).patrol = s.patrol ∧ (startOnPort j s).hut = s.hut ∧ (startOnPort j s).alarm = s.alarm ∧ (startOnPort j s).tel
    = s.tel ∧ (startOnPort j s).pending = s.pending := by
  simp only [startOnPort, State.ite_parts .., ite_self, and_self, implies_true, modCard_frame .., fixCardJob_frame ..,
    modJob_frame .., toPhase_frame .., endExchange_frame .., giveOutput_frame ..]
  (repeat' split) <;> simp only [State.ite_parts .., ite_self, and_self, implies_true, modCard_frame .., fixCardJob_frame .., modJob_frame ..,
    toPhase_frame .., endExchange_frame .., giveOutput_frame ..]

theorem portFuel_frame (x0 : Nat) (x1 : State) :
    (portFuel x0 x1).now = x1.now ∧ (portFuel x0 x1).free = x1.free ∧ (portFuel x0 x1).life = x1.life ∧ (portFuel x0
    x1).gate = x1.gate ∧ (portFuel x0 x1).curves = x1.curves ∧ (portFuel x0 x1).sess = x1.sess ∧ (portFuel x0
    x1).ctrs = x1.ctrs ∧ (portFuel x0 x1).powder = x1.powder ∧ (portFuel x0 x1).merya = x1.merya ∧ (portFuel x0
    x1).patrol = x1.patrol ∧ (portFuel x0 x1).hut = x1.hut ∧ (portFuel x0 x1).alarm = x1.alarm ∧ (portFuel x0
    x1).tel = x1.tel ∧ (portFuel x0 x1).pending = x1.pending := by
  induction x0 generalizing x1 with
  | zero => simp only [portFuel, and_self]
  | succ n ih =>
    unfold portFuel
    (repeat' split) <;> simp only [ih, State.ite_parts .., ite_self, and_self, implies_true, startOnPort_frame ..]

theorem exchangeLost_frame (reason : Nat) (s : State) :
    (exchangeLost reason s).now = s.now ∧ (exchangeLost reason s).free = s.free ∧ (exchangeLost reason s).life = s.life
    ∧ (exchangeLost reason s).gate = s.gate ∧ (exchangeLost reason s).curves = s.curves ∧ (exchangeLost reason
    s).sess = s.sess ∧ (exchangeLost reason s).ctrs = s.ctrs ∧ (exchangeLost reason s).powder = s.powder ∧
    (exchangeLost reason s).merya = s.merya ∧ (exchangeLost reason s).prot = s.prot ∧ (exchangeLost reason s).mem =
    s.mem ∧ (exchangeLost reason s).patrol = s.patrol ∧ (exchangeLost reason s).hut = s.hut ∧ (exchangeLost reason
    s).alarm = s.alarm ∧ (exchangeLost reason s).tel = s.tel ∧ (exchangeLost reason s).pending = s.pending := by
  simp only [exchangeLost, State.ite_parts .., ite_self, and_self, implies_true, endExchange_frame .., requestUnknown_frame ..]
  (repeat' split) <;> simp only [State.ite_parts .., ite_self, and_self, implies_true, endExchange_frame .., requestUnknown_frame ..]

theorem cardRemoved_frame (s : State) :
    (cardRemoved s).now = s.now ∧ (cardRemoved s).free = s.free ∧ (cardRemoved s).life = s.life ∧ (cardRemoved s).gate =
    s.gate ∧ (cardRemoved s).curves = s.curves ∧ (cardRemoved s).sess = s.sess ∧ (cardRemoved s).ctrs = s.ctrs ∧
    (cardRemoved s).powder = s.powder ∧ (cardRemoved s).merya = s.merya ∧ (cardRemoved s).prot = s.prot ∧
    (cardRemoved s).mem = s.mem ∧ (cardRemoved s).patrol = s.patrol ∧ (cardRemoved s).hut = s.hut ∧ (cardRemoved
    s).alarm = s.alarm ∧ (cardRemoved s).tel = s.tel ∧ (cardRemoved s).pending = s.pending := by
  simp only [cardRemoved, State.ite_parts .., ite_self, and_self, implies_true, exchangeLost_frame .., setCardEvt_frame ..,
    noteReason_frame .., cutPower_frame .., modCard_frame ..]

theorem writeConfirmed_frame (n : Nat) (s : State) :
    (writeConfirmed n s).now = s.now ∧ (writeConfirmed n s).free = s.free ∧ (writeConfirmed n s).life = s.life ∧
    (writeConfirmed n s).gate = s.gate ∧ (writeConfirmed n s).curves = s.curves ∧ (writeConfirmed n s).sess = s.sess
    ∧ (writeConfirmed n s).ctrs = s.ctrs ∧ (writeConfirmed n s).powder = s.powder ∧ (writeConfirmed n s).merya =
    s.merya ∧ (writeConfirmed n s).prot = s.prot ∧ (writeConfirmed n s).mem = s.mem ∧ (writeConfirmed n s).patrol =
    s.patrol ∧ (writeConfirmed n s).hut = s.hut ∧ (writeConfirmed n s).alarm = s.alarm ∧ (writeConfirmed n s).tel =
    s.tel ∧ (writeConfirmed n s).pending = s.pending := by
  simp only [writeConfirmed, State.ite_parts .., ite_self, and_self, implies_true, toPhase_frame .., modCard_frame ..,
    endExchange_frame ..]
  (repeat' split) <;> simp only [State.ite_parts .., ite_self, and_self, implies_true, toPhase_frame .., modCard_frame .., endExchange_frame ..]

theorem repeatAcmd_frame (s : State) :
    (repeatAcmd s).now = s.now ∧ (repeatAcmd s).free = s.free ∧ (repeatAcmd s).life = s.life ∧ (repeatAcmd s).gate =
    s.gate ∧ (repeatAcmd s).rings = s.rings ∧ (repeatAcmd s).units = s.units ∧ (repeatAcmd s).curves = s.curves ∧
    (repeatAcmd s).sess = s.sess ∧ (repeatAcmd s).vault = s.vault ∧ (repeatAcmd s).ctrs = s.ctrs ∧ (repeatAcmd
    s).powder = s.powder ∧ (repeatAcmd s).merya = s.merya ∧ (repeatAcmd s).prot = s.prot ∧ (repeatAcmd s).mem =
    s.mem ∧ (repeatAcmd s).stored = s.stored ∧ (repeatAcmd s).patrol = s.patrol ∧ (repeatAcmd s).trk = s.trk ∧
    (repeatAcmd s).hut = s.hut ∧ (repeatAcmd s).alarm = s.alarm ∧ (repeatAcmd s).tel = s.tel ∧ (repeatAcmd
    s).pending = s.pending := by
  simp only [repeatAcmd, State.ite_parts .., ite_self, and_self, implies_true, rejectCard_frame .., toPhase_frame ..]

theorem runPort_frame (s : State) :
    (runPort s).now = s.now ∧ (runPort s).free = s.free ∧ (runPort s).life = s.life ∧ (runPort s).gate = s.gate ∧
    (runPort s).curves = s.curves ∧ (runPort s).sess = s.sess ∧ (runPort s).ctrs = s.ctrs ∧ (runPort s).powder =
    s.powder ∧ (runPort s).merya = s.merya ∧ (runPort s).patrol = s.patrol ∧ (runPort s).hut = s.hut ∧ (runPort
    s).alarm = s.alarm ∧ (runPort s).tel = s.tel ∧ (runPort s).pending = s.pending := by
  simp only [runPort, State.ite_parts .., ite_self, and_self, implies_true, portFuel_frame ..]

theorem tryPower_frame (s : State) :
    (tryPower s).now = s.now ∧ (tryPower s).free = s.free ∧ (tryPower s).life = s.life ∧ (tryPower s).link = s.link ∧
    (tryPower s).gate = s.gate ∧ (tryPower s).rings = s.rings ∧ (tryPower s).units = s.units ∧ (tryPower s).curves =
    s.curves ∧ (tryPower s).sess = s.sess ∧ (tryPower s).vault = s.vault ∧ (tryPower s).ctrs = s.ctrs ∧ (tryPower
    s).powder = s.powder ∧ (tryPower s).merya = s.merya ∧ (tryPower s).prot = s.prot ∧ (tryPower s).mem = s.mem ∧
    (tryPower s).stored = s.stored ∧ (tryPower s).patrol = s.patrol ∧ (tryPower s).trk = s.trk ∧ (tryPower s).hut =
    s.hut ∧ (tryPower s).alarm = s.alarm ∧ (tryPower s).evts = s.evts ∧ (tryPower s).tel = s.tel ∧ (tryPower
    s).pending = s.pending := by
  simp only [tryPower, State.ite_parts .., ite_self, and_self, implies_true, modCard_frame ..]

theorem setPort_frame (p : PortState) (s : State) :
    (setPort p s).now = s.now ∧ (setPort p s).free = s.free ∧ (setPort p s).life = s.life ∧ (setPort p s).gate = s.gate
    ∧ (setPort p s).rings = s.rings ∧ (setPort p s).units = s.units ∧ (setPort p s).curves = s.curves ∧ (setPort p
    s).sess = s.sess ∧ (setPort p s).vault = s.vault ∧ (setPort p s).ctrs = s.ctrs ∧ (setPort p s).powder = s.powder
    ∧ (setPort p s).merya = s.merya ∧ (setPort p s).prot = s.prot ∧ (setPort p s).mem = s.mem ∧ (setPort p s).stored
    = s.stored ∧ (setPort p s).patrol = s.patrol ∧ (setPort p s).trk = s.trk ∧ (setPort p s).hut = s.hut ∧ (setPort
    p s).alarm = s.alarm ∧ (setPort p s).tel = s.tel ∧ (setPort p s).pending = s.pending := by
  simp only [setPort, State.ite_parts .., ite_self, and_self, implies_true, setCardEvt_frame .., modCard_frame ..]

theorem settlePort_frame (s : State) :
    (settlePort s).now = s.now ∧ (settlePort s).free = s.free ∧ (settlePort s).life = s.life ∧ (settlePort s).gate =
    s.gate ∧ (settlePort s).rings = s.rings ∧ (settlePort s).units = s.units ∧ (settlePort s).curves = s.curves ∧
    (settlePort s).sess = s.sess ∧ (settlePort s).vault = s.vault ∧ (settlePort s).ctrs = s.ctrs ∧ (settlePort
    s).powder = s.powder ∧ (settlePort s).merya = s.merya ∧ (settlePort s).prot = s.prot ∧ (settlePort s).mem =
    s.mem ∧ (settlePort s).stored = s.stored ∧ (settlePort s).patrol = s.patrol ∧ (settlePort s).trk = s.trk ∧
    (settlePort s).hut = s.hut ∧ (settlePort s).alarm = s.alarm ∧ (settlePort s).tel = s.tel ∧ (settlePort
    s).pending = s.pending := by
  simp only [settlePort, State.ite_parts .., ite_self, and_self, implies_true, cutPower_frame .., forgetCard_frame ..,
    tryPower_frame .., setPort_frame .., modCard_frame ..]

theorem portNext_frame (s : State) :
    (portNext s).now = s.now ∧ (portNext s).life = s.life ∧ (portNext s).gate = s.gate ∧ (portNext s).curves = s.curves
    ∧ (portNext s).sess = s.sess ∧ (portNext s).powder = s.powder ∧ (portNext s).merya = s.merya ∧ (portNext s).hut
    = s.hut ∧ (portNext s).alarm = s.alarm ∧ (portNext s).tel = s.tel ∧ (portNext s).pending = s.pending := by
  simp only [portNext, State.ite_parts .., ite_self, and_self, implies_true, settlePort_frame .., runPort_frame ..,
    runExports_now, runExports_life, runExports_gate, runExports_curves, runExports_sess, runExports_powder,
    runExports_merya, runExports_hut, runExports_alarm, runExports_tel, runExports_pending]

theorem rampEnds_frame (s : State) :
    (rampEnds s).now = s.now ∧ (rampEnds s).free = s.free ∧ (rampEnds s).life = s.life ∧ (rampEnds s).link = s.link ∧
    (rampEnds s).gate = s.gate ∧ (rampEnds s).rings = s.rings ∧ (rampEnds s).units = s.units ∧ (rampEnds s).curves =
    s.curves ∧ (rampEnds s).sess = s.sess ∧ (rampEnds s).vault = s.vault ∧ (rampEnds s).ctrs = s.ctrs ∧ (rampEnds
    s).powder = s.powder ∧ (rampEnds s).merya = s.merya ∧ (rampEnds s).prot = s.prot ∧ (rampEnds s).mem = s.mem ∧
    (rampEnds s).stored = s.stored ∧ (rampEnds s).patrol = s.patrol ∧ (rampEnds s).trk = s.trk ∧ (rampEnds s).hut =
    s.hut ∧ (rampEnds s).alarm = s.alarm ∧ (rampEnds s).evts = s.evts ∧ (rampEnds s).tel = s.tel ∧ (rampEnds
    s).pending = s.pending := by
  simp only [rampEnds, State.ite_parts .., ite_self, and_self, implies_true, toPhase_frame .., modCard_frame ..]

theorem countCrc_frame (s : State) :
    (countCrc s).now = s.now ∧ (countCrc s).free = s.free ∧ (countCrc s).life = s.life ∧ (countCrc s).link = s.link ∧
    (countCrc s).gate = s.gate ∧ (countCrc s).rings = s.rings ∧ (countCrc s).units = s.units ∧ (countCrc s).curves =
    s.curves ∧ (countCrc s).sess = s.sess ∧ (countCrc s).vault = s.vault ∧ (countCrc s).ctrs = s.ctrs ∧ (countCrc
    s).powder = s.powder ∧ (countCrc s).merya = s.merya ∧ (countCrc s).prot = s.prot ∧ (countCrc s).mem = s.mem ∧
    (countCrc s).stored = s.stored ∧ (countCrc s).patrol = s.patrol ∧ (countCrc s).trk = s.trk ∧ (countCrc s).hut =
    s.hut ∧ (countCrc s).alarm = s.alarm ∧ (countCrc s).evts = s.evts ∧ (countCrc s).tel = s.tel ∧ (countCrc
    s).pending = s.pending := by
  simp only [countCrc, State.ite_parts .., ite_self, and_self, implies_true, modCard_frame ..]

theorem enablePort_frame (s : State) :
    (enablePort s).now = s.now ∧ (enablePort s).free = s.free ∧ (enablePort s).life = s.life ∧ (enablePort s).gate =
    s.gate ∧ (enablePort s).rings = s.rings ∧ (enablePort s).units = s.units ∧ (enablePort s).curves = s.curves ∧
    (enablePort s).sess = s.sess ∧ (enablePort s).vault = s.vault ∧ (enablePort s).ctrs = s.ctrs ∧ (enablePort
    s).powder = s.powder ∧ (enablePort s).merya = s.merya ∧ (enablePort s).prot = s.prot ∧ (enablePort s).mem =
    s.mem ∧ (enablePort s).stored = s.stored ∧ (enablePort s).patrol = s.patrol ∧ (enablePort s).trk = s.trk ∧
    (enablePort s).hut = s.hut ∧ (enablePort s).alarm = s.alarm ∧ (enablePort s).tel = s.tel ∧ (enablePort
    s).pending = s.pending := by
  simp only [enablePort, State.ite_parts .., ite_self, and_self, implies_true, tryPower_frame .., setPort_frame ..,
    modCard_frame ..]
  (repeat' split) <;> simp only [State.ite_parts .., ite_self, and_self, implies_true, tryPower_frame .., setPort_frame .., modCard_frame ..]

theorem offTimeEnds_frame (s : State) :
    (offTimeEnds s).now = s.now ∧ (offTimeEnds s).free = s.free ∧ (offTimeEnds s).life = s.life ∧ (offTimeEnds s).link =
    s.link ∧ (offTimeEnds s).gate = s.gate ∧ (offTimeEnds s).rings = s.rings ∧ (offTimeEnds s).units = s.units ∧
    (offTimeEnds s).curves = s.curves ∧ (offTimeEnds s).sess = s.sess ∧ (offTimeEnds s).vault = s.vault ∧
    (offTimeEnds s).ctrs = s.ctrs ∧ (offTimeEnds s).powder = s.powder ∧ (offTimeEnds s).merya = s.merya ∧
    (offTimeEnds s).prot = s.prot ∧ (offTimeEnds s).mem = s.mem ∧ (offTimeEnds s).stored = s.stored ∧ (offTimeEnds
    s).patrol = s.patrol ∧ (offTimeEnds s).trk = s.trk ∧ (offTimeEnds s).hut = s.hut ∧ (offTimeEnds s).alarm =
    s.alarm ∧ (offTimeEnds s).evts = s.evts ∧ (offTimeEnds s).tel = s.tel ∧ (offTimeEnds s).pending = s.pending := by
  simp only [offTimeEnds, State.ite_parts .., ite_self, and_self, implies_true, tryPower_frame .., modCard_frame ..]

theorem commandFails_frame (reason : Nat) (s : State) :
    (commandFails reason s).now = s.now ∧ (commandFails reason s).free = s.free ∧ (commandFails reason s).life = s.life
    ∧ (commandFails reason s).gate = s.gate ∧ (commandFails reason s).curves = s.curves ∧ (commandFails reason
    s).sess = s.sess ∧ (commandFails reason s).ctrs = s.ctrs ∧ (commandFails reason s).powder = s.powder ∧
    (commandFails reason s).merya = s.merya ∧ (commandFails reason s).prot = s.prot ∧ (commandFails reason s).mem =
    s.mem ∧ (commandFails reason s).patrol = s.patrol ∧ (commandFails reason s).hut = s.hut ∧ (commandFails reason
    s).alarm = s.alarm ∧ (commandFails reason s).tel = s.tel ∧ (commandFails reason s).pending = s.pending := by
  simp only [commandFails, State.ite_parts .., ite_self, and_self, implies_true, busFails_frame .., modCard_frame ..]

theorem confirmState_frame (state : Nat) (ready : Bool) (error : Bool) (s : State) :
    (confirmState state ready error s).now = s.now ∧ (confirmState state ready error s).free = s.free ∧ (confirmState
    state ready error s).life = s.life ∧ (confirmState state ready error s).link = s.link ∧ (confirmState state
    ready error s).gate = s.gate ∧ (confirmState state ready error s).rings = s.rings ∧ (confirmState state ready
    error s).units = s.units ∧ (confirmState state ready error s).curves = s.curves ∧ (confirmState state ready
    error s).sess = s.sess ∧ (confirmState state ready error s).vault = s.vault ∧ (confirmState state ready error
    s).ctrs = s.ctrs ∧ (confirmState state ready error s).powder = s.powder ∧ (confirmState state ready error
    s).merya = s.merya ∧ (confirmState state ready error s).prot = s.prot ∧ (confirmState state ready error s).mem =
    s.mem ∧ (confirmState state ready error s).stored = s.stored ∧ (confirmState state ready error s).patrol =
    s.patrol ∧ (confirmState state ready error s).trk = s.trk ∧ (confirmState state ready error s).hut = s.hut ∧
    (confirmState state ready error s).alarm = s.alarm ∧ (confirmState state ready error s).evts = s.evts ∧
    (confirmState state ready error s).tel = s.tel ∧ (confirmState state ready error s).pending = s.pending := by
  simp only [confirmState, State.ite_parts .., ite_self, and_self, implies_true, toPhase_frame .., recordFailure_frame ..]

theorem identResponse_frame (step : Nat) (sub : Nat) (error : Bool) (arg : Word) (s : State) :
    (identResponse step sub error arg s).now = s.now ∧ (identResponse step sub error arg s).free = s.free ∧
    (identResponse step sub error arg s).life = s.life ∧ (identResponse step sub error arg s).gate = s.gate ∧
    (identResponse step sub error arg s).rings = s.rings ∧ (identResponse step sub error arg s).units = s.units ∧
    (identResponse step sub error arg s).curves = s.curves ∧ (identResponse step sub error arg s).sess = s.sess ∧
    (identResponse step sub error arg s).vault = s.vault ∧ (identResponse step sub error arg s).ctrs = s.ctrs ∧
    (identResponse step sub error arg s).powder = s.powder ∧ (identResponse step sub error arg s).merya = s.merya ∧
    (identResponse step sub error arg s).prot = s.prot ∧ (identResponse step sub error arg s).mem = s.mem ∧
    (identResponse step sub error arg s).stored = s.stored ∧ (identResponse step sub error arg s).patrol = s.patrol
    ∧ (identResponse step sub error arg s).trk = s.trk ∧ (identResponse step sub error arg s).hut = s.hut ∧
    (identResponse step sub error arg s).alarm = s.alarm ∧ (identResponse step sub error arg s).tel = s.tel ∧
    (identResponse step sub error arg s).pending = s.pending := by
  unfold identResponse
  (repeat' split) <;> simp only [State.ite_parts .., ite_self, and_self, implies_true, toPhase_frame .., modCard_frame .., rejectCard_frame ..,
    identSpeed_frame .., identProbe_frame ..]

theorem goodResponse_frame (state : Nat) (ready : Bool) (error : Bool) (arg : Word) (s0 : State) :
    (goodResponse state ready error arg s0).now = s0.now ∧ (goodResponse state ready error arg s0).free = s0.free ∧
    (goodResponse state ready error arg s0).life = s0.life ∧ (goodResponse state ready error arg s0).gate = s0.gate
    ∧ (goodResponse state ready error arg s0).curves = s0.curves ∧ (goodResponse state ready error arg s0).sess =
    s0.sess ∧ (goodResponse state ready error arg s0).ctrs = s0.ctrs ∧ (goodResponse state ready error arg
    s0).powder = s0.powder ∧ (goodResponse state ready error arg s0).merya = s0.merya ∧ (goodResponse state ready
    error arg s0).prot = s0.prot ∧ (goodResponse state ready error arg s0).mem = s0.mem ∧ (goodResponse state ready
    error arg s0).patrol = s0.patrol ∧ (goodResponse state ready error arg s0).hut = s0.hut ∧ (goodResponse state
    ready error arg s0).alarm = s0.alarm ∧ (goodResponse state ready error arg s0).tel = s0.tel ∧ (goodResponse
    state ready error arg s0).pending = s0.pending := by
  simp only [goodResponse, State.ite_parts .., ite_self, and_self, implies_true, modCard_frame .., identResponse_frame ..,
    cardReady_frame .., toPhase_frame .., busFails_frame .., readEnds_frame .., recordFailure_frame .., nextBlock_frame ..,
    confirmState_frame .., endExchange_frame .., mbxState_frame .., readBackEnds_frame ..]
  (repeat' split) <;> simp only [State.ite_parts .., ite_self, and_self, implies_true, modCard_frame .., identResponse_frame .., cardReady_frame ..,
    toPhase_frame .., busFails_frame .., readEnds_frame .., recordFailure_frame .., nextBlock_frame .., confirmState_frame ..,
    endExchange_frame .., mbxState_frame .., readBackEnds_frame ..]

theorem cardInserted_frame (s : State) :
    (cardInserted s).now = s.now ∧ (cardInserted s).free = s.free ∧ (cardInserted s).life = s.life ∧ (cardInserted
    s).gate = s.gate ∧ (cardInserted s).rings = s.rings ∧ (cardInserted s).units = s.units ∧ (cardInserted s).curves
    = s.curves ∧ (cardInserted s).sess = s.sess ∧ (cardInserted s).vault = s.vault ∧ (cardInserted s).ctrs = s.ctrs
    ∧ (cardInserted s).powder = s.powder ∧ (cardInserted s).merya = s.merya ∧ (cardInserted s).prot = s.prot ∧
    (cardInserted s).mem = s.mem ∧ (cardInserted s).stored = s.stored ∧ (cardInserted s).patrol = s.patrol ∧
    (cardInserted s).trk = s.trk ∧ (cardInserted s).hut = s.hut ∧ (cardInserted s).alarm = s.alarm ∧ (cardInserted
    s).tel = s.tel ∧ (cardInserted s).pending = s.pending := by
  simp only [cardInserted, State.ite_parts .., ite_self, and_self, implies_true, tryPower_frame .., setCardEvt_frame ..,
    modCard_frame ..]

theorem portFaults_frame (s : State) :
    (portFaults s).now = s.now ∧ (portFaults s).free = s.free ∧ (portFaults s).life = s.life ∧ (portFaults s).gate =
    s.gate ∧ (portFaults s).curves = s.curves ∧ (portFaults s).sess = s.sess ∧ (portFaults s).ctrs = s.ctrs ∧
    (portFaults s).powder = s.powder ∧ (portFaults s).merya = s.merya ∧ (portFaults s).prot = s.prot ∧ (portFaults
    s).mem = s.mem ∧ (portFaults s).patrol = s.patrol ∧ (portFaults s).hut = s.hut ∧ (portFaults s).alarm = s.alarm
    ∧ (portFaults s).tel = s.tel ∧ (portFaults s).pending = s.pending := by
  simp only [portFaults, State.ite_parts .., ite_self, and_self, implies_true, foldl_now, foldl_free, foldl_life,
    foldl_gate, foldl_curves, foldl_sess, foldl_ctrs, foldl_powder, foldl_merya, foldl_prot, foldl_mem,
    foldl_patrol, foldl_hut, foldl_alarm, foldl_tel, foldl_pending, modCard_frame .., exchangeLost_frame ..,
    fixCardJob_frame .., cutPower_frame .., setPort_frame ..]

theorem startFlow_frame (s : State) :
    (startFlow s).now = s.now ∧ (startFlow s).free = s.free ∧ (startFlow s).life = s.life ∧ (startFlow s).link = s.link
    ∧ (startFlow s).gate = s.gate ∧ (startFlow s).rings = s.rings ∧ (startFlow s).units = s.units ∧ (startFlow
    s).curves = s.curves ∧ (startFlow s).sess = s.sess ∧ (startFlow s).vault = s.vault ∧ (startFlow s).ctrs = s.ctrs
    ∧ (startFlow s).powder = s.powder ∧ (startFlow s).merya = s.merya ∧ (startFlow s).prot = s.prot ∧ (startFlow
    s).mem = s.mem ∧ (startFlow s).stored = s.stored ∧ (startFlow s).patrol = s.patrol ∧ (startFlow s).trk = s.trk ∧
    (startFlow s).hut = s.hut ∧ (startFlow s).alarm = s.alarm ∧ (startFlow s).evts = s.evts ∧ (startFlow s).tel =
    s.tel ∧ (startFlow s).pending = s.pending := by
  simp only [startFlow, State.ite_parts .., ite_self, and_self, implies_true, toPhase_frame .., modCard_frame ..]

theorem cardResponse_frame (r : CardResp) (s : State) :
    (cardResponse r s).now = s.now ∧ (cardResponse r s).pending = s.pending := by
  unfold cardResponse
  (repeat' split) <;> simp only [State.ite_parts .., ite_self, and_self, implies_true, goodResponse_frame .., commandFails_frame ..,
    countCrc_frame .., toPhase_frame .., modCard_frame .., identSpeed_frame .., identProbe_frame .., goodBlock_frame ..,
    busFails_frame .., writeConfirmed_frame ..]

theorem allowanceExpires_frame (s : State) :
    (allowanceExpires s).now = s.now ∧ (allowanceExpires s).free = s.free ∧ (allowanceExpires s).life = s.life ∧
    (allowanceExpires s).gate = s.gate ∧ (allowanceExpires s).curves = s.curves ∧ (allowanceExpires s).sess = s.sess
    ∧ (allowanceExpires s).ctrs = s.ctrs ∧ (allowanceExpires s).powder = s.powder ∧ (allowanceExpires s).merya =
    s.merya ∧ (allowanceExpires s).prot = s.prot ∧ (allowanceExpires s).mem = s.mem ∧ (allowanceExpires s).patrol =
    s.patrol ∧ (allowanceExpires s).hut = s.hut ∧ (allowanceExpires s).alarm = s.alarm ∧ (allowanceExpires s).tel =
    s.tel ∧ (allowanceExpires s).pending = s.pending := by
  simp only [allowanceExpires, State.ite_parts .., ite_self, and_self, implies_true, busFails_frame ..]

theorem disablePort_frame (s : State) :
    (disablePort s).now = s.now ∧ (disablePort s).free = s.free ∧ (disablePort s).life = s.life ∧ (disablePort s).gate =
    s.gate ∧ (disablePort s).rings = s.rings ∧ (disablePort s).units = s.units ∧ (disablePort s).curves = s.curves ∧
    (disablePort s).sess = s.sess ∧ (disablePort s).vault = s.vault ∧ (disablePort s).ctrs = s.ctrs ∧ (disablePort
    s).powder = s.powder ∧ (disablePort s).merya = s.merya ∧ (disablePort s).prot = s.prot ∧ (disablePort s).mem =
    s.mem ∧ (disablePort s).stored = s.stored ∧ (disablePort s).patrol = s.patrol ∧ (disablePort s).trk = s.trk ∧
    (disablePort s).hut = s.hut ∧ (disablePort s).alarm = s.alarm ∧ (disablePort s).tel = s.tel ∧ (disablePort
    s).pending = s.pending := by
  unfold disablePort
  (repeat' split) <;> simp only [State.ite_parts .., ite_self, and_self, implies_true, settlePort_frame .., setPort_frame .., modCard_frame ..]

/-! ### Stored.lean -/

theorem notePass_frame (bank : Nat) (w : Nat) (s : State) :
    (notePass bank w s).now = s.now ∧ (notePass bank w s).free = s.free ∧ (notePass bank w s).life = s.life ∧ (notePass
    bank w s).link = s.link ∧ (notePass bank w s).gate = s.gate ∧ (notePass bank w s).rings = s.rings ∧ (notePass
    bank w s).units = s.units ∧ (notePass bank w s).curves = s.curves ∧ (notePass bank w s).sess = s.sess ∧
    (notePass bank w s).vault = s.vault ∧ (notePass bank w s).ctrs = s.ctrs ∧ (notePass bank w s).powder = s.powder
    ∧ (notePass bank w s).merya = s.merya ∧ (notePass bank w s).prot = s.prot ∧ (notePass bank w s).mem = s.mem ∧
    (notePass bank w s).patrol = s.patrol ∧ (notePass bank w s).trk = s.trk ∧ (notePass bank w s).hut = s.hut ∧
    (notePass bank w s).alarm = s.alarm ∧ (notePass bank w s).card = s.card ∧ (notePass bank w s).evts = s.evts ∧
    (notePass bank w s).tel = s.tel ∧ (notePass bank w s).pending = s.pending := by
  simp only [notePass, State.ite_parts .., ite_self, and_self, implies_true]

theorem scrub_frame (bank : Nat) (w : Nat) (found : WordCond) (s : State) :
    (scrub bank w found s).now = s.now ∧ (scrub bank w found s).free = s.free ∧ (scrub bank w found s).life = s.life ∧
    (scrub bank w found s).gate = s.gate ∧ (scrub bank w found s).rings = s.rings ∧ (scrub bank w found s).units =
    s.units ∧ (scrub bank w found s).curves = s.curves ∧ (scrub bank w found s).sess = s.sess ∧ (scrub bank w found
    s).vault = s.vault ∧ (scrub bank w found s).ctrs = s.ctrs ∧ (scrub bank w found s).powder = s.powder ∧ (scrub
    bank w found s).merya = s.merya ∧ (scrub bank w found s).prot = s.prot ∧ (scrub bank w found s).mem = s.mem ∧
    (scrub bank w found s).patrol = s.patrol ∧ (scrub bank w found s).hut = s.hut ∧ (scrub bank w found s).alarm =
    s.alarm ∧ (scrub bank w found s).card = s.card ∧ (scrub bank w found s).tel = s.tel ∧ (scrub bank w found
    s).pending = s.pending := by
  unfold scrub
  (repeat' split) <;> simp only [State.ite_parts .., ite_self, and_self, implies_true, notePass_frame .., noteCorrected_frame .., setCond_frame ..,
    noteUe_frame ..]

theorem ageHour_frame (s : State) :
    (ageHour s).now = s.now ∧ (ageHour s).free = s.free ∧ (ageHour s).life = s.life ∧ (ageHour s).link = s.link ∧
    (ageHour s).gate = s.gate ∧ (ageHour s).rings = s.rings ∧ (ageHour s).units = s.units ∧ (ageHour s).curves =
    s.curves ∧ (ageHour s).sess = s.sess ∧ (ageHour s).vault = s.vault ∧ (ageHour s).ctrs = s.ctrs ∧ (ageHour
    s).powder = s.powder ∧ (ageHour s).merya = s.merya ∧ (ageHour s).prot = s.prot ∧ (ageHour s).mem = s.mem ∧
    (ageHour s).patrol = s.patrol ∧ (ageHour s).trk = s.trk ∧ (ageHour s).hut = s.hut ∧ (ageHour s).alarm = s.alarm
    ∧ (ageHour s).card = s.card ∧ (ageHour s).evts = s.evts ∧ (ageHour s).tel = s.tel ∧ (ageHour s).pending =
    s.pending := by
  simp only [ageHour, State.ite_parts .., ite_self, and_self, implies_true]

theorem writeBack_frame (bank : Nat) (w : Nat) (s : State) :
    (writeBack bank w s).now = s.now ∧ (writeBack bank w s).free = s.free ∧ (writeBack bank w s).life = s.life ∧
    (writeBack bank w s).link = s.link ∧ (writeBack bank w s).gate = s.gate ∧ (writeBack bank w s).rings = s.rings ∧
    (writeBack bank w s).units = s.units ∧ (writeBack bank w s).curves = s.curves ∧ (writeBack bank w s).sess =
    s.sess ∧ (writeBack bank w s).vault = s.vault ∧ (writeBack bank w s).ctrs = s.ctrs ∧ (writeBack bank w s).powder
    = s.powder ∧ (writeBack bank w s).merya = s.merya ∧ (writeBack bank w s).prot = s.prot ∧ (writeBack bank w
    s).mem = s.mem ∧ (writeBack bank w s).patrol = s.patrol ∧ (writeBack bank w s).trk = s.trk ∧ (writeBack bank w
    s).hut = s.hut ∧ (writeBack bank w s).alarm = s.alarm ∧ (writeBack bank w s).card = s.card ∧ (writeBack bank w
    s).evts = s.evts ∧ (writeBack bank w s).tel = s.tel ∧ (writeBack bank w s).pending = s.pending := by
  simp only [writeBack, State.ite_parts .., ite_self, and_self, implies_true, noteWritten_frame .., setCond_frame ..]

theorem saveWear_frame (s : State) :
    (saveWear s).now = s.now ∧ (saveWear s).free = s.free ∧ (saveWear s).life = s.life ∧ (saveWear s).gate = s.gate ∧
    (saveWear s).rings = s.rings ∧ (saveWear s).units = s.units ∧ (saveWear s).curves = s.curves ∧ (saveWear s).sess
    = s.sess ∧ (saveWear s).vault = s.vault ∧ (saveWear s).ctrs = s.ctrs ∧ (saveWear s).powder = s.powder ∧
    (saveWear s).merya = s.merya ∧ (saveWear s).prot = s.prot ∧ (saveWear s).mem = s.mem ∧ (saveWear s).patrol =
    s.patrol ∧ (saveWear s).hut = s.hut ∧ (saveWear s).alarm = s.alarm ∧ (saveWear s).card = s.card ∧ (saveWear
    s).tel = s.tel ∧ (saveWear s).pending = s.pending := by
  simp only [saveWear, State.ite_parts .., ite_self, and_self, implies_true, foldl_now, foldl_free, foldl_life,
    foldl_gate, foldl_rings, foldl_units, foldl_curves, foldl_sess, foldl_vault, foldl_ctrs, foldl_powder,
    foldl_merya, foldl_prot, foldl_mem, foldl_patrol, foldl_hut, foldl_alarm, foldl_card, foldl_tel, foldl_pending,
    retireRow_frame .., setRsfEvt_frame ..]

theorem retirementEnds_frame (bank : Nat) (row : Nat) (s0 : State) :
    (retirementEnds bank row s0).now = s0.now ∧ (retirementEnds bank row s0).free = s0.free ∧ (retirementEnds bank row
    s0).life = s0.life ∧ (retirementEnds bank row s0).gate = s0.gate ∧ (retirementEnds bank row s0).rings = s0.rings
    ∧ (retirementEnds bank row s0).units = s0.units ∧ (retirementEnds bank row s0).curves = s0.curves ∧
    (retirementEnds bank row s0).sess = s0.sess ∧ (retirementEnds bank row s0).vault = s0.vault ∧ (retirementEnds
    bank row s0).ctrs = s0.ctrs ∧ (retirementEnds bank row s0).powder = s0.powder ∧ (retirementEnds bank row
    s0).merya = s0.merya ∧ (retirementEnds bank row s0).prot = s0.prot ∧ (retirementEnds bank row s0).mem = s0.mem ∧
    (retirementEnds bank row s0).patrol = s0.patrol ∧ (retirementEnds bank row s0).hut = s0.hut ∧ (retirementEnds
    bank row s0).alarm = s0.alarm ∧ (retirementEnds bank row s0).card = s0.card ∧ (retirementEnds bank row s0).tel =
    s0.tel ∧ (retirementEnds bank row s0).pending = s0.pending := by
  simp only [retirementEnds, State.ite_parts .., ite_self, and_self, implies_true, rowRetired_frame ..]

theorem latchWeak_frame (s : State) :
    (latchWeak s).now = s.now ∧ (latchWeak s).free = s.free ∧ (latchWeak s).life = s.life ∧ (latchWeak s).link = s.link
    ∧ (latchWeak s).gate = s.gate ∧ (latchWeak s).rings = s.rings ∧ (latchWeak s).units = s.units ∧ (latchWeak
    s).curves = s.curves ∧ (latchWeak s).sess = s.sess ∧ (latchWeak s).vault = s.vault ∧ (latchWeak s).ctrs = s.ctrs
    ∧ (latchWeak s).powder = s.powder ∧ (latchWeak s).merya = s.merya ∧ (latchWeak s).prot = s.prot ∧ (latchWeak
    s).mem = s.mem ∧ (latchWeak s).patrol = s.patrol ∧ (latchWeak s).trk = s.trk ∧ (latchWeak s).hut = s.hut ∧
    (latchWeak s).alarm = s.alarm ∧ (latchWeak s).card = s.card ∧ (latchWeak s).evts = s.evts ∧ (latchWeak s).tel =
    s.tel ∧ (latchWeak s).pending = s.pending := by
  simp only [latchWeak, State.ite_parts .., ite_self, and_self, implies_true]

theorem overwriteRange_frame (bank : Nat) (s : State) :
    (overwriteRange bank s).now = s.now ∧ (overwriteRange bank s).free = s.free ∧ (overwriteRange bank s).life = s.life
    ∧ (overwriteRange bank s).link = s.link ∧ (overwriteRange bank s).gate = s.gate ∧ (overwriteRange bank s).rings
    = s.rings ∧ (overwriteRange bank s).units = s.units ∧ (overwriteRange bank s).curves = s.curves ∧
    (overwriteRange bank s).sess = s.sess ∧ (overwriteRange bank s).vault = s.vault ∧ (overwriteRange bank s).ctrs =
    s.ctrs ∧ (overwriteRange bank s).powder = s.powder ∧ (overwriteRange bank s).merya = s.merya ∧ (overwriteRange
    bank s).prot = s.prot ∧ (overwriteRange bank s).mem = s.mem ∧ (overwriteRange bank s).patrol = s.patrol ∧
    (overwriteRange bank s).trk = s.trk ∧ (overwriteRange bank s).hut = s.hut ∧ (overwriteRange bank s).alarm =
    s.alarm ∧ (overwriteRange bank s).card = s.card ∧ (overwriteRange bank s).evts = s.evts ∧ (overwriteRange bank
    s).tel = s.tel ∧ (overwriteRange bank s).pending = s.pending := by
  simp only [overwriteRange, State.ite_parts .., ite_self, and_self, implies_true]

theorem ageMinute_frame (s : State) :
    (ageMinute s).now = s.now ∧ (ageMinute s).life = s.life ∧ (ageMinute s).link = s.link ∧ (ageMinute s).gate = s.gate
    ∧ (ageMinute s).rings = s.rings ∧ (ageMinute s).units = s.units ∧ (ageMinute s).curves = s.curves ∧ (ageMinute
    s).sess = s.sess ∧ (ageMinute s).vault = s.vault ∧ (ageMinute s).ctrs = s.ctrs ∧ (ageMinute s).powder = s.powder
    ∧ (ageMinute s).merya = s.merya ∧ (ageMinute s).prot = s.prot ∧ (ageMinute s).mem = s.mem ∧ (ageMinute s).patrol
    = s.patrol ∧ (ageMinute s).trk = s.trk ∧ (ageMinute s).hut = s.hut ∧ (ageMinute s).alarm = s.alarm ∧ (ageMinute
    s).card = s.card ∧ (ageMinute s).evts = s.evts ∧ (ageMinute s).tel = s.tel ∧ (ageMinute s).pending = s.pending := by
  simp only [ageMinute, State.ite_parts .., ite_self, and_self, implies_true]

theorem latchBank_frame (s : State) :
    (latchBank s).now = s.now ∧ (latchBank s).free = s.free ∧ (latchBank s).life = s.life ∧ (latchBank s).link = s.link
    ∧ (latchBank s).gate = s.gate ∧ (latchBank s).rings = s.rings ∧ (latchBank s).units = s.units ∧ (latchBank
    s).curves = s.curves ∧ (latchBank s).sess = s.sess ∧ (latchBank s).vault = s.vault ∧ (latchBank s).ctrs = s.ctrs
    ∧ (latchBank s).powder = s.powder ∧ (latchBank s).merya = s.merya ∧ (latchBank s).prot = s.prot ∧ (latchBank
    s).mem = s.mem ∧ (latchBank s).patrol = s.patrol ∧ (latchBank s).trk = s.trk ∧ (latchBank s).hut = s.hut ∧
    (latchBank s).alarm = s.alarm ∧ (latchBank s).card = s.card ∧ (latchBank s).evts = s.evts ∧ (latchBank s).tel =
    s.tel ∧ (latchBank s).pending = s.pending := by
  simp only [latchBank, State.ite_parts .., ite_self, and_self, implies_true]

/-! ### Gather.lean -/

theorem inputBad_frame (tag : Nat) (s : State) :
    (inputBad tag s).now = s.now ∧ (inputBad tag s).free = s.free ∧ (inputBad tag s).life = s.life ∧ (inputBad tag
    s).link = s.link ∧ (inputBad tag s).gate = s.gate ∧ (inputBad tag s).curves = s.curves ∧ (inputBad tag s).sess =
    s.sess ∧ (inputBad tag s).ctrs = s.ctrs ∧ (inputBad tag s).powder = s.powder ∧ (inputBad tag s).merya = s.merya
    ∧ (inputBad tag s).prot = s.prot ∧ (inputBad tag s).mem = s.mem ∧ (inputBad tag s).patrol = s.patrol ∧ (inputBad
    tag s).hut = s.hut ∧ (inputBad tag s).alarm = s.alarm ∧ (inputBad tag s).card = s.card ∧ (inputBad tag s).evts =
    s.evts ∧ (inputBad tag s).tel = s.tel ∧ (inputBad tag s).pending = s.pending := by
  simp only [inputBad, State.ite_parts .., ite_self, and_self, implies_true, finishJob_frame .., modJob_frame ..]

theorem leaveChannel_frame (tag : Nat) (s : State) :
    (leaveChannel tag s).now = s.now ∧ (leaveChannel tag s).free = s.free ∧ (leaveChannel tag s).life = s.life ∧
    (leaveChannel tag s).link = s.link ∧ (leaveChannel tag s).gate = s.gate ∧ (leaveChannel tag s).units = s.units ∧
    (leaveChannel tag s).curves = s.curves ∧ (leaveChannel tag s).sess = s.sess ∧ (leaveChannel tag s).vault =
    s.vault ∧ (leaveChannel tag s).ctrs = s.ctrs ∧ (leaveChannel tag s).powder = s.powder ∧ (leaveChannel tag
    s).merya = s.merya ∧ (leaveChannel tag s).prot = s.prot ∧ (leaveChannel tag s).mem = s.mem ∧ (leaveChannel tag
    s).stored = s.stored ∧ (leaveChannel tag s).patrol = s.patrol ∧ (leaveChannel tag s).trk = s.trk ∧ (leaveChannel
    tag s).hut = s.hut ∧ (leaveChannel tag s).alarm = s.alarm ∧ (leaveChannel tag s).card = s.card ∧ (leaveChannel
    tag s).evts = s.evts ∧ (leaveChannel tag s).tel = s.tel ∧ (leaveChannel tag s).pending = s.pending := by
  simp only [leaveChannel, State.ite_parts .., ite_self, and_self, implies_true, modJob_frame ..]

theorem fitCurve_frame (tag : Nat) (s : State) :
    (fitCurve tag s).now = s.now ∧ (fitCurve tag s).free = s.free ∧ (fitCurve tag s).life = s.life ∧ (fitCurve tag
    s).link = s.link ∧ (fitCurve tag s).gate = s.gate ∧ (fitCurve tag s).curves = s.curves ∧ (fitCurve tag s).sess =
    s.sess ∧ (fitCurve tag s).ctrs = s.ctrs ∧ (fitCurve tag s).powder = s.powder ∧ (fitCurve tag s).merya = s.merya
    ∧ (fitCurve tag s).prot = s.prot ∧ (fitCurve tag s).mem = s.mem ∧ (fitCurve tag s).patrol = s.patrol ∧ (fitCurve
    tag s).hut = s.hut ∧ (fitCurve tag s).alarm = s.alarm ∧ (fitCurve tag s).card = s.card ∧ (fitCurve tag s).evts =
    s.evts ∧ (fitCurve tag s).tel = s.tel ∧ (fitCurve tag s).pending = s.pending := by
  unfold fitCurve
  (repeat' split) <;> simp only [State.ite_parts .., ite_self, and_self, implies_true, finishJob_frame .., modJob_frame ..]

theorem gathered_frame (tag : Nat) (s : State) :
    (gathered tag s).now = s.now ∧ (gathered tag s).life = s.life ∧ (gathered tag s).gate = s.gate ∧ (gathered tag
    s).curves = s.curves ∧ (gathered tag s).sess = s.sess ∧ (gathered tag s).powder = s.powder ∧ (gathered tag
    s).merya = s.merya ∧ (gathered tag s).hut = s.hut ∧ (gathered tag s).alarm = s.alarm ∧ (gathered tag s).tel =
    s.tel ∧ (gathered tag s).pending = s.pending := by
  unfold gathered
  (repeat' split) <;> simp only [State.ite_parts .., ite_self, and_self, implies_true, wakeJob_frame .., modJob_frame .., fitCurve_frame ..,
    portNext_frame ..]

theorem afterArrival_frame (tag : Nat) (s : State) :
    (afterArrival tag s).now = s.now ∧ (afterArrival tag s).life = s.life ∧ (afterArrival tag s).gate = s.gate ∧
    (afterArrival tag s).curves = s.curves ∧ (afterArrival tag s).sess = s.sess ∧ (afterArrival tag s).powder =
    s.powder ∧ (afterArrival tag s).merya = s.merya ∧ (afterArrival tag s).hut = s.hut ∧ (afterArrival tag s).alarm
    = s.alarm ∧ (afterArrival tag s).tel = s.tel ∧ (afterArrival tag s).pending = s.pending := by
  unfold afterArrival
  (repeat' split) <;> simp only [State.ite_parts .., ite_self, and_self, implies_true, inputBad_frame .., leaveChannel_frame .., gathered_frame ..,
    feedSides_frame ..]

theorem sramRead_error {n tag a len : Nat} {s t : State} (h : sramRead n tag a len s = .error t) :
    t.now = s.now ∧ t.life = s.life ∧ t.gate = s.gate ∧ t.curves = s.curves ∧ t.sess = s.sess ∧ t.powder = s.powder ∧
    t.merya = s.merya ∧ t.hut = s.hut ∧ t.alarm = s.alarm ∧ t.tel = s.tel ∧ t.pending = s.pending := by
  unfold sramRead at h
  dsimp only at h
  split at h
  · cases h; simp only [finishJob_frame .., modJob_frame .., faultDma_frame .., and_self]
  · split at h
    · cases h; simp only [finishJob_frame .., modJob_frame .., readWords_frame .., and_self]
    · cases h

theorem sramSegs_error {n tag : Nat} {l : List (Nat × Nat)} {s t : State} (h : sramSegs n tag l s = .error t) :
    t.now = s.now ∧ t.life = s.life ∧ t.gate = s.gate ∧ t.curves = s.curves ∧ t.sess = s.sess ∧ t.powder = s.powder ∧
    t.merya = s.merya ∧ t.hut = s.hut ∧ t.alarm = s.alarm ∧ t.tel = s.tel ∧ t.pending = s.pending := by
  induction l generalizing s with
  | nil => cases h
  | cons g l ih =>
    unfold sramSegs at h
    split at h
    · rename_i h1; cases h; exact sramRead_error h1
    · cases h2 : sramSegs n tag l (readWords g.1 g.2 s) with
      | ok x => rw [h2] at h; cases h
      | error u => rw [h2] at h; cases h; simpa only [readWords_frame ..] using ih h2

theorem sramList_error {n tag a k : Nat} {b : Bool} {s t : State}
    (h : (if b then (sramRead n tag a k s).map some else .ok none) = .error t) :
    t.now = s.now ∧ t.life = s.life ∧ t.gate = s.gate ∧ t.curves = s.curves ∧ t.sess = s.sess ∧ t.powder = s.powder ∧
    t.merya = s.merya ∧ t.hut = s.hut ∧ t.alarm = s.alarm ∧ t.tel = s.tel ∧ t.pending = s.pending := by
  split at h
  · cases h1 : sramRead n tag a k s with
    | ok x => rw [h1] at h; cases h
    | error u => rw [h1] at h; cases h; exact sramRead_error h1
  · cases h

theorem sramSource_frame (n : Nat) (tag : Nat) (s : State) :
    (sramSource n tag s).now = s.now ∧ (sramSource n tag s).life = s.life ∧ (sramSource n tag s).gate = s.gate ∧
    (sramSource n tag s).curves = s.curves ∧ (sramSource n tag s).sess = s.sess ∧ (sramSource n tag s).powder =
    s.powder ∧ (sramSource n tag s).merya = s.merya ∧ (sramSource n tag s).hut = s.hut ∧ (sramSource n tag s).alarm
    = s.alarm ∧ (sramSource n tag s).tel = s.tel ∧ (sramSource n tag s).pending = s.pending := by
  unfold sramSource
  split
  · simp only [and_self]
  · split
    · simp only [afterArrival_frame .., and_self]
    · split
      · rename_i h; exact sramSegs_error h
      · simp only [afterArrival_frame .., modJob_frame .., foldl_now, foldl_life, foldl_gate, foldl_curves, foldl_sess, foldl_powder, foldl_merya, foldl_hut, foldl_alarm, foldl_tel, foldl_pending,
          readWords_frame .., implies_true, and_self]

theorem sramGather_frame (n : Nat) (tag : Nat) (s : State) :
    (sramGather n tag s).now = s.now ∧ (sramGather n tag s).life = s.life ∧ (sramGather n tag s).gate = s.gate ∧
    (sramGather n tag s).curves = s.curves ∧ (sramGather n tag s).sess = s.sess ∧ (sramGather n tag s).powder =
    s.powder ∧ (sramGather n tag s).merya = s.merya ∧ (sramGather n tag s).hut = s.hut ∧ (sramGather n tag s).alarm
    = s.alarm ∧ (sramGather n tag s).tel = s.tel ∧ (sramGather n tag s).pending = s.pending := by
  unfold sramGather
  split
  · simp only [and_self]
  · dsimp only
    split
    · rename_i h; exact sramList_error h
    · rename_i h _; exact sramList_error h
    · split
      · simp only [inputBad_frame .., modJob_frame .., and_self]
      · simp only [sramSource_frame .., modJob_frame .., and_self]

theorem unexpectedData_frame (tag : Nat) (s : State) :
    (unexpectedData tag s).now = s.now ∧ (unexpectedData tag s).free = s.free ∧ (unexpectedData tag s).life = s.life ∧
    (unexpectedData tag s).gate = s.gate ∧ (unexpectedData tag s).rings = s.rings ∧ (unexpectedData tag s).units =
    s.units ∧ (unexpectedData tag s).curves = s.curves ∧ (unexpectedData tag s).sess = s.sess ∧ (unexpectedData tag
    s).vault = s.vault ∧ (unexpectedData tag s).ctrs = s.ctrs ∧ (unexpectedData tag s).powder = s.powder ∧
    (unexpectedData tag s).merya = s.merya ∧ (unexpectedData tag s).prot = s.prot ∧ (unexpectedData tag s).mem =
    s.mem ∧ (unexpectedData tag s).stored = s.stored ∧ (unexpectedData tag s).patrol = s.patrol ∧ (unexpectedData
    tag s).trk = s.trk ∧ (unexpectedData tag s).hut = s.hut ∧ (unexpectedData tag s).alarm = s.alarm ∧
    (unexpectedData tag s).card = s.card ∧ (unexpectedData tag s).tel = s.tel ∧ (unexpectedData tag s).pending =
    s.pending := by
  simp only [unexpectedData, State.ite_parts .., ite_self, and_self, implies_true, setPcieErr_frame ..]

theorem releaseRequest_frame (req : Nat) (s : State) :
    (releaseRequest req s).now = s.now ∧ (releaseRequest req s).free = s.free ∧ (releaseRequest req s).life = s.life ∧
    (releaseRequest req s).gate = s.gate ∧ (releaseRequest req s).rings = s.rings ∧ (releaseRequest req s).units =
    s.units ∧ (releaseRequest req s).curves = s.curves ∧ (releaseRequest req s).sess = s.sess ∧ (releaseRequest req
    s).vault = s.vault ∧ (releaseRequest req s).ctrs = s.ctrs ∧ (releaseRequest req s).powder = s.powder ∧
    (releaseRequest req s).merya = s.merya ∧ (releaseRequest req s).prot = s.prot ∧ (releaseRequest req s).mem =
    s.mem ∧ (releaseRequest req s).stored = s.stored ∧ (releaseRequest req s).patrol = s.patrol ∧ (releaseRequest
    req s).trk = s.trk ∧ (releaseRequest req s).hut = s.hut ∧ (releaseRequest req s).alarm = s.alarm ∧
    (releaseRequest req s).card = s.card ∧ (releaseRequest req s).evts = s.evts ∧ (releaseRequest req s).tel = s.tel
    ∧ (releaseRequest req s).pending = s.pending := by
  simp only [releaseRequest, State.ite_parts .., ite_self, and_self, implies_true]

theorem edgeEnds_frame (tag : Nat) (s : State) :
    (edgeEnds tag s).now = s.now ∧ (edgeEnds tag s).life = s.life ∧ (edgeEnds tag s).gate = s.gate ∧ (edgeEnds tag
    s).sess = s.sess ∧ (edgeEnds tag s).ctrs = s.ctrs ∧ (edgeEnds tag s).powder = s.powder ∧ (edgeEnds tag s).merya
    = s.merya ∧ (edgeEnds tag s).patrol = s.patrol ∧ (edgeEnds tag s).hut = s.hut ∧ (edgeEnds tag s).alarm = s.alarm
    ∧ (edgeEnds tag s).card = s.card ∧ (edgeEnds tag s).tel = s.tel ∧ (edgeEnds tag s).pending = s.pending := by
  unfold edgeEnds
  (repeat' split) <;> simp only [State.ite_parts .., ite_self, and_self, implies_true, curveEnds_frame .., edgeDone_frame ..]

theorem go_frame (tag : Nat) (s : State) :
    (go tag s).now = s.now ∧ (go tag s).life = s.life ∧ (go tag s).gate = s.gate ∧ (go tag s).curves = s.curves ∧ (go
    tag s).sess = s.sess ∧ (go tag s).powder = s.powder ∧ (go tag s).merya = s.merya ∧ (go tag s).hut = s.hut ∧ (go
    tag s).alarm = s.alarm ∧ (go tag s).tel = s.tel ∧ (go tag s).pending = s.pending := by
  unfold go
  (repeat' split) <;> simp only [State.ite_parts .., ite_self, and_self, implies_true, inputBad_frame .., sramGather_frame .., afterArrival_frame ..,
    requestNamed_frame ..]

theorem gatherWhole_frame (c : CritData) (tag : Nat) (s : State) :
    (gatherWhole c tag s).now = s.now ∧ (gatherWhole c tag s).free = s.free ∧ (gatherWhole c tag s).life = s.life ∧
    (gatherWhole c tag s).link = s.link ∧ (gatherWhole c tag s).gate = s.gate ∧ (gatherWhole c tag s).curves =
    s.curves ∧ (gatherWhole c tag s).sess = s.sess ∧ (gatherWhole c tag s).ctrs = s.ctrs ∧ (gatherWhole c tag
    s).powder = s.powder ∧ (gatherWhole c tag s).merya = s.merya ∧ (gatherWhole c tag s).prot = s.prot ∧
    (gatherWhole c tag s).mem = s.mem ∧ (gatherWhole c tag s).patrol = s.patrol ∧ (gatherWhole c tag s).hut = s.hut
    ∧ (gatherWhole c tag s).alarm = s.alarm ∧ (gatherWhole c tag s).card = s.card ∧ (gatherWhole c tag s).evts =
    s.evts ∧ (gatherWhole c tag s).tel = s.tel ∧ (gatherWhole c tag s).pending = s.pending := by
  simp only [gatherWhole, State.ite_parts .., ite_self, and_self, implies_true, modJob_frame .., fitCurve_frame ..]

theorem goCritical_frame (g : Option CritData) (tag : Nat) (s : State) :
    (goCritical g tag s).now = s.now ∧ (goCritical g tag s).tel = s.tel ∧ (goCritical g tag s).pending = s.pending := by
  unfold goCritical
  (repeat' split) <;> simp only [State.ite_parts .., ite_self, and_self, implies_true, go_frame .., inputBad_frame .., portNext_frame ..,
    completeEntry_frame .., releaseBarrier_frame .., gatherWhole_frame ..]

theorem arriveCritical_frame (c : CmdCode) (a : Arrival) (g : Option CritData) (s : State) :
    (arriveCritical c a g s).now = s.now ∧ (arriveCritical c a g s).pending = s.pending := by
  simp only [arriveCritical, State.ite_parts .., ite_self, and_self, implies_true, goCritical_frame .., arrive_now,
    arrive_pending]

theorem writeTimesOut_frame (tag : Nat) (addr : DWord) (s : State) :
    (writeTimesOut tag addr s).now = s.now ∧ (writeTimesOut tag addr s).free = s.free ∧ (writeTimesOut tag addr s).life
    = s.life ∧ (writeTimesOut tag addr s).gate = s.gate ∧ (writeTimesOut tag addr s).curves = s.curves ∧
    (writeTimesOut tag addr s).sess = s.sess ∧ (writeTimesOut tag addr s).ctrs = s.ctrs ∧ (writeTimesOut tag addr
    s).powder = s.powder ∧ (writeTimesOut tag addr s).merya = s.merya ∧ (writeTimesOut tag addr s).prot = s.prot ∧
    (writeTimesOut tag addr s).mem = s.mem ∧ (writeTimesOut tag addr s).patrol = s.patrol ∧ (writeTimesOut tag addr
    s).hut = s.hut ∧ (writeTimesOut tag addr s).alarm = s.alarm ∧ (writeTimesOut tag addr s).card = s.card ∧
    (writeTimesOut tag addr s).evts = s.evts ∧ (writeTimesOut tag addr s).tel = s.tel ∧ (writeTimesOut tag addr
    s).pending = s.pending := by
  unfold writeTimesOut
  (repeat' split) <;> simp only [State.ite_parts .., ite_self, and_self, implies_true, captureHost_frame .., outputGone_frame .., modJob_frame ..]

theorem holdRequest_frame (tag : Nat) (req : Nat) (s : State) :
    (holdRequest tag req s).now = s.now ∧ (holdRequest tag req s).free = s.free ∧ (holdRequest tag req s).life = s.life
    ∧ (holdRequest tag req s).gate = s.gate ∧ (holdRequest tag req s).rings = s.rings ∧ (holdRequest tag req
    s).units = s.units ∧ (holdRequest tag req s).curves = s.curves ∧ (holdRequest tag req s).sess = s.sess ∧
    (holdRequest tag req s).vault = s.vault ∧ (holdRequest tag req s).ctrs = s.ctrs ∧ (holdRequest tag req s).powder
    = s.powder ∧ (holdRequest tag req s).merya = s.merya ∧ (holdRequest tag req s).prot = s.prot ∧ (holdRequest tag
    req s).mem = s.mem ∧ (holdRequest tag req s).stored = s.stored ∧ (holdRequest tag req s).patrol = s.patrol ∧
    (holdRequest tag req s).trk = s.trk ∧ (holdRequest tag req s).hut = s.hut ∧ (holdRequest tag req s).alarm =
    s.alarm ∧ (holdRequest tag req s).card = s.card ∧ (holdRequest tag req s).evts = s.evts ∧ (holdRequest tag req
    s).tel = s.tel ∧ (holdRequest tag req s).pending = s.pending := by
  simp only [holdRequest, State.ite_parts .., ite_self, and_self, implies_true]

theorem descriptorFails_frame (r : RingId) (index : Nat) (k : ReadFault) (addr : DWord) (pick : Nat) (s : State) :
    (descriptorFails r index k addr pick s).now = s.now ∧ (descriptorFails r index k addr pick s).life = s.life ∧
    (descriptorFails r index k addr pick s).curves = s.curves ∧ (descriptorFails r index k addr pick s).sess =
    s.sess ∧ (descriptorFails r index k addr pick s).ctrs = s.ctrs ∧ (descriptorFails r index k addr pick s).powder
    = s.powder ∧ (descriptorFails r index k addr pick s).patrol = s.patrol ∧ (descriptorFails r index k addr pick
    s).hut = s.hut ∧ (descriptorFails r index k addr pick s).alarm = s.alarm ∧ (descriptorFails r index k addr pick
    s).card = s.card ∧ (descriptorFails r index k addr pick s).tel = s.tel ∧ (descriptorFails r index k addr pick
    s).pending = s.pending := by
  unfold descriptorFails
  (repeat' split) <;> simp only [State.ite_parts .., ite_self, and_self, implies_true, holdRequest_frame .., noteStatus_frame ..,
    hostReadFailed_frame .., fixedDesc_frame ..]

theorem arriveOp_frame (o : Op) (a : Arrival) (s : State) :
    (arriveOp o a s).now = s.now ∧ (arriveOp o a s).life = s.life ∧ (arriveOp o a s).curves = s.curves ∧ (arriveOp o a
    s).powder = s.powder ∧ (arriveOp o a s).hut = s.hut ∧ (arriveOp o a s).alarm = s.alarm ∧ (arriveOp o a
    s).pending = s.pending := by
  simp only [arriveOp, State.ite_parts .., ite_self, and_self, implies_true, go_frame .., arrive_now, arrive_life,
    arrive_curves, arrive_powder, arrive_hut, arrive_alarm, arrive_pending]

theorem readFaults_frame (tag : Nat) (k : ReadFault) (addr : DWord) (s : State) :
    (readFaults tag k addr s).now = s.now ∧ (readFaults tag k addr s).life = s.life ∧ (readFaults tag k addr s).gate =
    s.gate ∧ (readFaults tag k addr s).curves = s.curves ∧ (readFaults tag k addr s).sess = s.sess ∧ (readFaults tag
    k addr s).powder = s.powder ∧ (readFaults tag k addr s).hut = s.hut ∧ (readFaults tag k addr s).alarm = s.alarm
    ∧ (readFaults tag k addr s).tel = s.tel ∧ (readFaults tag k addr s).pending = s.pending := by
  unfold readFaults
  (repeat' split) <;> simp only [State.ite_parts .., ite_self, and_self, implies_true, modJob_frame .., hostReadFailed_frame .., portNext_frame ..,
    nextBlock_frame .., finishJob_frame ..]

theorem readTimesOut_frame (tag : Nat) (req : Nat) (addr : DWord) (s : State) :
    (readTimesOut tag req addr s).now = s.now ∧ (readTimesOut tag req addr s).life = s.life ∧ (readTimesOut tag req addr
    s).gate = s.gate ∧ (readTimesOut tag req addr s).curves = s.curves ∧ (readTimesOut tag req addr s).sess = s.sess
    ∧ (readTimesOut tag req addr s).powder = s.powder ∧ (readTimesOut tag req addr s).hut = s.hut ∧ (readTimesOut
    tag req addr s).alarm = s.alarm ∧ (readTimesOut tag req addr s).tel = s.tel ∧ (readTimesOut tag req addr
    s).pending = s.pending := by
  unfold readTimesOut
  (repeat' split) <;> simp only [State.ite_parts .., ite_self, and_self, implies_true, readFaults_frame .., holdRequest_frame ..]

theorem badAccess_frame (s : State) :
    (badAccess s).now = s.now ∧ (badAccess s).free = s.free ∧ (badAccess s).life = s.life ∧ (badAccess s).gate = s.gate
    ∧ (badAccess s).rings = s.rings ∧ (badAccess s).units = s.units ∧ (badAccess s).curves = s.curves ∧ (badAccess
    s).sess = s.sess ∧ (badAccess s).vault = s.vault ∧ (badAccess s).ctrs = s.ctrs ∧ (badAccess s).powder = s.powder
    ∧ (badAccess s).merya = s.merya ∧ (badAccess s).prot = s.prot ∧ (badAccess s).mem = s.mem ∧ (badAccess s).stored
    = s.stored ∧ (badAccess s).patrol = s.patrol ∧ (badAccess s).trk = s.trk ∧ (badAccess s).hut = s.hut ∧
    (badAccess s).alarm = s.alarm ∧ (badAccess s).card = s.card ∧ (badAccess s).tel = s.tel ∧ (badAccess s).pending
    = s.pending := by
  simp only [badAccess, State.ite_parts .., ite_self, and_self, implies_true, setPcieErr_frame ..]

theorem secondGather_frame (tag : Nat) (s : State) :
    (secondGather tag s).now = s.now ∧ (secondGather tag s).life = s.life ∧ (secondGather tag s).gate = s.gate ∧
    (secondGather tag s).curves = s.curves ∧ (secondGather tag s).sess = s.sess ∧ (secondGather tag s).powder =
    s.powder ∧ (secondGather tag s).merya = s.merya ∧ (secondGather tag s).hut = s.hut ∧ (secondGather tag s).alarm
    = s.alarm ∧ (secondGather tag s).tel = s.tel ∧ (secondGather tag s).pending = s.pending := by
  unfold secondGather
  (repeat' split) <;> simp only [State.ite_parts .., ite_self, and_self, implies_true, sramSource_frame .., requestSource_frame ..]

theorem passEnds_now (ends : State → State) (tag : Nat) (s : State) (hf : ∀ s, (ends s).now = s.now) : (passEnds
    ends tag s).now = s.now := by
  unfold passEnds
  (repeat' split) <;> simp only [State.ite_parts .., ite_self, and_self, implies_true, secondGather_frame .., hf]

theorem passEnds_life (ends : State → State) (tag : Nat) (s : State) (hf : ∀ s, (ends s).life = s.life) : (passEnds
    ends tag s).life = s.life := by
  unfold passEnds
  (repeat' split) <;> simp only [State.ite_parts .., ite_self, and_self, implies_true, secondGather_frame .., hf]

theorem passEnds_gate (ends : State → State) (tag : Nat) (s : State) (hf : ∀ s, (ends s).gate = s.gate) : (passEnds
    ends tag s).gate = s.gate := by
  unfold passEnds
  (repeat' split) <;> simp only [State.ite_parts .., ite_self, and_self, implies_true, secondGather_frame .., hf]

theorem passEnds_curves (ends : State → State) (tag : Nat) (s : State) (hf : ∀ s, (ends s).curves = s.curves) :
    (passEnds ends tag s).curves = s.curves := by
  unfold passEnds
  (repeat' split) <;> simp only [State.ite_parts .., ite_self, and_self, implies_true, secondGather_frame .., hf]

theorem passEnds_sess (ends : State → State) (tag : Nat) (s : State) (hf : ∀ s, (ends s).sess = s.sess) : (passEnds
    ends tag s).sess = s.sess := by
  unfold passEnds
  (repeat' split) <;> simp only [State.ite_parts .., ite_self, and_self, implies_true, secondGather_frame .., hf]

theorem passEnds_powder (ends : State → State) (tag : Nat) (s : State) (hf : ∀ s, (ends s).powder = s.powder) :
    (passEnds ends tag s).powder = s.powder := by
  unfold passEnds
  (repeat' split) <;> simp only [State.ite_parts .., ite_self, and_self, implies_true, secondGather_frame .., hf]

theorem passEnds_merya (ends : State → State) (tag : Nat) (s : State) (hf : ∀ s, (ends s).merya = s.merya) :
    (passEnds ends tag s).merya = s.merya := by
  unfold passEnds
  (repeat' split) <;> simp only [State.ite_parts .., ite_self, and_self, implies_true, secondGather_frame .., hf]

theorem passEnds_hut (ends : State → State) (tag : Nat) (s : State) (hf : ∀ s, (ends s).hut = s.hut) : (passEnds
    ends tag s).hut = s.hut := by
  unfold passEnds
  (repeat' split) <;> simp only [State.ite_parts .., ite_self, and_self, implies_true, secondGather_frame .., hf]

theorem passEnds_alarm (ends : State → State) (tag : Nat) (s : State) (hf : ∀ s, (ends s).alarm = s.alarm) :
    (passEnds ends tag s).alarm = s.alarm := by
  unfold passEnds
  (repeat' split) <;> simp only [State.ite_parts .., ite_self, and_self, implies_true, secondGather_frame .., hf]

theorem passEnds_tel (ends : State → State) (tag : Nat) (s : State) (hf : ∀ s, (ends s).tel = s.tel) : (passEnds
    ends tag s).tel = s.tel := by
  unfold passEnds
  (repeat' split) <;> simp only [State.ite_parts .., ite_self, and_self, implies_true, secondGather_frame .., hf]

theorem passEnds_pending (ends : State → State) (tag : Nat) (s : State) (hf : ∀ s, (ends s).pending = s.pending) :
    (passEnds ends tag s).pending = s.pending := by
  unfold passEnds
  (repeat' split) <;> simp only [State.ite_parts .., ite_self, and_self, implies_true, secondGather_frame .., hf]

theorem suspendJob_frame (u : UnitRef) (tag : Nat) (s : State) :
    (suspendJob u tag s).now = s.now ∧ (suspendJob u tag s).free = s.free ∧ (suspendJob u tag s).life = s.life ∧
    (suspendJob u tag s).link = s.link ∧ (suspendJob u tag s).gate = s.gate ∧ (suspendJob u tag s).curves = s.curves
    ∧ (suspendJob u tag s).sess = s.sess ∧ (suspendJob u tag s).ctrs = s.ctrs ∧ (suspendJob u tag s).powder =
    s.powder ∧ (suspendJob u tag s).merya = s.merya ∧ (suspendJob u tag s).prot = s.prot ∧ (suspendJob u tag s).mem
    = s.mem ∧ (suspendJob u tag s).patrol = s.patrol ∧ (suspendJob u tag s).hut = s.hut ∧ (suspendJob u tag s).alarm
    = s.alarm ∧ (suspendJob u tag s).card = s.card ∧ (suspendJob u tag s).evts = s.evts ∧ (suspendJob u tag s).tel =
    s.tel ∧ (suspendJob u tag s).pending = s.pending := by
  unfold suspendJob
  (repeat' split) <;> simp only [State.ite_parts .., ite_self, and_self, implies_true, freeMemory_frame .., feedSides_frame .., modJob_frame ..]

theorem preemptSide_frame (u : UnitRef) (s : State) :
    (preemptSide u s).now = s.now ∧ (preemptSide u s).free = s.free ∧ (preemptSide u s).life = s.life ∧ (preemptSide u
    s).link = s.link ∧ (preemptSide u s).gate = s.gate ∧ (preemptSide u s).curves = s.curves ∧ (preemptSide u
    s).sess = s.sess ∧ (preemptSide u s).ctrs = s.ctrs ∧ (preemptSide u s).powder = s.powder ∧ (preemptSide u
    s).merya = s.merya ∧ (preemptSide u s).prot = s.prot ∧ (preemptSide u s).mem = s.mem ∧ (preemptSide u s).patrol
    = s.patrol ∧ (preemptSide u s).hut = s.hut ∧ (preemptSide u s).alarm = s.alarm ∧ (preemptSide u s).card = s.card
    ∧ (preemptSide u s).evts = s.evts ∧ (preemptSide u s).tel = s.tel ∧ (preemptSide u s).pending = s.pending := by
  unfold preemptSide
  (repeat' split) <;> simp only [State.ite_parts .., ite_self, and_self, implies_true, dispatchUnit_frame .., modJob_frame ..]

theorem listBrings_frame (item : GatherItem) (tag : Nat) (before : Job) (s : State) :
    (listBrings item tag before s).now = s.now ∧ (listBrings item tag before s).free = s.free ∧ (listBrings item tag
    before s).life = s.life ∧ (listBrings item tag before s).gate = s.gate ∧ (listBrings item tag before s).rings =
    s.rings ∧ (listBrings item tag before s).units = s.units ∧ (listBrings item tag before s).curves = s.curves ∧
    (listBrings item tag before s).sess = s.sess ∧ (listBrings item tag before s).vault = s.vault ∧ (listBrings item
    tag before s).ctrs = s.ctrs ∧ (listBrings item tag before s).powder = s.powder ∧ (listBrings item tag before
    s).merya = s.merya ∧ (listBrings item tag before s).prot = s.prot ∧ (listBrings item tag before s).mem = s.mem ∧
    (listBrings item tag before s).stored = s.stored ∧ (listBrings item tag before s).patrol = s.patrol ∧
    (listBrings item tag before s).trk = s.trk ∧ (listBrings item tag before s).hut = s.hut ∧ (listBrings item tag
    before s).alarm = s.alarm ∧ (listBrings item tag before s).card = s.card ∧ (listBrings item tag before s).evts =
    s.evts ∧ (listBrings item tag before s).tel = s.tel ∧ (listBrings item tag before s).pending = s.pending := by
  unfold listBrings
  (repeat' split) <;> simp only [State.ite_parts .., ite_self, and_self, implies_true, requestSource_frame ..]

theorem dataArrives_frame (tag : Nat) (item : GatherItem) (data : Bytes) (s : State) :
    (dataArrives tag item data s).now = s.now ∧ (dataArrives tag item data s).life = s.life ∧ (dataArrives tag item data
    s).gate = s.gate ∧ (dataArrives tag item data s).curves = s.curves ∧ (dataArrives tag item data s).sess = s.sess
    ∧ (dataArrives tag item data s).powder = s.powder ∧ (dataArrives tag item data s).merya = s.merya ∧ (dataArrives
    tag item data s).hut = s.hut ∧ (dataArrives tag item data s).alarm = s.alarm ∧ (dataArrives tag item data s).tel
    = s.tel ∧ (dataArrives tag item data s).pending = s.pending := by
  unfold dataArrives
  (repeat' split) <;> simp only [State.ite_parts .., ite_self, and_self, implies_true, unexpectedData_frame .., sramGather_frame ..,
    portNext_frame .., runPort_frame .., stageWords_frame .., afterArrival_frame .., listBrings_frame .., modJob_frame ..,
    nextBlock_frame .., hostReadBack_now, hostReadBack_life, hostReadBack_gate, hostReadBack_curves, hostReadBack_sess,
    hostReadBack_powder, hostReadBack_merya, hostReadBack_hut, hostReadBack_alarm, hostReadBack_tel,
    hostReadBack_pending]

theorem preempt_frame (u : UnitRef) (s : State) :
    (preempt u s).now = s.now ∧ (preempt u s).life = s.life ∧ (preempt u s).gate = s.gate ∧ (preempt u s).curves =
    s.curves ∧ (preempt u s).sess = s.sess ∧ (preempt u s).ctrs = s.ctrs ∧ (preempt u s).powder = s.powder ∧
    (preempt u s).merya = s.merya ∧ (preempt u s).patrol = s.patrol ∧ (preempt u s).hut = s.hut ∧ (preempt u
    s).alarm = s.alarm ∧ (preempt u s).card = s.card ∧ (preempt u s).tel = s.tel ∧ (preempt u s).pending = s.pending := by
  simp only [preempt, State.ite_parts .., ite_self, and_self, implies_true, preemptSide_frame .., modJob_frame ..,
    bladeBoundary_frame .., finishJob_frame .., dispatchUnit_frame .., suspendJob_frame ..]
  (repeat' split) <;> simp only [State.ite_parts .., ite_self, and_self, implies_true, preemptSide_frame .., modJob_frame .., bladeBoundary_frame ..,
    finishJob_frame .., dispatchUnit_frame .., suspendJob_frame ..]

/-! ### Speed.lean -/

theorem evaluateBand_frame (tj : Int) (s : State) :
    (evaluateBand tj s).now = s.now ∧ (evaluateBand tj s).free = s.free ∧ (evaluateBand tj s).life = s.life ∧
    (evaluateBand tj s).rings = s.rings ∧ (evaluateBand tj s).units = s.units ∧ (evaluateBand tj s).curves =
    s.curves ∧ (evaluateBand tj s).sess = s.sess ∧ (evaluateBand tj s).vault = s.vault ∧ (evaluateBand tj s).ctrs =
    s.ctrs ∧ (evaluateBand tj s).powder = s.powder ∧ (evaluateBand tj s).merya = s.merya ∧ (evaluateBand tj s).prot
    = s.prot ∧ (evaluateBand tj s).mem = s.mem ∧ (evaluateBand tj s).stored = s.stored ∧ (evaluateBand tj s).patrol
    = s.patrol ∧ (evaluateBand tj s).trk = s.trk ∧ (evaluateBand tj s).hut = s.hut ∧ (evaluateBand tj s).alarm =
    s.alarm ∧ (evaluateBand tj s).card = s.card ∧ (evaluateBand tj s).tel = s.tel ∧ (evaluateBand tj s).pending =
    s.pending := by
  simp only [evaluateBand, State.ite_parts .., ite_self, and_self, implies_true, setGateEvt_frame ..]

theorem noteExit_frame (before : Bool) (s : State) :
    (noteExit before s).now = s.now ∧ (noteExit before s).free = s.free ∧ (noteExit before s).life = s.life ∧ (noteExit
    before s).rings = s.rings ∧ (noteExit before s).units = s.units ∧ (noteExit before s).curves = s.curves ∧
    (noteExit before s).sess = s.sess ∧ (noteExit before s).vault = s.vault ∧ (noteExit before s).ctrs = s.ctrs ∧
    (noteExit before s).powder = s.powder ∧ (noteExit before s).merya = s.merya ∧ (noteExit before s).prot = s.prot
    ∧ (noteExit before s).mem = s.mem ∧ (noteExit before s).stored = s.stored ∧ (noteExit before s).patrol =
    s.patrol ∧ (noteExit before s).trk = s.trk ∧ (noteExit before s).hut = s.hut ∧ (noteExit before s).alarm =
    s.alarm ∧ (noteExit before s).card = s.card ∧ (noteExit before s).tel = s.tel ∧ (noteExit before s).pending =
    s.pending := by
  simp only [noteExit, State.ite_parts .., ite_self, and_self, implies_true, setGateEvt_frame ..]

theorem railChanges_frame (r : Rail) (inRange : Bool) (s : State) :
    (railChanges r inRange s).now = s.now ∧ (railChanges r inRange s).free = s.free ∧ (railChanges r inRange s).life =
    s.life ∧ (railChanges r inRange s).rings = s.rings ∧ (railChanges r inRange s).units = s.units ∧ (railChanges r
    inRange s).curves = s.curves ∧ (railChanges r inRange s).sess = s.sess ∧ (railChanges r inRange s).vault =
    s.vault ∧ (railChanges r inRange s).ctrs = s.ctrs ∧ (railChanges r inRange s).powder = s.powder ∧ (railChanges r
    inRange s).merya = s.merya ∧ (railChanges r inRange s).prot = s.prot ∧ (railChanges r inRange s).mem = s.mem ∧
    (railChanges r inRange s).stored = s.stored ∧ (railChanges r inRange s).patrol = s.patrol ∧ (railChanges r
    inRange s).trk = s.trk ∧ (railChanges r inRange s).hut = s.hut ∧ (railChanges r inRange s).alarm = s.alarm ∧
    (railChanges r inRange s).card = s.card ∧ (railChanges r inRange s).tel = s.tel ∧ (railChanges r inRange
    s).pending = s.pending := by
  simp only [railChanges, State.ite_parts .., ite_self, and_self, implies_true, noteExit_frame ..]

theorem evaluateSlew_frame (slew : Nat) (s : State) :
    (evaluateSlew slew s).now = s.now ∧ (evaluateSlew slew s).free = s.free ∧ (evaluateSlew slew s).life = s.life ∧
    (evaluateSlew slew s).link = s.link ∧ (evaluateSlew slew s).rings = s.rings ∧ (evaluateSlew slew s).units =
    s.units ∧ (evaluateSlew slew s).curves = s.curves ∧ (evaluateSlew slew s).sess = s.sess ∧ (evaluateSlew slew
    s).vault = s.vault ∧ (evaluateSlew slew s).ctrs = s.ctrs ∧ (evaluateSlew slew s).powder = s.powder ∧
    (evaluateSlew slew s).merya = s.merya ∧ (evaluateSlew slew s).prot = s.prot ∧ (evaluateSlew slew s).mem = s.mem
    ∧ (evaluateSlew slew s).stored = s.stored ∧ (evaluateSlew slew s).patrol = s.patrol ∧ (evaluateSlew slew s).trk
    = s.trk ∧ (evaluateSlew slew s).hut = s.hut ∧ (evaluateSlew slew s).alarm = s.alarm ∧ (evaluateSlew slew s).card
    = s.card ∧ (evaluateSlew slew s).evts = s.evts ∧ (evaluateSlew slew s).tel = s.tel ∧ (evaluateSlew slew
    s).pending = s.pending := by
  simp only [evaluateSlew, State.ite_parts .., ite_self, and_self, implies_true]

theorem checkHours_frame (s : State) :
    (checkHours s).now = s.now ∧ (checkHours s).free = s.free ∧ (checkHours s).life = s.life ∧ (checkHours s).rings =
    s.rings ∧ (checkHours s).units = s.units ∧ (checkHours s).curves = s.curves ∧ (checkHours s).sess = s.sess ∧
    (checkHours s).vault = s.vault ∧ (checkHours s).ctrs = s.ctrs ∧ (checkHours s).powder = s.powder ∧ (checkHours
    s).merya = s.merya ∧ (checkHours s).prot = s.prot ∧ (checkHours s).mem = s.mem ∧ (checkHours s).stored =
    s.stored ∧ (checkHours s).patrol = s.patrol ∧ (checkHours s).trk = s.trk ∧ (checkHours s).hut = s.hut ∧
    (checkHours s).alarm = s.alarm ∧ (checkHours s).card = s.card ∧ (checkHours s).tel = s.tel ∧ (checkHours
    s).pending = s.pending := by
  simp only [checkHours, State.ite_parts .., ite_self, and_self, implies_true, setGateEvt_frame ..]

theorem evaluateTj_frame (tj : Int) (slew : Nat) (s : State) :
    (evaluateTj tj slew s).now = s.now ∧ (evaluateTj tj slew s).free = s.free ∧ (evaluateTj tj slew s).life = s.life ∧
    (evaluateTj tj slew s).rings = s.rings ∧ (evaluateTj tj slew s).units = s.units ∧ (evaluateTj tj slew s).curves
    = s.curves ∧ (evaluateTj tj slew s).sess = s.sess ∧ (evaluateTj tj slew s).vault = s.vault ∧ (evaluateTj tj slew
    s).ctrs = s.ctrs ∧ (evaluateTj tj slew s).powder = s.powder ∧ (evaluateTj tj slew s).merya = s.merya ∧
    (evaluateTj tj slew s).prot = s.prot ∧ (evaluateTj tj slew s).mem = s.mem ∧ (evaluateTj tj slew s).stored =
    s.stored ∧ (evaluateTj tj slew s).patrol = s.patrol ∧ (evaluateTj tj slew s).trk = s.trk ∧ (evaluateTj tj slew
    s).alarm = s.alarm ∧ (evaluateTj tj slew s).card = s.card ∧ (evaluateTj tj slew s).tel = s.tel ∧ (evaluateTj tj
    slew s).pending = s.pending := by
  simp only [evaluateTj, State.ite_parts .., ite_self, and_self, implies_true, evaluateSlew_frame .., evaluateBand_frame ..,
    checkHours_frame .., addHot_frame .., noteExit_frame ..]

theorem applyTarget_frame (target : Nat) (s : State) :
    (applyTarget target s).now = s.now ∧ (applyTarget target s).free = s.free ∧ (applyTarget target s).life = s.life ∧
    (applyTarget target s).rings = s.rings ∧ (applyTarget target s).units = s.units ∧ (applyTarget target s).curves
    = s.curves ∧ (applyTarget target s).sess = s.sess ∧ (applyTarget target s).vault = s.vault ∧ (applyTarget target
    s).ctrs = s.ctrs ∧ (applyTarget target s).powder = s.powder ∧ (applyTarget target s).merya = s.merya ∧
    (applyTarget target s).prot = s.prot ∧ (applyTarget target s).mem = s.mem ∧ (applyTarget target s).stored =
    s.stored ∧ (applyTarget target s).patrol = s.patrol ∧ (applyTarget target s).trk = s.trk ∧ (applyTarget target
    s).hut = s.hut ∧ (applyTarget target s).alarm = s.alarm ∧ (applyTarget target s).card = s.card ∧ (applyTarget
    target s).tel = s.tel ∧ (applyTarget target s).pending = s.pending := by
  simp only [applyTarget, State.ite_parts .., ite_self, and_self, implies_true, setGateEvt_frame ..]

theorem derateFalls_frame (s : State) :
    (derateFalls s).now = s.now ∧ (derateFalls s).free = s.free ∧ (derateFalls s).life = s.life ∧ (derateFalls s).link =
    s.link ∧ (derateFalls s).rings = s.rings ∧ (derateFalls s).units = s.units ∧ (derateFalls s).curves = s.curves ∧
    (derateFalls s).sess = s.sess ∧ (derateFalls s).vault = s.vault ∧ (derateFalls s).ctrs = s.ctrs ∧ (derateFalls
    s).powder = s.powder ∧ (derateFalls s).merya = s.merya ∧ (derateFalls s).prot = s.prot ∧ (derateFalls s).mem =
    s.mem ∧ (derateFalls s).stored = s.stored ∧ (derateFalls s).patrol = s.patrol ∧ (derateFalls s).trk = s.trk ∧
    (derateFalls s).hut = s.hut ∧ (derateFalls s).alarm = s.alarm ∧ (derateFalls s).card = s.card ∧ (derateFalls
    s).evts = s.evts ∧ (derateFalls s).tel = s.tel ∧ (derateFalls s).pending = s.pending := by
  unfold derateFalls
  (repeat' split) <;> simp only [State.ite_parts .., ite_self, and_self, implies_true]

theorem unitStalls_frame (u : UnitRef) (place : Nat) (operand : Bool) (bad : List Nat) (s : State) :
    (unitStalls u place operand bad s).now = s.now ∧ (unitStalls u place operand bad s).life = s.life ∧ (unitStalls u
    place operand bad s).curves = s.curves ∧ (unitStalls u place operand bad s).ctrs = s.ctrs ∧ (unitStalls u place
    operand bad s).alarm = s.alarm ∧ (unitStalls u place operand bad s).card = s.card ∧ (unitStalls u place operand
    bad s).tel = s.tel ∧ (unitStalls u place operand bad s).pending = s.pending := by
  simp only [unitStalls, State.ite_parts .., ite_self, and_self, implies_true, checkCluster_frame .., faultUnit_frame ..,
    groomerLost_frame ..]

theorem slewReopens_frame (s : State) :
    (slewReopens s).now = s.now ∧ (slewReopens s).free = s.free ∧ (slewReopens s).life = s.life ∧ (slewReopens s).link =
    s.link ∧ (slewReopens s).rings = s.rings ∧ (slewReopens s).units = s.units ∧ (slewReopens s).curves = s.curves ∧
    (slewReopens s).sess = s.sess ∧ (slewReopens s).vault = s.vault ∧ (slewReopens s).ctrs = s.ctrs ∧ (slewReopens
    s).powder = s.powder ∧ (slewReopens s).merya = s.merya ∧ (slewReopens s).prot = s.prot ∧ (slewReopens s).mem =
    s.mem ∧ (slewReopens s).stored = s.stored ∧ (slewReopens s).patrol = s.patrol ∧ (slewReopens s).trk = s.trk ∧
    (slewReopens s).hut = s.hut ∧ (slewReopens s).alarm = s.alarm ∧ (slewReopens s).card = s.card ∧ (slewReopens
    s).evts = s.evts ∧ (slewReopens s).tel = s.tel ∧ (slewReopens s).pending = s.pending := by
  simp only [slewReopens, State.ite_parts .., ite_self, and_self, implies_true]

theorem writeSlotLen_frame (v : Nat) (s : State) :
    (writeSlotLen v s).now = s.now ∧ (writeSlotLen v s).free = s.free ∧ (writeSlotLen v s).life = s.life ∧ (writeSlotLen
    v s).gate = s.gate ∧ (writeSlotLen v s).rings = s.rings ∧ (writeSlotLen v s).curves = s.curves ∧ (writeSlotLen v
    s).sess = s.sess ∧ (writeSlotLen v s).vault = s.vault ∧ (writeSlotLen v s).ctrs = s.ctrs ∧ (writeSlotLen v
    s).powder = s.powder ∧ (writeSlotLen v s).merya = s.merya ∧ (writeSlotLen v s).prot = s.prot ∧ (writeSlotLen v
    s).mem = s.mem ∧ (writeSlotLen v s).stored = s.stored ∧ (writeSlotLen v s).patrol = s.patrol ∧ (writeSlotLen v
    s).trk = s.trk ∧ (writeSlotLen v s).hut = s.hut ∧ (writeSlotLen v s).alarm = s.alarm ∧ (writeSlotLen v s).card =
    s.card ∧ (writeSlotLen v s).tel = s.tel ∧ (writeSlotLen v s).pending = s.pending := by
  simp only [writeSlotLen, State.ite_parts .., ite_self, and_self, implies_true, setEdgeEvt_frame ..]

theorem bandDown_frame (s : State) :
    (bandDown s).now = s.now ∧ (bandDown s).free = s.free ∧ (bandDown s).life = s.life ∧ (bandDown s).rings = s.rings ∧
    (bandDown s).units = s.units ∧ (bandDown s).curves = s.curves ∧ (bandDown s).sess = s.sess ∧ (bandDown s).vault
    = s.vault ∧ (bandDown s).ctrs = s.ctrs ∧ (bandDown s).powder = s.powder ∧ (bandDown s).merya = s.merya ∧
    (bandDown s).prot = s.prot ∧ (bandDown s).mem = s.mem ∧ (bandDown s).stored = s.stored ∧ (bandDown s).patrol =
    s.patrol ∧ (bandDown s).trk = s.trk ∧ (bandDown s).hut = s.hut ∧ (bandDown s).alarm = s.alarm ∧ (bandDown
    s).card = s.card ∧ (bandDown s).tel = s.tel ∧ (bandDown s).pending = s.pending := by
  simp only [bandDown, State.ite_parts .., ite_self, and_self, implies_true, setGateEvt_frame ..]

theorem measureSpeed_frame (si : List Nat) (s : State) :
    (measureSpeed si s).now = s.now ∧ (measureSpeed si s).free = s.free ∧ (measureSpeed si s).life = s.life ∧
    (measureSpeed si s).rings = s.rings ∧ (measureSpeed si s).units = s.units ∧ (measureSpeed si s).curves =
    s.curves ∧ (measureSpeed si s).sess = s.sess ∧ (measureSpeed si s).vault = s.vault ∧ (measureSpeed si s).ctrs =
    s.ctrs ∧ (measureSpeed si s).powder = s.powder ∧ (measureSpeed si s).merya = s.merya ∧ (measureSpeed si s).prot
    = s.prot ∧ (measureSpeed si s).mem = s.mem ∧ (measureSpeed si s).stored = s.stored ∧ (measureSpeed si s).patrol
    = s.patrol ∧ (measureSpeed si s).trk = s.trk ∧ (measureSpeed si s).hut = s.hut ∧ (measureSpeed si s).alarm =
    s.alarm ∧ (measureSpeed si s).card = s.card ∧ (measureSpeed si s).pending = s.pending := by
  simp only [measureSpeed, State.ite_parts .., ite_self, and_self, implies_true, foldl_now, foldl_free, foldl_life,
    foldl_rings, foldl_units, foldl_curves, foldl_sess, foldl_vault, foldl_ctrs, foldl_powder, foldl_merya,
    foldl_prot, foldl_mem, foldl_stored, foldl_patrol, foldl_trk, foldl_hut, foldl_alarm, foldl_card, foldl_pending,
    applyTarget_frame ..]

theorem edgeSlips_frame (n : Nat) (bad : List Nat) (s : State) :
    (edgeSlips n bad s).now = s.now ∧ (edgeSlips n bad s).life = s.life ∧ (edgeSlips n bad s).curves = s.curves ∧
    (edgeSlips n bad s).ctrs = s.ctrs ∧ (edgeSlips n bad s).alarm = s.alarm ∧ (edgeSlips n bad s).card = s.card ∧
    (edgeSlips n bad s).tel = s.tel ∧ (edgeSlips n bad s).pending = s.pending := by
  simp only [edgeSlips, State.ite_parts .., ite_self, and_self, implies_true, faultUnit_frame .., checkCluster_frame ..,
    setEdgeEvt_frame ..]

theorem slotsCopied_frame (n : Nat) (s : State) :
    (slotsCopied n s).now = s.now ∧ (slotsCopied n s).free = s.free ∧ (slotsCopied n s).life = s.life ∧ (slotsCopied n
    s).link = s.link ∧ (slotsCopied n s).gate = s.gate ∧ (slotsCopied n s).curves = s.curves ∧ (slotsCopied n
    s).sess = s.sess ∧ (slotsCopied n s).ctrs = s.ctrs ∧ (slotsCopied n s).powder = s.powder ∧ (slotsCopied n
    s).merya = s.merya ∧ (slotsCopied n s).prot = s.prot ∧ (slotsCopied n s).mem = s.mem ∧ (slotsCopied n s).patrol
    = s.patrol ∧ (slotsCopied n s).hut = s.hut ∧ (slotsCopied n s).alarm = s.alarm ∧ (slotsCopied n s).card = s.card
    ∧ (slotsCopied n s).evts = s.evts ∧ (slotsCopied n s).tel = s.tel ∧ (slotsCopied n s).pending = s.pending := by
  simp only [slotsCopied, State.ite_parts .., ite_self, and_self, implies_true, dispatchUnit_frame ..]

end Sys2Proof.Machine
end

