-- ==== Sys2Proof/Laws/FramesHost.lean ====
section
/-!
SUPPORT. Sys2Proof/Laws/FramesHost.lean: for each operation on the state, once, the chapters of the part that it leaves as they are:
register accesses, the link, resets, start-up and the tick.  A chapter that a lemma does not name may change.
-/
namespace Sys2Proof.Machine

set_option linter.unusedSimpArgs false

/-! ### Registers.lean -/

theorem writeTelCfg_frame (v : Word) (s : State) :
    (writeTelCfg v s).now = s.now ∧ (writeTelCfg v s).free = s.free ∧ (writeTelCfg v s).life = s.life ∧ (writeTelCfg v
    s).link = s.link ∧ (writeTelCfg v s).gate = s.gate ∧ (writeTelCfg v s).rings = s.rings ∧ (writeTelCfg v s).units
    = s.units ∧ (writeTelCfg v s).curves = s.curves ∧ (writeTelCfg v s).sess = s.sess ∧ (writeTelCfg v s).vault =
    s.vault ∧ (writeTelCfg v s).ctrs = s.ctrs ∧ (writeTelCfg v s).powder = s.powder ∧ (writeTelCfg v s).merya =
    s.merya ∧ (writeTelCfg v s).prot = s.prot ∧ (writeTelCfg v s).mem = s.mem ∧ (writeTelCfg v s).stored = s.stored
    ∧ (writeTelCfg v s).patrol = s.patrol ∧ (writeTelCfg v s).trk = s.trk ∧ (writeTelCfg v s).hut = s.hut ∧
    (writeTelCfg v s).alarm = s.alarm ∧ (writeTelCfg v s).card = s.card ∧ (writeTelCfg v s).evts = s.evts ∧
    (writeTelCfg v s).pending = s.pending := by
  simp only [writeTelCfg, State.ite_parts .., ite_self, and_self, implies_true]

theorem rws_now (f : State → State) (s : State) (hf : ∀ s, (f s).now = s.now) : (rws f s).now = s.now := by
  unfold rws
  (repeat' split) <;> simp only [State.ite_parts .., ite_self, and_self, implies_true, hf]

theorem rws_free (f : State → State) (s : State) (hf : ∀ s, (f s).free = s.free) : (rws f s).free = s.free := by
  unfold rws
  (repeat' split) <;> simp only [State.ite_parts .., ite_self, and_self, implies_true, hf]

theorem rws_life (f : State → State) (s : State) (hf : ∀ s, (f s).life = s.life) : (rws f s).life = s.life := by
  unfold rws
  (repeat' split) <;> simp only [State.ite_parts .., ite_self, and_self, implies_true, hf]

theorem rws_link (f : State → State) (s : State) (hf : ∀ s, (f s).link = s.link) : (rws f s).link = s.link := by
  unfold rws
  (repeat' split) <;> simp only [State.ite_parts .., ite_self, and_self, implies_true, hf]

theorem rws_gate (f : State → State) (s : State) (hf : ∀ s, (f s).gate = s.gate) : (rws f s).gate = s.gate := by
  unfold rws
  (repeat' split) <;> simp only [State.ite_parts .., ite_self, and_self, implies_true, hf]

theorem rws_rings (f : State → State) (s : State) (hf : ∀ s, (f s).rings = s.rings) : (rws f s).rings = s.rings :=
    by
  unfold rws
  (repeat' split) <;> simp only [State.ite_parts .., ite_self, and_self, implies_true, hf]

theorem rws_units (f : State → State) (s : State) (hf : ∀ s, (f s).units = s.units) : (rws f s).units = s.units :=
    by
  unfold rws
  (repeat' split) <;> simp only [State.ite_parts .., ite_self, and_self, implies_true, hf]

theorem rws_curves (f : State → State) (s : State) (hf : ∀ s, (f s).curves = s.curves) : (rws f s).curves = s.curves
    := by
  unfold rws
  (repeat' split) <;> simp only [State.ite_parts .., ite_self, and_self, implies_true, hf]

theorem rws_sess (f : State → State) (s : State) (hf : ∀ s, (f s).sess = s.sess) : (rws f s).sess = s.sess := by
  unfold rws
  (repeat' split) <;> simp only [State.ite_parts .., ite_self, and_self, implies_true, hf]

theorem rws_vault (f : State → State) (s : State) (hf : ∀ s, (f s).vault = s.vault) : (rws f s).vault = s.vault :=
    by
  unfold rws
  (repeat' split) <;> simp only [State.ite_parts .., ite_self, and_self, implies_true, hf]

theorem rws_ctrs (f : State → State) (s : State) (hf : ∀ s, (f s).ctrs = s.ctrs) : (rws f s).ctrs = s.ctrs := by
  unfold rws
  (repeat' split) <;> simp only [State.ite_parts .., ite_self, and_self, implies_true, hf]

theorem rws_powder (f : State → State) (s : State) (hf : ∀ s, (f s).powder = s.powder) : (rws f s).powder = s.powder
    := by
  unfold rws
  (repeat' split) <;> simp only [State.ite_parts .., ite_self, and_self, implies_true, hf]

theorem rws_merya (f : State → State) (s : State) (hf : ∀ s, (f s).merya = s.merya) : (rws f s).merya = s.merya :=
    by
  unfold rws
  (repeat' split) <;> simp only [State.ite_parts .., ite_self, and_self, implies_true, hf]

theorem rws_prot (f : State → State) (s : State) (hf : ∀ s, (f s).prot = s.prot) : (rws f s).prot = s.prot := by
  unfold rws
  (repeat' split) <;> simp only [State.ite_parts .., ite_self, and_self, implies_true, hf]

theorem rws_mem (f : State → State) (s : State) (hf : ∀ s, (f s).mem = s.mem) : (rws f s).mem = s.mem := by
  unfold rws
  (repeat' split) <;> simp only [State.ite_parts .., ite_self, and_self, implies_true, hf]

theorem rws_stored (f : State → State) (s : State) (hf : ∀ s, (f s).stored = s.stored) : (rws f s).stored = s.stored
    := by
  unfold rws
  (repeat' split) <;> simp only [State.ite_parts .., ite_self, and_self, implies_true, hf]

theorem rws_patrol (f : State → State) (s : State) (hf : ∀ s, (f s).patrol = s.patrol) : (rws f s).patrol = s.patrol
    := by
  unfold rws
  (repeat' split) <;> simp only [State.ite_parts .., ite_self, and_self, implies_true, hf]

theorem rws_trk (f : State → State) (s : State) (hf : ∀ s, (f s).trk = s.trk) : (rws f s).trk = s.trk := by
  unfold rws
  (repeat' split) <;> simp only [State.ite_parts .., ite_self, and_self, implies_true, hf]

theorem rws_hut (f : State → State) (s : State) (hf : ∀ s, (f s).hut = s.hut) : (rws f s).hut = s.hut := by
  unfold rws
  (repeat' split) <;> simp only [State.ite_parts .., ite_self, and_self, implies_true, hf]

theorem rws_alarm (f : State → State) (s : State) (hf : ∀ s, (f s).alarm = s.alarm) : (rws f s).alarm = s.alarm :=
    by
  unfold rws
  (repeat' split) <;> simp only [State.ite_parts .., ite_self, and_self, implies_true, hf]

theorem rws_card (f : State → State) (s : State) (hf : ∀ s, (f s).card = s.card) : (rws f s).card = s.card := by
  unfold rws
  (repeat' split) <;> simp only [State.ite_parts .., ite_self, and_self, implies_true, hf]

theorem rws_evts (f : State → State) (s : State) (hf : ∀ s, (f s).evts = s.evts) : (rws f s).evts = s.evts := by
  unfold rws
  (repeat' split) <;> simp only [State.ite_parts .., ite_self, and_self, implies_true, hf]

theorem rws_tel (f : State → State) (s : State) (hf : ∀ s, (f s).tel = s.tel) : (rws f s).tel = s.tel := by
  unfold rws
  (repeat' split) <;> simp only [State.ite_parts .., ite_self, and_self, implies_true, hf]

theorem rws_pending (f : State → State) (s : State) (hf : ∀ s, (f s).pending = s.pending) : (rws f s).pending =
    s.pending := by
  unfold rws
  (repeat' split) <;> simp only [State.ite_parts .., ite_self, and_self, implies_true, hf]

theorem writeTelHead_frame (v : Word) (s : State) :
    (writeTelHead v s).now = s.now ∧ (writeTelHead v s).free = s.free ∧ (writeTelHead v s).life = s.life ∧ (writeTelHead
    v s).link = s.link ∧ (writeTelHead v s).gate = s.gate ∧ (writeTelHead v s).rings = s.rings ∧ (writeTelHead v
    s).units = s.units ∧ (writeTelHead v s).curves = s.curves ∧ (writeTelHead v s).sess = s.sess ∧ (writeTelHead v
    s).vault = s.vault ∧ (writeTelHead v s).ctrs = s.ctrs ∧ (writeTelHead v s).powder = s.powder ∧ (writeTelHead v
    s).merya = s.merya ∧ (writeTelHead v s).prot = s.prot ∧ (writeTelHead v s).mem = s.mem ∧ (writeTelHead v
    s).stored = s.stored ∧ (writeTelHead v s).patrol = s.patrol ∧ (writeTelHead v s).trk = s.trk ∧ (writeTelHead v
    s).hut = s.hut ∧ (writeTelHead v s).alarm = s.alarm ∧ (writeTelHead v s).card = s.card ∧ (writeTelHead v s).evts
    = s.evts ∧ (writeTelHead v s).pending = s.pending := by
  simp only [writeTelHead, State.ite_parts .., ite_self, and_self, implies_true]

theorem writeEvtCfg_frame (v : Word) (s : State) :
    (writeEvtCfg v s).now = s.now ∧ (writeEvtCfg v s).free = s.free ∧ (writeEvtCfg v s).life = s.life ∧ (writeEvtCfg v
    s).link = s.link ∧ (writeEvtCfg v s).gate = s.gate ∧ (writeEvtCfg v s).rings = s.rings ∧ (writeEvtCfg v s).units
    = s.units ∧ (writeEvtCfg v s).curves = s.curves ∧ (writeEvtCfg v s).sess = s.sess ∧ (writeEvtCfg v s).vault =
    s.vault ∧ (writeEvtCfg v s).ctrs = s.ctrs ∧ (writeEvtCfg v s).powder = s.powder ∧ (writeEvtCfg v s).merya =
    s.merya ∧ (writeEvtCfg v s).prot = s.prot ∧ (writeEvtCfg v s).mem = s.mem ∧ (writeEvtCfg v s).stored = s.stored
    ∧ (writeEvtCfg v s).patrol = s.patrol ∧ (writeEvtCfg v s).trk = s.trk ∧ (writeEvtCfg v s).hut = s.hut ∧
    (writeEvtCfg v s).alarm = s.alarm ∧ (writeEvtCfg v s).card = s.card ∧ (writeEvtCfg v s).tel = s.tel ∧
    (writeEvtCfg v s).pending = s.pending := by
  simp only [writeEvtCfg, State.ite_parts .., ite_self, and_self, implies_true]

theorem writeEvtHead_frame (v : Word) (s : State) :
    (writeEvtHead v s).now = s.now ∧ (writeEvtHead v s).free = s.free ∧ (writeEvtHead v s).life = s.life ∧ (writeEvtHead
    v s).link = s.link ∧ (writeEvtHead v s).gate = s.gate ∧ (writeEvtHead v s).rings = s.rings ∧ (writeEvtHead v
    s).units = s.units ∧ (writeEvtHead v s).curves = s.curves ∧ (writeEvtHead v s).sess = s.sess ∧ (writeEvtHead v
    s).vault = s.vault ∧ (writeEvtHead v s).ctrs = s.ctrs ∧ (writeEvtHead v s).powder = s.powder ∧ (writeEvtHead v
    s).merya = s.merya ∧ (writeEvtHead v s).prot = s.prot ∧ (writeEvtHead v s).mem = s.mem ∧ (writeEvtHead v
    s).stored = s.stored ∧ (writeEvtHead v s).patrol = s.patrol ∧ (writeEvtHead v s).trk = s.trk ∧ (writeEvtHead v
    s).hut = s.hut ∧ (writeEvtHead v s).alarm = s.alarm ∧ (writeEvtHead v s).card = s.card ∧ (writeEvtHead v s).tel
    = s.tel ∧ (writeEvtHead v s).pending = s.pending := by
  simp only [writeEvtHead, State.ite_parts .., ite_self, and_self, implies_true]

theorem writeEvents_frame (off : Nat) (v : Word) (s : State) :
    (writeEvents off v s).now = s.now ∧ (writeEvents off v s).free = s.free ∧ (writeEvents off v s).life = s.life ∧
    (writeEvents off v s).link = s.link ∧ (writeEvents off v s).gate = s.gate ∧ (writeEvents off v s).rings =
    s.rings ∧ (writeEvents off v s).units = s.units ∧ (writeEvents off v s).curves = s.curves ∧ (writeEvents off v
    s).sess = s.sess ∧ (writeEvents off v s).vault = s.vault ∧ (writeEvents off v s).ctrs = s.ctrs ∧ (writeEvents
    off v s).powder = s.powder ∧ (writeEvents off v s).merya = s.merya ∧ (writeEvents off v s).prot = s.prot ∧
    (writeEvents off v s).mem = s.mem ∧ (writeEvents off v s).stored = s.stored ∧ (writeEvents off v s).patrol =
    s.patrol ∧ (writeEvents off v s).trk = s.trk ∧ (writeEvents off v s).hut = s.hut ∧ (writeEvents off v s).alarm =
    s.alarm ∧ (writeEvents off v s).card = s.card ∧ (writeEvents off v s).pending = s.pending := by
  unfold writeEvents
  (repeat' split) <;> simp only [State.ite_parts .., ite_self, and_self, implies_true, writeTelCfg_frame .., writeTelHead_frame ..,
    writeEvtCfg_frame .., writeEvtHead_frame .., rws_now, rws_free, rws_life, rws_link, rws_gate, rws_rings, rws_units,
    rws_curves, rws_sess, rws_vault, rws_ctrs, rws_powder, rws_merya, rws_prot, rws_mem, rws_stored, rws_patrol,
    rws_trk, rws_hut, rws_alarm, rws_card, rws_pending]

theorem returns_frame (v : Word) (s : State) :
    (returns v s).now = s.now ∧ (returns v s).free = s.free ∧ (returns v s).life = s.life ∧ (returns v s).gate = s.gate
    ∧ (returns v s).rings = s.rings ∧ (returns v s).units = s.units ∧ (returns v s).curves = s.curves ∧ (returns v
    s).sess = s.sess ∧ (returns v s).vault = s.vault ∧ (returns v s).ctrs = s.ctrs ∧ (returns v s).powder = s.powder
    ∧ (returns v s).merya = s.merya ∧ (returns v s).prot = s.prot ∧ (returns v s).mem = s.mem ∧ (returns v s).stored
    = s.stored ∧ (returns v s).patrol = s.patrol ∧ (returns v s).trk = s.trk ∧ (returns v s).hut = s.hut ∧ (returns
    v s).alarm = s.alarm ∧ (returns v s).card = s.card ∧ (returns v s).evts = s.evts ∧ (returns v s).tel = s.tel ∧
    (returns v s).pending = s.pending := by
  simp only [returns, State.ite_parts .., ite_self, and_self, implies_true]

theorem latchSession_frame (s : State) :
    (latchSession s).now = s.now ∧ (latchSession s).free = s.free ∧ (latchSession s).life = s.life ∧ (latchSession
    s).gate = s.gate ∧ (latchSession s).rings = s.rings ∧ (latchSession s).units = s.units ∧ (latchSession s).curves
    = s.curves ∧ (latchSession s).vault = s.vault ∧ (latchSession s).ctrs = s.ctrs ∧ (latchSession s).powder =
    s.powder ∧ (latchSession s).merya = s.merya ∧ (latchSession s).prot = s.prot ∧ (latchSession s).mem = s.mem ∧
    (latchSession s).stored = s.stored ∧ (latchSession s).patrol = s.patrol ∧ (latchSession s).trk = s.trk ∧
    (latchSession s).hut = s.hut ∧ (latchSession s).alarm = s.alarm ∧ (latchSession s).card = s.card ∧ (latchSession
    s).evts = s.evts ∧ (latchSession s).tel = s.tel ∧ (latchSession s).pending = s.pending := by
  simp only [latchSession, State.ite_parts .., ite_self, and_self, implies_true, returns_frame ..]

theorem latchSlots_frame (s : State) :
    (latchSlots s).now = s.now ∧ (latchSlots s).free = s.free ∧ (latchSlots s).life = s.life ∧ (latchSlots s).gate =
    s.gate ∧ (latchSlots s).rings = s.rings ∧ (latchSlots s).curves = s.curves ∧ (latchSlots s).sess = s.sess ∧
    (latchSlots s).vault = s.vault ∧ (latchSlots s).ctrs = s.ctrs ∧ (latchSlots s).powder = s.powder ∧ (latchSlots
    s).merya = s.merya ∧ (latchSlots s).prot = s.prot ∧ (latchSlots s).mem = s.mem ∧ (latchSlots s).stored =
    s.stored ∧ (latchSlots s).patrol = s.patrol ∧ (latchSlots s).trk = s.trk ∧ (latchSlots s).hut = s.hut ∧
    (latchSlots s).alarm = s.alarm ∧ (latchSlots s).card = s.card ∧ (latchSlots s).evts = s.evts ∧ (latchSlots
    s).tel = s.tel ∧ (latchSlots s).pending = s.pending := by
  simp only [latchSlots, State.ite_parts .., ite_self, and_self, implies_true, foldl_now, foldl_free, foldl_life,
    foldl_gate, foldl_rings, foldl_curves, foldl_sess, foldl_vault, foldl_ctrs, foldl_powder, foldl_merya,
    foldl_prot, foldl_mem, foldl_stored, foldl_patrol, foldl_trk, foldl_hut, foldl_alarm, foldl_card, foldl_evts,
    foldl_tel, foldl_pending, returns_frame ..]

theorem latchProvision_frame (s : State) :
    (latchProvision s).now = s.now ∧ (latchProvision s).free = s.free ∧ (latchProvision s).gate = s.gate ∧
    (latchProvision s).rings = s.rings ∧ (latchProvision s).units = s.units ∧ (latchProvision s).curves = s.curves ∧
    (latchProvision s).sess = s.sess ∧ (latchProvision s).vault = s.vault ∧ (latchProvision s).ctrs = s.ctrs ∧
    (latchProvision s).powder = s.powder ∧ (latchProvision s).merya = s.merya ∧ (latchProvision s).prot = s.prot ∧
    (latchProvision s).mem = s.mem ∧ (latchProvision s).stored = s.stored ∧ (latchProvision s).patrol = s.patrol ∧
    (latchProvision s).trk = s.trk ∧ (latchProvision s).hut = s.hut ∧ (latchProvision s).alarm = s.alarm ∧
    (latchProvision s).card = s.card ∧ (latchProvision s).evts = s.evts ∧ (latchProvision s).tel = s.tel ∧
    (latchProvision s).pending = s.pending := by
  simp only [latchProvision, State.ite_parts .., ite_self, and_self, implies_true, returns_frame ..]

theorem configWrite_frame (off : Nat) (v : Word) (s : State) :
    (configWrite off v s).now = s.now ∧ (configWrite off v s).free = s.free ∧ (configWrite off v s).life = s.life ∧
    (configWrite off v s).gate = s.gate ∧ (configWrite off v s).rings = s.rings ∧ (configWrite off v s).units =
    s.units ∧ (configWrite off v s).curves = s.curves ∧ (configWrite off v s).sess = s.sess ∧ (configWrite off v
    s).vault = s.vault ∧ (configWrite off v s).ctrs = s.ctrs ∧ (configWrite off v s).powder = s.powder ∧
    (configWrite off v s).merya = s.merya ∧ (configWrite off v s).prot = s.prot ∧ (configWrite off v s).mem = s.mem
    ∧ (configWrite off v s).stored = s.stored ∧ (configWrite off v s).patrol = s.patrol ∧ (configWrite off v s).trk
    = s.trk ∧ (configWrite off v s).hut = s.hut ∧ (configWrite off v s).alarm = s.alarm ∧ (configWrite off v s).card
    = s.card ∧ (configWrite off v s).evts = s.evts ∧ (configWrite off v s).tel = s.tel ∧ (configWrite off v
    s).pending = s.pending := by
  simp only [configWrite, State.ite_parts .., ite_self, and_self, implies_true]

theorem writeSeal_frame (v : Word) (s : State) :
    (writeSeal v s).now = s.now ∧ (writeSeal v s).free = s.free ∧ (writeSeal v s).link = s.link ∧ (writeSeal v s).gate =
    s.gate ∧ (writeSeal v s).rings = s.rings ∧ (writeSeal v s).units = s.units ∧ (writeSeal v s).curves = s.curves ∧
    (writeSeal v s).sess = s.sess ∧ (writeSeal v s).vault = s.vault ∧ (writeSeal v s).ctrs = s.ctrs ∧ (writeSeal v
    s).powder = s.powder ∧ (writeSeal v s).merya = s.merya ∧ (writeSeal v s).prot = s.prot ∧ (writeSeal v s).mem =
    s.mem ∧ (writeSeal v s).stored = s.stored ∧ (writeSeal v s).patrol = s.patrol ∧ (writeSeal v s).trk = s.trk ∧
    (writeSeal v s).hut = s.hut ∧ (writeSeal v s).alarm = s.alarm ∧ (writeSeal v s).card = s.card ∧ (writeSeal v
    s).evts = s.evts ∧ (writeSeal v s).tel = s.tel ∧ (writeSeal v s).pending = s.pending := by
  simp only [writeSeal, State.ite_parts .., ite_self, and_self, implies_true]

theorem clearPcieErr_frame (v : Word) (s : State) :
    (clearPcieErr v s).now = s.now ∧ (clearPcieErr v s).free = s.free ∧ (clearPcieErr v s).life = s.life ∧ (clearPcieErr
    v s).gate = s.gate ∧ (clearPcieErr v s).rings = s.rings ∧ (clearPcieErr v s).units = s.units ∧ (clearPcieErr v
    s).curves = s.curves ∧ (clearPcieErr v s).sess = s.sess ∧ (clearPcieErr v s).vault = s.vault ∧ (clearPcieErr v
    s).ctrs = s.ctrs ∧ (clearPcieErr v s).powder = s.powder ∧ (clearPcieErr v s).merya = s.merya ∧ (clearPcieErr v
    s).prot = s.prot ∧ (clearPcieErr v s).mem = s.mem ∧ (clearPcieErr v s).stored = s.stored ∧ (clearPcieErr v
    s).patrol = s.patrol ∧ (clearPcieErr v s).trk = s.trk ∧ (clearPcieErr v s).hut = s.hut ∧ (clearPcieErr v
    s).alarm = s.alarm ∧ (clearPcieErr v s).card = s.card ∧ (clearPcieErr v s).evts = s.evts ∧ (clearPcieErr v
    s).tel = s.tel ∧ (clearPcieErr v s).pending = s.pending := by
  simp only [clearPcieErr, State.ite_parts .., ite_self, and_self, implies_true]

theorem writeVltSel_frame (v : Word) (s : State) :
    (writeVltSel v s).now = s.now ∧ (writeVltSel v s).free = s.free ∧ (writeVltSel v s).life = s.life ∧ (writeVltSel v
    s).link = s.link ∧ (writeVltSel v s).gate = s.gate ∧ (writeVltSel v s).rings = s.rings ∧ (writeVltSel v s).units
    = s.units ∧ (writeVltSel v s).curves = s.curves ∧ (writeVltSel v s).sess = s.sess ∧ (writeVltSel v s).ctrs =
    s.ctrs ∧ (writeVltSel v s).powder = s.powder ∧ (writeVltSel v s).merya = s.merya ∧ (writeVltSel v s).prot =
    s.prot ∧ (writeVltSel v s).mem = s.mem ∧ (writeVltSel v s).stored = s.stored ∧ (writeVltSel v s).patrol =
    s.patrol ∧ (writeVltSel v s).trk = s.trk ∧ (writeVltSel v s).hut = s.hut ∧ (writeVltSel v s).alarm = s.alarm ∧
    (writeVltSel v s).card = s.card ∧ (writeVltSel v s).evts = s.evts ∧ (writeVltSel v s).tel = s.tel ∧ (writeVltSel
    v s).pending = s.pending := by
  simp only [writeVltSel, State.ite_parts .., ite_self, and_self, implies_true]

theorem unitCtrl_frame (k : UnitKind) (n : Nat) (v : Word) (s : State) :
    (unitCtrl k n v s).now = s.now ∧ (unitCtrl k n v s).free = s.free ∧ (unitCtrl k n v s).life = s.life ∧ (unitCtrl k n
    v s).curves = s.curves ∧ (unitCtrl k n v s).sess = s.sess ∧ (unitCtrl k n v s).vault = s.vault ∧ (unitCtrl k n v
    s).ctrs = s.ctrs ∧ (unitCtrl k n v s).powder = s.powder ∧ (unitCtrl k n v s).merya = s.merya ∧ (unitCtrl k n v
    s).prot = s.prot ∧ (unitCtrl k n v s).mem = s.mem ∧ (unitCtrl k n v s).stored = s.stored ∧ (unitCtrl k n v
    s).patrol = s.patrol ∧ (unitCtrl k n v s).trk = s.trk ∧ (unitCtrl k n v s).hut = s.hut ∧ (unitCtrl k n v
    s).alarm = s.alarm ∧ (unitCtrl k n v s).card = s.card ∧ (unitCtrl k n v s).tel = s.tel ∧ (unitCtrl k n v
    s).pending = s.pending := by
  simp only [unitCtrl, State.ite_parts .., ite_self, and_self, implies_true, unitCmdIgnored_frame .., disableUnit_frame ..,
    enableUnit_frame ..]

theorem clearEdgeEvt_frame (v : Word) (s : State) :
    (clearEdgeEvt v s).now = s.now ∧ (clearEdgeEvt v s).free = s.free ∧ (clearEdgeEvt v s).life = s.life ∧ (clearEdgeEvt
    v s).link = s.link ∧ (clearEdgeEvt v s).gate = s.gate ∧ (clearEdgeEvt v s).rings = s.rings ∧ (clearEdgeEvt v
    s).curves = s.curves ∧ (clearEdgeEvt v s).sess = s.sess ∧ (clearEdgeEvt v s).vault = s.vault ∧ (clearEdgeEvt v
    s).ctrs = s.ctrs ∧ (clearEdgeEvt v s).powder = s.powder ∧ (clearEdgeEvt v s).merya = s.merya ∧ (clearEdgeEvt v
    s).prot = s.prot ∧ (clearEdgeEvt v s).mem = s.mem ∧ (clearEdgeEvt v s).stored = s.stored ∧ (clearEdgeEvt v
    s).patrol = s.patrol ∧ (clearEdgeEvt v s).trk = s.trk ∧ (clearEdgeEvt v s).hut = s.hut ∧ (clearEdgeEvt v
    s).alarm = s.alarm ∧ (clearEdgeEvt v s).card = s.card ∧ (clearEdgeEvt v s).evts = s.evts ∧ (clearEdgeEvt v
    s).tel = s.tel ∧ (clearEdgeEvt v s).pending = s.pending := by
  simp only [clearEdgeEvt, State.ite_parts .., ite_self, and_self, implies_true]

theorem clearBladeEvt_frame (v : Word) (s : State) :
    (clearBladeEvt v s).now = s.now ∧ (clearBladeEvt v s).free = s.free ∧ (clearBladeEvt v s).life = s.life ∧
    (clearBladeEvt v s).link = s.link ∧ (clearBladeEvt v s).gate = s.gate ∧ (clearBladeEvt v s).rings = s.rings ∧
    (clearBladeEvt v s).curves = s.curves ∧ (clearBladeEvt v s).sess = s.sess ∧ (clearBladeEvt v s).vault = s.vault
    ∧ (clearBladeEvt v s).ctrs = s.ctrs ∧ (clearBladeEvt v s).powder = s.powder ∧ (clearBladeEvt v s).merya =
    s.merya ∧ (clearBladeEvt v s).prot = s.prot ∧ (clearBladeEvt v s).mem = s.mem ∧ (clearBladeEvt v s).stored =
    s.stored ∧ (clearBladeEvt v s).patrol = s.patrol ∧ (clearBladeEvt v s).trk = s.trk ∧ (clearBladeEvt v s).hut =
    s.hut ∧ (clearBladeEvt v s).alarm = s.alarm ∧ (clearBladeEvt v s).card = s.card ∧ (clearBladeEvt v s).evts =
    s.evts ∧ (clearBladeEvt v s).tel = s.tel ∧ (clearBladeEvt v s).pending = s.pending := by
  simp only [clearBladeEvt, State.ite_parts .., ite_self, and_self, implies_true]

theorem clearSeen_frame (j : Nat) (v : Word) (s : State) :
    (clearSeen j v s).now = s.now ∧ (clearSeen j v s).free = s.free ∧ (clearSeen j v s).life = s.life ∧ (clearSeen j v
    s).link = s.link ∧ (clearSeen j v s).gate = s.gate ∧ (clearSeen j v s).rings = s.rings ∧ (clearSeen j v s).units
    = s.units ∧ (clearSeen j v s).curves = s.curves ∧ (clearSeen j v s).sess = s.sess ∧ (clearSeen j v s).vault =
    s.vault ∧ (clearSeen j v s).ctrs = s.ctrs ∧ (clearSeen j v s).powder = s.powder ∧ (clearSeen j v s).merya =
    s.merya ∧ (clearSeen j v s).prot = s.prot ∧ (clearSeen j v s).mem = s.mem ∧ (clearSeen j v s).stored = s.stored
    ∧ (clearSeen j v s).trk = s.trk ∧ (clearSeen j v s).hut = s.hut ∧ (clearSeen j v s).alarm = s.alarm ∧ (clearSeen
    j v s).card = s.card ∧ (clearSeen j v s).evts = s.evts ∧ (clearSeen j v s).tel = s.tel ∧ (clearSeen j v
    s).pending = s.pending := by
  simp only [clearSeen, State.ite_parts .., ite_self, and_self, implies_true, foldl_now, foldl_free, foldl_life,
    foldl_link, foldl_gate, foldl_rings, foldl_units, foldl_curves, foldl_sess, foldl_vault, foldl_ctrs,
    foldl_powder, foldl_merya, foldl_prot, foldl_mem, foldl_stored, foldl_trk, foldl_hut, foldl_alarm, foldl_card,
    foldl_evts, foldl_tel, foldl_pending]

theorem cardCtrl_frame (v : Word) (s : State) :
    (cardCtrl v s).now = s.now ∧ (cardCtrl v s).free = s.free ∧ (cardCtrl v s).life = s.life ∧ (cardCtrl v s).gate =
    s.gate ∧ (cardCtrl v s).rings = s.rings ∧ (cardCtrl v s).units = s.units ∧ (cardCtrl v s).curves = s.curves ∧
    (cardCtrl v s).sess = s.sess ∧ (cardCtrl v s).vault = s.vault ∧ (cardCtrl v s).ctrs = s.ctrs ∧ (cardCtrl v
    s).powder = s.powder ∧ (cardCtrl v s).merya = s.merya ∧ (cardCtrl v s).prot = s.prot ∧ (cardCtrl v s).mem =
    s.mem ∧ (cardCtrl v s).stored = s.stored ∧ (cardCtrl v s).patrol = s.patrol ∧ (cardCtrl v s).trk = s.trk ∧
    (cardCtrl v s).hut = s.hut ∧ (cardCtrl v s).alarm = s.alarm ∧ (cardCtrl v s).tel = s.tel ∧ (cardCtrl v
    s).pending = s.pending := by
  simp only [cardCtrl, State.ite_parts .., ite_self, and_self, implies_true, disablePort_frame .., enablePort_frame ..]

theorem writeCardTmo_frame (v : Word) (s : State) :
    (writeCardTmo v s).now = s.now ∧ (writeCardTmo v s).free = s.free ∧ (writeCardTmo v s).life = s.life ∧ (writeCardTmo
    v s).link = s.link ∧ (writeCardTmo v s).gate = s.gate ∧ (writeCardTmo v s).rings = s.rings ∧ (writeCardTmo v
    s).units = s.units ∧ (writeCardTmo v s).curves = s.curves ∧ (writeCardTmo v s).sess = s.sess ∧ (writeCardTmo v
    s).vault = s.vault ∧ (writeCardTmo v s).ctrs = s.ctrs ∧ (writeCardTmo v s).powder = s.powder ∧ (writeCardTmo v
    s).merya = s.merya ∧ (writeCardTmo v s).prot = s.prot ∧ (writeCardTmo v s).mem = s.mem ∧ (writeCardTmo v
    s).stored = s.stored ∧ (writeCardTmo v s).patrol = s.patrol ∧ (writeCardTmo v s).trk = s.trk ∧ (writeCardTmo v
    s).hut = s.hut ∧ (writeCardTmo v s).alarm = s.alarm ∧ (writeCardTmo v s).evts = s.evts ∧ (writeCardTmo v s).tel
    = s.tel ∧ (writeCardTmo v s).pending = s.pending := by
  simp only [writeCardTmo, State.ite_parts .., ite_self, and_self, implies_true]

theorem clearRsfEvt_frame (v : Word) (s : State) :
    (clearRsfEvt v s).now = s.now ∧ (clearRsfEvt v s).free = s.free ∧ (clearRsfEvt v s).life = s.life ∧ (clearRsfEvt v
    s).link = s.link ∧ (clearRsfEvt v s).gate = s.gate ∧ (clearRsfEvt v s).rings = s.rings ∧ (clearRsfEvt v s).units
    = s.units ∧ (clearRsfEvt v s).curves = s.curves ∧ (clearRsfEvt v s).sess = s.sess ∧ (clearRsfEvt v s).vault =
    s.vault ∧ (clearRsfEvt v s).ctrs = s.ctrs ∧ (clearRsfEvt v s).powder = s.powder ∧ (clearRsfEvt v s).merya =
    s.merya ∧ (clearRsfEvt v s).prot = s.prot ∧ (clearRsfEvt v s).mem = s.mem ∧ (clearRsfEvt v s).patrol = s.patrol
    ∧ (clearRsfEvt v s).trk = s.trk ∧ (clearRsfEvt v s).hut = s.hut ∧ (clearRsfEvt v s).alarm = s.alarm ∧
    (clearRsfEvt v s).card = s.card ∧ (clearRsfEvt v s).evts = s.evts ∧ (clearRsfEvt v s).tel = s.tel ∧ (clearRsfEvt
    v s).pending = s.pending := by
  simp only [clearRsfEvt, State.ite_parts .., ite_self, and_self, implies_true]

theorem writeBlock_frame (off : Nat) (v : Word) (s : State) :
    (writeBlock off v s).now = s.now ∧ (writeBlock off v s).free = s.free ∧ (writeBlock off v s).merya = s.merya ∧
    (writeBlock off v s).prot = s.prot ∧ (writeBlock off v s).mem = s.mem ∧ (writeBlock off v s).tel = s.tel ∧
    (writeBlock off v s).pending = s.pending := by
  unfold writeBlock
  (repeat' split) <;> simp only [State.ite_parts .., ite_self, and_self, implies_true, writeSeal_frame .., clearPcieErr_frame ..,
    writeVltSel_frame .., writeSlotLen_frame .., unitCtrl_frame .., clearEdgeEvt_frame .., clearBladeEvt_frame .., writeTest_frame ..,
    writeTestData_frame .., clearSeen_frame .., cardCtrl_frame .., writeCardTmo_frame .., clearRsfEvt_frame .., rws_now, rws_free,
    rws_merya, rws_prot, rws_mem, rws_tel, rws_pending]

theorem writeMsix_frame (off : Nat) (v : Word) (s : State) :
    (writeMsix off v s).now = s.now ∧ (writeMsix off v s).free = s.free ∧ (writeMsix off v s).life = s.life ∧ (writeMsix
    off v s).gate = s.gate ∧ (writeMsix off v s).rings = s.rings ∧ (writeMsix off v s).units = s.units ∧ (writeMsix
    off v s).curves = s.curves ∧ (writeMsix off v s).sess = s.sess ∧ (writeMsix off v s).vault = s.vault ∧
    (writeMsix off v s).ctrs = s.ctrs ∧ (writeMsix off v s).powder = s.powder ∧ (writeMsix off v s).merya = s.merya
    ∧ (writeMsix off v s).prot = s.prot ∧ (writeMsix off v s).mem = s.mem ∧ (writeMsix off v s).stored = s.stored ∧
    (writeMsix off v s).patrol = s.patrol ∧ (writeMsix off v s).trk = s.trk ∧ (writeMsix off v s).hut = s.hut ∧
    (writeMsix off v s).alarm = s.alarm ∧ (writeMsix off v s).card = s.card ∧ (writeMsix off v s).evts = s.evts ∧
    (writeMsix off v s).tel = s.tel ∧ (writeMsix off v s).pending = s.pending := by
  simp only [writeMsix, State.ite_parts .., ite_self, and_self, implies_true]

theorem ringField_frame (n : Nat) (f : Ring → Ring) (s : State) :
    (ringField n f s).now = s.now ∧ (ringField n f s).free = s.free ∧ (ringField n f s).life = s.life ∧ (ringField n f
    s).link = s.link ∧ (ringField n f s).gate = s.gate ∧ (ringField n f s).units = s.units ∧ (ringField n f
    s).curves = s.curves ∧ (ringField n f s).sess = s.sess ∧ (ringField n f s).vault = s.vault ∧ (ringField n f
    s).ctrs = s.ctrs ∧ (ringField n f s).powder = s.powder ∧ (ringField n f s).merya = s.merya ∧ (ringField n f
    s).prot = s.prot ∧ (ringField n f s).mem = s.mem ∧ (ringField n f s).stored = s.stored ∧ (ringField n f
    s).patrol = s.patrol ∧ (ringField n f s).trk = s.trk ∧ (ringField n f s).hut = s.hut ∧ (ringField n f s).alarm =
    s.alarm ∧ (ringField n f s).card = s.card ∧ (ringField n f s).evts = s.evts ∧ (ringField n f s).tel = s.tel ∧
    (ringField n f s).pending = s.pending := by
  simp only [ringField, State.ite_parts .., ite_self, and_self, implies_true, modRing_frame .., rws_now, rws_free, rws_life,
    rws_link, rws_gate, rws_units, rws_curves, rws_sess, rws_vault, rws_ctrs, rws_powder, rws_merya, rws_prot,
    rws_mem, rws_stored, rws_patrol, rws_trk, rws_hut, rws_alarm, rws_card, rws_evts, rws_tel, rws_pending]

theorem writeRing_frame (off : Nat) (v : Word) (s : State) :
    (writeRing off v s).now = s.now ∧ (writeRing off v s).life = s.life ∧ (writeRing off v s).units = s.units ∧
    (writeRing off v s).curves = s.curves ∧ (writeRing off v s).sess = s.sess ∧ (writeRing off v s).vault = s.vault
    ∧ (writeRing off v s).ctrs = s.ctrs ∧ (writeRing off v s).powder = s.powder ∧ (writeRing off v s).patrol =
    s.patrol ∧ (writeRing off v s).hut = s.hut ∧ (writeRing off v s).alarm = s.alarm ∧ (writeRing off v s).card =
    s.card ∧ (writeRing off v s).tel = s.tel ∧ (writeRing off v s).pending = s.pending := by
  unfold writeRing
  (repeat' split) <;> simp only [State.ite_parts .., ite_self, and_self, implies_true, ringField_frame .., ringCtrl_frame ..,
    ringStatusClear_frame ..]

theorem clearPuEvt_frame (v : Word) (s : State) :
    (clearPuEvt v s).now = s.now ∧ (clearPuEvt v s).free = s.free ∧ (clearPuEvt v s).life = s.life ∧ (clearPuEvt v
    s).link = s.link ∧ (clearPuEvt v s).gate = s.gate ∧ (clearPuEvt v s).rings = s.rings ∧ (clearPuEvt v s).units =
    s.units ∧ (clearPuEvt v s).curves = s.curves ∧ (clearPuEvt v s).sess = s.sess ∧ (clearPuEvt v s).vault = s.vault
    ∧ (clearPuEvt v s).ctrs = s.ctrs ∧ (clearPuEvt v s).powder = s.powder ∧ (clearPuEvt v s).merya = s.merya ∧
    (clearPuEvt v s).mem = s.mem ∧ (clearPuEvt v s).stored = s.stored ∧ (clearPuEvt v s).patrol = s.patrol ∧
    (clearPuEvt v s).trk = s.trk ∧ (clearPuEvt v s).hut = s.hut ∧ (clearPuEvt v s).alarm = s.alarm ∧ (clearPuEvt v
    s).card = s.card ∧ (clearPuEvt v s).evts = s.evts ∧ (clearPuEvt v s).tel = s.tel ∧ (clearPuEvt v s).pending =
    s.pending := by
  simp only [clearPuEvt, State.ite_parts .., ite_self, and_self, implies_true, foldl_now, foldl_free, foldl_life,
    foldl_link, foldl_gate, foldl_rings, foldl_units, foldl_curves, foldl_sess, foldl_vault, foldl_ctrs,
    foldl_powder, foldl_merya, foldl_mem, foldl_stored, foldl_patrol, foldl_trk, foldl_hut, foldl_alarm, foldl_card,
    foldl_evts, foldl_tel, foldl_pending]

theorem writeMap_frame (k : Nat) (v : Word) (s : State) :
    (writeMap k v s).now = s.now ∧ (writeMap k v s).free = s.free ∧ (writeMap k v s).life = s.life ∧ (writeMap k v
    s).link = s.link ∧ (writeMap k v s).gate = s.gate ∧ (writeMap k v s).rings = s.rings ∧ (writeMap k v s).units =
    s.units ∧ (writeMap k v s).curves = s.curves ∧ (writeMap k v s).sess = s.sess ∧ (writeMap k v s).vault = s.vault
    ∧ (writeMap k v s).ctrs = s.ctrs ∧ (writeMap k v s).powder = s.powder ∧ (writeMap k v s).merya = s.merya ∧
    (writeMap k v s).prot = s.prot ∧ (writeMap k v s).mem = s.mem ∧ (writeMap k v s).stored = s.stored ∧ (writeMap k
    v s).patrol = s.patrol ∧ (writeMap k v s).trk = s.trk ∧ (writeMap k v s).hut = s.hut ∧ (writeMap k v s).alarm =
    s.alarm ∧ (writeMap k v s).card = s.card ∧ (writeMap k v s).tel = s.tel ∧ (writeMap k v s).pending = s.pending := by
  simp only [writeMap, State.ite_parts .., ite_self, and_self, implies_true]

theorem bar0Write_frame (off : Nat) (v : Word) (s : State) :
    (bar0Write off v s).now = s.now ∧ (bar0Write off v s).pending = s.pending := by
  simp only [bar0Write, State.ite_parts .., ite_self, and_self, implies_true, writeBlock_frame .., writeEvents_frame ..,
    writeRing_frame .., clearPuEvt_frame .., writeMap_frame .., writeMsix_frame .., rws_now, rws_pending]

theorem telemetryRead_frame (s : State) :
    (telemetryRead s).now = s.now ∧ (telemetryRead s).free = s.free ∧ (telemetryRead s).life = s.life ∧ (telemetryRead
    s).gate = s.gate ∧ (telemetryRead s).rings = s.rings ∧ (telemetryRead s).units = s.units ∧ (telemetryRead
    s).curves = s.curves ∧ (telemetryRead s).sess = s.sess ∧ (telemetryRead s).vault = s.vault ∧ (telemetryRead
    s).ctrs = s.ctrs ∧ (telemetryRead s).powder = s.powder ∧ (telemetryRead s).merya = s.merya ∧ (telemetryRead
    s).mem = s.mem ∧ (telemetryRead s).stored = s.stored ∧ (telemetryRead s).patrol = s.patrol ∧ (telemetryRead
    s).hut = s.hut ∧ (telemetryRead s).alarm = s.alarm ∧ (telemetryRead s).card = s.card ∧ (telemetryRead s).tel =
    s.tel ∧ (telemetryRead s).pending = s.pending := by
  unfold telemetryRead
  (repeat' split) <;> simp only [State.ite_parts .., ite_self, and_self, implies_true, traceFault_frame .., captureFault_frame ..]

theorem latchCounter_frame (s : State) :
    (latchCounter s).now = s.now ∧ (latchCounter s).free = s.free ∧ (latchCounter s).life = s.life ∧ (latchCounter
    s).gate = s.gate ∧ (latchCounter s).rings = s.rings ∧ (latchCounter s).units = s.units ∧ (latchCounter s).curves
    = s.curves ∧ (latchCounter s).sess = s.sess ∧ (latchCounter s).vault = s.vault ∧ (latchCounter s).powder =
    s.powder ∧ (latchCounter s).merya = s.merya ∧ (latchCounter s).prot = s.prot ∧ (latchCounter s).mem = s.mem ∧
    (latchCounter s).stored = s.stored ∧ (latchCounter s).patrol = s.patrol ∧ (latchCounter s).trk = s.trk ∧
    (latchCounter s).hut = s.hut ∧ (latchCounter s).alarm = s.alarm ∧ (latchCounter s).card = s.card ∧ (latchCounter
    s).evts = s.evts ∧ (latchCounter s).tel = s.tel ∧ (latchCounter s).pending = s.pending := by
  simp only [latchCounter, State.ite_parts .., ite_self, and_self, implies_true, returns_frame ..]

theorem recordSecond_frame (busy : List Nat) (s0 : State) :
    (recordSecond busy s0).now = s0.now ∧ (recordSecond busy s0).free = s0.free ∧ (recordSecond busy s0).life = s0.life
    ∧ (recordSecond busy s0).gate = s0.gate ∧ (recordSecond busy s0).rings = s0.rings ∧ (recordSecond busy s0).units
    = s0.units ∧ (recordSecond busy s0).curves = s0.curves ∧ (recordSecond busy s0).sess = s0.sess ∧ (recordSecond
    busy s0).vault = s0.vault ∧ (recordSecond busy s0).ctrs = s0.ctrs ∧ (recordSecond busy s0).powder = s0.powder ∧
    (recordSecond busy s0).merya = s0.merya ∧ (recordSecond busy s0).mem = s0.mem ∧ (recordSecond busy s0).stored =
    s0.stored ∧ (recordSecond busy s0).patrol = s0.patrol ∧ (recordSecond busy s0).hut = s0.hut ∧ (recordSecond busy
    s0).alarm = s0.alarm ∧ (recordSecond busy s0).card = s0.card ∧ (recordSecond busy s0).pending = s0.pending := by
  simp only [recordSecond, State.ite_parts .., ite_self, and_self, implies_true, telemetryRead_frame .., raiseLost_frame ..]

theorem peripheralWrite_frame (off : Nat) (v : Word) (s : State) :
    (peripheralWrite off v s).now = s.now ∧ (peripheralWrite off v s).free = s.free ∧ (peripheralWrite off v s).life =
    s.life ∧ (peripheralWrite off v s).gate = s.gate ∧ (peripheralWrite off v s).rings = s.rings ∧ (peripheralWrite
    off v s).units = s.units ∧ (peripheralWrite off v s).curves = s.curves ∧ (peripheralWrite off v s).sess = s.sess
    ∧ (peripheralWrite off v s).vault = s.vault ∧ (peripheralWrite off v s).ctrs = s.ctrs ∧ (peripheralWrite off v
    s).powder = s.powder ∧ (peripheralWrite off v s).mem = s.mem ∧ (peripheralWrite off v s).stored = s.stored ∧
    (peripheralWrite off v s).patrol = s.patrol ∧ (peripheralWrite off v s).trk = s.trk ∧ (peripheralWrite off v
    s).hut = s.hut ∧ (peripheralWrite off v s).alarm = s.alarm ∧ (peripheralWrite off v s).card = s.card ∧
    (peripheralWrite off v s).tel = s.tel ∧ (peripheralWrite off v s).pending = s.pending := by
  simp only [peripheralWrite, State.ite_parts .., ite_self, and_self, implies_true, protWrite_frame ..]

theorem writeRegister_frame (space : RegSpace) (off : Nat) (v : Word) (s : State) :
    (writeRegister space off v s).now = s.now ∧ (writeRegister space off v s).pending = s.pending := by
  unfold writeRegister
  (repeat' split) <;> simp only [State.ite_parts .., ite_self, and_self, implies_true, bar0Write_frame .., badAccess_frame ..,
    peripheralWrite_frame .., configWrite_frame ..]

theorem readVltStat_frame (s : State) :
    (readVltStat s).now = s.now ∧ (readVltStat s).free = s.free ∧ (readVltStat s).life = s.life ∧ (readVltStat s).gate =
    s.gate ∧ (readVltStat s).rings = s.rings ∧ (readVltStat s).units = s.units ∧ (readVltStat s).curves = s.curves ∧
    (readVltStat s).sess = s.sess ∧ (readVltStat s).ctrs = s.ctrs ∧ (readVltStat s).powder = s.powder ∧ (readVltStat
    s).merya = s.merya ∧ (readVltStat s).prot = s.prot ∧ (readVltStat s).mem = s.mem ∧ (readVltStat s).stored =
    s.stored ∧ (readVltStat s).patrol = s.patrol ∧ (readVltStat s).trk = s.trk ∧ (readVltStat s).hut = s.hut ∧
    (readVltStat s).alarm = s.alarm ∧ (readVltStat s).card = s.card ∧ (readVltStat s).evts = s.evts ∧ (readVltStat
    s).tel = s.tel ∧ (readVltStat s).pending = s.pending := by
  simp only [readVltStat, State.ite_parts .., ite_self, and_self, implies_true, returns_frame .., latchVault_frame ..]

theorem readRsfSel_frame (weak : Bool) (s : State) :
    (readRsfSel weak s).now = s.now ∧ (readRsfSel weak s).free = s.free ∧ (readRsfSel weak s).life = s.life ∧
    (readRsfSel weak s).gate = s.gate ∧ (readRsfSel weak s).rings = s.rings ∧ (readRsfSel weak s).units = s.units ∧
    (readRsfSel weak s).curves = s.curves ∧ (readRsfSel weak s).sess = s.sess ∧ (readRsfSel weak s).vault = s.vault
    ∧ (readRsfSel weak s).ctrs = s.ctrs ∧ (readRsfSel weak s).powder = s.powder ∧ (readRsfSel weak s).merya =
    s.merya ∧ (readRsfSel weak s).prot = s.prot ∧ (readRsfSel weak s).mem = s.mem ∧ (readRsfSel weak s).patrol =
    s.patrol ∧ (readRsfSel weak s).trk = s.trk ∧ (readRsfSel weak s).hut = s.hut ∧ (readRsfSel weak s).alarm =
    s.alarm ∧ (readRsfSel weak s).card = s.card ∧ (readRsfSel weak s).evts = s.evts ∧ (readRsfSel weak s).tel =
    s.tel ∧ (readRsfSel weak s).pending = s.pending := by
  simp only [readRsfSel, State.ite_parts .., ite_self, and_self, implies_true, returns_frame .., latchWeak_frame ..,
    latchBank_frame ..]

theorem latchSource_frame (s : State) :
    (latchSource s).now = s.now ∧ (latchSource s).free = s.free ∧ (latchSource s).life = s.life ∧ (latchSource s).gate =
    s.gate ∧ (latchSource s).rings = s.rings ∧ (latchSource s).units = s.units ∧ (latchSource s).curves = s.curves ∧
    (latchSource s).sess = s.sess ∧ (latchSource s).vault = s.vault ∧ (latchSource s).ctrs = s.ctrs ∧ (latchSource
    s).powder = s.powder ∧ (latchSource s).merya = s.merya ∧ (latchSource s).prot = s.prot ∧ (latchSource s).mem =
    s.mem ∧ (latchSource s).stored = s.stored ∧ (latchSource s).trk = s.trk ∧ (latchSource s).hut = s.hut ∧
    (latchSource s).alarm = s.alarm ∧ (latchSource s).card = s.card ∧ (latchSource s).evts = s.evts ∧ (latchSource
    s).tel = s.tel ∧ (latchSource s).pending = s.pending := by
  simp only [latchSource, State.ite_parts .., ite_self, and_self, implies_true, returns_frame ..]

theorem latchDigest_frame (s : State) :
    (latchDigest s).now = s.now ∧ (latchDigest s).free = s.free ∧ (latchDigest s).life = s.life ∧ (latchDigest s).gate =
    s.gate ∧ (latchDigest s).rings = s.rings ∧ (latchDigest s).units = s.units ∧ (latchDigest s).sess = s.sess ∧
    (latchDigest s).vault = s.vault ∧ (latchDigest s).ctrs = s.ctrs ∧ (latchDigest s).powder = s.powder ∧
    (latchDigest s).merya = s.merya ∧ (latchDigest s).prot = s.prot ∧ (latchDigest s).mem = s.mem ∧ (latchDigest
    s).stored = s.stored ∧ (latchDigest s).patrol = s.patrol ∧ (latchDigest s).trk = s.trk ∧ (latchDigest s).hut =
    s.hut ∧ (latchDigest s).alarm = s.alarm ∧ (latchDigest s).card = s.card ∧ (latchDigest s).evts = s.evts ∧
    (latchDigest s).tel = s.tel ∧ (latchDigest s).pending = s.pending := by
  simp only [latchDigest, State.ite_parts .., ite_self, and_self, implies_true, returns_frame ..]

theorem latchHigh_frame (w : HiLo) (s : State) :
    (latchHigh w s).now = s.now ∧ (latchHigh w s).free = s.free ∧ (latchHigh w s).life = s.life ∧ (latchHigh w s).gate =
    s.gate ∧ (latchHigh w s).rings = s.rings ∧ (latchHigh w s).units = s.units ∧ (latchHigh w s).curves = s.curves ∧
    (latchHigh w s).sess = s.sess ∧ (latchHigh w s).vault = s.vault ∧ (latchHigh w s).ctrs = s.ctrs ∧ (latchHigh w
    s).powder = s.powder ∧ (latchHigh w s).merya = s.merya ∧ (latchHigh w s).prot = s.prot ∧ (latchHigh w s).mem =
    s.mem ∧ (latchHigh w s).stored = s.stored ∧ (latchHigh w s).card = s.card ∧ (latchHigh w s).evts = s.evts ∧
    (latchHigh w s).tel = s.tel ∧ (latchHigh w s).pending = s.pending := by
  unfold latchHigh
  (repeat' split) <;> simp only [State.ite_parts .., ite_self, and_self, implies_true, returns_frame ..]

/-! ### Link.lean -/

theorem releaseHeld_frame (s : State) :
    (releaseHeld s).now = s.now ∧ (releaseHeld s).life = s.life ∧ (releaseHeld s).curves = s.curves ∧ (releaseHeld
    s).sess = s.sess ∧ (releaseHeld s).ctrs = s.ctrs ∧ (releaseHeld s).powder = s.powder ∧ (releaseHeld s).patrol =
    s.patrol ∧ (releaseHeld s).hut = s.hut ∧ (releaseHeld s).alarm = s.alarm ∧ (releaseHeld s).card = s.card ∧
    (releaseHeld s).tel = s.tel ∧ (releaseHeld s).pending = s.pending := by
  simp only [releaseHeld, State.ite_parts .., ite_self, and_self, implies_true, foldl_now, foldl_life, foldl_curves,
    foldl_sess, foldl_ctrs, foldl_powder, foldl_patrol, foldl_hut, foldl_alarm, foldl_card, foldl_tel,
    foldl_pending, requestBack_frame .., releaseOutput_frame .., entryNow_frame .., advanceRing_frame ..]

theorem returnWriteCredit_frame (s : State) :
    (returnWriteCredit s).now = s.now ∧ (returnWriteCredit s).life = s.life ∧ (returnWriteCredit s).curves = s.curves ∧
    (returnWriteCredit s).sess = s.sess ∧ (returnWriteCredit s).ctrs = s.ctrs ∧ (returnWriteCredit s).powder =
    s.powder ∧ (returnWriteCredit s).patrol = s.patrol ∧ (returnWriteCredit s).hut = s.hut ∧ (returnWriteCredit
    s).alarm = s.alarm ∧ (returnWriteCredit s).card = s.card ∧ (returnWriteCredit s).tel = s.tel ∧
    (returnWriteCredit s).pending = s.pending := by
  simp only [returnWriteCredit, State.ite_parts .., ite_self, and_self, implies_true, releaseHeld_frame ..]

theorem resetConfig_frame (keepPayload : Bool) (s : State) :
    (resetConfig keepPayload s).now = s.now ∧ (resetConfig keepPayload s).free = s.free ∧ (resetConfig keepPayload
    s).life = s.life ∧ (resetConfig keepPayload s).gate = s.gate ∧ (resetConfig keepPayload s).rings = s.rings ∧
    (resetConfig keepPayload s).units = s.units ∧ (resetConfig keepPayload s).curves = s.curves ∧ (resetConfig
    keepPayload s).sess = s.sess ∧ (resetConfig keepPayload s).vault = s.vault ∧ (resetConfig keepPayload s).ctrs =
    s.ctrs ∧ (resetConfig keepPayload s).powder = s.powder ∧ (resetConfig keepPayload s).merya = s.merya ∧
    (resetConfig keepPayload s).prot = s.prot ∧ (resetConfig keepPayload s).mem = s.mem ∧ (resetConfig keepPayload
    s).stored = s.stored ∧ (resetConfig keepPayload s).patrol = s.patrol ∧ (resetConfig keepPayload s).trk = s.trk ∧
    (resetConfig keepPayload s).hut = s.hut ∧ (resetConfig keepPayload s).alarm = s.alarm ∧ (resetConfig keepPayload
    s).card = s.card ∧ (resetConfig keepPayload s).evts = s.evts ∧ (resetConfig keepPayload s).tel = s.tel ∧
    (resetConfig keepPayload s).pending = s.pending := by
  simp only [resetConfig, State.ite_parts .., ite_self, and_self, implies_true]

theorem resetRws_frame (s : State) :
    (resetRws s).now = s.now ∧ (resetRws s).free = s.free ∧ (resetRws s).rings = s.rings ∧ (resetRws s).curves =
    s.curves ∧ (resetRws s).sess = s.sess ∧ (resetRws s).vault = s.vault ∧ (resetRws s).ctrs = s.ctrs ∧ (resetRws
    s).powder = s.powder ∧ (resetRws s).merya = s.merya ∧ (resetRws s).prot = s.prot ∧ (resetRws s).mem = s.mem ∧
    (resetRws s).stored = s.stored ∧ (resetRws s).patrol = s.patrol ∧ (resetRws s).trk = s.trk ∧ (resetRws s).hut =
    s.hut ∧ (resetRws s).alarm = s.alarm ∧ (resetRws s).pending = s.pending := by
  simp only [resetRws, State.ite_parts .., ite_self, and_self, implies_true]

theorem endJobs_frame (ends : Job → Bool) (s : State) :
    (endJobs ends s).now = s.now ∧ (endJobs ends s).free = s.free ∧ (endJobs ends s).life = s.life ∧ (endJobs ends
    s).link = s.link ∧ (endJobs ends s).gate = s.gate ∧ (endJobs ends s).curves = s.curves ∧ (endJobs ends s).sess =
    s.sess ∧ (endJobs ends s).powder = s.powder ∧ (endJobs ends s).merya = s.merya ∧ (endJobs ends s).prot = s.prot
    ∧ (endJobs ends s).mem = s.mem ∧ (endJobs ends s).patrol = s.patrol ∧ (endJobs ends s).hut = s.hut ∧ (endJobs
    ends s).alarm = s.alarm ∧ (endJobs ends s).evts = s.evts ∧ (endJobs ends s).tel = s.tel ∧ (endJobs ends
    s).pending = s.pending := by
  simp only [endJobs, State.ite_parts .., ite_self, and_self, implies_true, foldl_now, foldl_free, foldl_life,
    foldl_link, foldl_gate, foldl_curves, foldl_sess, foldl_powder, foldl_merya, foldl_prot, foldl_mem,
    foldl_patrol, foldl_hut, foldl_alarm, foldl_evts, foldl_tel, foldl_pending, giveBackCredit_frame ..,
    releaseStaging_frame .., clearJobMemory_frame .., releaseKeygen_frame .., settleUnits_frame ..]

theorem dropHost_frame (f : Ring → Ring) (s : State) :
    (dropHost f s).now = s.now ∧ (dropHost f s).free = s.free ∧ (dropHost f s).life = s.life ∧ (dropHost f s).gate =
    s.gate ∧ (dropHost f s).curves = s.curves ∧ (dropHost f s).sess = s.sess ∧ (dropHost f s).powder = s.powder ∧
    (dropHost f s).merya = s.merya ∧ (dropHost f s).prot = s.prot ∧ (dropHost f s).mem = s.mem ∧ (dropHost f
    s).patrol = s.patrol ∧ (dropHost f s).hut = s.hut ∧ (dropHost f s).alarm = s.alarm ∧ (dropHost f s).evts =
    s.evts ∧ (dropHost f s).tel = s.tel ∧ (dropHost f s).pending = s.pending := by
  simp only [dropHost, State.ite_parts .., ite_self, and_self, implies_true, endJobs_frame ..]

theorem traceEnded_frame (origin : Nat) (n : Nat) (s : State) :
    (traceEnded origin n s).now = s.now ∧ (traceEnded origin n s).free = s.free ∧ (traceEnded origin n s).life = s.life
    ∧ (traceEnded origin n s).link = s.link ∧ (traceEnded origin n s).gate = s.gate ∧ (traceEnded origin n s).rings
    = s.rings ∧ (traceEnded origin n s).units = s.units ∧ (traceEnded origin n s).curves = s.curves ∧ (traceEnded
    origin n s).sess = s.sess ∧ (traceEnded origin n s).vault = s.vault ∧ (traceEnded origin n s).ctrs = s.ctrs ∧
    (traceEnded origin n s).powder = s.powder ∧ (traceEnded origin n s).merya = s.merya ∧ (traceEnded origin n
    s).prot = s.prot ∧ (traceEnded origin n s).mem = s.mem ∧ (traceEnded origin n s).stored = s.stored ∧ (traceEnded
    origin n s).patrol = s.patrol ∧ (traceEnded origin n s).hut = s.hut ∧ (traceEnded origin n s).alarm = s.alarm ∧
    (traceEnded origin n s).card = s.card ∧ (traceEnded origin n s).evts = s.evts ∧ (traceEnded origin n s).tel =
    s.tel ∧ (traceEnded origin n s).pending = s.pending := by
  simp only [traceEnded, State.ite_parts .., ite_self, and_self, implies_true, trkRequest_frame ..]

theorem functionReset_frame (origin : Nat) (keepPayload : Bool) (s : State) :
    (functionReset origin keepPayload s).now = s.now ∧ (functionReset origin keepPayload s).curves = s.curves ∧
    (functionReset origin keepPayload s).sess = s.sess ∧ (functionReset origin keepPayload s).powder = s.powder ∧
    (functionReset origin keepPayload s).merya = s.merya ∧ (functionReset origin keepPayload s).hut = s.hut ∧
    (functionReset origin keepPayload s).alarm = s.alarm ∧ (functionReset origin keepPayload s).pending = s.pending := by
  simp only [functionReset, State.ite_parts .., ite_self, and_self, implies_true, resetConfig_frame .., resetRws_frame ..,
    dropHost_frame .., portNext_frame .., setPcieErr_frame .., traceEnded_frame ..]

theorem setBme_frame (s : State) :
    (setBme s).now = s.now ∧ (setBme s).free = s.free ∧ (setBme s).life = s.life ∧ (setBme s).gate = s.gate ∧ (setBme
    s).rings = s.rings ∧ (setBme s).units = s.units ∧ (setBme s).curves = s.curves ∧ (setBme s).sess = s.sess ∧
    (setBme s).vault = s.vault ∧ (setBme s).ctrs = s.ctrs ∧ (setBme s).powder = s.powder ∧ (setBme s).merya =
    s.merya ∧ (setBme s).prot = s.prot ∧ (setBme s).mem = s.mem ∧ (setBme s).stored = s.stored ∧ (setBme s).patrol =
    s.patrol ∧ (setBme s).trk = s.trk ∧ (setBme s).hut = s.hut ∧ (setBme s).alarm = s.alarm ∧ (setBme s).card =
    s.card ∧ (setBme s).evts = s.evts ∧ (setBme s).tel = s.tel ∧ (setBme s).pending = s.pending := by
  simp only [setBme, State.ite_parts .., ite_self, and_self, implies_true]

theorem clearBme_frame (s : State) :
    (clearBme s).now = s.now ∧ (clearBme s).life = s.life ∧ (clearBme s).gate = s.gate ∧ (clearBme s).curves = s.curves
    ∧ (clearBme s).sess = s.sess ∧ (clearBme s).powder = s.powder ∧ (clearBme s).hut = s.hut ∧ (clearBme s).alarm =
    s.alarm ∧ (clearBme s).tel = s.tel ∧ (clearBme s).pending = s.pending := by
  simp only [clearBme, State.ite_parts .., ite_self, and_self, implies_true, foldl_now, foldl_life, foldl_gate,
    foldl_curves, foldl_sess, foldl_powder, foldl_hut, foldl_alarm, foldl_tel, foldl_pending, setPcieErr_frame ..,
    traceEnded_frame .., dropHost_frame .., portNext_frame .., raiseRing_frame ..]

/-! ### Power.lean -/

theorem stopStart_frame (step : Nat) (code : Nat) (s : State) :
    (stopStart step code s).now = s.now ∧ (stopStart step code s).free = s.free ∧ (stopStart step code s).gate = s.gate
    ∧ (stopStart step code s).rings = s.rings ∧ (stopStart step code s).units = s.units ∧ (stopStart step code
    s).curves = s.curves ∧ (stopStart step code s).sess = s.sess ∧ (stopStart step code s).vault = s.vault ∧
    (stopStart step code s).ctrs = s.ctrs ∧ (stopStart step code s).powder = s.powder ∧ (stopStart step code
    s).merya = s.merya ∧ (stopStart step code s).prot = s.prot ∧ (stopStart step code s).mem = s.mem ∧ (stopStart
    step code s).hut = s.hut ∧ (stopStart step code s).alarm = s.alarm ∧ (stopStart step code s).card = s.card ∧
    (stopStart step code s).tel = s.tel ∧ (stopStart step code s).pending = s.pending := by
  simp only [stopStart, State.ite_parts .., ite_self, and_self, implies_true, setLcEvt_frame .., appendAll_frame ..,
    trkRequest_frame ..]

theorem eraseTorn_frame (s : State) (w : Nat × Nat) :
    (eraseTorn s w).now = s.now ∧ (eraseTorn s w).free = s.free ∧ (eraseTorn s w).life = s.life ∧ (eraseTorn s w).gate =
    s.gate ∧ (eraseTorn s w).rings = s.rings ∧ (eraseTorn s w).units = s.units ∧ (eraseTorn s w).curves = s.curves ∧
    (eraseTorn s w).sess = s.sess ∧ (eraseTorn s w).vault = s.vault ∧ (eraseTorn s w).powder = s.powder ∧ (eraseTorn
    s w).merya = s.merya ∧ (eraseTorn s w).prot = s.prot ∧ (eraseTorn s w).patrol = s.patrol ∧ (eraseTorn s w).trk =
    s.trk ∧ (eraseTorn s w).hut = s.hut ∧ (eraseTorn s w).alarm = s.alarm ∧ (eraseTorn s w).card = s.card ∧
    (eraseTorn s w).tel = s.tel ∧ (eraseTorn s w).pending = s.pending := by
  simp only [eraseTorn, State.ite_parts .., ite_self, and_self, implies_true, setRsfEvt_frame .., setCond_frame ..,
    wearWrite_frame .., setCtrEvt_frame .., modCounter_frame ..]

theorem jumpCounter_frame (s : State) (n : Nat) :
    (jumpCounter s n).now = s.now ∧ (jumpCounter s n).free = s.free ∧ (jumpCounter s n).life = s.life ∧ (jumpCounter s
    n).gate = s.gate ∧ (jumpCounter s n).rings = s.rings ∧ (jumpCounter s n).units = s.units ∧ (jumpCounter s
    n).curves = s.curves ∧ (jumpCounter s n).sess = s.sess ∧ (jumpCounter s n).vault = s.vault ∧ (jumpCounter s
    n).powder = s.powder ∧ (jumpCounter s n).merya = s.merya ∧ (jumpCounter s n).prot = s.prot ∧ (jumpCounter s
    n).mem = s.mem ∧ (jumpCounter s n).patrol = s.patrol ∧ (jumpCounter s n).hut = s.hut ∧ (jumpCounter s n).alarm =
    s.alarm ∧ (jumpCounter s n).card = s.card ∧ (jumpCounter s n).tel = s.tel ∧ (jumpCounter s n).pending =
    s.pending := by
  simp only [jumpCounter, State.ite_parts .., ite_self, and_self, implies_true, modCounter_frame .., writeCounter_frame ..,
    trkRequest_frame .., setRsfEvt_frame ..]

theorem poisonWord_frame (s : State) (w : Nat × Nat) :
    (poisonWord s w).now = s.now ∧ (poisonWord s w).free = s.free ∧ (poisonWord s w).life = s.life ∧ (poisonWord s
    w).gate = s.gate ∧ (poisonWord s w).rings = s.rings ∧ (poisonWord s w).units = s.units ∧ (poisonWord s w).curves
    = s.curves ∧ (poisonWord s w).sess = s.sess ∧ (poisonWord s w).vault = s.vault ∧ (poisonWord s w).ctrs = s.ctrs
    ∧ (poisonWord s w).powder = s.powder ∧ (poisonWord s w).merya = s.merya ∧ (poisonWord s w).prot = s.prot ∧
    (poisonWord s w).mem = s.mem ∧ (poisonWord s w).patrol = s.patrol ∧ (poisonWord s w).trk = s.trk ∧ (poisonWord s
    w).hut = s.hut ∧ (poisonWord s w).alarm = s.alarm ∧ (poisonWord s w).card = s.card ∧ (poisonWord s w).tel =
    s.tel ∧ (poisonWord s w).pending = s.pending := by
  simp only [poisonWord, State.ite_parts .., ite_self, and_self, implies_true, noteUe_frame ..]

theorem loadLatches_frame (s : State) :
    (loadLatches s).now = s.now ∧ (loadLatches s).free = s.free ∧ (loadLatches s).life = s.life ∧ (loadLatches
    s).link = s.link ∧ (loadLatches s).gate = s.gate ∧ (loadLatches s).rings = s.rings ∧ (loadLatches s).units =
    s.units ∧ (loadLatches s).curves = s.curves ∧ (loadLatches s).sess = s.sess ∧ (loadLatches s).powder = s.powder
    ∧ (loadLatches s).merya = s.merya ∧ (loadLatches s).prot = s.prot ∧ (loadLatches s).mem = s.mem ∧ (loadLatches
    s).hut = s.hut ∧ (loadLatches s).alarm = s.alarm ∧ (loadLatches s).card = s.card ∧ (loadLatches s).evts = s.evts
    ∧ (loadLatches s).tel = s.tel ∧ (loadLatches s).pending = s.pending := by
  simp only [loadLatches, State.ite_parts .., ite_self, and_self, implies_true, latchVault_frame ..]

theorem stepIntegrity_frame (i : StartInputs) (s : State) :
    (stepIntegrity i s).1.now = s.now ∧ (stepIntegrity i s).1.free = s.free ∧ (stepIntegrity i s).1.life = s.life ∧
    (stepIntegrity i s).1.gate = s.gate ∧ (stepIntegrity i s).1.rings = s.rings ∧ (stepIntegrity i s).1.units =
    s.units ∧ (stepIntegrity i s).1.curves = s.curves ∧ (stepIntegrity i s).1.sess = s.sess ∧ (stepIntegrity i
    s).1.powder = s.powder ∧ (stepIntegrity i s).1.merya = s.merya ∧ (stepIntegrity i s).1.prot = s.prot ∧
    (stepIntegrity i s).1.hut = s.hut ∧ (stepIntegrity i s).1.alarm = s.alarm ∧ (stepIntegrity i s).1.card = s.card
    ∧ (stepIntegrity i s).1.tel = s.tel ∧ (stepIntegrity i s).1.pending = s.pending := by
  unfold stepIntegrity
  (repeat' split) <;> simp only [State.ite_parts .., ite_self, and_self, implies_true, foldl_now, foldl_free, foldl_life, foldl_gate,
    foldl_rings, foldl_units, foldl_curves, foldl_sess, foldl_powder, foldl_merya, foldl_prot, foldl_hut,
    foldl_alarm, foldl_card, foldl_tel, foldl_pending, poisonWord_frame .., eraseTorn_frame .., jumpCounter_frame ..,
    loadLatches_frame ..]

theorem appendHut_frame (bad : List Nat) (s : State) (p : Nat × HutEntry) :
    (appendHut bad s p).now = s.now ∧ (appendHut bad s p).free = s.free ∧ (appendHut bad s p).life = s.life ∧ (appendHut
    bad s p).gate = s.gate ∧ (appendHut bad s p).rings = s.rings ∧ (appendHut bad s p).units = s.units ∧ (appendHut
    bad s p).curves = s.curves ∧ (appendHut bad s p).sess = s.sess ∧ (appendHut bad s p).vault = s.vault ∧
    (appendHut bad s p).ctrs = s.ctrs ∧ (appendHut bad s p).powder = s.powder ∧ (appendHut bad s p).merya = s.merya
    ∧ (appendHut bad s p).prot = s.prot ∧ (appendHut bad s p).mem = s.mem ∧ (appendHut bad s p).alarm = s.alarm ∧
    (appendHut bad s p).card = s.card ∧ (appendHut bad s p).tel = s.tel ∧ (appendHut bad s p).pending = s.pending := by
  simp only [appendHut, State.ite_parts .., ite_self, and_self, implies_true, appendReq_frame ..]

theorem clearForReset_frame (por : Bool) (s : State) :
    (clearForReset por s).now = s.now ∧ (clearForReset por s).free = s.free ∧ (clearForReset por s).pending = s.pending := by
  simp only [clearForReset, State.ite_parts .., ite_self, and_self, implies_true, foldl_now, foldl_free, foldl_pending,
    giveBackCredit_frame ..]

theorem assertReset_frame (por : Bool) (s : State) :
    (assertReset por s).now = s.now ∧ (assertReset por s).free = s.free ∧ (assertReset por s).pending = s.pending := by
  simp only [assertReset, State.ite_parts .., ite_self, and_self, implies_true, clearForReset_frame .., flushTracks_frame ..]

theorem stepPowder_frame (i : StartInputs) (s : State) :
    (stepPowder i s).1.now = s.now ∧ (stepPowder i s).1.life = s.life ∧ (stepPowder i s).1.curves = s.curves ∧
    (stepPowder i s).1.sess = s.sess ∧ (stepPowder i s).1.ctrs = s.ctrs ∧ (stepPowder i s).1.hut = s.hut ∧
    (stepPowder i s).1.alarm = s.alarm ∧ (stepPowder i s).1.card = s.card ∧ (stepPowder i s).1.tel = s.tel ∧
    (stepPowder i s).1.pending = s.pending := by
  simp only [stepPowder, State.ite_parts .., ite_self, and_self, implies_true, foldl_now, foldl_life, foldl_curves,
    foldl_sess, foldl_ctrs, foldl_hut, foldl_alarm, foldl_card, foldl_tel, foldl_pending, setUnitRec_frame ..,
    setGrmEvt_frame .., declareFailed_frame .., startupPass_frame .., healthFailed_frame ..]
  (repeat' split) <;> simp only [State.ite_parts .., ite_self, and_self, implies_true, foldl_now, foldl_life, foldl_curves, foldl_sess,
    foldl_ctrs, foldl_hut, foldl_alarm, foldl_card, foldl_tel, foldl_pending, setUnitRec_frame .., setGrmEvt_frame ..,
    declareFailed_frame .., startupPass_frame .., healthFailed_frame ..]

theorem makeProvisioning_frame (i : StartInputs) (s : State) :
    (makeProvisioning i s).now = s.now ∧ (makeProvisioning i s).free = s.free ∧ (makeProvisioning i s).gate = s.gate ∧
    (makeProvisioning i s).curves = s.curves ∧ (makeProvisioning i s).sess = s.sess ∧ (makeProvisioning i s).ctrs =
    s.ctrs ∧ (makeProvisioning i s).powder = s.powder ∧ (makeProvisioning i s).merya = s.merya ∧ (makeProvisioning i
    s).prot = s.prot ∧ (makeProvisioning i s).mem = s.mem ∧ (makeProvisioning i s).patrol = s.patrol ∧
    (makeProvisioning i s).hut = s.hut ∧ (makeProvisioning i s).alarm = s.alarm ∧ (makeProvisioning i s).card =
    s.card ∧ (makeProvisioning i s).tel = s.tel ∧ (makeProvisioning i s).pending = s.pending := by
  simp only [makeProvisioning, State.ite_parts .., ite_self, and_self, implies_true, writeSlot_frame ..]

theorem poolBlocks_frame (st : State × List Bytes) :
    (poolBlocks st).1.now = st.1.now ∧ (poolBlocks st).1.free = st.1.free ∧ (poolBlocks st).1.life = st.1.life ∧
    (poolBlocks st).1.gate = st.1.gate ∧ (poolBlocks st).1.rings = st.1.rings ∧ (poolBlocks st).1.units = st.1.units
    ∧ (poolBlocks st).1.curves = st.1.curves ∧ (poolBlocks st).1.sess = st.1.sess ∧ (poolBlocks st).1.vault =
    st.1.vault ∧ (poolBlocks st).1.ctrs = st.1.ctrs ∧ (poolBlocks st).1.prot = st.1.prot ∧ (poolBlocks st).1.mem =
    st.1.mem ∧ (poolBlocks st).1.stored = st.1.stored ∧ (poolBlocks st).1.patrol = st.1.patrol ∧ (poolBlocks
    st).1.trk = st.1.trk ∧ (poolBlocks st).1.hut = st.1.hut ∧ (poolBlocks st).1.alarm = st.1.alarm ∧ (poolBlocks
    st).1.card = st.1.card ∧ (poolBlocks st).1.tel = st.1.tel ∧ (poolBlocks st).1.pending = st.1.pending := by
  simp only [poolBlocks, and_self]

theorem startGroomers_now (l : List Nat) (x : State × List Bytes) : (l.foldl startGroomer x).1.now = x.1.now := by
  induction l generalizing x with
  | nil => rfl
  | cons g l ih =>
    rw [List.foldl_cons, ih]
    unfold startGroomer
    split
    · rfl
    · simp only [groomerSeeded_frame .., poolBlocks_frame ..]

theorem startGroomers_free (l : List Nat) (x : State × List Bytes) : (l.foldl startGroomer x).1.free = x.1.free := by
  induction l generalizing x with
  | nil => rfl
  | cons g l ih =>
    rw [List.foldl_cons, ih]
    unfold startGroomer
    split
    · rfl
    · simp only [groomerSeeded_frame .., poolBlocks_frame ..]

theorem startGroomers_life (l : List Nat) (x : State × List Bytes) : (l.foldl startGroomer x).1.life = x.1.life := by
  induction l generalizing x with
  | nil => rfl
  | cons g l ih =>
    rw [List.foldl_cons, ih]
    unfold startGroomer
    split
    · rfl
    · simp only [groomerSeeded_frame .., poolBlocks_frame ..]

theorem startGroomers_gate (l : List Nat) (x : State × List Bytes) : (l.foldl startGroomer x).1.gate = x.1.gate := by
  induction l generalizing x with
  | nil => rfl
  | cons g l ih =>
    rw [List.foldl_cons, ih]
    unfold startGroomer
    split
    · rfl
    · simp only [groomerSeeded_frame .., poolBlocks_frame ..]

theorem startGroomers_rings (l : List Nat) (x : State × List Bytes) : (l.foldl startGroomer x).1.rings = x.1.rings := by
  induction l generalizing x with
  | nil => rfl
  | cons g l ih =>
    rw [List.foldl_cons, ih]
    unfold startGroomer
    split
    · rfl
    · simp only [groomerSeeded_frame .., poolBlocks_frame ..]

theorem startGroomers_curves (l : List Nat) (x : State × List Bytes) : (l.foldl startGroomer x).1.curves = x.1.curves := by
  induction l generalizing x with
  | nil => rfl
  | cons g l ih =>
    rw [List.foldl_cons, ih]
    unfold startGroomer
    split
    · rfl
    · simp only [groomerSeeded_frame .., poolBlocks_frame ..]

theorem startGroomers_sess (l : List Nat) (x : State × List Bytes) : (l.foldl startGroomer x).1.sess = x.1.sess := by
  induction l generalizing x with
  | nil => rfl
  | cons g l ih =>
    rw [List.foldl_cons, ih]
    unfold startGroomer
    split
    · rfl
    · simp only [groomerSeeded_frame .., poolBlocks_frame ..]

theorem startGroomers_vault (l : List Nat) (x : State × List Bytes) : (l.foldl startGroomer x).1.vault = x.1.vault := by
  induction l generalizing x with
  | nil => rfl
  | cons g l ih =>
    rw [List.foldl_cons, ih]
    unfold startGroomer
    split
    · rfl
    · simp only [groomerSeeded_frame .., poolBlocks_frame ..]

theorem startGroomers_ctrs (l : List Nat) (x : State × List Bytes) : (l.foldl startGroomer x).1.ctrs = x.1.ctrs := by
  induction l generalizing x with
  | nil => rfl
  | cons g l ih =>
    rw [List.foldl_cons, ih]
    unfold startGroomer
    split
    · rfl
    · simp only [groomerSeeded_frame .., poolBlocks_frame ..]

theorem startGroomers_prot (l : List Nat) (x : State × List Bytes) : (l.foldl startGroomer x).1.prot = x.1.prot := by
  induction l generalizing x with
  | nil => rfl
  | cons g l ih =>
    rw [List.foldl_cons, ih]
    unfold startGroomer
    split
    · rfl
    · simp only [groomerSeeded_frame .., poolBlocks_frame ..]

theorem startGroomers_mem (l : List Nat) (x : State × List Bytes) : (l.foldl startGroomer x).1.mem = x.1.mem := by
  induction l generalizing x with
  | nil => rfl
  | cons g l ih =>
    rw [List.foldl_cons, ih]
    unfold startGroomer
    split
    · rfl
    · simp only [groomerSeeded_frame .., poolBlocks_frame ..]

theorem startGroomers_stored (l : List Nat) (x : State × List Bytes) : (l.foldl startGroomer x).1.stored = x.1.stored := by
  induction l generalizing x with
  | nil => rfl
  | cons g l ih =>
    rw [List.foldl_cons, ih]
    unfold startGroomer
    split
    · rfl
    · simp only [groomerSeeded_frame .., poolBlocks_frame ..]

theorem startGroomers_patrol (l : List Nat) (x : State × List Bytes) : (l.foldl startGroomer x).1.patrol = x.1.patrol := by
  induction l generalizing x with
  | nil => rfl
  | cons g l ih =>
    rw [List.foldl_cons, ih]
    unfold startGroomer
    split
    · rfl
    · simp only [groomerSeeded_frame .., poolBlocks_frame ..]

theorem startGroomers_trk (l : List Nat) (x : State × List Bytes) : (l.foldl startGroomer x).1.trk = x.1.trk := by
  induction l generalizing x with
  | nil => rfl
  | cons g l ih =>
    rw [List.foldl_cons, ih]
    unfold startGroomer
    split
    · rfl
    · simp only [groomerSeeded_frame .., poolBlocks_frame ..]

theorem startGroomers_hut (l : List Nat) (x : State × List Bytes) : (l.foldl startGroomer x).1.hut = x.1.hut := by
  induction l generalizing x with
  | nil => rfl
  | cons g l ih =>
    rw [List.foldl_cons, ih]
    unfold startGroomer
    split
    · rfl
    · simp only [groomerSeeded_frame .., poolBlocks_frame ..]

theorem startGroomers_alarm (l : List Nat) (x : State × List Bytes) : (l.foldl startGroomer x).1.alarm = x.1.alarm := by
  induction l generalizing x with
  | nil => rfl
  | cons g l ih =>
    rw [List.foldl_cons, ih]
    unfold startGroomer
    split
    · rfl
    · simp only [groomerSeeded_frame .., poolBlocks_frame ..]

theorem startGroomers_card (l : List Nat) (x : State × List Bytes) : (l.foldl startGroomer x).1.card = x.1.card := by
  induction l generalizing x with
  | nil => rfl
  | cons g l ih =>
    rw [List.foldl_cons, ih]
    unfold startGroomer
    split
    · rfl
    · simp only [groomerSeeded_frame .., poolBlocks_frame ..]

theorem startGroomers_tel (l : List Nat) (x : State × List Bytes) : (l.foldl startGroomer x).1.tel = x.1.tel := by
  induction l generalizing x with
  | nil => rfl
  | cons g l ih =>
    rw [List.foldl_cons, ih]
    unfold startGroomer
    split
    · rfl
    · simp only [groomerSeeded_frame .., poolBlocks_frame ..]

theorem startGroomers_pending (l : List Nat) (x : State × List Bytes) : (l.foldl startGroomer x).1.pending = x.1.pending := by
  induction l generalizing x with
  | nil => rfl
  | cons g l ih =>
    rw [List.foldl_cons, ih]
    unfold startGroomer
    split
    · rfl
    · simp only [groomerSeeded_frame .., poolBlocks_frame ..]

theorem stepSeeds_frame (i : StartInputs) (s : State) :
    (stepSeeds i s).1.now = s.now ∧ (stepSeeds i s).1.free = s.free ∧ (stepSeeds i s).1.life = s.life ∧ (stepSeeds i
    s).1.gate = s.gate ∧ (stepSeeds i s).1.rings = s.rings ∧ (stepSeeds i s).1.curves = s.curves ∧ (stepSeeds i
    s).1.sess = s.sess ∧ (stepSeeds i s).1.vault = s.vault ∧ (stepSeeds i s).1.ctrs = s.ctrs ∧ (stepSeeds i
    s).1.prot = s.prot ∧ (stepSeeds i s).1.mem = s.mem ∧ (stepSeeds i s).1.stored = s.stored ∧ (stepSeeds i
    s).1.patrol = s.patrol ∧ (stepSeeds i s).1.trk = s.trk ∧ (stepSeeds i s).1.hut = s.hut ∧ (stepSeeds i s).1.alarm
    = s.alarm ∧ (stepSeeds i s).1.card = s.card ∧ (stepSeeds i s).1.tel = s.tel ∧ (stepSeeds i s).1.pending =
    s.pending := by
  unfold stepSeeds
  dsimp only
  generalize hx : (if (s.powder.state == PowderState.seeding) = true then
    (poolBlocks ((List.range 4).foldl startGroomer (s, i.blocks))).1 else s) = x
  have hf : x.now = s.now ∧ x.free = s.free ∧ x.life = s.life ∧ x.gate = s.gate ∧ x.rings = s.rings ∧ x.curves = s.curves ∧ x.sess = s.sess ∧ x.vault = s.vault ∧ x.ctrs = s.ctrs ∧ x.prot = s.prot ∧ x.mem = s.mem ∧ x.stored = s.stored ∧ x.patrol = s.patrol ∧ x.trk = s.trk ∧ x.hut = s.hut ∧ x.alarm = s.alarm ∧ x.card = s.card ∧ x.tel = s.tel ∧ x.pending = s.pending := by
    simp only [← hx, State.ite_parts .., poolBlocks_frame .., startGroomers_now, startGroomers_free, startGroomers_life, startGroomers_gate, startGroomers_rings, startGroomers_curves, startGroomers_sess, startGroomers_vault, startGroomers_ctrs, startGroomers_prot, startGroomers_mem, startGroomers_stored, startGroomers_patrol, startGroomers_trk, startGroomers_hut, startGroomers_alarm, startGroomers_card, startGroomers_tel, startGroomers_pending, ite_self, and_self]
  split
  · split
    · rename_i h
      have := takeBlocks_frame h
      simp only [poolBlocks_frame .., seedMasks_frame .., this, hf, and_self]
    · simp only [seedMasksFromReserve_frame .., hf, and_self]
  · simp only [seedMasksFromReserve_frame .., hf, and_self]

theorem stepOpen_frame (i : StartInputs) (s : State) :
    (stepOpen i s).1.now = s.now ∧ (stepOpen i s).1.free = s.free ∧ (stepOpen i s).1.units = s.units ∧ (stepOpen i
    s).1.curves = s.curves ∧ (stepOpen i s).1.sess = s.sess ∧ (stepOpen i s).1.vault = s.vault ∧ (stepOpen i
    s).1.ctrs = s.ctrs ∧ (stepOpen i s).1.powder = s.powder ∧ (stepOpen i s).1.prot = s.prot ∧ (stepOpen i
    s).1.patrol = s.patrol ∧ (stepOpen i s).1.hut = s.hut ∧ (stepOpen i s).1.alarm = s.alarm ∧ (stepOpen i s).1.tel
    = s.tel ∧ (stepOpen i s).1.pending = s.pending := by
  simp only [stepOpen, State.ite_parts .., ite_self, and_self, implies_true, releaseDoorbells_frame .., tryPower_frame ..,
    setPort_frame .., checkHours_frame .., setLcEvt_frame ..]

theorem startApplets_frame (s : State) :
    (startApplets s).now = s.now ∧ (startApplets s).free = s.free ∧ (startApplets s).life = s.life ∧ (startApplets
    s).gate = s.gate ∧ (startApplets s).rings = s.rings ∧ (startApplets s).units = s.units ∧ (startApplets s).curves
    = s.curves ∧ (startApplets s).sess = s.sess ∧ (startApplets s).vault = s.vault ∧ (startApplets s).ctrs = s.ctrs
    ∧ (startApplets s).powder = s.powder ∧ (startApplets s).prot = s.prot ∧ (startApplets s).mem = s.mem ∧
    (startApplets s).stored = s.stored ∧ (startApplets s).patrol = s.patrol ∧ (startApplets s).trk = s.trk ∧
    (startApplets s).hut = s.hut ∧ (startApplets s).alarm = s.alarm ∧ (startApplets s).card = s.card ∧ (startApplets
    s).tel = s.tel ∧ (startApplets s).pending = s.pending := by
  simp only [startApplets, State.ite_parts .., ite_self, and_self, implies_true, foldl_now, foldl_free, foldl_life,
    foldl_gate, foldl_rings, foldl_units, foldl_curves, foldl_sess, foldl_vault, foldl_ctrs, foldl_powder,
    foldl_prot, foldl_mem, foldl_stored, foldl_patrol, foldl_trk, foldl_hut, foldl_alarm, foldl_card, foldl_tel,
    foldl_pending, moveApplet_frame ..]

theorem splitLatch_frame (s : State) (n : Nat) :
    (splitLatch s n).now = s.now ∧ (splitLatch s n).free = s.free ∧ (splitLatch s n).life = s.life ∧ (splitLatch s
    n).link = s.link ∧ (splitLatch s n).gate = s.gate ∧ (splitLatch s n).rings = s.rings ∧ (splitLatch s n).units =
    s.units ∧ (splitLatch s n).curves = s.curves ∧ (splitLatch s n).sess = s.sess ∧ (splitLatch s n).vault = s.vault
    ∧ (splitLatch s n).ctrs = s.ctrs ∧ (splitLatch s n).powder = s.powder ∧ (splitLatch s n).merya = s.merya ∧
    (splitLatch s n).prot = s.prot ∧ (splitLatch s n).mem = s.mem ∧ (splitLatch s n).stored = s.stored ∧ (splitLatch
    s n).patrol = s.patrol ∧ (splitLatch s n).trk = s.trk ∧ (splitLatch s n).alarm = s.alarm ∧ (splitLatch s n).card
    = s.card ∧ (splitLatch s n).evts = s.evts ∧ (splitLatch s n).tel = s.tel ∧ (splitLatch s n).pending = s.pending := by
  simp only [splitLatch, State.ite_parts .., ite_self, and_self, implies_true]

theorem stepDetectors_frame (i : StartInputs) (s : State) :
    (stepDetectors i s).1.now = s.now ∧ (stepDetectors i s).1.life = s.life ∧ (stepDetectors i s).1.curves = s.curves ∧
    (stepDetectors i s).1.ctrs = s.ctrs ∧ (stepDetectors i s).1.alarm = s.alarm ∧ (stepDetectors i s).1.card =
    s.card ∧ (stepDetectors i s).1.tel = s.tel ∧ (stepDetectors i s).1.pending = s.pending := by
  simp only [stepDetectors, State.ite_parts .., ite_self, and_self, implies_true, stimulus_frame ..]

theorem stepRuntime_frame (i : StartInputs) (s : State) :
    (stepRuntime i s).1.now = s.now ∧ (stepRuntime i s).1.free = s.free ∧ (stepRuntime i s).1.gate = s.gate ∧
    (stepRuntime i s).1.curves = s.curves ∧ (stepRuntime i s).1.sess = s.sess ∧ (stepRuntime i s).1.ctrs = s.ctrs ∧
    (stepRuntime i s).1.powder = s.powder ∧ (stepRuntime i s).1.mem = s.mem ∧ (stepRuntime i s).1.patrol = s.patrol
    ∧ (stepRuntime i s).1.hut = s.hut ∧ (stepRuntime i s).1.alarm = s.alarm ∧ (stepRuntime i s).1.card = s.card ∧
    (stepRuntime i s).1.tel = s.tel ∧ (stepRuntime i s).1.pending = s.pending := by
  unfold stepRuntime
  (repeat' split) <;> simp only [State.ite_parts .., ite_self, and_self, implies_true, setPuEvt_frame .., startApplets_frame ..,
    makeProvisioning_frame ..]

theorem loseHut_frame (s0 : State) :
    (loseHut s0).now = s0.now ∧ (loseHut s0).free = s0.free ∧ (loseHut s0).life = s0.life ∧ (loseHut s0).gate = s0.gate
    ∧ (loseHut s0).rings = s0.rings ∧ (loseHut s0).units = s0.units ∧ (loseHut s0).curves = s0.curves ∧ (loseHut
    s0).sess = s0.sess ∧ (loseHut s0).vault = s0.vault ∧ (loseHut s0).powder = s0.powder ∧ (loseHut s0).merya =
    s0.merya ∧ (loseHut s0).prot = s0.prot ∧ (loseHut s0).mem = s0.mem ∧ (loseHut s0).stored = s0.stored ∧ (loseHut
    s0).patrol = s0.patrol ∧ (loseHut s0).card = s0.card ∧ (loseHut s0).tel = s0.tel ∧ (loseHut s0).pending =
    s0.pending := by
  simp only [loseHut, State.ite_parts .., ite_self, and_self, implies_true, setCtrEvt_frame ..]

theorem stepTracks_frame (i : StartInputs) (s : State) :
    (stepTracks i s).1.now = s.now ∧ (stepTracks i s).1.free = s.free ∧ (stepTracks i s).1.life = s.life ∧ (stepTracks i
    s).1.gate = s.gate ∧ (stepTracks i s).1.rings = s.rings ∧ (stepTracks i s).1.units = s.units ∧ (stepTracks i
    s).1.curves = s.curves ∧ (stepTracks i s).1.sess = s.sess ∧ (stepTracks i s).1.vault = s.vault ∧ (stepTracks i
    s).1.ctrs = s.ctrs ∧ (stepTracks i s).1.powder = s.powder ∧ (stepTracks i s).1.merya = s.merya ∧ (stepTracks i
    s).1.prot = s.prot ∧ (stepTracks i s).1.mem = s.mem ∧ (stepTracks i s).1.alarm = s.alarm ∧ (stepTracks i
    s).1.card = s.card ∧ (stepTracks i s).1.tel = s.tel ∧ (stepTracks i s).1.pending = s.pending := by
  simp only [stepTracks, State.ite_parts .., ite_self, and_self, implies_true, foldl_now, foldl_free, foldl_life,
    foldl_gate, foldl_rings, foldl_units, foldl_curves, foldl_sess, foldl_vault, foldl_ctrs, foldl_powder,
    foldl_merya, foldl_prot, foldl_mem, foldl_alarm, foldl_card, foldl_tel, foldl_pending, appendHut_frame ..,
    setHutEvt_frame .., appendReq_frame .., appendAll_frame ..]

theorem tripLost_frame (s : State) :
    (tripLost s).now = s.now ∧ (tripLost s).life = s.life ∧ (tripLost s).curves = s.curves ∧ (tripLost s).ctrs = s.ctrs
    ∧ (tripLost s).alarm = s.alarm ∧ (tripLost s).card = s.card ∧ (tripLost s).tel = s.tel ∧ (tripLost s).pending =
    s.pending := by
  simp only [tripLost, State.ite_parts .., ite_self, and_self, implies_true, tripActs_frame ..]

theorem stepHut_frame (i : StartInputs) (s : State) :
    (stepHut i s).1.now = s.now ∧ (stepHut i s).1.life = s.life ∧ (stepHut i s).1.curves = s.curves ∧ (stepHut i
    s).1.card = s.card ∧ (stepHut i s).1.tel = s.tel ∧ (stepHut i s).1.pending = s.pending := by
  unfold stepHut
  (repeat' split) <;> simp only [State.ite_parts .., ite_self, and_self, implies_true, foldl_now, foldl_life, foldl_curves, foldl_card,
    foldl_tel, foldl_pending, loseHut_frame .., splitLatch_frame .., tripLost_frame .., setHutEvt_frame ..]

theorem startKind_frame (i : StartInputs) (k : UnitKind) (limit : Nat) (s : State) :
    (startKind i k limit s).now = s.now ∧ (startKind i k limit s).free = s.free ∧ (startKind i k limit s).life = s.life
    ∧ (startKind i k limit s).curves = s.curves ∧ (startKind i k limit s).sess = s.sess ∧ (startKind i k limit
    s).vault = s.vault ∧ (startKind i k limit s).ctrs = s.ctrs ∧ (startKind i k limit s).merya = s.merya ∧
    (startKind i k limit s).prot = s.prot ∧ (startKind i k limit s).mem = s.mem ∧ (startKind i k limit s).stored =
    s.stored ∧ (startKind i k limit s).patrol = s.patrol ∧ (startKind i k limit s).trk = s.trk ∧ (startKind i k
    limit s).hut = s.hut ∧ (startKind i k limit s).alarm = s.alarm ∧ (startKind i k limit s).card = s.card ∧
    (startKind i k limit s).tel = s.tel ∧ (startKind i k limit s).pending = s.pending := by
  simp only [startKind, State.ite_parts .., ite_self, and_self, implies_true, foldl_now, foldl_free, foldl_life,
    foldl_curves, foldl_sess, foldl_vault, foldl_ctrs, foldl_merya, foldl_prot, foldl_mem, foldl_stored,
    foldl_patrol, foldl_trk, foldl_hut, foldl_alarm, foldl_card, foldl_tel, foldl_pending, setUnitRec_frame ..,
    vectorsDone_frame ..]

theorem stepRaze_frame (i : StartInputs) (s : State) :
    (stepRaze i s).1.now = s.now ∧ (stepRaze i s).1.free = s.free ∧ (stepRaze i s).1.life = s.life ∧ (stepRaze i
    s).1.gate = s.gate ∧ (stepRaze i s).1.rings = s.rings ∧ (stepRaze i s).1.units = s.units ∧ (stepRaze i
    s).1.curves = s.curves ∧ (stepRaze i s).1.sess = s.sess ∧ (stepRaze i s).1.ctrs = s.ctrs ∧ (stepRaze i
    s).1.powder = s.powder ∧ (stepRaze i s).1.merya = s.merya ∧ (stepRaze i s).1.prot = s.prot ∧ (stepRaze i
    s).1.mem = s.mem ∧ (stepRaze i s).1.alarm = s.alarm ∧ (stepRaze i s).1.card = s.card ∧ (stepRaze i s).1.tel =
    s.tel ∧ (stepRaze i s).1.pending = s.pending := by
  unfold stepRaze
  (repeat' split) <;> simp only [State.ite_parts .., ite_self, and_self, implies_true, razeBegin_frame .., razeEnd_frame ..]

theorem stepVectors_frame (i : StartInputs) (s : State) :
    (stepVectors i s).1.now = s.now ∧ (stepVectors i s).1.free = s.free ∧ (stepVectors i s).1.life = s.life ∧
    (stepVectors i s).1.curves = s.curves ∧ (stepVectors i s).1.sess = s.sess ∧ (stepVectors i s).1.vault = s.vault
    ∧ (stepVectors i s).1.ctrs = s.ctrs ∧ (stepVectors i s).1.merya = s.merya ∧ (stepVectors i s).1.prot = s.prot ∧
    (stepVectors i s).1.mem = s.mem ∧ (stepVectors i s).1.stored = s.stored ∧ (stepVectors i s).1.patrol = s.patrol
    ∧ (stepVectors i s).1.trk = s.trk ∧ (stepVectors i s).1.hut = s.hut ∧ (stepVectors i s).1.alarm = s.alarm ∧
    (stepVectors i s).1.card = s.card ∧ (stepVectors i s).1.tel = s.tel ∧ (stepVectors i s).1.pending = s.pending := by
  simp only [stepVectors, State.ite_parts .., ite_self, and_self, implies_true, foldl_now, foldl_free, foldl_life,
    foldl_curves, foldl_sess, foldl_vault, foldl_ctrs, foldl_merya, foldl_prot, foldl_mem, foldl_stored,
    foldl_patrol, foldl_trk, foldl_hut, foldl_alarm, foldl_card, foldl_tel, foldl_pending, startKind_frame ..,
    rebalance_frame ..]
  (repeat' split) <;> simp only [State.ite_parts .., ite_self, and_self, implies_true, foldl_now, foldl_free, foldl_life, foldl_curves,
    foldl_sess, foldl_vault, foldl_ctrs, foldl_merya, foldl_prot, foldl_mem, foldl_stored, foldl_patrol, foldl_trk,
    foldl_hut, foldl_alarm, foldl_card, foldl_tel, foldl_pending, startKind_frame .., rebalance_frame ..]

theorem initPart_frame (v : Byte) (s : State) :
    (initPart v s).now = s.now ∧ (initPart v s).free = s.free ∧ (initPart v s).pending = s.pending := by
  simp only [initPart, State.ite_parts .., ite_self, and_self, implies_true, transition_frame .., assertReset_frame ..,
    appendAll_frame ..]

theorem runStart_now (stop : Option Nat) (l : List (Nat × (State → State × Nat)))
    (hf : ∀ x ∈ l, ∀ s, (x.2 s).1.now = s.now) (s : State) : (runStart stop l s).now = s.now := by
  induction l generalizing s with
  | nil => rfl
  | cons x l ih =>
    have h0 := hf x (List.mem_cons_self ..)
    have h1 := ih (fun y hy => hf y (List.mem_cons_of_mem _ hy))
    unfold runStart
    split
    · rfl
    · dsimp only
      split
      · simp only [stopStart_frame .., h0]
      · simp only [h1, h0]

theorem runStart_curves (stop : Option Nat) (l : List (Nat × (State → State × Nat)))
    (hf : ∀ x ∈ l, ∀ s, (x.2 s).1.curves = s.curves) (s : State) : (runStart stop l s).curves = s.curves := by
  induction l generalizing s with
  | nil => rfl
  | cons x l ih =>
    have h0 := hf x (List.mem_cons_self ..)
    have h1 := ih (fun y hy => hf y (List.mem_cons_of_mem _ hy))
    unfold runStart
    split
    · rfl
    · dsimp only
      split
      · simp only [stopStart_frame .., h0]
      · simp only [h1, h0]

theorem runStart_tel (stop : Option Nat) (l : List (Nat × (State → State × Nat)))
    (hf : ∀ x ∈ l, ∀ s, (x.2 s).1.tel = s.tel) (s : State) : (runStart stop l s).tel = s.tel := by
  induction l generalizing s with
  | nil => rfl
  | cons x l ih =>
    have h0 := hf x (List.mem_cons_self ..)
    have h1 := ih (fun y hy => hf y (List.mem_cons_of_mem _ hy))
    unfold runStart
    split
    · rfl
    · dsimp only
      split
      · simp only [stopStart_frame .., h0]
      · simp only [h1, h0]

theorem runStart_pending (stop : Option Nat) (l : List (Nat × (State → State × Nat)))
    (hf : ∀ x ∈ l, ∀ s, (x.2 s).1.pending = s.pending) (s : State) : (runStart stop l s).pending = s.pending := by
  induction l generalizing s with
  | nil => rfl
  | cons x l ih =>
    have h0 := hf x (List.mem_cons_self ..)
    have h1 := ih (fun y hy => hf y (List.mem_cons_of_mem _ hy))
    unfold runStart
    split
    · rfl
    · dsimp only
      split
      · simp only [stopStart_frame .., h0]
      · simp only [h1, h0]

theorem startSteps_now (i : StartInputs) : ∀ x ∈ startSteps i, ∀ s, (x.2 s).1.now = s.now := by
  intro x hx s
  simp only [startSteps, List.mem_cons, List.not_mem_nil, or_false] at hx
  rcases hx with rfl | rfl | rfl | rfl | rfl | rfl | rfl | rfl | rfl | rfl <;>
    simp only [stepHut_frame .., stepIntegrity_frame .., stepRaze_frame .., stepTracks_frame .., stepDetectors_frame ..,
      stepPowder_frame .., stepSeeds_frame .., stepVectors_frame .., stepRuntime_frame .., stepOpen_frame ..]

theorem startSteps_curves (i : StartInputs) : ∀ x ∈ startSteps i, ∀ s, (x.2 s).1.curves = s.curves := by
  intro x hx s
  simp only [startSteps, List.mem_cons, List.not_mem_nil, or_false] at hx
  rcases hx with rfl | rfl | rfl | rfl | rfl | rfl | rfl | rfl | rfl | rfl <;>
    simp only [stepHut_frame .., stepIntegrity_frame .., stepRaze_frame .., stepTracks_frame .., stepDetectors_frame ..,
      stepPowder_frame .., stepSeeds_frame .., stepVectors_frame .., stepRuntime_frame .., stepOpen_frame ..]

theorem startSteps_tel (i : StartInputs) : ∀ x ∈ startSteps i, ∀ s, (x.2 s).1.tel = s.tel := by
  intro x hx s
  simp only [startSteps, List.mem_cons, List.not_mem_nil, or_false] at hx
  rcases hx with rfl | rfl | rfl | rfl | rfl | rfl | rfl | rfl | rfl | rfl <;>
    simp only [stepHut_frame .., stepIntegrity_frame .., stepRaze_frame .., stepTracks_frame .., stepDetectors_frame ..,
      stepPowder_frame .., stepSeeds_frame .., stepVectors_frame .., stepRuntime_frame .., stepOpen_frame ..]

theorem startSteps_pending (i : StartInputs) : ∀ x ∈ startSteps i, ∀ s, (x.2 s).1.pending = s.pending := by
  intro x hx s
  simp only [startSteps, List.mem_cons, List.not_mem_nil, or_false] at hx
  rcases hx with rfl | rfl | rfl | rfl | rfl | rfl | rfl | rfl | rfl | rfl <;>
    simp only [stepHut_frame .., stepIntegrity_frame .., stepRaze_frame .., stepTracks_frame .., stepDetectors_frame ..,
      stepPowder_frame .., stepSeeds_frame .., stepVectors_frame .., stepRuntime_frame .., stepOpen_frame ..]

theorem beginStart_frame (i : StartInputs) (s : State) :
    (beginStart i s).now = s.now ∧ (beginStart i s).curves = s.curves ∧ (beginStart i s).tel = s.tel ∧ (beginStart i
    s).pending = s.pending := by
  unfold beginStart
  split
  · simp only [and_self]
  · refine ⟨?_, ?_, ?_, ?_⟩
    · rw [runStart_now _ _ (startSteps_now i)]
    · rw [runStart_curves _ _ (startSteps_curves i)]
    · rw [runStart_tel _ _ (startSteps_tel i)]
    · rw [runStart_pending _ _ (startSteps_pending i)]

/-! ### Step.lean -/

theorem State.withFetchWord_frame (s : State) (nbits : Nat) (w : Nat) :
    (State.withFetchWord s nbits w).now = s.now ∧ (State.withFetchWord s nbits w).free = s.free ∧ (State.withFetchWord s
    nbits w).life = s.life ∧ (State.withFetchWord s nbits w).link = s.link ∧ (State.withFetchWord s nbits w).gate =
    s.gate ∧ (State.withFetchWord s nbits w).rings = s.rings ∧ (State.withFetchWord s nbits w).units = s.units ∧
    (State.withFetchWord s nbits w).curves = s.curves ∧ (State.withFetchWord s nbits w).sess = s.sess ∧
    (State.withFetchWord s nbits w).vault = s.vault ∧ (State.withFetchWord s nbits w).ctrs = s.ctrs ∧
    (State.withFetchWord s nbits w).powder = s.powder ∧ (State.withFetchWord s nbits w).merya = s.merya ∧
    (State.withFetchWord s nbits w).prot = s.prot ∧ (State.withFetchWord s nbits w).mem = s.mem ∧
    (State.withFetchWord s nbits w).stored = s.stored ∧ (State.withFetchWord s nbits w).patrol = s.patrol ∧
    (State.withFetchWord s nbits w).trk = s.trk ∧ (State.withFetchWord s nbits w).hut = s.hut ∧ (State.withFetchWord
    s nbits w).alarm = s.alarm ∧ (State.withFetchWord s nbits w).card = s.card ∧ (State.withFetchWord s nbits
    w).evts = s.evts ∧ (State.withFetchWord s nbits w).tel = s.tel := by
  unfold State.withFetchWord
  (repeat' split) <;> simp only [State.ite_parts .., ite_self, and_self, implies_true]

end Sys2Proof.Machine
end

