-- ==== Sys2Proof/Laws/Tables.lean ====
section
/-!
SUPPORT. Sys2Proof/Laws/Tables.lean: tables by number and addressed memory: what is read after a write, and that every
operation keeps the canonical form.
-/
namespace Sys2Proof.Machine

variable {α : Type}

/-! ### Reading after a change -/

theorem tblGet_put_self (d : α) (t : Tbl α) (k : Nat) (v : α) : tblGet d (tblPut t k v) k = v := by
  induction t with
  | nil => simp [tblPut, tblGet]
  | cons p t ih =>
    obtain ⟨k', v'⟩ := p
    unfold tblPut
    split
    · simp [tblGet]
    · split
      · simp [tblGet]
      · rename_i h; simp [tblGet, h, ih]

theorem tblGet_put_ne (d : α) (t : Tbl α) (k j : Nat) (v : α) (h : j ≠ k) : tblGet d (tblPut t k v) j = tblGet d t j := by
  induction t with
  | nil => simp [tblPut, tblGet, h]
  | cons p t ih =>
    obtain ⟨k', v'⟩ := p
    unfold tblPut
    split
    · simp [tblGet, h]
    · split
      · rename_i h'; subst h'; simp [tblGet, h]
      · simp [tblGet, ih]

theorem tblGet_filter (d : α) (t : Tbl α) (p : Nat → Bool) (j : Nat) :
    tblGet d (t.filter (fun x => p x.1)) j = if p j then tblGet d t j else d := by
  induction t with
  | nil => simp [tblGet]
  | cons x t ih =>
    obtain ⟨k', v'⟩ := x
    by_cases hk : p k'
    · by_cases hj : j = k'
      · subst hj; simp [List.filter, hk, tblGet]
      · simp [List.filter, hk, tblGet, hj, ih]
    · by_cases hj : j = k'
      · subst hj; simp [List.filter, hk, ih]
      · simp [List.filter, hk, tblGet, hj, ih]

/-- The entry that a table has at a key after it is set there. -/
@[simp] theorem tblGet_set_self [DecidableEq α] (d : α) (t : Tbl α) (k : Nat) (v : α) : tblGet d (tblSet d t k v) k = v := by
  unfold tblSet
  split
  · rename_i h
    have := tblGet_filter d t (fun j => j != k) k
    simp only [bne_self_eq_false, Bool.false_eq_true, if_false] at this
    rw [this, h]
  · exact tblGet_put_self d t k v

/-- The entry at another key is as before. -/
theorem tblGet_set_ne [DecidableEq α] (d : α) (t : Tbl α) (k j : Nat) (v : α) (h : j ≠ k) :
    tblGet d (tblSet d t k v) j = tblGet d t j := by
  unfold tblSet
  split
  · have := tblGet_filter d t (fun j => j != k) j
    simpa [h] using this
  · exact tblGet_put_ne d t k j v h

@[simp] theorem tblGet_mod_self [DecidableEq α] (d : α) (t : Tbl α) (k : Nat) (f : α → α) :
    tblGet d (tblMod d t k f) k = f (tblGet d t k) := tblGet_set_self d t k _

theorem tblGet_mod_ne [DecidableEq α] (d : α) (t : Tbl α) (k j : Nat) (f : α → α) (h : j ≠ k) :
    tblGet d (tblMod d t k f) j = tblGet d t j := tblGet_set_ne d t k j _ h

/-! ### The canonical form -/

theorem tblWfFrom_mono [DecidableEq α] (d : α) (t : Tbl α) (lo lo' : Nat) (h : lo ≤ lo') (w : tblWfFrom d lo' t = true) :
    tblWfFrom d lo t = true := by
  cases t with
  | nil => rfl
  | cons p t =>
    obtain ⟨k, v⟩ := p
    simp only [tblWfFrom, Bool.and_eq_true, decide_eq_true_eq] at w ⊢
    exact ⟨⟨by omega, w.1.2⟩, w.2⟩

theorem tblWfFrom_put [DecidableEq α] (d : α) (t : Tbl α) (lo k : Nat) (v : α) (hv : v ≠ d) (hl : lo ≤ k)
    (w : tblWfFrom d lo t = true) : tblWfFrom d lo (tblPut t k v) = true := by
  induction t generalizing lo with
  | nil => simp [tblPut, tblWfFrom, hv, hl]
  | cons p t ih =>
    obtain ⟨k', v'⟩ := p
    simp only [tblWfFrom, Bool.and_eq_true, decide_eq_true_eq] at w
    unfold tblPut
    split
    · simp only [tblWfFrom, Bool.and_eq_true, decide_eq_true_eq]
      exact ⟨⟨hl, hv⟩, ⟨by omega, w.1.2⟩, w.2⟩
    · split
      · rename_i h; subst h
        simp only [tblWfFrom, Bool.and_eq_true, decide_eq_true_eq]
        exact ⟨⟨hl, hv⟩, w.2⟩
      · simp only [tblWfFrom, Bool.and_eq_true, decide_eq_true_eq]
        exact ⟨w.1, ih (k' + 1) (by omega) w.2⟩

theorem tblWfFrom_filter [DecidableEq α] (d : α) (t : Tbl α) (lo : Nat) (p : Nat × α → Bool)
    (w : tblWfFrom d lo t = true) : tblWfFrom d lo (t.filter p) = true := by
  induction t generalizing lo with
  | nil => rfl
  | cons x t ih =>
    obtain ⟨k, v⟩ := x
    simp only [tblWfFrom, Bool.and_eq_true, decide_eq_true_eq] at w
    by_cases hp : p (k, v)
    · simp only [List.filter, hp, tblWfFrom, Bool.and_eq_true, decide_eq_true_eq]
      exact ⟨w.1, ih (k + 1) w.2⟩
    · simp only [List.filter, hp]
      exact tblWfFrom_mono d _ lo (k + 1) (by omega) (ih (k + 1) w.2)

/-- Setting an entry keeps the canonical form. -/
theorem tblWf_set [DecidableEq α] (d : α) (t : Tbl α) (k : Nat) (v : α) (w : tblWf d t = true) :
    tblWf d (tblSet d t k v) = true := by
  unfold tblSet tblWf
  split
  · exact tblWfFrom_filter d t 0 _ w
  · rename_i h; exact tblWfFrom_put d t 0 k v h (Nat.zero_le k) w

theorem tblWf_filter [DecidableEq α] (d : α) (t : Tbl α) (p : Nat × α → Bool) (w : tblWf d t = true) :
    tblWf d (t.filter p) = true := tblWfFrom_filter d t 0 p w

/-! ### Memory -/

@[simp] theorem memRead_write_self (m : Tbl Byte) (a : Nat) (b : Byte) : memRead (memWrite m a b) a = b :=
  tblGet_set_self 0 m a b

theorem memRead_write_ne (m : Tbl Byte) (a j : Nat) (b : Byte) (h : j ≠ a) : memRead (memWrite m a b) j = memRead m j :=
  tblGet_set_ne 0 m a j b h

/-- A byte below or beyond the bytes stored is as before. -/
theorem memRead_writeBytes_out (bs : Bytes) (m : Tbl Byte) (a j : Nat) (h : j < a ∨ a + bs.length ≤ j) :
    memRead (memWriteBytes m a bs) j = memRead m j := by
  induction bs generalizing m a with
  | nil => rfl
  | cons b t ih =>
    simp only [List.length_cons] at h
    rw [memWriteBytes, ih _ _ (by omega), memRead_write_ne _ _ _ _ (by omega)]

/-- The bytes stored are read back. -/
theorem memRead_writeBytes_in (bs : Bytes) (m : Tbl Byte) (a i : Nat) (h : i < bs.length) :
    memRead (memWriteBytes m a bs) (a + i) = bs.getD i 0 := by
  induction bs generalizing m a i with
  | nil => cases h
  | cons b t ih =>
    cases i with
    | zero =>
      rw [memWriteBytes, memRead_writeBytes_out _ _ _ _ (by omega)]
      simp
    | succ i =>
      have := ih (memWrite m a b) (a + 1) i (by simpa using h)
      rw [memWriteBytes, show a + (i + 1) = a + 1 + i by omega, this]
      simp

/-- An erased byte reads as EMPTY; the others are as before. -/
theorem memRead_erase (m : Tbl Byte) (a n j : Nat) :
    memRead (memErase m a n) j = if a ≤ j ∧ j < a + n then 0 else memRead m j := by
  have h := tblGet_filter (0 : Byte) m (fun j => decide (j < a ∨ a + n ≤ j)) j
  unfold memRead memErase
  rw [h]
  by_cases c : a ≤ j ∧ j < a + n
  · simp [c, show ¬(j < a ∨ a + n ≤ j) by omega]
  · simp [c, show j < a ∨ a + n ≤ j by omega]

theorem memWf_write (m : Tbl Byte) (a : Nat) (b : Byte) (w : Memory.wf m = true) : Memory.wf (memWrite m a b) = true :=
  tblWf_set 0 m a b w

theorem memWf_writeBytes (bs : Bytes) (m : Tbl Byte) (a : Nat) (w : Memory.wf m = true) :
    Memory.wf (memWriteBytes m a bs) = true := by
  induction bs generalizing m a with
  | nil => exact w
  | cons b t ih => exact ih _ _ (memWf_write m a b w)

theorem memWf_erase (m : Tbl Byte) (a n : Nat) (w : Memory.wf m = true) : Memory.wf (memErase m a n) = true :=
  tblWf_filter 0 m _ w

end Sys2Proof.Machine
end

