-- ==== Sys2Proof/Laws/Cores.lean ====
section
/-!
SUPPORT. Sys2Proof/Laws/Cores.lean: reading back what was written of a core, a register, an applet and a ring.
-/
namespace Sys2Proof.Machine

@[simp] theorem rinkOf_setCore_self (c : Nat) (k : Rink) (s : State) : rinkOf (setCore c k s) c = k := by
  simp [rinkOf, setCore]

theorem rinkOf_setCore_ne (c d : Nat) (k : Rink) (s : State) (h : d ≠ c) : rinkOf (setCore c k s) d = rinkOf s d := by
  simp [rinkOf, setCore, tblGet_set_ne, h]

@[simp] theorem rinkOf_modCore_self (c : Nat) (f : Rink → Rink) (s : State) :
    rinkOf (modCore c f s) c = f (rinkOf s c) := by simp [modCore]

theorem rinkOf_modCore_ne (c d : Nat) (f : Rink → Rink) (s : State) (h : d ≠ c) :
    rinkOf (modCore c f s) d = rinkOf s d := by simp [modCore, rinkOf_setCore_ne, h]

end Sys2Proof.Machine
end

