-- ==== Sys2Proof/Laws/JobIds.lean ====
section
/-!
SUPPORT. Sys2Proof/Laws/JobIds.lean: the start and the course of a job up to its entry leave which jobs are in flight, and
what each of them is, as they are.
-/
namespace Sys2Proof.Machine
set_option linter.unusedSimpArgs false

/-- What a job is, from its admission to its entry. -/
def jobId (j : Job) : Nat × RingId × Nat × Bool × Op × Cls × Nat × Descriptor × Pico :=
  (j.tag, j.ring, j.index, j.phase, j.op, j.cls, j.t0, j.desc, j.deadline)

theorem modFirst_ids (p : Job → Bool) (f : Job → Job) (hf : ∀ j, jobId (f j) = jobId j) (l : List Job) :
    (modFirst p f l).map jobId = l.map jobId := by
  induction l with
  | nil => rfl
  | cons a l ih => unfold modFirst; split <;> simp [hf, ih]

theorem modJob_ids (tag : Nat) (f : Job → Job) (s : State) (hf : ∀ j, jobId (f j) = jobId j) :
    (modJob tag f s).rings.jobs.map jobId = s.rings.jobs.map jobId := modFirst_ids _ f hf _

theorem foldl_ids {α : Type} (f : State → α → State)
    (hf : ∀ s a, (f s a).rings.jobs.map jobId = s.rings.jobs.map jobId) (l : List α) (s : State) :
    (l.foldl f s).rings.jobs.map jobId = s.rings.jobs.map jobId := by
  induction l generalizing s with
  | nil => rfl
  | cons a l ih => exact (ih _).trans (hf s a)

theorem writeSram_ids (n : Nat) (tag : Nat) (seg : Nat × Bytes) (s : State) :
    (writeSram n tag seg s).rings.jobs.map jobId = s.rings.jobs.map jobId := by
  unfold writeSram
  split
  · rfl
  · split
    · rfl
    · dsimp only
      split
      · rw [modJob_ids _ _ _ (by intro _; rfl)]; simp only [noteUe_frame ..]
      · split
        · rw [modJob_ids _ _ _ (by intro _; rfl)]; simp only [storeBytes_frame ..]
        · simp only [faultDma_frame ..]
          rw [modJob_ids _ _ _ (by intro _; rfl), modJob_ids _ _ _ (by intro _; rfl)]
          simp only [storeBytes_frame ..]

theorem issueOutput_ids (tag : Nat) (bs : Bytes) (s : State) :
    (issueOutput tag bs s).rings.jobs.map jobId = s.rings.jobs.map jobId := by
  unfold issueOutput
  (try dsimp only)
  repeat' (first | with_reducible rfl | refine (modJob_ids _ _ _ (fun _ => by rfl)).trans ?_ | refine (writeSram_ids _ _ _ _).trans ?_ | refine (foldl_ids _ (fun _ _ => ?_) _ _).trans ?_ | split | simp only [State.ite_parts .., ite_self])

theorem startPiece_ids (u : UnitRef) (tag : Nat) (s : State) :
    (startPiece u tag s).rings.jobs.map jobId = s.rings.jobs.map jobId := by
  unfold startPiece
  (try dsimp only)
  repeat' (first | with_reducible rfl | refine (modJob_ids _ _ _ (fun _ => by (repeat' split) <;> rfl)).trans ?_ | refine (foldl_ids _ (fun _ _ => ?_) _ _).trans ?_ | split | simp only [State.ite_parts .., ite_self])

theorem drawBlinds_ids (u : UnitRef) (tag : Nat) (s : State) :
    (drawBlinds u tag s).rings.jobs.map jobId = s.rings.jobs.map jobId := by
  unfold drawBlinds
  (try dsimp only)
  repeat' (first | with_reducible rfl | refine (modJob_ids _ _ _ (fun _ => by rfl)).trans ?_ | refine (foldl_ids _ (fun _ _ => ?_) _ _).trans ?_ | split | simp only [State.ite_parts .., ite_self])

theorem startJob_ids (u : UnitRef) (j : Job) (s : State) :
    (startJob u j s).rings.jobs.map jobId = s.rings.jobs.map jobId := by
  unfold startJob
  repeat' (first | with_reducible rfl | refine (modJob_ids _ _ _ (fun _ => by (repeat' split) <;> rfl)).trans ?_ | refine (startPiece_ids _ _ _).trans ?_ | refine (drawBlinds_ids _ _ _).trans ?_ | refine (foldl_ids _ (fun _ _ => ?_) _ _).trans ?_ | split | simp only [State.ite_parts .., ite_self])

theorem freeMemory_ids (tag : Nat) (s : State) :
    (freeMemory tag s).rings.jobs.map jobId = s.rings.jobs.map jobId := by
  unfold freeMemory
  repeat' (first | with_reducible rfl | refine (modJob_ids _ _ _ (fun _ => by rfl)).trans ?_ | refine (foldl_ids _ (fun _ _ => ?_) _ _).trans ?_ | split | (simp only [clearJobMemory_frame ..]; done) | simp only [clearJobMemory_frame ..] | simp only [State.ite_parts .., ite_self])

theorem endJob_ids (tag : Nat) (st : Status) (s : State) :
    (endJob tag st s).rings.jobs.map jobId = s.rings.jobs.map jobId := by
  unfold endJob
  (try dsimp only)
  repeat' (first | with_reducible rfl | refine (modJob_ids _ _ _ (fun _ => by rfl)).trans ?_ | refine (freeMemory_ids _ _).trans ?_ | refine (foldl_ids _ (fun _ _ => ?_) _ _).trans ?_ | split | (simp only [traceFailure_frame .., releaseKeygen_frame ..]; done) | simp only [traceFailure_frame .., releaseKeygen_frame ..] | simp only [State.ite_parts .., ite_self])

theorem dispatchFuel_ids (x0 : Nat) (x1 : UnitRef) (x2 : State) :
    (dispatchFuel x0 x1 x2).rings.jobs.map jobId = x2.rings.jobs.map jobId := by
  induction x0 generalizing x1 x2 with
  | zero => rfl
  | succ n ih =>
    unfold dispatchFuel
    split
    · rfl
    · split
      · rfl
      · split
        · exact modJob_ids _ _ _ (by intro _; rfl)
        · split
          · exact (ih _ _).trans (modJob_ids _ _ _ (by intro _; rfl))
          · dsimp only
            split
            · exact (ih _ _).trans ((endJob_ids _ _ _).trans ((modJob_ids _ _ _ (by intro _; rfl)).trans (startJob_ids _ _ _)))
            · exact startJob_ids _ _ _

theorem dispatchUnit_ids (u : UnitRef) (s : State) :
    (dispatchUnit u s).rings.jobs.map jobId = s.rings.jobs.map jobId := by
  unfold dispatchUnit
  repeat' (first | with_reducible rfl | refine (modJob_ids _ _ _ (fun _ => by rfl)).trans ?_ | refine (dispatchFuel_ids _ _ _).trans ?_ | refine (foldl_ids _ (fun _ _ => ?_) _ _).trans ?_ | split | (simp only [settleUnit_frame ..]; done) | simp only [settleUnit_frame ..] | simp only [State.ite_parts .., ite_self])

theorem feedSides_ids (s : State) :
    (feedSides s).rings.jobs.map jobId = s.rings.jobs.map jobId := by
  unfold feedSides
  exact foldl_ids _ (fun s u => dispatchUnit_ids u s) _ _

theorem leaveUnit_ids (u : UnitRef) (s : State) :
    (leaveUnit u s).rings.jobs.map jobId = s.rings.jobs.map jobId := by
  unfold leaveUnit
  repeat' (first | with_reducible rfl | refine (modJob_ids _ _ _ (fun _ => by rfl)).trans ?_ | refine (dispatchUnit_ids _ _).trans ?_ | refine (foldl_ids _ (fun _ _ => ?_) _ _).trans ?_ | split | (simp only [settleUnit_frame ..]; done) | simp only [settleUnit_frame ..] | simp only [State.ite_parts .., ite_self])

theorem finishJob_ids (tag : Nat) (st : Status) (s : State) :
    (finishJob tag st s).rings.jobs.map jobId = s.rings.jobs.map jobId := by
  unfold finishJob
  dsimp only
  split
  · exact (leaveUnit_ids _ _).trans ((feedSides_ids _).trans (endJob_ids _ _ _))
  · exact (feedSides_ids _).trans (endJob_ids _ _ _)

theorem wakeJob_ids (tag : Nat) (s : State) :
    (wakeJob tag s).rings.jobs.map jobId = s.rings.jobs.map jobId := by
  unfold wakeJob
  split
  · exact (dispatchUnit_ids _ _).trans (feedSides_ids _)
  · exact feedSides_ids _

theorem outputGone_ids (tag : Nat) (s : State) :
    (outputGone tag s).rings.jobs.map jobId = s.rings.jobs.map jobId := by
  unfold outputGone
  repeat' (first | with_reducible rfl | refine (modJob_ids _ _ _ (fun _ => by rfl)).trans ?_ | refine (leaveUnit_ids _ _).trans ?_ | refine (freeMemory_ids _ _).trans ?_ | refine (foldl_ids _ (fun _ _ => ?_) _ _).trans ?_ | split | simp only [State.ite_parts .., ite_self])

theorem releaseOutput_ids (tag : Nat) (s : State) :
    (releaseOutput tag s).rings.jobs.map jobId = s.rings.jobs.map jobId := by
  unfold releaseOutput
  repeat' (first | with_reducible rfl | refine (modJob_ids _ _ _ (fun _ => by rfl)).trans ?_ | refine (outputGone_ids _ _).trans ?_ | refine (issueOutput_ids _ _ _).trans ?_ | refine (foldl_ids _ (fun _ _ => ?_) _ _).trans ?_ | split | simp only [State.ite_parts .., ite_self])

theorem giveOutput_ids (tag : Nat) (bs : Bytes) (s : State) :
    (giveOutput tag bs s).rings.jobs.map jobId = s.rings.jobs.map jobId := by
  unfold giveOutput
  repeat' (first | with_reducible rfl | refine (modJob_ids _ _ _ (fun _ => by rfl)).trans ?_ | refine (releaseOutput_ids _ _).trans ?_ | refine (foldl_ids _ (fun _ _ => ?_) _ _).trans ?_ | split | simp only [State.ite_parts .., ite_self])

theorem startExport_ids (toCard : State → State) (tag : Nat) (s : State) (hf : ∀ s, (toCard s).rings.jobs.map jobId = s.rings.jobs.map jobId) :
    (startExport toCard tag s).rings.jobs.map jobId = s.rings.jobs.map jobId := by
  have hk : ∀ (t u : State), t.rings = u.rings → t.rings.jobs.map jobId = u.rings.jobs.map jobId := fun _ _ e => by rw [e]
  unfold startExport
  split
  · rfl
  · rename_i j hj
    dsimp only
    generalize hs1 : modJob tag (fun j => { j with counterSpent := true, stage := Stage.running })
      (writeCounter 8 ((counter s 8).value + 1)
        { s with trk := { s.trk with exportId := BitVec.toNat ((counter s 8).value + 1) % 2 ^ 32 } }) = s1
    have h1 : s1.rings.jobs.map jobId = s.rings.jobs.map jobId := by
      rw [← hs1]
      rw [modJob_ids _ _ _ (by intro _; rfl)]; simp only [writeCounter_frame ..]
    clear hs1
    split
    · refine (finishJob_ids _ _ _).trans ((hk _ s1 ?_).trans h1)
      split <;> simp only [captureFault_frame ..]
    · split
      · refine (finishJob_ids _ _ _).trans ((hk _ s1 ?_).trans h1)
        simp only [readHolds_frame ..]
      split
      · rename_i h2
        have e := congrArg (fun p => p.2.rings) h2
        simp only [buildImage_frame ..] at e
        exact (finishJob_ids _ _ _).trans ((hk _ _ e.symm).trans h1)
      · rename_i h2
        have e := congrArg (fun p => p.2.rings) h2
        simp only [buildImage_frame ..] at e
        split
        · refine (hf _).trans ((modJob_ids _ _ _ (by intro _; rfl)).trans ?_)
          exact (modJob_ids _ _ _ (by intro _; rfl)).trans ((hk _ _ e.symm).trans h1)
        · refine (congrArg (fun r : RingBlock => r.jobs.map jobId) (requestBack_frame ..).2.2.2.2.1).trans ((giveOutput_ids _ _ _).trans ?_)
          refine (congrArg (fun r : RingBlock => r.jobs.map jobId) (drawFree_frame ..).2.2.2.2.1).trans ?_
          exact (modJob_ids _ _ _ (by intro _; rfl)).trans ((hk _ _ e.symm).trans h1)

theorem exportsFuel_ids (toCard : State → State) (x1 : Nat) (x2 : State) (hf : ∀ s, (toCard s).rings.jobs.map jobId = s.rings.jobs.map jobId) :
    (exportsFuel toCard x1 x2).rings.jobs.map jobId = x2.rings.jobs.map jobId := by
  induction x1 generalizing x2 with
  | zero => rfl
  | succ n ih =>
    unfold exportsFuel
    split
    · rfl
    · split
      · exact (ih _).trans (startExport_ids toCard _ _ hf)
      · rfl

theorem runExports_ids (toCard : State → State) (s : State) (hf : ∀ s, (toCard s).rings.jobs.map jobId = s.rings.jobs.map jobId) :
    (runExports toCard s).rings.jobs.map jobId = s.rings.jobs.map jobId := by
  exact exportsFuel_ids toCard _ s hf

theorem fixCardJob_ids (j : Job) (st : Status) (reason : Nat) (bytes : Option Nat) (s : State) :
    (fixCardJob j st reason bytes s).rings.jobs.map jobId = s.rings.jobs.map jobId := by
  unfold fixCardJob
  dsimp only
  generalize (if st == Status.unknownOutcome then st else j.status.getD st) = fin
  have h1 := fun (f : Job → Job) (hf : ∀ j, jobId (f j) = jobId j) =>
    (finishJob_ids j.tag fin (modJob j.tag f s)).trans (modJob_ids j.tag f s hf)
  split
  · exact h1 _ (by intro _; rfl)
  · simp only [noteFailure_frame ..]
    exact h1 _ (by intro _; rfl)

theorem endExchange_ids (st : Status) (reason : Nat) (bytes : Option Nat) (s : State) :
    (endExchange st reason bytes s).rings.jobs.map jobId = s.rings.jobs.map jobId := by
  unfold endExchange
  repeat' (first | with_reducible rfl | refine (modJob_ids _ _ _ (fun _ => by rfl)).trans ?_ | refine (fixCardJob_ids _ _ _ _ _).trans ?_ | refine (foldl_ids _ (fun _ _ => ?_) _ _).trans ?_ | split | (simp only [endFlow_frame .., freePort_frame ..]; done) | simp only [endFlow_frame .., freePort_frame ..] | simp only [State.ite_parts .., ite_self])

theorem startOnPort_ids (j : Job) (s : State) :
    (startOnPort j s).rings.jobs.map jobId = s.rings.jobs.map jobId := by
  unfold startOnPort
  (try dsimp only)
  repeat' (first | with_reducible rfl | refine (modJob_ids _ _ _ (fun _ => by rfl)).trans ?_ | refine (fixCardJob_ids _ _ _ _ _).trans ?_ | refine (endExchange_ids _ _ _ _).trans ?_ | refine (giveOutput_ids _ _ _).trans ?_ | refine (foldl_ids _ (fun _ _ => ?_) _ _).trans ?_ | split | (simp only [modCard_frame .., toPhase_frame ..]; done) | simp only [modCard_frame .., toPhase_frame ..] | simp only [State.ite_parts .., ite_self])

theorem portFuel_ids (x0 : Nat) (x1 : State) :
    (portFuel x0 x1).rings.jobs.map jobId = x1.rings.jobs.map jobId := by
  induction x0 generalizing x1 with
  | zero => rfl
  | succ n ih =>
    unfold portFuel
    repeat' (first | with_reducible rfl | exact ih _ | refine (ih _).trans ?_ | exact ih _ _ | refine (ih _ _).trans ?_ | refine (modJob_ids _ _ _ (fun _ => by rfl)).trans ?_ | refine (startOnPort_ids _ _).trans ?_ | refine (foldl_ids _ (fun _ _ => ?_) _ _).trans ?_ | split | simp only [State.ite_parts .., ite_self])

theorem runPort_ids (s : State) :
    (runPort s).rings.jobs.map jobId = s.rings.jobs.map jobId := by
  unfold runPort
  repeat' (first | with_reducible rfl | refine (modJob_ids _ _ _ (fun _ => by rfl)).trans ?_ | refine (portFuel_ids _ _).trans ?_ | refine (foldl_ids _ (fun _ _ => ?_) _ _).trans ?_ | split | simp only [State.ite_parts .., ite_self])

theorem portNext_ids (s : State) :
    (portNext s).rings.jobs.map jobId = s.rings.jobs.map jobId := by
  have hk : ∀ (t u : State), t.rings = u.rings → t.rings.jobs.map jobId = u.rings.jobs.map jobId := fun _ _ e => by rw [e]
  unfold portNext
  refine (hk _ (runPort (runExports runPort (runPort s))) (by simp only [settlePort_frame ..])).trans ?_
  exact (runPort_ids _).trans ((runExports_ids _ _ runPort_ids).trans (runPort_ids _))

theorem inputBad_ids (tag : Nat) (s : State) :
    (inputBad tag s).rings.jobs.map jobId = s.rings.jobs.map jobId := by
  unfold inputBad
  repeat' (first | with_reducible rfl | refine (modJob_ids _ _ _ (fun _ => by rfl)).trans ?_ | refine (finishJob_ids _ _ _).trans ?_ | refine (foldl_ids _ (fun _ _ => ?_) _ _).trans ?_ | split | simp only [State.ite_parts .., ite_self])

theorem leaveChannel_ids (tag : Nat) (s : State) :
    (leaveChannel tag s).rings.jobs.map jobId = s.rings.jobs.map jobId := by
  unfold leaveChannel
  repeat' (first | with_reducible rfl | refine (modJob_ids _ _ _ (fun _ => by (repeat' split) <;> rfl)).trans ?_ | refine (foldl_ids _ (fun _ _ => ?_) _ _).trans ?_ | split | simp only [State.ite_parts .., ite_self])

theorem fitCurve_ids (tag : Nat) (s : State) :
    (fitCurve tag s).rings.jobs.map jobId = s.rings.jobs.map jobId := by
  unfold fitCurve
  (try dsimp only)
  repeat' (first | with_reducible rfl | refine (modJob_ids _ _ _ (fun _ => by rfl)).trans ?_ | refine (finishJob_ids _ _ _).trans ?_ | refine (foldl_ids _ (fun _ _ => ?_) _ _).trans ?_ | split | simp only [State.ite_parts .., ite_self])

theorem gathered_ids (tag : Nat) (s : State) :
    (gathered tag s).rings.jobs.map jobId = s.rings.jobs.map jobId := by
  unfold gathered
  split
  · rfl
  · dsimp only
    split
    · split
      · exact (wakeJob_ids _ _).trans (modJob_ids _ _ _ (by intro _; rfl))
      · exact (fitCurve_ids _ _).trans (modJob_ids _ _ _ (by intro _; rfl))
    · split
      · exact (portNext_ids _).trans (modJob_ids _ _ _ (by intro _; rfl))
      · exact (wakeJob_ids _ _).trans (modJob_ids _ _ _ (by intro _; rfl))

theorem afterArrival_ids (tag : Nat) (s : State) :
    (afterArrival tag s).rings.jobs.map jobId = s.rings.jobs.map jobId := by
  unfold afterArrival
  split
  · rfl
  · split
    · rfl
    · split
      · exact inputBad_ids _ _
      · dsimp only
        split
        · exact (gathered_ids _ _).trans (leaveChannel_ids _ _)
        · exact (feedSides_ids _).trans (leaveChannel_ids _ _)

theorem sramRead_ids {n tag a len : Nat} {s t : State} (h : sramRead n tag a len s = .error t) :
    t.rings.jobs.map jobId = s.rings.jobs.map jobId := by
  have hk : ∀ (t u : State), t.rings = u.rings → t.rings.jobs.map jobId = u.rings.jobs.map jobId := fun _ _ e => by rw [e]
  unfold sramRead at h
  dsimp only at h
  split at h
  · cases h
    rw [finishJob_ids, modJob_ids _ _ _ (by intro _; rfl)]
    simp only [faultDma_frame ..]
  · split at h
    · cases h
      rw [finishJob_ids, modJob_ids _ _ _ (by intro _; rfl)]
      simp only [readWords_frame ..]
    · cases h

theorem sramSegs_ids {n tag : Nat} {l : List (Nat × Nat)} {s t : State} (h : sramSegs n tag l s = .error t) :
    t.rings.jobs.map jobId = s.rings.jobs.map jobId := by
  induction l generalizing s with
  | nil => cases h
  | cons g l ih =>
    unfold sramSegs at h
    split at h
    · rename_i h1; cases h; exact sramRead_ids h1
    · cases h2 : sramSegs n tag l (readWords g.1 g.2 s) with
      | ok x => rw [h2] at h; cases h
      | error u => rw [h2] at h; cases h; exact (ih h2).trans (by simp only [readWords_frame ..])

theorem sramSource_ids (n : Nat) (tag : Nat) (s : State) :
    (sramSource n tag s).rings.jobs.map jobId = s.rings.jobs.map jobId := by
  unfold sramSource
  split
  · rfl
  · split
    · exact afterArrival_ids _ _
    · split
      · rename_i h1; exact sramSegs_ids h1
      · refine (afterArrival_ids _ _).trans ((modJob_ids _ _ _ (by intro _; rfl)).trans ((foldl_ids _ (fun s a => ?_) _ _)))
        simp only [readWords_frame ..]

theorem sramList_ids {n tag a k : Nat} {b : Bool} {s t : State}
    (h : (if b then (sramRead n tag a k s).map some else .ok none) = .error t) :
    t.rings.jobs.map jobId = s.rings.jobs.map jobId := by
  split at h
  · cases h1 : sramRead n tag a k s with
    | ok x => rw [h1] at h; cases h
    | error u => rw [h1] at h; cases h; exact sramRead_ids h1
  · cases h

theorem sramGather_ids (n : Nat) (tag : Nat) (s : State) :
    (sramGather n tag s).rings.jobs.map jobId = s.rings.jobs.map jobId := by
  have hk : ∀ (t u : State), t.rings = u.rings → t.rings.jobs.map jobId = u.rings.jobs.map jobId := fun _ _ e => by rw [e]
  unfold sramGather
  split
  · rfl
  · dsimp only
    split
    · rename_i h1; exact sramList_ids h1
    · rename_i h1 _; exact sramList_ids h1
    · split
      · exact (inputBad_ids _ _).trans (modJob_ids _ _ _ (by intro _; rfl))
      · exact (sramSource_ids _ _ _).trans (modJob_ids _ _ _ (by intro _; rfl))

theorem go_ids (tag : Nat) (s : State) :
    (go tag s).rings.jobs.map jobId = s.rings.jobs.map jobId := by
  unfold go
  repeat' (first | with_reducible rfl | refine (modJob_ids _ _ _ (fun _ => by rfl)).trans ?_ | refine (inputBad_ids _ _).trans ?_ | refine (sramGather_ids _ _ _).trans ?_ | refine (afterArrival_ids _ _).trans ?_ | refine (foldl_ids _ (fun _ _ => ?_) _ _).trans ?_ | split | (simp only [requestNamed_frame ..]; done) | simp only [requestNamed_frame ..] | simp only [State.ite_parts .., ite_self])

end Sys2Proof.Machine
end

