-- ==== Sys2Proof/Laws/Levels.lean ====
section
/-!
SUPPORT. Sys2Proof/Laws/Levels.lean: no operation on the state lowers a configured level or disables Raze (R409, R410).
Operations that leave Patrol as it is are in the Frames files.
-/
namespace Sys2Proof.Machine
set_option linter.unusedSimpArgs false

/-- The configured levels of p are not lowered in the table l, and Raze that p has enabled stays enabled. -/
def levelsKept (p : Patrol) (l : Tbl Level) (r : Bool) : Prop :=
  (∀ n, levelNum (configuredLevel p n) ≤ levelNum (configuredLevel { p with levels := l } n)) ∧ (p.razeEnabled = true → r = true)

variable {p0 : Patrol}

theorem foldl_levels {α : Type} (f : State → α → State)
    (hf : ∀ s a, levelsKept p0 s.patrol.levels s.patrol.razeEnabled → levelsKept p0 (f s a).patrol.levels (f s a).patrol.razeEnabled)
    (l : List α) (s : State) (h : levelsKept p0 s.patrol.levels s.patrol.razeEnabled) :
    levelsKept p0 (l.foldl f s).patrol.levels (l.foldl f s).patrol.razeEnabled := by
  induction l generalizing s with
  | nil => exact h
  | cons a l ih => exact ih _ (hf s a h)

theorem lv_ite {c : Prop} [Decidable c] {a b : State} (ha : levelsKept p0 a.patrol.levels a.patrol.razeEnabled)
    (hb : levelsKept p0 b.patrol.levels b.patrol.razeEnabled) :
    levelsKept p0 (if c then a else b).patrol.levels (if c then a else b).patrol.razeEnabled := by split <;> assumption

theorem setPtlEvt_levels (bits : Nat) (s : State) (h : levelsKept p0 s.patrol.levels s.patrol.razeEnabled) :
    levelsKept p0 (setPtlEvt bits s).patrol.levels (setPtlEvt bits s).patrol.razeEnabled := by
  simp only [setPtlEvt, State.ite_parts .., ite_self, implies_true, apply_ite Patrol.levels, apply_ite
    Patrol.razeEnabled, raiseIf_frame .., h]

theorem appendReq_levels (r : TrkReq) (s : State) (h : levelsKept p0 s.patrol.levels s.patrol.razeEnabled) :
    levelsKept p0 (appendReq r s).patrol.levels (appendReq r s).patrol.razeEnabled := by
  simp only [appendReq, State.ite_parts .., ite_self, implies_true, apply_ite Patrol.levels, apply_ite
    Patrol.razeEnabled, writeEntry_frame .., trkFillEvents_frame .., setTrkEvt_frame .., h]

theorem flushTracks_levels (s : State) (h : levelsKept p0 s.patrol.levels s.patrol.razeEnabled) : levelsKept p0
    (flushTracks s).patrol.levels (flushTracks s).patrol.razeEnabled := by
  unfold flushTracks
  dsimp only
  repeat' (first | assumption | refine appendReq_levels _ _ ?_ | refine foldl_levels _ (fun _ _ _ => ?_) _ _ ?_ | (simp only [State.ite_parts .., ite_self]) | split)

theorem appendOne_levels (s : State) (h : levelsKept p0 s.patrol.levels s.patrol.razeEnabled) : levelsKept p0
    (appendOne s).patrol.levels (appendOne s).patrol.razeEnabled := by
  unfold appendOne
  (repeat' split) <;> simp only [State.ite_parts .., ite_self, implies_true, apply_ite Patrol.levels, apply_ite Patrol.razeEnabled,
    appendReq_levels, h]

theorem appendAllFuel_levels (x0 : Nat) (x1 : State) (h : levelsKept p0 x1.patrol.levels x1.patrol.razeEnabled) :
    levelsKept p0 (appendAllFuel x0 x1).patrol.levels (appendAllFuel x0 x1).patrol.razeEnabled := by
  induction x0 generalizing x1 with
  | zero => exact h
  | succ n ih =>
    unfold appendAllFuel
    simp only [ih, State.ite_parts .., ite_self, implies_true, apply_ite Patrol.levels, apply_ite Patrol.razeEnabled,
      appendOne_levels, h]

theorem appendAll_levels (s : State) (h : levelsKept p0 s.patrol.levels s.patrol.razeEnabled) : levelsKept p0
    (appendAll s).patrol.levels (appendAll s).patrol.razeEnabled := by
  simp only [appendAll, State.ite_parts .., ite_self, implies_true, apply_ite Patrol.levels, apply_ite
    Patrol.razeEnabled, appendAllFuel_levels, h]

theorem appendCommit_levels (r : TrkReq) (s : State) (h : levelsKept p0 s.patrol.levels s.patrol.razeEnabled) :
    levelsKept p0 (appendCommit r s).1.patrol.levels (appendCommit r s).1.patrol.razeEnabled := by
  simp only [appendCommit, State.ite_parts .., ite_self, implies_true, apply_ite Patrol.levels, apply_ite
    Patrol.razeEnabled, appendAll_levels, appendReq_levels, h]

theorem faultUnit_levels (u : UnitRef) (code : Nat) (place : Nat) (bad : List Nat) (s : State) (h : levelsKept p0
    s.patrol.levels s.patrol.razeEnabled) : levelsKept p0 (faultUnit u code place bad s).patrol.levels (faultUnit u
    code place bad s).patrol.razeEnabled := by
  unfold faultUnit
  dsimp only
  simp only [dispatchKind_frame .., faultEvent_frame .., noteShrink_frame .., renameReserves_frame .., rebalance_frame ..,
    State.ite_parts .., moveRefills_frame .., ite_self, moveSideWork_frame .., foldl_patrol, takeOver_frame .., implies_true]
  split <;> simp only [useReserve_frame .., trkRequest_frame .., dropUnitState_frame .., captureUnit_frame .., setUnitRec_frame ..] <;> exact h

theorem serveTrkAppend_levels (c : Nat) (n : Nat) (s : State) (h : levelsKept p0 s.patrol.levels
    s.patrol.razeEnabled) : levelsKept p0 (serveTrkAppend c n s).patrol.levels (serveTrkAppend c n
    s).patrol.razeEnabled := by
  unfold serveTrkAppend
  dsimp only
  (repeat' split) <;> simp only [State.ite_parts .., ite_self, implies_true, apply_ite Patrol.levels, apply_ite Patrol.razeEnabled,
    returnStatus_frame .., appendCommit_levels, returnValue_frame .., h]

theorem noteLevel_levels (src : Nat) (before : Machine.Level) (s : State) (h : levelsKept p0 s.patrol.levels
    s.patrol.razeEnabled) : levelsKept p0 (noteLevel src before s).patrol.levels (noteLevel src before
    s).patrol.razeEnabled := by
  unfold noteLevel
  dsimp only
  (repeat' split) <;> simp only [State.ite_parts .., ite_self, implies_true, apply_ite Patrol.levels, apply_ite Patrol.razeEnabled,
    setPtlEvt_levels, h]

theorem declareFailed_levels (before : Machine.Level) (s : State) (h : levelsKept p0 s.patrol.levels
    s.patrol.razeEnabled) : levelsKept p0 (declareFailed before s).patrol.levels (declareFailed before
    s).patrol.razeEnabled := by
  unfold declareFailed
  refine noteLevel_levels _ _ _ ?_
  simp only [trkRequest_frame .., setPwdEvt_frame .., h]

theorem healthFails_levels (cell : Nat) (t : HealthTest) (s : State) (h : levelsKept p0 s.patrol.levels
    s.patrol.razeEnabled) : levelsKept p0 (healthFails cell t s).patrol.levels (healthFails cell t
    s).patrol.razeEnabled := by
  unfold healthFails
  dsimp only
  refine lv_ite (declareFailed_levels _ _ ?_) ?_ <;>
    simp only [trkRequest_frame .., failLoads_frame .., failDraws_frame .., clearPowder_frame .., raiseEvent_frame .., setPwdEvt_frame .., h]

theorem startupPass_levels (s : State) (h : levelsKept p0 s.patrol.levels s.patrol.razeEnabled) : levelsKept p0
    (startupPass s).patrol.levels (startupPass s).patrol.razeEnabled := by
  unfold startupPass
  (try dsimp only)
  split
  · exact h
  · split
    · split
      · exact h
      · split
        · rename_i h1
          have h1 := congrArg Prod.fst h1
          dsimp only at h1
          exact healthFails_levels _ _ _ (by simp only [← h1, feedPattern_frame .., h])
        · rename_i h1
          have h1 := congrArg Prod.fst h1
          dsimp only at h1
          simp only [← h1, feedPattern_frame .., h]
    · exact h

theorem windowDone_levels (ones : List Nat) (maxRun : List Nat) (s : State) (h : levelsKept p0 s.patrol.levels
    s.patrol.razeEnabled) : levelsKept p0 (windowDone ones maxRun s).patrol.levels (windowDone ones maxRun
    s).patrol.razeEnabled := by
  unfold windowDone
  (try dsimp only)
  split
  · exact h
  · split
    · split
      · exact h
      · split
        · rename_i h1
          have h1 := congrArg Prod.fst h1
          dsimp only at h1
          exact healthFails_levels _ _ _ (by simp only [← h1, feedPattern_frame .., h])
        · rename_i h1
          have h1 := congrArg Prod.fst h1
          dsimp only at h1
          simp only [← h1, feedPattern_frame .., h]
    · exact h

theorem conditioned_levels (raw : Bytes) (s : State) (h : levelsKept p0 s.patrol.levels s.patrol.razeEnabled) :
    levelsKept p0 (conditioned raw s).patrol.levels (conditioned raw s).patrol.razeEnabled := by
  unfold conditioned
  (try dsimp only)
  split
  · exact h
  · split
    · split
      · exact h
      · split
        · rename_i h1
          have h1 := congrArg Prod.fst h1
          dsimp only at h1
          exact healthFails_levels _ _ _ (by simp only [← h1, feedPattern_frame .., h])
        · rename_i h1
          have h1 := congrArg Prod.fst h1
          dsimp only at h1
          simp only [← h1, feedPattern_frame .., h]
    · exact h

theorem healthFailed_levels (cell : Nat) (t : HealthTest) (s : State) (h : levelsKept p0 s.patrol.levels
    s.patrol.razeEnabled) : levelsKept p0 (healthFailed cell t s).patrol.levels (healthFailed cell t
    s).patrol.razeEnabled := by
  unfold healthFailed
  dsimp only
  split
  · split
    · exact h
    · split
      · rename_i h1
        have h1 := congrArg Prod.fst h1
        dsimp only at h1
        exact healthFails_levels _ _ _ (by simp only [← h1, feedPattern_frame .., h])
      · exact h
  · split
    · exact h
    · exact healthFails_levels _ _ _ h

theorem razeBegin_levels (s : State) (h : levelsKept p0 s.patrol.levels s.patrol.razeEnabled) : levelsKept p0
    (razeBegin s).patrol.levels (razeBegin s).patrol.razeEnabled := by
  simp only [razeBegin, State.ite_parts .., ite_self, implies_true, apply_ite Patrol.levels, apply_ite
    Patrol.razeEnabled, foldl_patrol, modVSlot_frame .., h]

theorem purgeClear_levels (s : State) (h : levelsKept p0 s.patrol.levels s.patrol.razeEnabled) : levelsKept p0
    (purgeClear s).patrol.levels (purgeClear s).patrol.razeEnabled := by
  unfold purgeClear
  dsimp only
  refine setPtlEvt_levels _ _ ?_
  dsimp only
  simp only [foldl_patrol, purgeApplet_frame .., implies_true, State.ite_parts .., seedMasksFromReserve_frame .., purgeSram_frame ..,
    purgeSessions_frame .., purgePowder_frame .., purgeBanks_frame .., purgeVolatile_frame .., ite_self]
  exact h

theorem latchRise_levels (src : Nat) (lvl : Machine.Level) (s : State) (h : levelsKept p0 s.patrol.levels
    s.patrol.razeEnabled) : levelsKept p0 (latchRise src lvl s).patrol.levels (latchRise src lvl
    s).patrol.razeEnabled := by
  simp only [latchRise, State.ite_parts .., ite_self, implies_true, apply_ite Patrol.levels, apply_ite
    Patrol.razeEnabled, closeDebug_frame .., trkRequest_frame .., h]

theorem respond_levels (src : Nat) (level : Machine.Level) (s : State) (h : levelsKept p0 s.patrol.levels
    s.patrol.razeEnabled) : levelsKept p0 (respond src level s).patrol.levels (respond src level
    s).patrol.razeEnabled := by
  unfold respond
  dsimp only
  generalize (if (level == Level.raze && inWhiteout s) = true then Level.purge else level) = lvl
  split
  · exact h
  · have h1 : ∀ (b : Bool) (t : State), levelsKept p0 t.patrol.levels t.patrol.razeEnabled →
        levelsKept p0 (if b then razeBegin t else t).patrol.levels (if b then razeBegin t else t).patrol.razeEnabled := by
      intro b t ht
      split
      · exact razeBegin_levels _ ht
      · exact ht
    have h2 : ∀ (c : Bool) (t : State), levelsKept p0 t.patrol.levels t.patrol.razeEnabled →
        levelsKept p0 (if c then purgeClear t else t).patrol.levels (if c then purgeClear t else t).patrol.razeEnabled := by
      intro b t ht
      split
      · exact purgeClear_levels _ ht
      · exact ht
    have h3 : ∀ (l : Level), levelsKept p0
        (endAtRise l { s with hut := { s.hut with razePending := s.hut.razePending || (level == .raze && inWhiteout s) } }).patrol.levels
        (endAtRise l { s with hut := { s.hut with razePending := s.hut.razePending || (level == .raze && inWhiteout s) } }).patrol.razeEnabled := by
      intro l
      simp only [endAtRise_frame .., h]
    split
    · exact latchRise_levels _ _ _ (h2 _ _ (h1 _ _ (h3 _)))
    · exact h2 _ _ (h1 _ _ (h3 _))

theorem tripActs_levels (src : Nat) (before : Machine.Level) (s : State) (h : levelsKept p0 s.patrol.levels
    s.patrol.razeEnabled) : levelsKept p0 (tripActs src before s).patrol.levels (tripActs src before
    s).patrol.razeEnabled := by
  simp only [tripActs, State.ite_parts .., ite_self, implies_true, apply_ite Patrol.levels, apply_ite Patrol.razeEnabled,
    raiseEvent_frame .., noteLevel_levels, respond_levels, trkMerge_frame .., h]

theorem trip_levels (src : Nat) (a : Bool) (b : Bool) (s : State) (h : levelsKept p0 s.patrol.levels
    s.patrol.razeEnabled) : levelsKept p0 (trip src a b s).patrol.levels (trip src a b s).patrol.razeEnabled := by
  unfold trip
  dsimp only
  (repeat' split) <;> simp only [State.ite_parts .., ite_self, implies_true, apply_ite Patrol.levels, apply_ite Patrol.razeEnabled,
    tripActs_levels, h]

theorem updateQuantity_levels (q : Nat) (s : State) (h : levelsKept p0 s.patrol.levels s.patrol.razeEnabled) :
    levelsKept p0 (updateQuantity q s).patrol.levels (updateQuantity q s).patrol.razeEnabled := by
  unfold updateQuantity
  dsimp only
  (repeat' split) <;> simp only [State.ite_parts .., ite_self, implies_true, apply_ite Patrol.levels, apply_ite Patrol.razeEnabled,
    trip_levels, h]

theorem setDisagree_levels (src : Nat) (on : Bool) (s : State) (h : levelsKept p0 s.patrol.levels
    s.patrol.razeEnabled) : levelsKept p0 (setDisagree src on s).patrol.levels (setDisagree src on
    s).patrol.razeEnabled := by
  unfold setDisagree
  dsimp only
  (repeat' split) <;> simp only [State.ite_parts .., ite_self, implies_true, apply_ite Patrol.levels, apply_ite Patrol.razeEnabled,
    updateQuantity_levels, setPtlEvt_levels, h]

theorem stimulus_levels (failing : List Nat) (s : State) (h : levelsKept p0 s.patrol.levels s.patrol.razeEnabled) :
    levelsKept p0 (stimulus failing s).patrol.levels (stimulus failing s).patrol.razeEnabled := by
  unfold stimulus
  refine foldl_levels _ (fun s i h => ?_) _ _ h
  dsimp only
  split
  · exact h
  · exact setDisagree_levels _ _ _ h

theorem checkCluster_levels (s : State) (h : levelsKept p0 s.patrol.levels s.patrol.razeEnabled) : levelsKept p0
    (checkCluster s).patrol.levels (checkCluster s).patrol.razeEnabled := by
  unfold checkCluster
  dsimp only
  (repeat' split) <;> simp only [State.ite_parts .., ite_self, implies_true, apply_ite Patrol.levels, apply_ite Patrol.razeEnabled,
    trip_levels, h]

theorem tripAgain_levels (src : Nat) (s : State) (h : levelsKept p0 s.patrol.levels s.patrol.razeEnabled) :
    levelsKept p0 (tripAgain src s).patrol.levels (tripAgain src s).patrol.razeEnabled := by
  simp only [tripAgain, State.ite_parts .., ite_self, implies_true, apply_ite Patrol.levels, apply_ite
    Patrol.razeEnabled, tripActs_levels, h]

theorem detectorReport_levels (src : Nat) (a : Bool) (b : Bool) (s : State) (h : levelsKept p0 s.patrol.levels
    s.patrol.razeEnabled) : levelsKept p0 (detectorReport src a b s).patrol.levels (detectorReport src a b
    s).patrol.razeEnabled := by
  unfold detectorReport
  dsimp only
  (repeat' split) <;> simp only [State.ite_parts .., ite_self, implies_true, apply_ite Patrol.levels, apply_ite Patrol.razeEnabled,
    trip_levels, setDisagree_levels, h]

theorem razeEnd_levels (s : State) (h : levelsKept p0 s.patrol.levels s.patrol.razeEnabled) : levelsKept p0 (razeEnd
    s).patrol.levels (razeEnd s).patrol.razeEnabled := by
  simp only [razeEnd, State.ite_parts .., ite_self, implies_true, apply_ite Patrol.levels, apply_ite Patrol.razeEnabled,
    foldl_patrol, trkRequest_frame .., modVSlot_frame .., setVltEvt_frame .., setPtlEvt_levels, h]

theorem sourceClears_levels (src : Nat) (s : State) (h : levelsKept p0 s.patrol.levels s.patrol.razeEnabled) :
    levelsKept p0 (sourceClears src s).patrol.levels (sourceClears src s).patrol.razeEnabled := by
  unfold sourceClears
  dsimp only
  (repeat' split) <;> simp only [State.ite_parts .., ite_self, implies_true, apply_ite Patrol.levels, apply_ite Patrol.razeEnabled,
    noteLevel_levels, h]

theorem disagreement_levels (src : Nat) (a : Bool) (b : Bool) (s : State) (h : levelsKept p0 s.patrol.levels
    s.patrol.razeEnabled) : levelsKept p0 (disagreement src a b s).patrol.levels (disagreement src a b
    s).patrol.razeEnabled := by
  unfold disagreement
  (repeat' split) <;> simp only [State.ite_parts .., ite_self, implies_true, apply_ite Patrol.levels, apply_ite Patrol.razeEnabled,
    trip_levels, setDisagree_levels, h]

theorem unlockPart_levels (both : Bool) (s : State) (h : levelsKept p0 s.patrol.levels s.patrol.razeEnabled) :
    levelsKept p0 (unlockPart both s).patrol.levels (unlockPart both s).patrol.razeEnabled := by
  have h1 : ∀ t : State, levelsKept p0 t.patrol.levels t.patrol.razeEnabled →
      levelsKept p0 (noteLevel 0 (standingLevel s) (setPtlEvt 32 t)).patrol.levels
        (noteLevel 0 (standingLevel s) (setPtlEvt 32 t)).patrol.razeEnabled :=
    fun t ht => noteLevel_levels _ _ _ (setPtlEvt_levels _ _ ht)
  unfold unlockPart
  dsimp only
  split
  · exact noteLevel_levels _ _ _ (respond_levels _ _ _ (h1 _ h))
  · exact h1 _ h

theorem exitWhiteout_levels (s : State) (h : levelsKept p0 s.patrol.levels s.patrol.razeEnabled) : levelsKept p0
    (exitWhiteout s).patrol.levels (exitWhiteout s).patrol.razeEnabled := by
  unfold exitWhiteout
  refine foldl_levels _ (fun s n h => ?_) _ _ ?_
  · split
    · exact tripAgain_levels _ _ h
    · exact h
  · simp only [setWoEvt_frame .., h]

theorem enterWhiteout_levels (cause : Nat) (input : Nat) (zones : Word) (reason : Word) (s : State) (h : levelsKept
    p0 s.patrol.levels s.patrol.razeEnabled) : levelsKept p0 (enterWhiteout cause input zones reason
    s).patrol.levels (enterWhiteout cause input zones reason s).patrol.razeEnabled := by
  unfold enterWhiteout
  (repeat' split) <;> simp only [State.ite_parts .., ite_self, implies_true, apply_ite Patrol.levels, apply_ite Patrol.razeEnabled,
    noteLevel_levels, setWoEvt_frame .., freezeKeys_frame .., closeDebug_frame .., h]

theorem alarmActs_levels (n : Nat) (s : State) (h : levelsKept p0 s.patrol.levels s.patrol.razeEnabled) : levelsKept
    p0 (alarmActs n s).patrol.levels (alarmActs n s).patrol.razeEnabled := by
  unfold alarmActs
  (repeat' split) <;> simp only [State.ite_parts .., ite_self, implies_true, apply_ite Patrol.levels, apply_ite Patrol.razeEnabled,
    postMail_frame .., enterWhiteout_levels, h]

theorem alarmAccept_levels (n : Nat) (s : State) (h : levelsKept p0 s.patrol.levels s.patrol.razeEnabled) :
    levelsKept p0 (alarmAccept n s).patrol.levels (alarmAccept n s).patrol.razeEnabled := by
  unfold alarmAccept
  dsimp only
  (repeat' split) <;> simp only [State.ite_parts .., ite_self, implies_true, apply_ite Patrol.levels, apply_ite Patrol.razeEnabled,
    setAlmEvt_frame .., alarmActs_levels, h]

theorem commitUnlock_levels (auth : Nat) (s : State) (h : levelsKept p0 s.patrol.levels s.patrol.razeEnabled) :
    levelsKept p0 (commitUnlock auth s).1.patrol.levels (commitUnlock auth s).1.patrol.razeEnabled := by
  unfold commitUnlock
  (repeat' split) <;> simp only [State.ite_parts .., ite_self, implies_true, apply_ite Patrol.levels, apply_ite Patrol.razeEnabled,
    unlockPart_levels, h]

theorem provisionPart_levels (plain : Bytes) (s : State) (h : levelsKept p0 s.patrol.levels s.patrol.razeEnabled) :
    levelsKept p0 (provisionPart plain s).patrol.levels (provisionPart plain s).patrol.razeEnabled := by
  unfold provisionPart
  refine foldl_levels _ (fun s n h => tripAgain_levels n s h) _ _ ?_
  simp only [restartPowder_frame .., dropProvisioningKey_frame .., writeSlot_frame .., h]

theorem commitLcAdvance_levels (b : CmdBlock) (plain : Bytes) (s : State) (h : levelsKept p0 s.patrol.levels
    s.patrol.razeEnabled) : levelsKept p0 (commitLcAdvance b plain s).patrol.levels (commitLcAdvance b plain
    s).patrol.razeEnabled := by
  unfold commitLcAdvance
  dsimp only
  (repeat' split) <;> simp only [State.ite_parts .., ite_self, implies_true, apply_ite Patrol.levels, apply_ite Patrol.razeEnabled,
    closeDebug_frame .., transition_frame .., provisionPart_levels, retirePart_frame .., h]

theorem levelNum_max (a b : Level) : levelNum (levelMax a b) = max (levelNum a) (levelNum b) := by
  cases a <;> cases b <;> rfl

/-- A configured level that rises to the larger of itself and another keeps every level. -/
theorem levelsKept_raise {s : State} (h : levelsKept p0 s.patrol.levels s.patrol.razeEnabled) (n : Nat) (x : Level) :
    levelsKept p0 (tblSet .note s.patrol.levels n (levelMax (configuredLevel s.patrol n) x)) s.patrol.razeEnabled := by
  refine ⟨fun m => Nat.le_trans (h.1 m) ?_, h.2⟩
  by_cases hm : m = n
  · subst hm
    simp only [configuredLevel, tblGet_set_self, levelNum_max]
    omega
  · simp only [configuredLevel]
    simp only [tblGet_set_ne _ _ _ _ _ hm, levelNum_max]
    omega

theorem commitBody_levels (j : Job) (c : CmdCode) (b : CmdBlock) (s : State) (h : levelsKept p0 s.patrol.levels
    s.patrol.razeEnabled) : levelsKept p0 (commitBody j c b s).1.patrol.levels (commitBody j c b
    s).1.patrol.razeEnabled := by
  cases c with
  | whiteoutEnter => exact enterWhiteout_levels _ _ _ _ _ h
  | whiteoutExit => exact exitWhiteout_levels _ h
  | unlock => exact commitUnlock_levels _ _ h
  | lcAdvance => exact commitLcAdvance_levels _ _ _ h
  | levelRaise => exact noteLevel_levels _ _ _ (levelsKept_raise h _ _)
  | razeEnable => exact ⟨h.1, fun _ => rfl⟩
  | _ =>
    simp only [commitBody, writeSlot_frame .., eraseSlot_frame .., commitAppletLoad_frame .., removeApplet_frame .., modCounter_frame .., writtenWords_frame ..,
      openDebug_frame .., commitReceipt_frame .., commitSesSet_frame .., commitSesClear_frame .., h]

theorem commitCommand_levels (j : Job) (c : CmdCode) (b : CmdBlock) (s : State) (h : levelsKept p0 s.patrol.levels
    s.patrol.razeEnabled) : levelsKept p0 (commitCommand j c b s).patrol.levels (commitCommand j c b
    s).patrol.razeEnabled := by
  unfold commitCommand
  dsimp only
  simp only [finishJob_frame .., modJob_frame .., handOver_frame .., drawFree_frame ..]
  exact appendCommit_levels _ _ (commitBody_levels _ _ _ _ (by simp only [modJob_frame .., h]))

theorem completeEntry_levels (tag : Nat) (s : State) (h : levelsKept p0 s.patrol.levels s.patrol.razeEnabled) :
    levelsKept p0 (completeEntry tag s).patrol.levels (completeEntry tag s).patrol.razeEnabled := by
  unfold completeEntry
  split
  · exact h
  · split
    · split
      · simp only [writeCompletion_frame .., h]
      · split
        · simp only [writeCompletion_frame .., failCommand_frame .., h]
        · simp only [writeCompletion_frame ..]
          exact commitCommand_levels _ _ _ _ h
    · simp only [writeCompletion_frame .., h]

theorem buildImage_levels (l : List (TrkEntry × Nat)) (id : Nat) (s : State) (h : levelsKept p0 s.patrol.levels
    s.patrol.razeEnabled) : levelsKept p0 (buildImage l id s).2.patrol.levels (buildImage l id
    s).2.patrol.razeEnabled := by
  unfold buildImage
  (repeat' split) <;> simp only [State.ite_parts .., ite_self, implies_true, apply_ite Patrol.levels, apply_ite Patrol.razeEnabled,
    appendCommit_levels, readEntries_frame .., setTrkEvt_frame .., h]

theorem startExport_levels (toCard : State → State) (tag : Nat) (s : State) (h : levelsKept p0 s.patrol.levels
    s.patrol.razeEnabled) (hf : ∀ s, levelsKept p0 s.patrol.levels s.patrol.razeEnabled → levelsKept p0 (toCard
    s).patrol.levels (toCard s).patrol.razeEnabled) : levelsKept p0 (startExport toCard tag s).patrol.levels
    (startExport toCard tag s).patrol.razeEnabled := by
  have key : ∀ l id t u o, buildImage l id t = (o, u) → levelsKept p0 t.patrol.levels t.patrol.razeEnabled →
      levelsKept p0 u.patrol.levels u.patrol.razeEnabled := fun l id t u o e ht => by
    have := buildImage_levels (p0 := p0) l id t ht
    rwa [e] at this
  unfold startExport
  split
  · exact h
  · dsimp only
    split
    · simp only [finishJob_frame ..]
      split <;> simp only [captureFault_frame .., modJob_frame .., writeCounter_frame .., h]
    · split
      · simp only [finishJob_frame .., readHolds_frame .., modJob_frame .., writeCounter_frame .., h]
      split
      · rename_i h1
        simp only [finishJob_frame ..]
        refine key _ _ _ _ _ h1 ?_
        simp only [modJob_frame .., writeCounter_frame .., h]
      · rename_i h1
        have h2 : levelsKept p0 _ _ := key _ _ _ _ _ h1 (by simp only [modJob_frame .., writeCounter_frame .., h])
        split
        · exact hf _ (by simp only [modJob_frame ..]; exact h2)
        · simp only [requestBack_frame .., giveOutput_frame .., drawFree_frame .., modJob_frame ..]; exact h2

theorem exportsFuel_levels (toCard : State → State) (x1 : Nat) (x2 : State) (h : levelsKept p0 x2.patrol.levels
    x2.patrol.razeEnabled) (hf : ∀ s, levelsKept p0 s.patrol.levels s.patrol.razeEnabled → levelsKept p0 (toCard
    s).patrol.levels (toCard s).patrol.razeEnabled) : levelsKept p0 (exportsFuel toCard x1 x2).patrol.levels
    (exportsFuel toCard x1 x2).patrol.razeEnabled := by
  induction x1 generalizing x2 with
  | zero => exact h
  | succ n ih =>
    unfold exportsFuel
    split
    · exact h
    · split
      · exact ih _ (startExport_levels _ _ _ h hf)
      · exact h

theorem runExports_levels (toCard : State → State) (s : State) (h : levelsKept p0 s.patrol.levels
    s.patrol.razeEnabled) (hf : ∀ s, levelsKept p0 s.patrol.levels s.patrol.razeEnabled → levelsKept p0 (toCard
    s).patrol.levels (toCard s).patrol.razeEnabled) : levelsKept p0 (runExports toCard s).patrol.levels (runExports
    toCard s).patrol.razeEnabled := by
  unfold runExports
  skip
  repeat' (first | assumption | apply exportsFuel_levels | refine foldl_levels _ (fun _ _ _ => ?_) _ _ ?_ | exact hf _ ‹_› | (simp only [State.ite_parts .., ite_self]) | split)

theorem hostReadBack_levels (toCard : State → State) (tag : Nat) (data : Bytes) (s : State) (h : levelsKept p0
    s.patrol.levels s.patrol.razeEnabled) (hf : ∀ s, levelsKept p0 s.patrol.levels s.patrol.razeEnabled → levelsKept
    p0 (toCard s).patrol.levels (toCard s).patrol.razeEnabled) : levelsKept p0 (hostReadBack toCard tag data
    s).patrol.levels (hostReadBack toCard tag data s).patrol.razeEnabled := by
  unfold hostReadBack
  split
  · exact h
  · split
    · exact h
    · refine runExports_levels _ _ ?_ hf
      split
      · simp only [finishJob_frame .., h]
      · split
        · simp only [exportVerified_frame .., h]
        · simp only [finishJob_frame .., h]

theorem flowCommit_levels (b : CmdBlock) (s : State) (h : levelsKept p0 s.patrol.levels s.patrol.razeEnabled) :
    levelsKept p0 (flowCommit b s).patrol.levels (flowCommit b s).patrol.razeEnabled := by
  unfold flowCommit
  (repeat' split) <;> simp only [State.ite_parts .., ite_self, implies_true, apply_ite Patrol.levels, apply_ite Patrol.razeEnabled,
    commitCommand_levels, h]

theorem runFlowCommand_levels (b : CmdBlock) (s : State) (h : levelsKept p0 s.patrol.levels s.patrol.razeEnabled) :
    levelsKept p0 (runFlowCommand b s).1.patrol.levels (runFlowCommand b s).1.patrol.razeEnabled := by
  unfold runFlowCommand
  dsimp only
  (repeat' split) <;> simp only [State.ite_parts .., ite_self, implies_true, apply_ite Patrol.levels, apply_ite Patrol.razeEnabled,
    flowEnd_frame .., flowCommit_levels, releaseBarrier_frame .., joinJobs_frame .., takeCredit_frame .., h]

theorem flowResponse_levels (len : Nat) (payload : Bytes) (s : State) (h : levelsKept p0 s.patrol.levels
    s.patrol.razeEnabled) : levelsKept p0 (flowResponse len payload s).patrol.levels (flowResponse len payload
    s).patrol.razeEnabled := by
  unfold flowResponse
  dsimp only
  (repeat' split) <;> simp only [State.ite_parts .., ite_self, implies_true, apply_ite Patrol.levels, apply_ite Patrol.razeEnabled,
    endFlow_frame .., runFlowCommand_levels, flowRan_frame .., h]

theorem mailboxResponse_levels (b : Bytes) (s : State) (h : levelsKept p0 s.patrol.levels s.patrol.razeEnabled) :
    levelsKept p0 (mailboxResponse b s).patrol.levels (mailboxResponse b s).patrol.razeEnabled := by
  unfold mailboxResponse
  dsimp only
  (repeat' split) <;> simp only [State.ite_parts .., ite_self, implies_true, apply_ite Patrol.levels, apply_ite Patrol.razeEnabled,
    endExchange_frame .., toPhase_frame .., closeMbx_frame .., modCard_frame .., flowResponse_levels, endFlow_frame ..,
    giveOutput_frame .., freePort_frame .., h]

theorem goodBlock_levels (data : Bytes) (s : State) (h : levelsKept p0 s.patrol.levels s.patrol.razeEnabled) :
    levelsKept p0 (goodBlock data s).patrol.levels (goodBlock data s).patrol.razeEnabled := by
  unfold goodBlock
  (repeat' split) <;> simp only [State.ite_parts .., ite_self, implies_true, apply_ite Patrol.levels, apply_ite Patrol.razeEnabled,
    cardReady_frame .., modCard_frame .., readIdentity_frame .., readBlock_frame .., readBackBlock_frame .., endExchange_frame ..,
    afterIdentity_frame .., mailboxResponse_levels, h]

theorem portNext_levels (s : State) (h : levelsKept p0 s.patrol.levels s.patrol.razeEnabled) : levelsKept p0
    (portNext s).patrol.levels (portNext s).patrol.razeEnabled := by
  have h2 := runExports_levels (p0 := p0) runPort (runPort s) (by simp only [runPort_frame .., h]) (fun s h => by simp only [runPort_frame .., h])
  unfold portNext
  simp only [settlePort_frame .., runPort_frame .., h2]

theorem cardResponse_levels (r : CardResp) (s : State) (h : levelsKept p0 s.patrol.levels s.patrol.razeEnabled) :
    levelsKept p0 (cardResponse r s).patrol.levels (cardResponse r s).patrol.razeEnabled := by
  unfold cardResponse
  (repeat' split) <;> simp only [State.ite_parts .., ite_self, implies_true, apply_ite Patrol.levels, apply_ite Patrol.razeEnabled,
    goodResponse_frame .., commandFails_frame .., countCrc_frame .., toPhase_frame .., modCard_frame .., identSpeed_frame ..,
    identProbe_frame .., goodBlock_levels, busFails_frame .., writeConfirmed_frame .., h]

theorem gathered_levels (tag : Nat) (s : State) (h : levelsKept p0 s.patrol.levels s.patrol.razeEnabled) :
    levelsKept p0 (gathered tag s).patrol.levels (gathered tag s).patrol.razeEnabled := by
  unfold gathered
  split
  · exact h
  · refine lv_ite (lv_ite ?_ ?_) (lv_ite (portNext_levels _ ?_) ?_) <;>
      simp only [wakeJob_frame .., fitCurve_frame .., modJob_frame .., h]

theorem afterArrival_levels (tag : Nat) (s : State) (h : levelsKept p0 s.patrol.levels s.patrol.razeEnabled) :
    levelsKept p0 (afterArrival tag s).patrol.levels (afterArrival tag s).patrol.razeEnabled := by
  unfold afterArrival
  split
  · exact h
  · refine lv_ite h (lv_ite ?_ (lv_ite (gathered_levels _ _ ?_) ?_)) <;>
      simp only [inputBad_frame .., leaveChannel_frame .., feedSides_frame .., h]

theorem sramRead_levels {n tag a len : Nat} {s t : State} (w : levelsKept p0 s.patrol.levels s.patrol.razeEnabled)
    (h : sramRead n tag a len s = .error t) : levelsKept p0 t.patrol.levels t.patrol.razeEnabled := by
  unfold sramRead at h
  dsimp only at h
  split at h
  · cases h; simp only [finishJob_frame .., modJob_frame .., faultDma_frame .., w]
  · split at h
    · cases h; simp only [finishJob_frame .., modJob_frame .., readWords_frame .., w]
    · cases h

theorem sramSegs_levels {n tag : Nat} {l : List (Nat × Nat)} {s t : State} (w : levelsKept p0 s.patrol.levels s.patrol.razeEnabled)
    (h : sramSegs n tag l s = .error t) : levelsKept p0 t.patrol.levels t.patrol.razeEnabled := by
  induction l generalizing s with
  | nil => cases h
  | cons g l ih =>
    unfold sramSegs at h
    split at h
    · rename_i h1; cases h; exact sramRead_levels w h1
    · cases h2 : sramSegs n tag l (readWords g.1 g.2 s) with
      | ok x => rw [h2] at h; cases h
      | error u => rw [h2] at h; cases h; exact ih (by simp only [readWords_frame .., w]) h2

theorem sramSource_levels (n : Nat) (tag : Nat) (s : State) (h : levelsKept p0 s.patrol.levels s.patrol.razeEnabled)
    : levelsKept p0 (sramSource n tag s).patrol.levels (sramSource n tag s).patrol.razeEnabled := by
  unfold sramSource
  split
  · exact h
  · split
    · exact afterArrival_levels _ _ h
    · split
      · rename_i h1; exact sramSegs_levels h h1
      · refine afterArrival_levels _ _ ?_
        simp only [modJob_frame .., foldl_patrol, readWords_frame .., implies_true, h]

theorem sramList_levels {n tag a k : Nat} {b : Bool} {s t : State} (w : levelsKept p0 s.patrol.levels s.patrol.razeEnabled)
    (h : (if b then (sramRead n tag a k s).map some else .ok none) = .error t) : levelsKept p0 t.patrol.levels t.patrol.razeEnabled := by
  split at h
  · cases h1 : sramRead n tag a k s with
    | ok x => rw [h1] at h; cases h
    | error u => rw [h1] at h; cases h; exact sramRead_levels w h1
  · cases h

theorem sramGather_levels (n : Nat) (tag : Nat) (s : State) (h : levelsKept p0 s.patrol.levels s.patrol.razeEnabled)
    : levelsKept p0 (sramGather n tag s).patrol.levels (sramGather n tag s).patrol.razeEnabled := by
  unfold sramGather
  split
  · exact h
  · dsimp only
    split
    · rename_i h1; exact sramList_levels h h1
    · rename_i h1 _; exact sramList_levels h h1
    · split
      · simp only [inputBad_frame .., modJob_frame .., h]
      · exact sramSource_levels _ _ _ (by simp only [modJob_frame .., h])

theorem go_levels (tag : Nat) (s : State) (h : levelsKept p0 s.patrol.levels s.patrol.razeEnabled) : levelsKept p0
    (go tag s).patrol.levels (go tag s).patrol.razeEnabled := by
  unfold go
  split
  · exact h
  · split
    · simp only [inputBad_frame .., h]
    · split
      · exact sramGather_levels _ _ _ h
      · exact afterArrival_levels _ _ (by simp only [requestNamed_frame .., h])

theorem goCritical_levels (g : Option CritData) (tag : Nat) (s : State) (h : levelsKept p0 s.patrol.levels
    s.patrol.razeEnabled) : levelsKept p0 (goCritical g tag s).patrol.levels (goCritical g tag s).patrol.razeEnabled
    := by
  unfold goCritical
  (repeat' split) <;> simp only [State.ite_parts .., ite_self, implies_true, apply_ite Patrol.levels, apply_ite Patrol.razeEnabled,
    go_levels, inputBad_frame .., portNext_levels, completeEntry_levels, releaseBarrier_frame .., gatherWhole_frame .., h]

theorem arrive_levels (go : Nat → State → State) (mine : Option Op → Bool) (a : Arrival) (s : State)
    (h : levelsKept p0 s.patrol.levels s.patrol.razeEnabled)
    (hf : ∀ n s, levelsKept p0 s.patrol.levels s.patrol.razeEnabled →
      levelsKept p0 (go n s).patrol.levels (go n s).patrol.razeEnabled) :
    levelsKept p0 (arrive go mine a s).patrol.levels (arrive go mine a s).patrol.razeEnabled := by
  unfold arrive
  split
  · exact h
  · dsimp only
    by_cases hm : (!mine (opOf (stagedDesc s a))) = true
    · rw [if_pos hm]; exact h
    · rw [if_neg hm]
      split
      · simp only [fixedDesc_frame .., noteStatus_frame .., faultDma_frame .., gateReads_frame .., stageWords_frame .., charge_frame .., h]
      · split
        · simp only [fixedDesc_frame .., gateReads_frame .., stageWords_frame .., charge_frame .., h]
        · simp only [placeRefills_frame ..]
          split
          · simp only [refuseDesc_frame .., gateReads_frame .., stageWords_frame .., charge_frame .., h]
          · simp only [fixDesc_frame .., gateReads_frame .., stageWords_frame .., charge_frame .., h]
          · unfold admitDesc
            exact hf _ _ (by simp only [admitted_frame .., gateReads_frame .., stageWords_frame .., charge_frame .., h])

theorem arriveCritical_levels (c : CmdCode) (a : Arrival) (g : Option CritData) (s : State) (h : levelsKept p0
    s.patrol.levels s.patrol.razeEnabled) : levelsKept p0 (arriveCritical c a g s).patrol.levels (arriveCritical c a
    g s).patrol.razeEnabled := by
  unfold arriveCritical
  exact arrive_levels _ _ _ _ h (fun n s h => goCritical_levels _ n s h)

theorem arriveOp_levels (o : Op) (a : Arrival) (s : State) (h : levelsKept p0 s.patrol.levels s.patrol.razeEnabled)
    : levelsKept p0 (arriveOp o a s).patrol.levels (arriveOp o a s).patrol.razeEnabled := by
  unfold arriveOp
  exact arrive_levels _ _ _ _ h (fun n s h => go_levels n s h)

theorem readFaults_levels (tag : Nat) (k : ReadFault) (addr : DWord) (s : State) (h : levelsKept p0 s.patrol.levels
    s.patrol.razeEnabled) : levelsKept p0 (readFaults tag k addr s).patrol.levels (readFaults tag k addr
    s).patrol.razeEnabled := by
  unfold readFaults
  dsimp only
  (repeat' split) <;> simp only [State.ite_parts .., ite_self, implies_true, apply_ite Patrol.levels, apply_ite Patrol.razeEnabled,
    modJob_frame .., hostReadFailed_frame .., portNext_levels, nextBlock_frame .., finishJob_frame .., h]

theorem readTimesOut_levels (tag : Nat) (req : Nat) (addr : DWord) (s : State) (h : levelsKept p0 s.patrol.levels
    s.patrol.razeEnabled) : levelsKept p0 (readTimesOut tag req addr s).patrol.levels (readTimesOut tag req addr
    s).patrol.razeEnabled := by
  unfold readTimesOut
  split
  · exact h
  · exact lv_ite (readFaults_levels _ _ _ _ (by simp only [holdRequest_frame .., h])) h

theorem secondGather_levels (tag : Nat) (s : State) (h : levelsKept p0 s.patrol.levels s.patrol.razeEnabled) :
    levelsKept p0 (secondGather tag s).patrol.levels (secondGather tag s).patrol.razeEnabled := by
  unfold secondGather
  split
  · exact h
  · split
    · exact h
    · split
      · exact sramSource_levels _ _ _ h
      · simp only [requestSource_frame .., h]

theorem passEnds_levels (ends : State → State) (tag : Nat) (s : State) (h : levelsKept p0 s.patrol.levels
    s.patrol.razeEnabled) (hf : ∀ s, levelsKept p0 s.patrol.levels s.patrol.razeEnabled → levelsKept p0 (ends
    s).patrol.levels (ends s).patrol.razeEnabled) : levelsKept p0 (passEnds ends tag s).patrol.levels (passEnds ends
    tag s).patrol.razeEnabled := by
  unfold passEnds
  split
  · exact secondGather_levels _ _ (hf _ h)
  · exact hf _ h

theorem dataArrives_levels (tag : Nat) (item : GatherItem) (data : Bytes) (s : State) (h : levelsKept p0
    s.patrol.levels s.patrol.razeEnabled) : levelsKept p0 (dataArrives tag item data s).patrol.levels (dataArrives
    tag item data s).patrol.razeEnabled := by
  unfold dataArrives
  split
  · simp only [unexpectedData_frame .., h]
  · split
    · split
      · exact sramGather_levels _ _ _ h
      · exact h
    · split
      · exact portNext_levels _ (hostReadBack_levels _ _ _ _ h (fun s h => by simp only [runPort_frame .., h]))
      · split
        · simp only [unexpectedData_frame .., h]
        · rename_i j _ _ _ _ _ _
          dsimp only
          generalize hx : afterArrival tag (listBrings item tag j (modJob tag (keepItem item data)
              (if (item == .block) = true then stageWords tag 8 16 s else s))) = x
          have h1 : levelsKept p0 x.patrol.levels x.patrol.razeEnabled := by
            rw [← hx]
            refine afterArrival_levels _ _ ?_
            simp only [listBrings_frame .., modJob_frame .., State.ite_parts .., stageWords_frame .., ite_self, h]
          exact lv_ite (portNext_levels _ (by simp only [nextBlock_frame .., h1])) h1

theorem unitStalls_levels (u : UnitRef) (place : Nat) (operand : Bool) (bad : List Nat) (s : State) (h : levelsKept
    p0 s.patrol.levels s.patrol.razeEnabled) : levelsKept p0 (unitStalls u place operand bad s).patrol.levels
    (unitStalls u place operand bad s).patrol.razeEnabled := by
  unfold unitStalls
  refine lv_ite h (lv_ite (checkCluster_levels _ (faultUnit_levels _ _ _ _ _ h)) (checkCluster_levels _ ?_))
  simp only [State.ite_parts .., groomerLost_frame .., ite_self]
  exact faultUnit_levels _ _ _ _ _ h

theorem edgeSlips_levels (n : Nat) (bad : List Nat) (s : State) (h : levelsKept p0 s.patrol.levels
    s.patrol.razeEnabled) : levelsKept p0 (edgeSlips n bad s).patrol.levels (edgeSlips n bad s).patrol.razeEnabled
    := by
  unfold edgeSlips
  dsimp only
  (repeat' split) <;> simp only [State.ite_parts .., ite_self, implies_true, apply_ite Patrol.levels, apply_ite Patrol.razeEnabled,
    faultUnit_levels, checkCluster_levels, setEdgeEvt_frame .., h]

theorem clearSeen_levels (j : Nat) (v : Word) (s : State) (h : levelsKept p0 s.patrol.levels s.patrol.razeEnabled) :
    levelsKept p0 (clearSeen j v s).patrol.levels (clearSeen j v s).patrol.razeEnabled := by
  simp only [clearSeen, State.ite_parts .., ite_self, implies_true, apply_ite Patrol.levels, apply_ite
    Patrol.razeEnabled, foldl_patrol, h]

theorem writeBlock_levels (off : Nat) (v : Word) (s : State) (h : levelsKept p0 s.patrol.levels
    s.patrol.razeEnabled) : levelsKept p0 (writeBlock off v s).patrol.levels (writeBlock off v s).patrol.razeEnabled
    := by
  unfold writeBlock
  split
  all_goals first
    | exact h
    | (refine clearSeen_levels _ _ _ h; done)
    | (simp only [writeSeal_frame .., clearPcieErr_frame .., writeVltSel_frame .., writeSlotLen_frame .., unitCtrl_frame .., clearEdgeEvt_frame ..,
        clearBladeEvt_frame .., writeTest_frame .., writeTestData_frame .., cardCtrl_frame .., writeCardTmo_frame ..,
        clearRsfEvt_frame .., h]; done)
    | (unfold rws; split <;> first | exact h | (simp only [writeCardTmo_frame .., h]; done))

theorem bar0Write_levels (off : Nat) (v : Word) (s : State) (h : levelsKept p0 s.patrol.levels s.patrol.razeEnabled)
    : levelsKept p0 (bar0Write off v s).patrol.levels (bar0Write off v s).patrol.razeEnabled := by
  unfold bar0Write
  split
  · exact writeBlock_levels _ _ _ h
  · split
    · simp only [writeEvents_frame .., h]
    · split
      · simp only [writeRing_frame .., h]
      · split
        · exact h
        · split
          · simp only [clearPuEvt_frame .., h]
          · split
            · unfold rws; split
              · exact h
              · simp only [writeMap_frame .., h]
            · split
              · simp only [writeMsix_frame .., h]
              · exact h

theorem writeRegister_levels (space : RegSpace) (off : Nat) (v : Word) (s : State) (h : levelsKept p0
    s.patrol.levels s.patrol.razeEnabled) : levelsKept p0 (writeRegister space off v s).patrol.levels (writeRegister
    space off v s).patrol.razeEnabled := by
  unfold writeRegister
  split
  · split
    · exact bar0Write_levels _ _ _ h
    · simp only [badAccess_frame .., h]
  · split
    · simp only [peripheralWrite_frame .., h]
    · exact h
  · split
    · simp only [configWrite_frame .., h]
    · exact h

theorem latchSource_levels (s : State) (h : levelsKept p0 s.patrol.levels s.patrol.razeEnabled) : levelsKept p0
    (latchSource s).patrol.levels (latchSource s).patrol.razeEnabled := by
  simp only [latchSource, State.ite_parts .., ite_self, implies_true, apply_ite Patrol.levels, apply_ite
    Patrol.razeEnabled, returns_frame .., h]

theorem latchHigh_levels (w : HiLo) (s : State) (h : levelsKept p0 s.patrol.levels s.patrol.razeEnabled) :
    levelsKept p0 (latchHigh w s).patrol.levels (latchHigh w s).patrol.razeEnabled := by
  unfold latchHigh
  (repeat' split) <;> simp only [State.ite_parts .., ite_self, implies_true, apply_ite Patrol.levels, apply_ite Patrol.razeEnabled,
    returns_frame .., h]

theorem functionReset_levels (origin : Nat) (keepPayload : Bool) (s : State) (h : levelsKept p0 s.patrol.levels
    s.patrol.razeEnabled) : levelsKept p0 (functionReset origin keepPayload s).patrol.levels (functionReset origin
    keepPayload s).patrol.razeEnabled := by
  unfold functionReset
  (repeat' split) <;> simp only [State.ite_parts .., ite_self, implies_true, apply_ite Patrol.levels, apply_ite Patrol.razeEnabled,
    resetConfig_frame .., resetRws_frame .., dropHost_frame .., portNext_levels, setPcieErr_frame .., traceEnded_frame .., h]

theorem clearBme_levels (s : State) (h : levelsKept p0 s.patrol.levels s.patrol.razeEnabled) : levelsKept p0
    (clearBme s).patrol.levels (clearBme s).patrol.razeEnabled := by
  unfold clearBme
  refine lv_ite h ?_
  dsimp only
  refine lv_ite (portNext_levels _ ?_) h
  simp only [foldl_patrol, raiseRing_frame .., implies_true, setPcieErr_frame .., traceEnded_frame .., dropHost_frame .., h]

theorem stopStart_levels (step : Nat) (code : Nat) (s : State) (h : levelsKept p0 s.patrol.levels
    s.patrol.razeEnabled) : levelsKept p0 (stopStart step code s).patrol.levels (stopStart step code
    s).patrol.razeEnabled := by
  unfold stopStart
  (repeat' split) <;> simp only [State.ite_parts .., ite_self, implies_true, apply_ite Patrol.levels, apply_ite Patrol.razeEnabled,
    setLcEvt_frame .., appendAll_levels, trkRequest_frame .., h]

theorem loadLatches_levels (s : State) (h : levelsKept p0 s.patrol.levels s.patrol.razeEnabled) : levelsKept p0
    (loadLatches s).patrol.levels (loadLatches s).patrol.razeEnabled := by
  simp only [loadLatches, State.ite_parts .., ite_self, implies_true, apply_ite Patrol.levels, apply_ite
    Patrol.razeEnabled, latchVault_frame .., h]

theorem stepIntegrity_levels (i : StartInputs) (s : State) (h : levelsKept p0 s.patrol.levels s.patrol.razeEnabled)
    : levelsKept p0 (stepIntegrity i s).1.patrol.levels (stepIntegrity i s).1.patrol.razeEnabled := by
  unfold stepIntegrity
  have h1 : levelsKept p0 (i.badWords.foldl poisonWord (i.tornWords.foldl eraseTorn s)).patrol.levels
      (i.badWords.foldl poisonWord (i.tornWords.foldl eraseTorn s)).patrol.razeEnabled := by
    simp only [foldl_patrol, poisonWord_frame .., eraseTorn_frame .., implies_true, h]
  repeat' split
  · exact h
  · exact h1
  · refine loadLatches_levels _ ?_
    simp only [foldl_patrol, jumpCounter_frame .., implies_true, h1]

theorem appendHut_levels (bad : List Nat) (s : State) (p : Nat × HutEntry) (h : levelsKept p0 s.patrol.levels
    s.patrol.razeEnabled) : levelsKept p0 (appendHut bad s p).patrol.levels (appendHut bad s p).patrol.razeEnabled
    := by
  simp only [appendHut, State.ite_parts .., ite_self, implies_true, apply_ite Patrol.levels, apply_ite
    Patrol.razeEnabled, appendReq_levels, h]

theorem clearForReset_levels (por : Bool) (s : State) (h : levelsKept p0 s.patrol.levels s.patrol.razeEnabled) :
    levelsKept p0 (clearForReset por s).patrol.levels (clearForReset por s).patrol.razeEnabled := by
  simp only [clearForReset, State.ite_parts .., ite_self, implies_true, apply_ite Patrol.levels, apply_ite
    Patrol.razeEnabled, foldl_patrol, giveBackCredit_frame .., h]

theorem assertReset_levels (por : Bool) (s : State) (h : levelsKept p0 s.patrol.levels s.patrol.razeEnabled) :
    levelsKept p0 (assertReset por s).patrol.levels (assertReset por s).patrol.razeEnabled := by
  simp only [assertReset, State.ite_parts .., ite_self, implies_true, apply_ite Patrol.levels, apply_ite
    Patrol.razeEnabled, clearForReset_levels, flushTracks_levels, h]

theorem stepPowder_levels (i : StartInputs) (s : State) (h : levelsKept p0 s.patrol.levels s.patrol.razeEnabled) :
    levelsKept p0 (stepPowder i s).1.patrol.levels (stepPowder i s).1.patrol.razeEnabled := by
  unfold stepPowder
  dsimp only
  split
  · refine declareFailed_levels _ _ ?_
    simp only [foldl_patrol, setGrmEvt_frame .., setUnitRec_frame .., implies_true, h]
  · refine startupPass_levels _ (foldl_levels _ (fun s x h => healthFailed_levels _ _ _ h) _ _ ?_)
    simp only [foldl_patrol, setGrmEvt_frame .., setUnitRec_frame .., implies_true, h]

theorem stepDetectors_levels (i : StartInputs) (s : State) (h : levelsKept p0 s.patrol.levels s.patrol.razeEnabled)
    : levelsKept p0 (stepDetectors i s).1.patrol.levels (stepDetectors i s).1.patrol.razeEnabled := by
  simp only [stepDetectors, State.ite_parts .., ite_self, implies_true, apply_ite Patrol.levels, apply_ite
    Patrol.razeEnabled, stimulus_levels, h]

theorem stepTracks_levels (i : StartInputs) (s : State) (h : levelsKept p0 s.patrol.levels s.patrol.razeEnabled) :
    levelsKept p0 (stepTracks i s).1.patrol.levels (stepTracks i s).1.patrol.razeEnabled := by
  have h1 : levelsKept p0 ((freshHut s.hut).foldl (appendHut i.damagedHut) s).patrol.levels
      ((freshHut s.hut).foldl (appendHut i.damagedHut) s).patrol.razeEnabled :=
    foldl_levels _ (fun s x h => appendHut_levels _ _ _ h) _ _ h
  unfold stepTracks
  dsimp only
  refine appendAll_levels _ ?_
  split
  · simp only [setHutEvt_frame .., h1]
  · exact appendReq_levels _ _ (by simp only [setHutEvt_frame .., h1])

theorem tripLost_levels (s : State) (h : levelsKept p0 s.patrol.levels s.patrol.razeEnabled) : levelsKept p0
    (tripLost s).patrol.levels (tripLost s).patrol.razeEnabled := by
  simp only [tripLost, State.ite_parts .., ite_self, implies_true, apply_ite Patrol.levels, apply_ite Patrol.razeEnabled,
    tripActs_levels, h]

theorem stepHut_levels (i : StartInputs) (s : State) (h : levelsKept p0 s.patrol.levels s.patrol.razeEnabled) :
    levelsKept p0 (stepHut i s).1.patrol.levels (stepHut i s).1.patrol.razeEnabled := by
  unfold stepHut
  dsimp only
  (repeat' split) <;> simp only [State.ite_parts .., ite_self, implies_true, apply_ite Patrol.levels, apply_ite Patrol.razeEnabled,
    foldl_patrol, loseHut_frame .., splitLatch_frame .., tripLost_levels, setHutEvt_frame .., h]

theorem stepRaze_levels (i : StartInputs) (s : State) (h : levelsKept p0 s.patrol.levels s.patrol.razeEnabled) :
    levelsKept p0 (stepRaze i s).1.patrol.levels (stepRaze i s).1.patrol.razeEnabled := by
  unfold stepRaze
  (repeat' split) <;> simp only [State.ite_parts .., ite_self, implies_true, apply_ite Patrol.levels, apply_ite Patrol.razeEnabled,
    razeBegin_levels, razeEnd_levels, h]

theorem initPart_levels (v : Byte) (s : State) (h : levelsKept p0 s.patrol.levels s.patrol.razeEnabled) : levelsKept
    p0 (initPart v s).patrol.levels (initPart v s).patrol.razeEnabled := by
  unfold initPart
  (repeat' split) <;> simp only [State.ite_parts .., ite_self, implies_true, apply_ite Patrol.levels, apply_ite Patrol.razeEnabled,
    transition_frame .., assertReset_levels, appendAll_levels, h]

theorem startSteps_levels (i : StartInputs) :
    ∀ x ∈ startSteps i, ∀ s, levelsKept p0 s.patrol.levels s.patrol.razeEnabled → levelsKept p0 (x.2 s).1.patrol.levels (x.2 s).1.patrol.razeEnabled := by
  intro x hx s h
  simp only [startSteps, List.mem_cons, List.not_mem_nil, or_false] at hx
  rcases hx with rfl | rfl | rfl | rfl | rfl | rfl | rfl | rfl | rfl | rfl <;>
    simp only [stepHut_levels, stepIntegrity_levels, stepRaze_levels, stepTracks_levels, stepDetectors_levels, stepPowder_levels, stepSeeds_frame .., stepVectors_frame .., stepRuntime_frame .., stepOpen_frame .., h]

theorem runStart_levels (stop : Option Nat) (l : List (Nat × (State → State × Nat)))
    (hf : ∀ x ∈ l, ∀ s, levelsKept p0 s.patrol.levels s.patrol.razeEnabled → levelsKept p0 (x.2 s).1.patrol.levels (x.2 s).1.patrol.razeEnabled) (s : State)
    (h : levelsKept p0 s.patrol.levels s.patrol.razeEnabled) : levelsKept p0 (runStart stop l s).patrol.levels (runStart stop l s).patrol.razeEnabled := by
  induction l generalizing s with
  | nil => exact h
  | cons x l ih =>
    have h0 := hf x (List.mem_cons_self ..) s h
    have h1 := ih (fun y hy => hf y (List.mem_cons_of_mem _ hy))
    unfold runStart
    split
    · exact h
    · dsimp only
      split
      · first | simp only [stopStart_frame .., h0] | exact stopStart_levels _ _ _ h0
      · exact h1 _ h0

theorem beginStart_levels (i : StartInputs) (s : State) (h : levelsKept p0 s.patrol.levels s.patrol.razeEnabled) :
    levelsKept p0 (beginStart i s).patrol.levels (beginStart i s).patrol.razeEnabled := by
  unfold beginStart
  split
  · exact h
  · exact runStart_levels _ _ (startSteps_levels i) _ h

end Sys2Proof.Machine
end

