-- ==== Sys2Proof/Laws/Memory.lean ====
section
/-!
SUPPORT. Sys2Proof/Laws/Memory.lean: every operation on the state keeps applet SRAM and the applet store in canonical form.
Operations that leave the memory as it is are in the Frames files.
-/
namespace Sys2Proof.Machine
set_option linter.unusedSimpArgs false

theorem foldl_memWf {α : Type} (f : State → α → State) (hf : ∀ s a, Memory.wf s.mem = true → Memory.wf (f s a).mem = true)
    (l : List α) (s : State) (h : Memory.wf s.mem = true) : Memory.wf (l.foldl f s).mem = true := by
  induction l generalizing s with
  | nil => exact h
  | cons a l ih => exact ih _ (hf s a h)

theorem wf_ite {c : Prop} [Decidable c] {a b : State} (ha : Memory.wf a.mem = true) (hb : Memory.wf b.mem = true) :
    Memory.wf (if c then a else b).mem = true := by split <;> assumption

theorem storeBytes_memWf (a : Nat) (bs : Bytes) (s : State) (h : Memory.wf s.mem = true) : Memory.wf (storeBytes a
    bs s).mem = true := by
  unfold storeBytes
  refine memWf_writeBytes _ _ _ ?_
  simp only [foldl_mem, storeWord_frame .., implies_true, h]

theorem postMail_memWf (n : Nat) (kind : Nat) (arg0 : Word) (arg1 : Word) (trkSeq : DWord) (auth : Nat) (data :
    Bytes) (s : State) (h : Memory.wf s.mem = true) : Memory.wf (postMail n kind arg0 arg1 trkSeq auth data s).mem =
    true := by
  unfold postMail
  dsimp only
  (repeat' split) <;> simp only [State.ite_parts .., ite_self, implies_true, storeBytes_memWf, modApplet_frame .., raiseEvent_frame ..,
    wakeApplet_frame .., h]

theorem raiseRing_memWf (r : RingId) (s : State) (h : Memory.wf s.mem = true) : Memory.wf (raiseRing r s).mem = true
    := by
  unfold raiseRing
  (repeat' split) <;> simp only [State.ite_parts .., ite_self, implies_true, raiseEvent_frame .., postMail_memWf, h]

theorem hostReadFailed_memWf (n : Nat) (tag : Nat) (k : ReadFault) (addr : DWord) (s : State) (h : Memory.wf s.mem =
    true) : Memory.wf (hostReadFailed n tag k addr s).mem = true := by
  simp only [hostReadFailed, State.ite_parts .., ite_self, implies_true, raiseRing_memWf, setPcieErr_frame ..,
    captureHost_frame .., h]

theorem writeSram_memWf (n : Nat) (tag : Nat) (seg : Nat × Bytes) (s : State) (h : Memory.wf s.mem = true) :
    Memory.wf (writeSram n tag seg s).mem = true := by
  unfold writeSram
  dsimp only
  (repeat' split) <;> simp only [State.ite_parts .., ite_self, implies_true, modJob_frame .., noteUe_frame .., storeBytes_memWf, faultDma_frame .., h]

theorem putEntry_memWf (r : RingId) (index : Nat) (raw : BitVec 256) (s : State) (h : Memory.wf s.mem = true) :
    Memory.wf (putEntry r index raw s).mem = true := by
  unfold putEntry
  dsimp only
  (repeat' split) <;> simp only [State.ite_parts .., ite_self, implies_true, storeBytes_memWf, faultDma_frame .., h]

theorem advanceFuel_memWf (x0 : Nat) (x1 : RingId) (x2 : State) (h : Memory.wf x2.mem = true) : Memory.wf
    (advanceFuel x0 x1 x2).mem = true := by
  induction x0 generalizing x2 with
  | zero => exact h
  | succ n ih =>
    unfold advanceFuel
    (repeat' split) <;> simp only [ih, State.ite_parts .., ite_self, implies_true, modRing_frame .., markWritten_frame .., releaseStaging_frame ..,
      putEntry_memWf, h]

theorem flushReadFails_memWf (r : RingId) (read : FlushRead) (addr : DWord) (s : State) (h : Memory.wf s.mem = true)
    : Memory.wf (flushReadFails r read addr s).mem = true := by
  unfold flushReadFails
  (repeat' split) <;> simp only [State.ite_parts .., ite_self, implies_true, hostReadFailed_memWf, faultDma_frame .., h]

theorem flushOne_memWf (r : RingId) (read : FlushRead) (s : State) (h : Memory.wf s.mem = true) : Memory.wf
    (flushOne r read s).mem = true := by
  unfold flushOne
  (repeat' split) <;> simp only [State.ite_parts .., ite_self, implies_true, putEntry_memWf, flushReadFails_memWf, modRing_frame .., h]

theorem flushRing_memWf (r : RingId) (reads : List FlushRead) (s : State) (h : Memory.wf s.mem = true) : Memory.wf
    (flushRing r reads s).mem = true := by
  unfold flushRing
  dsimp only
  repeat' (first | assumption | refine flushOne_memWf _ _ _ ?_ | refine postMail_memWf _ _ _ _ _ _ _ _ ?_ | refine foldl_memWf _ (fun _ _ _ => ?_) _ _ ?_ | (simp only [State.ite_parts .., ite_self, requestReads_frame .., raiseIf_frame ..]) | split)

theorem rearmRing_memWf (r : RingId) (s : State) (h : Memory.wf s.mem = true) : Memory.wf (rearmRing r s).mem = true
    := by
  unfold rearmRing
  (repeat' split) <;> simp only [State.ite_parts .., ite_self, implies_true, flushRing_memWf, fetchRing_frame .., modRing_frame .., h]

theorem settleRing_memWf (r : RingId) (s : State) (h : Memory.wf s.mem = true) : Memory.wf (settleRing r s).mem =
    true := by
  unfold settleRing
  dsimp only
  (repeat' split) <;> simp only [State.ite_parts .., ite_self, implies_true, setRing_frame .., rearmRing_memWf, h]

theorem advanceRing_memWf (r : RingId) (s : State) (h : Memory.wf s.mem = true) : Memory.wf (advanceRing r s).mem =
    true := by
  unfold advanceRing
  refine settleRing_memWf _ _ ?_
  have h1 := advanceFuel_memWf (2 * (getRing s r).slots.length) r s h
  split
  · simp only [raiseIf_frame .., h1]
  · split
    · exact postMail_memWf _ _ _ _ _ _ _ _ h1
    · exact h1

theorem entryNow_memWf (r : RingId) (index : Nat) (raw : BitVec 256) (s : State) (h : Memory.wf s.mem = true) :
    Memory.wf (entryNow r index raw s).mem = true := by
  unfold entryNow
  (repeat' split) <;> simp only [State.ite_parts .., ite_self, implies_true, advanceRing_memWf, markWritten_frame .., putEntry_memWf, h]

theorem issueOutput_memWf (tag : Nat) (bs : Bytes) (s : State) (h : Memory.wf s.mem = true) : Memory.wf (issueOutput
    tag bs s).mem = true := by
  unfold issueOutput
  dsimp only
  repeat' (first | assumption | refine writeSram_memWf _ _ _ _ ?_ | refine foldl_memWf _ (fun _ _ _ => ?_) _ _ ?_ | (simp only [State.ite_parts .., ite_self, modJob_frame ..]) | split)

theorem noteStatus_memWf (r : RingId) (index : Nat) (st : Status) (s : State) (h : Memory.wf s.mem = true) :
    Memory.wf (noteStatus r index st s).mem = true := by
  unfold noteStatus
  dsimp only
  (repeat' split) <;> simp only [State.ite_parts .., ite_self, implies_true, setRing_frame .., raiseRing_memWf, cancelLater_frame .., h]

theorem fixedDesc_memWf (r : RingId) (x : Ring) (q : Slot) (d : Descriptor) (cookie : DWord) (tag : Nat) (st :
    Status) (s : State) (h : Memory.wf s.mem = true) : Memory.wf (fixedDesc r x q d cookie tag st s).mem = true :=
    by
  simp only [fixedDesc, State.ite_parts .., ite_self, implies_true, advanceRing_memWf, markArrived_frame .., h]

theorem refuseDesc_memWf (r : RingId) (x : Ring) (q : Slot) (d : Descriptor) (tag : Nat) (st : Status) (s : State)
    (h : Memory.wf s.mem = true) : Memory.wf (refuseDesc r x q d tag st s).mem = true := by
  simp only [refuseDesc, State.ite_parts .., ite_self, implies_true, noteStatus_memWf, markArrived_frame .., entryNow_memWf,
    h]

theorem admitDesc_memWf (go : Nat → State → State) (r : RingId) (x : Ring) (q : Slot) (d : Descriptor) (tag : Nat) (o : Op)
    (p : Plan) (s : State) (h : Memory.wf s.mem = true)
    (hf : ∀ n s, Memory.wf s.mem = true → Memory.wf (go n s).mem = true) :
    Memory.wf (admitDesc go r x q d tag o p s).mem = true := by
  unfold admitDesc
  exact hf _ _ (by simp only [admitted_frame .., h])

theorem arrive_memWf (go : Nat → State → State) (mine : Option Op → Bool) (a : Arrival) (s : State) (h : Memory.wf
    s.mem = true) (hf : ∀ n s, Memory.wf s.mem = true → Memory.wf (go n s).mem = true) : Memory.wf (arrive go mine a
    s).mem = true := by
  unfold arrive
  split
  · exact h
  · dsimp only
    by_cases hm : (!mine (opOf (stagedDesc s a))) = true
    · rw [if_pos hm]; exact h
    · rw [if_neg hm]
      split
      · refine fixedDesc_memWf _ _ _ _ _ _ _ _ (noteStatus_memWf _ _ _ _ ?_)
        simp only [faultDma_frame .., gateReads_frame .., stageWords_frame .., charge_frame .., h]
      · split
        · exact fixedDesc_memWf _ _ _ _ _ _ _ _ (by simp only [gateReads_frame .., stageWords_frame .., charge_frame .., h])
        · simp only [placeRefills_frame ..]
          split
          · exact refuseDesc_memWf _ _ _ _ _ _ _ (by simp only [gateReads_frame .., stageWords_frame .., charge_frame .., h])
          · simp only [fixDesc_frame .., gateReads_frame .., stageWords_frame .., charge_frame .., h]
          · exact admitDesc_memWf _ _ _ _ _ _ _ _ _ (by simp only [gateReads_frame .., stageWords_frame .., charge_frame .., h]) hf

theorem releaseOutput_memWf (tag : Nat) (s : State) (h : Memory.wf s.mem = true) : Memory.wf (releaseOutput tag
    s).mem = true := by
  unfold releaseOutput
  (repeat' split) <;> simp only [State.ite_parts .., ite_self, implies_true, outputGone_frame .., modJob_frame .., issueOutput_memWf, h]

theorem giveOutput_memWf (tag : Nat) (bs : Bytes) (s : State) (h : Memory.wf s.mem = true) : Memory.wf (giveOutput
    tag bs s).mem = true := by
  simp only [giveOutput, State.ite_parts .., ite_self, implies_true, releaseOutput_memWf, modJob_frame .., h]

theorem endRun_memWf (tag : Nat) (bs : Bytes) (st : Status) (s : State) (h : Memory.wf s.mem = true) : Memory.wf
    (endRun tag bs st s).mem = true := by
  unfold endRun
  (repeat' split) <;> simp only [State.ite_parts .., ite_self, implies_true, finishJob_frame .., giveOutput_memWf, drawFree_frame .., h]

theorem endSilent_memWf (tag : Nat) (st : Status) (s : State) (h : Memory.wf s.mem = true) : Memory.wf (endSilent
    tag st s).mem = true := by
  simp only [endSilent, State.ite_parts .., ite_self, implies_true, endRun_memWf, modJob_frame .., h]

theorem bladeBoundary_memWf (tag : Nat) (s : State) (h : Memory.wf s.mem = true) : Memory.wf (bladeBoundary tag
    s).mem = true := by
  unfold bladeBoundary
  dsimp only
  (repeat' split) <;> simp only [State.ite_parts .., ite_self, implies_true, replayStep_frame .., endSilent_memWf, giveOutput_memWf, h]

theorem bladeDone_memWf (tag : Nat) (s : State) (h : Memory.wf s.mem = true) : Memory.wf (bladeDone tag s).mem =
    true := by
  unfold bladeDone
  split
  · exact h
  · dsimp only
    repeat' (first | exact h | refine wf_ite ?_ ?_ | refine endSilent_memWf _ _ _ ?_ | refine endRun_memWf _ _ _ _ ?_ | (simp only [finishJob_frame .., modJob_frame .., replayStep_frame .., secondPassBegins_frame .., h]; done) | split)

theorem drawDone_memWf (g : Nat) (s : State) (h : Memory.wf s.mem = true) : Memory.wf (drawDone g s).1.mem = true :=
    by
  unfold drawDone
  dsimp only
  (repeat' split) <;> simp only [State.ite_parts .., ite_self, implies_true, groomerDraw_frame .., modJob_frame .., drawFree_frame ..,
    giveOutput_memWf, finishJob_frame .., wakeJob_frame .., h]

theorem edgeDone_memWf (tag : Nat) (s : State) (h : Memory.wf s.mem = true) : Memory.wf (edgeDone tag s).mem = true
    := by
  unfold edgeDone
  dsimp only
  (repeat' split) <;> simp only [State.ite_parts .., ite_self, implies_true, readRange_frame .., foldl_mem, finishJob_frame .., modJob_frame .., endSilent_memWf, endRun_memWf,
    commitKeygen_frame .., h]

theorem hashDone_memWf (tag : Nat) (s : State) (h : Memory.wf s.mem = true) : Memory.wf (hashDone tag s).mem = true
    := by
  unfold hashDone
  (repeat' split) <;> simp only [State.ite_parts .., ite_self, implies_true, finishJob_frame .., endRun_memWf, modJob_frame .., dispatchUnit_frame ..,
    wakeJob_frame .., h]

theorem buildEntry_memWf (tag : Nat) (s0 : State) (h : Memory.wf s0.mem = true) : Memory.wf (buildEntry tag s0).mem
    = true := by
  unfold buildEntry
  (repeat' split) <;> simp only [State.ite_parts .., ite_self, implies_true, foldl_mem, noteUe_frame .., countStatus_frame .., writeContext_frame ..,
    giveBackCredit_frame .., modJob_frame .., wakePieces_frame .., noteStatus_memWf, h]

theorem writeCompletion_memWf (tag : Nat) (s : State) (h : Memory.wf s.mem = true) : Memory.wf (writeCompletion tag
    s).mem = true := by
  unfold writeCompletion
  dsimp only
  repeat' (first | assumption | refine advanceRing_memWf _ _ ?_ | refine releaseOutput_memWf _ _ ?_ | refine buildEntry_memWf _ _ ?_ | refine foldl_memWf _ (fun _ _ _ => ?_) _ _ ?_ | (simp only [State.ite_parts .., ite_self, dispatchUnit_frame ..]) | split)

theorem dbIgnored_memWf (r : RingId) (s : State) (h : Memory.wf s.mem = true) : Memory.wf (dbIgnored r s).mem = true
    := by
  simp only [dbIgnored, State.ite_parts .., ite_self, implies_true, raiseRing_memWf, modRing_frame .., h]

theorem dbOverflow_memWf (r : RingId) (s : State) (h : Memory.wf s.mem = true) : Memory.wf (dbOverflow r s).mem =
    true := by
  simp only [dbOverflow, State.ite_parts .., ite_self, implies_true, raiseRing_memWf, modRing_frame .., h]

theorem acceptDoorbell_memWf (r : RingId) (value : Word) (s : State) (h : Memory.wf s.mem = true) : Memory.wf
    (acceptDoorbell r value s).mem = true := by
  unfold acceptDoorbell
  dsimp only
  (repeat' split) <;> simp only [State.ite_parts .., ite_self, implies_true, dbIgnored_memWf, dbOverflow_memWf, fetchRing_frame ..,
    setRing_frame .., h]

theorem doorbellRing_memWf (r : RingId) (value : Word) (s : State) (h : Memory.wf s.mem = true) : Memory.wf
    (doorbellRing r value s).mem = true := by
  unfold doorbellRing
  (repeat' split) <;> simp only [State.ite_parts .., ite_self, implies_true, modRing_frame .., acceptDoorbell_memWf, h]

theorem enableIgnored_memWf (r : RingId) (s : State) (h : Memory.wf s.mem = true) : Memory.wf (enableIgnored r
    s).mem = true := by
  simp only [enableIgnored, State.ite_parts .., ite_self, implies_true, raiseRing_memWf, modRing_frame .., h]

theorem enableRing_memWf (r : RingId) (s : State) (h : Memory.wf s.mem = true) : Memory.wf (enableRing r s).mem =
    true := by
  unfold enableRing
  dsimp only
  (repeat' split) <;> simp only [State.ite_parts .., ite_self, implies_true, setRing_frame .., enableIgnored_memWf, h]

theorem rearmCommand_memWf (r : RingId) (flush : Option (List FlushRead)) (s : State) (h : Memory.wf s.mem = true) :
    Memory.wf (rearmCommand r flush s).mem = true := by
  unfold rearmCommand
  dsimp only
  (repeat' split) <;> simp only [State.ite_parts .., ite_self, implies_true, settleRing_memWf, setRing_frame .., h]

theorem disableRing_memWf (r : RingId) (s : State) (h : Memory.wf s.mem = true) : Memory.wf (disableRing r s).mem =
    true := by
  unfold disableRing
  dsimp only
  (repeat' split) <;> simp only [State.ite_parts .., ite_self, implies_true, settleRing_memWf, setRing_frame .., h]

theorem ringCtrl_memWf (r : RingId) (value : Word) (reads : List FlushRead) (s : State) (h : Memory.wf s.mem = true)
    : Memory.wf (ringCtrl r value reads s).mem = true := by
  unfold ringCtrl
  (repeat' split) <;> simp only [State.ite_parts .., ite_self, implies_true, disableRing_memWf, enableRing_memWf, rearmCommand_memWf, h]

theorem releaseDoorbell_memWf (n : Nat) (s : State) (h : Memory.wf s.mem = true) : Memory.wf (releaseDoorbell n
    s).mem = true := by
  unfold releaseDoorbell
  (repeat' split) <;> simp only [State.ite_parts .., ite_self, implies_true, acceptDoorbell_memWf, modRing_frame .., h]

theorem releaseDoorbells_memWf (s : State) (h : Memory.wf s.mem = true) : Memory.wf (releaseDoorbells s).mem = true
    := by
  unfold releaseDoorbells
  exact foldl_memWf _ (fun s n h => releaseDoorbell_memWf n s h) _ _ h

theorem portWrite_memWf (n : Nat) (off : Nat) (value : Word) (s : State) (h : Memory.wf s.mem = true) : Memory.wf
    (portWrite n off value s).mem = true := by
  unfold portWrite
  (repeat' split) <;> simp only [State.ite_parts .., ite_self, implies_true, doorbellRing_memWf, ringCtrl_memWf, ringStatusClear_frame .., h]

theorem storeValue_memWf (a : Nat) (size : Nat) (v : Nat) (s : State) (h : Memory.wf s.mem = true) : Memory.wf
    (storeValue a size v s).mem = true := by
  unfold storeValue
  dsimp only
  (repeat' split) <;> simp only [State.ite_parts .., ite_self, implies_true, portWrite_memWf, protWrite_frame .., storeBytes_memWf, h]

theorem stopApplet_memWf (n : Nat) (cause : Nat) (epc : Word) (eaddr : Word) (s : State) (h : Memory.wf s.mem =
    true) : Memory.wf (stopApplet n cause epc eaddr s).mem = true := by
  simp only [stopApplet, State.ite_parts .., ite_self, implies_true, modApplet_frame .., raiseEvent_frame .., moveApplet_frame ..,
    disableRing_memWf, h]

theorem takeTrap_memWf (c : Nat) (t : Trap) (s : State) (h : Memory.wf s.mem = true) : Memory.wf (takeTrap c t
    s).mem = true := by
  unfold takeTrap
  dsimp only
  (repeat' split) <;> simp only [State.ite_parts .., ite_self, implies_true, enterException_frame .., noteBus_frame .., noteBad_frame ..,
    noteDenied_frame .., modCore_frame .., stopApplet_memWf, h]

theorem runOn_memWf (c : Nat) (f : State → State) (s : State) (h : Memory.wf s.mem = true) (hf : ∀ s, Memory.wf
    s.mem = true → Memory.wf (f s).mem = true) : Memory.wf (runOn c f s).mem = true := by
  unfold runOn
  (repeat' split) <;> simp only [State.ite_parts .., ite_self, implies_true, takeTrap_memWf, correctAt_frame .., hf, h]

theorem randomLoad_memWf (c : Nat) (rd : Fin 16) (size : Nat) (signed : Bool) (a : Word) (s : State) (h : Memory.wf
    s.mem = true) : Memory.wf (randomLoad c rd size signed a s).mem = true := by
  unfold randomLoad
  (repeat' split) <;> simp only [State.ite_parts .., ite_self, implies_true, takeTrap_memWf, placeRefill_frame .., modCore_frame .., h]

theorem writeRd_memWf (c : Nat) (rd : Fin 16) (f : Rink → Word) (s : State) (h : Memory.wf s.mem = true) : Memory.wf
    (writeRd c rd f s).mem = true := by
  unfold writeRd
  exact runOn_memWf c _ s h (fun s h => by simp only [modCore_frame .., h])

theorem alu_memWf (c : Nat) (rd : Fin 16) (rs1 : Fin 16) (rs2 : Fin 16) (f : Word → Word → Word) (s : State) (h :
    Memory.wf s.mem = true) : Memory.wf (alu c rd rs1 rs2 f s).mem = true := by
  simp only [alu, State.ite_parts .., ite_self, implies_true, writeRd_memWf, h]

theorem store_memWf (c : Nat) (rt : Fin 16) (rs1 : Fin 16) (imm : BitVec 16) (size : Nat) (s : State) (h : Memory.wf
    s.mem = true) : Memory.wf (store c rt rs1 imm size s).mem = true := by
  unfold store
  split
  · exact runOn_memWf c _ s h (fun s h => takeTrap_memWf _ _ _ h)
  · refine runOn_memWf c _ s h (fun s h => ?_)
    dsimp only
    split
    · exact takeTrap_memWf _ _ _ h
    · exact storeValue_memWf _ _ _ _ (by simp only [modCore_frame .., h])

theorem supervisorOnly_memWf (c : Nat) (f : State → State) (s : State) (h : Memory.wf s.mem = true) (hf : ∀ s,
    Memory.wf s.mem = true → Memory.wf (f s).mem = true) : Memory.wf (supervisorOnly c f s).mem = true := by
  unfold supervisorOnly
  refine runOn_memWf c _ s h (fun s h => ?_)
  split
  · exact hf _ h
  · exact takeTrap_memWf _ _ _ h

theorem aluImm_memWf (c : Nat) (rd : Fin 16) (rs1 : Fin 16) (f : Word → Word) (s : State) (h : Memory.wf s.mem =
    true) : Memory.wf (aluImm c rd rs1 f s).mem = true := by
  simp only [aluImm, State.ite_parts .., ite_self, implies_true, writeRd_memWf, h]

theorem shiftImm_memWf (c : Nat) (rd : Fin 16) (rs1 : Fin 16) (imm : BitVec 16) (f : Word → Nat → Word) (s : State)
    (h : Memory.wf s.mem = true) : Memory.wf (shiftImm c rd rs1 imm f s).mem = true := by
  unfold shiftImm
  split
  · exact runOn_memWf c _ s h (fun s h => takeTrap_memWf _ _ _ h)
  · exact aluImm_memWf _ _ _ _ _ h

theorem load_memWf (c : Nat) (rd : Fin 16) (rs1 : Fin 16) (imm : BitVec 16) (size : Nat) (signed : Bool) (s : State)
    (h : Memory.wf s.mem = true) : Memory.wf (load c rd rs1 imm size signed s).mem = true := by
  unfold load
  split
  · exact runOn_memWf c _ s h (fun s h => takeTrap_memWf _ _ _ h)
  · refine runOn_memWf c _ s h (fun s h => ?_)
    dsimp only
    split
    · exact takeTrap_memWf _ _ _ h
    · by_cases hr : (regionOf (reg (rinkOf s c) rs1 + sext16 imm).toNat == some Region.randomPort) = true
      · rw [if_pos hr]
        exact randomLoad_memWf _ _ _ _ _ _ h
      · rw [if_neg hr]
        simp only [modCore_frame .., correctAt_frame .., h]

theorem branch_memWf (c : Nat) (rs1 : Fin 16) (rs2 : Fin 16) (off : BitVec 18) (taken : Word → Word → Bool) (s :
    State) (h : Memory.wf s.mem = true) : Memory.wf (branch c rs1 rs2 off taken s).mem = true := by
  unfold branch
  exact runOn_memWf c _ s h (fun s h => by simp only [modCore_frame .., h])

theorem removeApplet_memWf (n : Nat) (s : State) (h : Memory.wf s.mem = true) : Memory.wf (removeApplet n s).mem =
    true := by
  simp only [removeApplet, State.ite_parts .., ite_self, implies_true, disableRing_memWf, moveApplet_frame ..,
    modApplet_frame .., dropCore_frame .., h]

theorem clearWindow_memWf (n : Nat) (s : State) (h : Memory.wf s.mem = true) : Memory.wf (clearWindow n s).mem =
    true := by
  exact memWf_erase s.mem (windowBase n) 0x20000 h

theorem beginSlice_memWf (c : Nat) (n : Nat) (s : State) (h : Memory.wf s.mem = true) : Memory.wf (beginSlice c n
    s).mem = true := by
  unfold beginSlice
  dsimp only
  (repeat' split) <;> simp only [State.ite_parts .., ite_self, implies_true, modCore_frame .., modApplet_frame .., takeTrap_memWf, h]

theorem giveCore_memWf (c : Nat) (n : Nat) (s : State) (h : Memory.wf s.mem = true) : Memory.wf (giveCore c n s).mem
    = true := by
  simp only [giveCore, State.ite_parts .., ite_self, implies_true, beginSlice_memWf, moveApplet_frame .., modCore_frame .., h]

theorem dispatchCore_memWf (c : Nat) (s : State) (h : Memory.wf s.mem = true) : Memory.wf (dispatchCore c s).mem =
    true := by
  unfold dispatchCore
  (repeat' split) <;> simp only [State.ite_parts .., ite_self, implies_true, placeRefill_frame .., giveCore_memWf, h]

theorem emptyApplet_memWf (n : Nat) (s : State) (h : Memory.wf s.mem = true) : Memory.wf (emptyApplet n s).mem =
    true := by
  simp only [emptyApplet, State.ite_parts .., ite_self, implies_true, moveApplet_frame .., setGrants_frame .., tagWindow_frame ..,
    clearWindow_memWf, setApplet_frame .., h]

theorem ringDisabled_memWf (n : Nat) (s : State) (h : Memory.wf s.mem = true) : Memory.wf (ringDisabled n s).mem =
    true := by
  unfold ringDisabled
  dsimp only
  (repeat' split) <;> simp only [State.ite_parts .., ite_self, implies_true, emptyApplet_memWf, moveApplet_frame .., modApplet_frame .., h]

theorem purgeApplet_memWf (n : Nat) (s : State) (h : Memory.wf s.mem = true) : Memory.wf (purgeApplet n s).mem =
    true := by
  unfold purgeApplet
  dsimp only
  (repeat' split) <;> simp only [State.ite_parts .., ite_self, implies_true, disableRing_memWf, moveApplet_frame .., modApplet_frame ..,
    dropCore_frame .., h]

theorem startComplete_memWf (n : Nat) (readable : Bool) (s : State) (h : Memory.wf s.mem = true) : Memory.wf
    (startComplete n readable s).mem = true := by
  unfold startComplete
  dsimp only
  split
  · exact h
  · split
    · simp only [moveApplet_frame .., h]
    · simp only [moveApplet_frame .., modApplet_frame ..]
      refine postMail_memWf _ _ _ _ _ _ _ _ ?_
      simp only [setGrants_frame .., tagWindow_frame ..]
      refine foldl_memWf _ (fun s r h => storeBytes_memWf _ _ _ h) _ _ ?_
      exact storeBytes_memWf _ _ _ (clearWindow_memWf _ _ h)

theorem service_memWf (c : Nat) (f : Nat → State → State) (s : State) (h : Memory.wf s.mem = true) (hf : ∀ n s,
    Memory.wf s.mem = true → Memory.wf (f n s).mem = true) : Memory.wf (service c f s).mem = true := by
  unfold service
  refine runOn_memWf c _ s h (fun s h => ?_)
  dsimp only
  split
  · exact hf _ _ (by simp only [modCore_frame .., h])
  · exact takeTrap_memWf _ _ _ h

theorem endSlice_memWf (c : Nat) (s : State) (h : Memory.wf s.mem = true) : Memory.wf (endSlice c s).mem = true :=
    by
  unfold endSlice
  dsimp only
  (repeat' split) <;> simp only [State.ite_parts .., ite_self, implies_true, modCore_frame .., giveCore_memWf, moveApplet_frame ..,
    releaseCore_frame .., beginSlice_memWf, h]

theorem failLoad_memWf (c : Nat) (s : State) (h : Memory.wf s.mem = true) : Memory.wf (failLoad c s).mem = true :=
    by
  unfold failLoad
  (repeat' split) <;> simp only [State.ite_parts .., ite_self, implies_true, takeTrap_memWf, h]

theorem failLoads_memWf (s : State) (h : Memory.wf s.mem = true) : Memory.wf (failLoads s).mem = true := by
  unfold failLoads
  exact foldl_memWf _ (fun s c h => by simp only [modCore_frame .., failLoad_memWf c s h]) _ _ h

theorem healthFails_memWf (cell : Nat) (t : HealthTest) (s : State) (h : Memory.wf s.mem = true) : Memory.wf
    (healthFails cell t s).mem = true := by
  simp only [healthFails, State.ite_parts .., ite_self, implies_true, raiseEvent_frame .., setPwdEvt_frame .., failLoads_memWf,
    failDraws_frame .., clearPowder_frame .., trkRequest_frame .., declareFailed_frame .., h]

theorem startupPass_memWf (s : State) (h : Memory.wf s.mem = true) : Memory.wf (startupPass s).mem = true := by
  unfold startupPass
  (try dsimp only)
  split
  · exact h
  · split
    · split
      · exact h
      · split
        · rename_i h1
          have h1 := congrArg Prod.fst h1
          dsimp only at h1
          exact healthFails_memWf _ _ _ (by simp only [← h1, feedPattern_frame .., h])
        · rename_i h1
          have h1 := congrArg Prod.fst h1
          dsimp only at h1
          simp only [← h1, feedPattern_frame .., h]
    · exact h

theorem windowDone_memWf (ones : List Nat) (maxRun : List Nat) (s : State) (h : Memory.wf s.mem = true) : Memory.wf
    (windowDone ones maxRun s).mem = true := by
  unfold windowDone
  (try dsimp only)
  split
  · exact h
  · split
    · split
      · exact h
      · split
        · rename_i h1
          have h1 := congrArg Prod.fst h1
          dsimp only at h1
          exact healthFails_memWf _ _ _ (by simp only [← h1, feedPattern_frame .., h])
        · rename_i h1
          have h1 := congrArg Prod.fst h1
          dsimp only at h1
          simp only [← h1, feedPattern_frame .., h]
    · exact h

theorem conditioned_memWf (raw : Bytes) (s : State) (h : Memory.wf s.mem = true) : Memory.wf (conditioned raw s).mem
    = true := by
  unfold conditioned
  (try dsimp only)
  split
  · exact h
  · split
    · split
      · exact h
      · split
        · rename_i h1
          have h1 := congrArg Prod.fst h1
          dsimp only at h1
          exact healthFails_memWf _ _ _ (by simp only [← h1, feedPattern_frame .., h])
        · rename_i h1
          have h1 := congrArg Prod.fst h1
          dsimp only at h1
          simp only [← h1, feedPattern_frame .., h]
    · exact h

theorem groomerDraws_memWf (g : Nat) (s0 : State) (h : Memory.wf s0.mem = true) : Memory.wf (groomerDraws g s0).mem
    = true := by
  unfold groomerDraws
  dsimp only
  (repeat' split) <;> simp only [State.ite_parts .., ite_self, implies_true, placeRefills_frame .., drawRefill_frame .., drawDone_memWf, h]

theorem healthFailed_memWf (cell : Nat) (t : HealthTest) (s : State) (h : Memory.wf s.mem = true) : Memory.wf
    (healthFailed cell t s).mem = true := by
  unfold healthFailed
  dsimp only
  split
  · split
    · exact h
    · split
      · rename_i h1
        have h1 := congrArg Prod.fst h1
        dsimp only at h1
        exact healthFails_memWf _ _ _ (by simp only [← h1, feedPattern_frame .., h])
      · exact h
  · split
    · exact h
    · exact healthFails_memWf _ _ _ h

theorem debugStore_memWf (a : Word) (data : Word) (s : State) (h : Memory.wf s.mem = true) : Memory.wf (debugStore a
    data s).mem = true := by
  unfold debugStore
  (repeat' split) <;> simp only [State.ite_parts .., ite_self, implies_true, resumeHeld_frame .., storeValue_memWf, h]

theorem accessDebug_memWf (write : Bool) (a : Word) (data : Word) (s : State) (h : Memory.wf s.mem = true) :
    Memory.wf (accessDebug write a data s).mem = true := by
  unfold accessDebug
  dsimp only
  (repeat' split) <;> simp only [State.ite_parts .., ite_self, implies_true, setDebugReg_frame .., denyDebug_frame .., captureFault_frame ..,
    noteUe_frame .., correctAt_frame .., debugStore_memWf, h]

theorem purgeSram_memWf (s : State) (h : Memory.wf s.mem = true) : Memory.wf (purgeSram s).mem = true := by
  unfold purgeSram
  exact foldl_memWf _ (fun s n h => clearWindow_memWf n s h) _ _ h

theorem purgeClear_memWf (s : State) (h : Memory.wf s.mem = true) : Memory.wf (purgeClear s).mem = true := by
  have h1 : Memory.wf (purgeSram (purgeSessions (purgePowder (purgeBanks (purgeVolatile s))))).mem = true :=
    purgeSram_memWf _ (by simp only [purgeSessions_frame ..]; simp only [purgePowder_frame .., purgeBanks_frame .., purgeVolatile_frame ..]; exact h)
  unfold purgeClear
  dsimp only
  simp only [setPtlEvt_frame ..]
  refine foldl_memWf _ (fun s n h => purgeApplet_memWf n s h) _ _ ?_
  split
  · simp only [seedMasksFromReserve_frame .., h1]
  · exact h1

theorem respond_memWf (src : Nat) (level : Machine.Level) (s : State) (h : Memory.wf s.mem = true) : Memory.wf
    (respond src level s).mem = true := by
  unfold respond
  dsimp only
  (repeat' split) <;> simp only [State.ite_parts .., ite_self, implies_true, endAtRise_frame .., razeBegin_frame .., purgeClear_memWf,
    latchRise_frame .., h]

theorem tripActs_memWf (src : Nat) (before : Machine.Level) (s : State) (h : Memory.wf s.mem = true) : Memory.wf
    (tripActs src before s).mem = true := by
  simp only [tripActs, State.ite_parts .., ite_self, implies_true, raiseEvent_frame .., noteLevel_frame .., respond_memWf,
    trkMerge_frame .., h]

theorem trip_memWf (src : Nat) (a : Bool) (b : Bool) (s : State) (h : Memory.wf s.mem = true) : Memory.wf (trip src
    a b s).mem = true := by
  unfold trip
  dsimp only
  (repeat' split) <;> simp only [State.ite_parts .., ite_self, implies_true, tripActs_memWf, h]

theorem updateQuantity_memWf (q : Nat) (s : State) (h : Memory.wf s.mem = true) : Memory.wf (updateQuantity q s).mem
    = true := by
  unfold updateQuantity
  dsimp only
  (repeat' split) <;> simp only [State.ite_parts .., ite_self, implies_true, trip_memWf, h]

theorem setDisagree_memWf (src : Nat) (on : Bool) (s : State) (h : Memory.wf s.mem = true) : Memory.wf (setDisagree
    src on s).mem = true := by
  unfold setDisagree
  (repeat' split) <;> simp only [State.ite_parts .., ite_self, implies_true, updateQuantity_memWf, setPtlEvt_frame .., h]

theorem stimulus_memWf (failing : List Nat) (s : State) (h : Memory.wf s.mem = true) : Memory.wf (stimulus failing
    s).mem = true := by
  unfold stimulus
  dsimp only
  repeat' (first | assumption | refine setDisagree_memWf _ _ _ ?_ | refine foldl_memWf _ (fun _ _ _ => ?_) _ _ ?_ | (simp only [State.ite_parts .., ite_self]) | split)

theorem checkCluster_memWf (s : State) (h : Memory.wf s.mem = true) : Memory.wf (checkCluster s).mem = true := by
  unfold checkCluster
  dsimp only
  (repeat' split) <;> simp only [State.ite_parts .., ite_self, implies_true, trip_memWf, h]

theorem tripAgain_memWf (src : Nat) (s : State) (h : Memory.wf s.mem = true) : Memory.wf (tripAgain src s).mem =
    true := by
  simp only [tripAgain, State.ite_parts .., ite_self, implies_true, tripActs_memWf, h]

theorem detectorReport_memWf (src : Nat) (a : Bool) (b : Bool) (s : State) (h : Memory.wf s.mem = true) : Memory.wf
    (detectorReport src a b s).mem = true := by
  unfold detectorReport
  dsimp only
  (repeat' split) <;> simp only [State.ite_parts .., ite_self, implies_true, trip_memWf, setDisagree_memWf, h]

theorem disagreement_memWf (src : Nat) (a : Bool) (b : Bool) (s : State) (h : Memory.wf s.mem = true) : Memory.wf
    (disagreement src a b s).mem = true := by
  unfold disagreement
  (repeat' split) <;> simp only [State.ite_parts .., ite_self, implies_true, trip_memWf, setDisagree_memWf, h]

theorem unlockPart_memWf (both : Bool) (s : State) (h : Memory.wf s.mem = true) : Memory.wf (unlockPart both s).mem
    = true := by
  unfold unlockPart
  dsimp only
  (repeat' split) <;> simp only [State.ite_parts .., ite_self, implies_true, noteLevel_frame .., setPtlEvt_frame .., respond_memWf, h]

theorem exitWhiteout_memWf (s : State) (h : Memory.wf s.mem = true) : Memory.wf (exitWhiteout s).mem = true := by
  unfold exitWhiteout
  dsimp only
  repeat' (first | assumption | refine tripAgain_memWf _ _ ?_ | refine foldl_memWf _ (fun _ _ _ => ?_) _ _ ?_ | (simp only [State.ite_parts .., ite_self, setWoEvt_frame ..]) | split)

theorem alarmActs_memWf (n : Nat) (s : State) (h : Memory.wf s.mem = true) : Memory.wf (alarmActs n s).mem = true :=
    by
  unfold alarmActs
  (repeat' split) <;> simp only [State.ite_parts .., ite_self, implies_true, postMail_memWf, enterWhiteout_frame .., h]

theorem alarmAccept_memWf (n : Nat) (s : State) (h : Memory.wf s.mem = true) : Memory.wf (alarmAccept n s).mem =
    true := by
  unfold alarmAccept
  dsimp only
  (repeat' split) <;> simp only [State.ite_parts .., ite_self, implies_true, setAlmEvt_frame .., alarmActs_memWf, h]

theorem commitUnlock_memWf (auth : Nat) (s : State) (h : Memory.wf s.mem = true) : Memory.wf (commitUnlock auth
    s).1.mem = true := by
  unfold commitUnlock
  (repeat' split) <;> simp only [State.ite_parts .., ite_self, implies_true, unlockPart_memWf, h]

theorem provisionPart_memWf (plain : Bytes) (s : State) (h : Memory.wf s.mem = true) : Memory.wf (provisionPart
    plain s).mem = true := by
  unfold provisionPart
  refine foldl_memWf _ (fun s n h => tripAgain_memWf n s h) _ _ ?_
  simp only [restartPowder_frame .., dropProvisioningKey_frame .., writeSlot_frame .., h]

theorem retirePart_memWf (s : State) (h : Memory.wf s.mem = true) : Memory.wf (retirePart s).mem = true := by
  unfold retirePart
  dsimp only
  simp only [purgeSessions_frame ..]
  refine foldl_memWf _ (fun s n h => ?_) _ _ ?_
  · split
    · exact h
    · exact ringDisabled_memWf _ _ (removeApplet_memWf _ _ h)
  · refine foldl_memWf _ (fun s r h => ?_) _ _ h
    split
    · exact h
    · simp only [eraseSlot_frame .., h]

theorem commitLcAdvance_memWf (b : CmdBlock) (plain : Bytes) (s : State) (h : Memory.wf s.mem = true) : Memory.wf
    (commitLcAdvance b plain s).mem = true := by
  unfold commitLcAdvance
  dsimp only
  (repeat' split) <;> simp only [State.ite_parts .., ite_self, implies_true, closeDebug_frame .., transition_frame .., provisionPart_memWf,
    retirePart_memWf, h]

theorem commitBody_memWf (j : Job) (c : CmdCode) (b : CmdBlock) (s : State) (h : Memory.wf s.mem = true) : Memory.wf
    (commitBody j c b s).1.mem = true := by
  unfold commitBody
  (repeat' split) <;> simp only [State.ite_parts .., ite_self, implies_true, enterWhiteout_frame .., exitWhiteout_memWf, commitUnlock_memWf,
    writeSlot_frame .., eraseSlot_frame .., writtenWords_frame .., commitAppletLoad_frame .., removeApplet_memWf, noteLevel_frame ..,
    modCounter_frame .., openDebug_frame .., commitLcAdvance_memWf, commitReceipt_frame .., commitSesSet_frame ..,
    commitSesClear_frame .., h]

theorem handOver_memWf (j : Job) (c : CmdCode) (b : CmdBlock) (seq : Nat) (s : State) (h : Memory.wf s.mem = true) :
    Memory.wf (handOver j c b seq s).mem = true := by
  unfold handOver
  dsimp only
  (repeat' split) <;> simp only [State.ite_parts .., ite_self, implies_true, postMail_memWf, raiseIf_frame .., h]

theorem commitCommand_memWf (j : Job) (c : CmdCode) (b : CmdBlock) (s : State) (h : Memory.wf s.mem = true) :
    Memory.wf (commitCommand j c b s).mem = true := by
  simp only [commitCommand, State.ite_parts .., ite_self, implies_true, modJob_frame .., commitBody_memWf,
    appendCommit_frame .., finishJob_frame .., handOver_memWf, drawFree_frame .., h]

theorem completeEntry_memWf (tag : Nat) (s : State) (h : Memory.wf s.mem = true) : Memory.wf (completeEntry tag
    s).mem = true := by
  unfold completeEntry
  (repeat' split) <;> simp only [State.ite_parts .., ite_self, implies_true, writeCompletion_memWf, failCommand_frame .., commitCommand_memWf,
    h]

theorem startExport_memWf (toCard : State → State) (tag : Nat) (s : State) (h : Memory.wf s.mem = true) (hf : ∀ s,
    Memory.wf s.mem = true → Memory.wf (toCard s).mem = true) : Memory.wf (startExport toCard tag s).mem = true :=
    by
  unfold startExport
  split
  · exact h
  · dsimp only
    split
    · simp only [finishJob_frame ..]
      split <;> simp only [captureFault_frame .., modJob_frame .., writeCounter_frame .., h]
    · split
      · simp only [finishJob_frame .., readHolds_frame .., modJob_frame .., writeCounter_frame .., h]
      split
      · rename_i h1
        have := congrArg Prod.snd h1
        dsimp only at this
        simp only [finishJob_frame .., ← this, buildImage_frame .., modJob_frame .., writeCounter_frame .., h]
      · rename_i h1
        have := congrArg Prod.snd h1
        dsimp only at this
        split
        · exact hf _ (by simp only [modJob_frame .., ← this, buildImage_frame .., writeCounter_frame .., h])
        · simp only [requestBack_frame ..]
          exact giveOutput_memWf _ _ _ (by simp only [drawFree_frame ..];simp only [modJob_frame .., ← this, buildImage_frame .., writeCounter_frame .., h])

theorem exportsFuel_memWf (toCard : State → State) (x1 : Nat) (x2 : State) (h : Memory.wf x2.mem = true) (hf : ∀ s,
    Memory.wf s.mem = true → Memory.wf (toCard s).mem = true) : Memory.wf (exportsFuel toCard x1 x2).mem = true :=
    by
  induction x1 generalizing x2 with
  | zero => exact h
  | succ n ih =>
    unfold exportsFuel
    split
    · exact h
    · split
      · exact ih _ (startExport_memWf _ _ _ h hf)
      · exact h

theorem runExports_memWf (toCard : State → State) (s : State) (h : Memory.wf s.mem = true) (hf : ∀ s, Memory.wf
    s.mem = true → Memory.wf (toCard s).mem = true) : Memory.wf (runExports toCard s).mem = true := by
  unfold runExports
  skip
  repeat' (first | assumption | apply exportsFuel_memWf | refine foldl_memWf _ (fun _ _ _ => ?_) _ _ ?_ | exact hf _ ‹_› | (simp only [State.ite_parts .., ite_self]) | split)

theorem hostReadBack_memWf (toCard : State → State) (tag : Nat) (data : Bytes) (s : State) (h : Memory.wf s.mem =
    true) (hf : ∀ s, Memory.wf s.mem = true → Memory.wf (toCard s).mem = true) : Memory.wf (hostReadBack toCard tag
    data s).mem = true := by
  unfold hostReadBack
  skip
  repeat' (first | assumption | apply runExports_memWf | refine foldl_memWf _ (fun _ _ _ => ?_) _ _ ?_ | exact hf _ ‹_› | (simp only [State.ite_parts .., ite_self, finishJob_frame .., exportVerified_frame ..]) | split)

theorem readBlock_memWf (data : Bytes) (s : State) (h : Memory.wf s.mem = true) : Memory.wf (readBlock data s).mem =
    true := by
  unfold readBlock
  dsimp only
  (repeat' split) <;> simp only [State.ite_parts .., ite_self, implies_true, modCard_frame .., giveOutput_memWf, readEnds_frame .., toPhase_frame ..,
    h]

theorem flowCommit_memWf (b : CmdBlock) (s : State) (h : Memory.wf s.mem = true) : Memory.wf (flowCommit b s).mem =
    true := by
  unfold flowCommit
  (repeat' split) <;> simp only [State.ite_parts .., ite_self, implies_true, commitCommand_memWf, h]

theorem runFlowCommand_memWf (b : CmdBlock) (s : State) (h : Memory.wf s.mem = true) : Memory.wf (runFlowCommand b
    s).1.mem = true := by
  unfold runFlowCommand
  dsimp only
  (repeat' split) <;> simp only [State.ite_parts .., ite_self, implies_true, flowEnd_frame .., flowCommit_memWf, releaseBarrier_frame ..,
    joinJobs_frame .., takeCredit_frame .., h]

theorem flowResponse_memWf (len : Nat) (payload : Bytes) (s : State) (h : Memory.wf s.mem = true) : Memory.wf
    (flowResponse len payload s).mem = true := by
  unfold flowResponse
  dsimp only
  (repeat' split) <;> simp only [State.ite_parts .., ite_self, implies_true, endFlow_frame .., runFlowCommand_memWf, flowRan_frame .., h]

theorem mailboxResponse_memWf (b : Bytes) (s : State) (h : Memory.wf s.mem = true) : Memory.wf (mailboxResponse b
    s).mem = true := by
  unfold mailboxResponse
  dsimp only
  (repeat' split) <;> simp only [State.ite_parts .., ite_self, implies_true, endExchange_frame .., toPhase_frame .., closeMbx_frame .., modCard_frame ..,
    flowResponse_memWf, endFlow_frame .., giveOutput_memWf, freePort_frame .., h]

theorem goodBlock_memWf (data : Bytes) (s : State) (h : Memory.wf s.mem = true) : Memory.wf (goodBlock data s).mem =
    true := by
  unfold goodBlock
  (repeat' split) <;> simp only [State.ite_parts .., ite_self, implies_true, cardReady_frame .., modCard_frame .., readIdentity_frame ..,
    readBlock_memWf, readBackBlock_frame .., endExchange_frame .., afterIdentity_frame .., mailboxResponse_memWf, h]

theorem startOnPort_memWf (j : Job) (s : State) (h : Memory.wf s.mem = true) : Memory.wf (startOnPort j s).mem =
    true := by
  unfold startOnPort
  dsimp only
  (repeat' split) <;> simp only [State.ite_parts .., ite_self, implies_true, modCard_frame .., fixCardJob_frame .., modJob_frame .., toPhase_frame ..,
    endExchange_frame .., giveOutput_memWf, h]

theorem portFuel_memWf (x0 : Nat) (x1 : State) (h : Memory.wf x1.mem = true) : Memory.wf (portFuel x0 x1).mem = true
    := by
  induction x0 generalizing x1 with
  | zero => exact h
  | succ n ih =>
    unfold portFuel
    (repeat' split) <;> simp only [ih, State.ite_parts .., ite_self, implies_true, startOnPort_memWf, h]

theorem runPort_memWf (s : State) (h : Memory.wf s.mem = true) : Memory.wf (runPort s).mem = true := by
  simp only [runPort, State.ite_parts .., ite_self, implies_true, portFuel_memWf, h]

theorem portNext_memWf (s : State) (h : Memory.wf s.mem = true) : Memory.wf (portNext s).mem = true := by
  have h1 := runPort_memWf s h
  have h2 := runPort_memWf _ (runExports_memWf runPort (runPort s) h1 (fun s h => runPort_memWf s h))
  unfold portNext
  simp only [settlePort_frame .., h2]

theorem cardResponse_memWf (r : CardResp) (s : State) (h : Memory.wf s.mem = true) : Memory.wf (cardResponse r
    s).mem = true := by
  unfold cardResponse
  (repeat' split) <;> simp only [State.ite_parts .., ite_self, implies_true, goodResponse_frame .., commandFails_frame .., countCrc_frame ..,
    toPhase_frame .., modCard_frame .., identSpeed_frame .., identProbe_frame .., goodBlock_memWf, busFails_frame ..,
    writeConfirmed_frame .., h]

theorem gathered_memWf (tag : Nat) (s : State) (h : Memory.wf s.mem = true) : Memory.wf (gathered tag s).mem = true
    := by
  unfold gathered
  (repeat' split) <;> simp only [State.ite_parts .., ite_self, implies_true, wakeJob_frame .., modJob_frame .., fitCurve_frame .., portNext_memWf, h]

theorem afterArrival_memWf (tag : Nat) (s : State) (h : Memory.wf s.mem = true) : Memory.wf (afterArrival tag s).mem
    = true := by
  unfold afterArrival
  (repeat' split) <;> simp only [State.ite_parts .., ite_self, implies_true, inputBad_frame .., leaveChannel_frame .., gathered_memWf,
    feedSides_frame .., h]

theorem sramRead_memWf {n tag a len : Nat} {s t : State} (w : Memory.wf s.mem = true)
    (h : sramRead n tag a len s = .error t) : Memory.wf t.mem = true := by
  unfold sramRead at h
  dsimp only at h
  split at h
  · cases h; simp only [finishJob_frame .., modJob_frame .., faultDma_frame .., w]
  · split at h
    · cases h; simp only [finishJob_frame .., modJob_frame .., readWords_frame .., w]
    · cases h

theorem sramSegs_memWf {n tag : Nat} {l : List (Nat × Nat)} {s t : State} (w : Memory.wf s.mem = true)
    (h : sramSegs n tag l s = .error t) : Memory.wf t.mem = true := by
  induction l generalizing s with
  | nil => cases h
  | cons g l ih =>
    unfold sramSegs at h
    split at h
    · rename_i h1; cases h; exact sramRead_memWf w h1
    · cases h2 : sramSegs n tag l (readWords g.1 g.2 s) with
      | ok x => rw [h2] at h; cases h
      | error u => rw [h2] at h; cases h; exact ih (by simp only [readWords_frame .., w]) h2

theorem sramSource_memWf (n : Nat) (tag : Nat) (s : State) (h : Memory.wf s.mem = true) : Memory.wf (sramSource n
    tag s).mem = true := by
  unfold sramSource
  split
  · exact h
  · split
    · exact afterArrival_memWf _ _ h
    · split
      · rename_i h1; exact sramSegs_memWf h h1
      · refine afterArrival_memWf _ _ ?_
        simp only [modJob_frame .., foldl_mem, readWords_frame .., implies_true, h]

theorem sramList_memWf {n tag a k : Nat} {b : Bool} {s t : State} (w : Memory.wf s.mem = true)
    (h : (if b then (sramRead n tag a k s).map some else .ok none) = .error t) : Memory.wf t.mem = true := by
  split at h
  · cases h1 : sramRead n tag a k s with
    | ok x => rw [h1] at h; cases h
    | error u => rw [h1] at h; cases h; exact sramRead_memWf w h1
  · cases h

theorem sramGather_memWf (n : Nat) (tag : Nat) (s : State) (h : Memory.wf s.mem = true) : Memory.wf (sramGather n
    tag s).mem = true := by
  unfold sramGather
  split
  · exact h
  · dsimp only
    split
    · rename_i h1; exact sramList_memWf h h1
    · rename_i h1 _; exact sramList_memWf h h1
    · split
      · simp only [inputBad_frame .., modJob_frame .., h]
      · exact sramSource_memWf _ _ _ (by simp only [modJob_frame .., h])

theorem edgeEnds_memWf (tag : Nat) (s : State) (h : Memory.wf s.mem = true) : Memory.wf (edgeEnds tag s).mem = true
    := by
  unfold edgeEnds
  (repeat' split) <;> simp only [State.ite_parts .., ite_self, implies_true, curveEnds_frame .., edgeDone_memWf, h]

theorem go_memWf (tag : Nat) (s : State) (h : Memory.wf s.mem = true) : Memory.wf (go tag s).mem = true := by
  unfold go
  (repeat' split) <;> simp only [State.ite_parts .., ite_self, implies_true, inputBad_frame .., sramGather_memWf, afterArrival_memWf,
    requestNamed_frame .., h]

theorem goCritical_memWf (g : Option CritData) (tag : Nat) (s : State) (h : Memory.wf s.mem = true) : Memory.wf
    (goCritical g tag s).mem = true := by
  unfold goCritical
  (repeat' split) <;> simp only [State.ite_parts .., ite_self, implies_true, go_memWf, inputBad_frame .., portNext_memWf, completeEntry_memWf,
    releaseBarrier_frame .., gatherWhole_frame .., h]

theorem arriveCritical_memWf (c : CmdCode) (a : Arrival) (g : Option CritData) (s : State) (h : Memory.wf s.mem =
    true) : Memory.wf (arriveCritical c a g s).mem = true := by
  unfold arriveCritical
  exact arrive_memWf _ _ _ _ h (fun n s h => goCritical_memWf _ n s h)

theorem descriptorFails_memWf (r : RingId) (index : Nat) (k : ReadFault) (addr : DWord) (pick : Nat) (s : State) (h
    : Memory.wf s.mem = true) : Memory.wf (descriptorFails r index k addr pick s).mem = true := by
  unfold descriptorFails
  split
  · dsimp only
    refine fixedDesc_memWf _ _ _ _ _ _ _ _ (noteStatus_memWf _ _ _ _ (hostReadFailed_memWf _ _ _ _ _ ?_))
    simp only [State.ite_parts .., holdRequest_frame .., ite_self, h]
  · exact h

theorem arriveOp_memWf (o : Op) (a : Arrival) (s : State) (h : Memory.wf s.mem = true) : Memory.wf (arriveOp o a
    s).mem = true := by
  unfold arriveOp
  exact arrive_memWf _ _ _ _ h (fun n s h => go_memWf n s h)

theorem readFaults_memWf (tag : Nat) (k : ReadFault) (addr : DWord) (s : State) (h : Memory.wf s.mem = true) :
    Memory.wf (readFaults tag k addr s).mem = true := by
  unfold readFaults
  dsimp only
  (repeat' split) <;> simp only [State.ite_parts .., ite_self, implies_true, modJob_frame .., hostReadFailed_memWf, portNext_memWf,
    nextBlock_frame .., finishJob_frame .., h]

theorem readTimesOut_memWf (tag : Nat) (req : Nat) (addr : DWord) (s : State) (h : Memory.wf s.mem = true) :
    Memory.wf (readTimesOut tag req addr s).mem = true := by
  unfold readTimesOut
  (repeat' split) <;> simp only [State.ite_parts .., ite_self, implies_true, readFaults_memWf, holdRequest_frame .., h]

theorem secondGather_memWf (tag : Nat) (s : State) (h : Memory.wf s.mem = true) : Memory.wf (secondGather tag s).mem
    = true := by
  unfold secondGather
  (repeat' split) <;> simp only [State.ite_parts .., ite_self, implies_true, sramSource_memWf, requestSource_frame .., h]

theorem passEnds_memWf (ends : State → State) (tag : Nat) (s : State) (h : Memory.wf s.mem = true) (hf : ∀ s,
    Memory.wf s.mem = true → Memory.wf (ends s).mem = true) : Memory.wf (passEnds ends tag s).mem = true := by
  unfold passEnds
  (repeat' split) <;> simp only [State.ite_parts .., ite_self, implies_true, secondGather_memWf, hf, h]

theorem dataArrives_memWf (tag : Nat) (item : GatherItem) (data : Bytes) (s : State) (h : Memory.wf s.mem = true) :
    Memory.wf (dataArrives tag item data s).mem = true := by
  unfold dataArrives
  split
  · simp only [unexpectedData_frame .., h]
  · split
    · split
      · exact sramGather_memWf _ _ _ h
      · exact h
    · split
      · exact portNext_memWf _ (hostReadBack_memWf _ _ _ _ h (fun s h => runPort_memWf s h))
      · split
        · simp only [unexpectedData_frame .., h]
        · rename_i j _ _ _ _ _ _
          dsimp only
          have h1 : Memory.wf (afterArrival tag (listBrings item tag j (modJob tag (keepItem item data)
              (if (item == .block) = true then stageWords tag 8 16 s else s)))).mem = true := by
            refine afterArrival_memWf _ _ ?_
            simp only [listBrings_frame .., modJob_frame .., State.ite_parts .., stageWords_frame .., ite_self, h]
          exact wf_ite (portNext_memWf _ (by simp only [nextBlock_frame .., h1])) h1

theorem preempt_memWf (u : UnitRef) (s : State) (h : Memory.wf s.mem = true) : Memory.wf (preempt u s).mem = true :=
    by
  unfold preempt
  dsimp only
  (repeat' split) <;> simp only [State.ite_parts .., ite_self, implies_true, preemptSide_frame .., modJob_frame .., bladeBoundary_memWf,
    finishJob_frame .., dispatchUnit_frame .., suspendJob_frame .., h]

theorem unitStalls_memWf (u : UnitRef) (place : Nat) (operand : Bool) (bad : List Nat) (s : State) (h : Memory.wf
    s.mem = true) : Memory.wf (unitStalls u place operand bad s).mem = true := by
  unfold unitStalls
  (repeat' split) <;> simp only [State.ite_parts .., ite_self, implies_true, checkCluster_memWf, faultUnit_frame .., groomerLost_frame .., h]

theorem edgeSlips_memWf (n : Nat) (bad : List Nat) (s : State) (h : Memory.wf s.mem = true) : Memory.wf (edgeSlips n
    bad s).mem = true := by
  unfold edgeSlips
  dsimp only
  (repeat' split) <;> simp only [State.ite_parts .., ite_self, implies_true, faultUnit_frame .., checkCluster_memWf, setEdgeEvt_frame .., h]

theorem writeRing_memWf (off : Nat) (v : Word) (s : State) (h : Memory.wf s.mem = true) : Memory.wf (writeRing off v
    s).mem = true := by
  unfold writeRing
  (repeat' split) <;> simp only [State.ite_parts .., ite_self, implies_true, ringField_frame .., ringCtrl_memWf, ringStatusClear_frame .., h]

theorem bar0Write_memWf (off : Nat) (v : Word) (s : State) (h : Memory.wf s.mem = true) : Memory.wf (bar0Write off v
    s).mem = true := by
  unfold bar0Write
  split
  · simp only [writeBlock_frame .., h]
  · split
    · simp only [writeEvents_frame .., h]
    · split
      · exact writeRing_memWf _ _ _ h
      · split
        · exact h
        · split
          · simp only [clearPuEvt_frame .., h]
          · split
            · unfold rws; split
              · exact h
              · simp only [writeMap_frame .., h]
            · split
              · simp only [writeMsix_frame .., h]
              · exact h

theorem writeRegister_memWf (space : RegSpace) (off : Nat) (v : Word) (s : State) (h : Memory.wf s.mem = true) :
    Memory.wf (writeRegister space off v s).mem = true := by
  unfold writeRegister
  (repeat' split) <;> simp only [State.ite_parts .., ite_self, implies_true, bar0Write_memWf, badAccess_frame .., peripheralWrite_frame ..,
    configWrite_frame .., h]

theorem releaseHeld_memWf (s : State) (h : Memory.wf s.mem = true) : Memory.wf (releaseHeld s).mem = true := by
  unfold releaseHeld
  dsimp only
  refine foldl_memWf _ (fun s n h => advanceRing_memWf _ _ h) _ _ (foldl_memWf _ (fun s e h => entryNow_memWf _ _ _ _ h) _ _ ?_)
  exact foldl_memWf _ (fun s j h => by simp only [requestBack_frame ..]; exact releaseOutput_memWf _ _ h) _ _ h

theorem returnWriteCredit_memWf (s : State) (h : Memory.wf s.mem = true) : Memory.wf (returnWriteCredit s).mem =
    true := by
  simp only [returnWriteCredit, State.ite_parts .., ite_self, implies_true, releaseHeld_memWf, h]

theorem functionReset_memWf (origin : Nat) (keepPayload : Bool) (s : State) (h : Memory.wf s.mem = true) : Memory.wf
    (functionReset origin keepPayload s).mem = true := by
  unfold functionReset
  (repeat' split) <;> simp only [State.ite_parts .., ite_self, implies_true, resetConfig_frame .., resetRws_frame .., dropHost_frame ..,
    portNext_memWf, setPcieErr_frame .., traceEnded_frame .., h]

theorem clearBme_memWf (s : State) (h : Memory.wf s.mem = true) : Memory.wf (clearBme s).mem = true := by
  unfold clearBme
  split
  · exact h
  · dsimp only
    split
    · refine portNext_memWf _ (foldl_memWf _ (fun s n h => raiseRing_memWf _ _ h) _ _ ?_)
      simp only [setPcieErr_frame .., traceEnded_frame .., dropHost_frame .., h]
    · exact h

theorem eraseTorn_memWf (s : State) (w : Nat × Nat) (h : Memory.wf s.mem = true) : Memory.wf (eraseTorn s w).mem =
    true := by
  unfold eraseTorn
  split
  · exact h
  · dsimp only
    have hm : ∀ (b : Prop) [Decidable b] (m : List (Nat × BitVec 8)) (a n : Nat), Memory.wf m = true →
        Memory.wf (if b then m else memErase m a n) = true := by
      intro b _ m a n hw
      split
      · exact hw
      · exact memWf_erase _ _ _ hw
    split <;> simp only [setCtrEvt_frame .., modCounter_frame ..] <;>
      exact hm _ _ _ _ (by simp only [setRsfEvt_frame .., setCond_frame .., wearWrite_frame .., h])

theorem stepIntegrity_memWf (i : StartInputs) (s : State) (h : Memory.wf s.mem = true) : Memory.wf (stepIntegrity i
    s).1.mem = true := by
  unfold stepIntegrity
  dsimp only
  repeat' (first | assumption | refine eraseTorn_memWf _ _ ?_ | refine foldl_memWf _ (fun _ _ _ => ?_) _ _ ?_ | (simp only [State.ite_parts .., ite_self, poisonWord_frame .., jumpCounter_frame .., loadLatches_frame ..]) | split)

theorem clearForReset_memWf (por : Bool) (s : State) (h : Memory.wf s.mem = true) : Memory.wf (clearForReset por
    s).mem = true := by
  refine memWf_erase _ 0x10000000 0x400000 ?_
  simp only [foldl_mem, giveBackCredit_frame .., implies_true, h]

theorem assertReset_memWf (por : Bool) (s : State) (h : Memory.wf s.mem = true) : Memory.wf (assertReset por s).mem
    = true := by
  simp only [assertReset, State.ite_parts .., ite_self, implies_true, clearForReset_memWf, flushTracks_frame .., h]

theorem stepPowder_memWf (i : StartInputs) (s : State) (h : Memory.wf s.mem = true) : Memory.wf (stepPowder i
    s).1.mem = true := by
  unfold stepPowder
  dsimp only
  repeat' (first | assumption | refine startupPass_memWf _ ?_ | refine healthFailed_memWf _ _ _ ?_ | refine foldl_memWf _ (fun _ _ _ => ?_) _ _ ?_ | (simp only [State.ite_parts .., ite_self, setUnitRec_frame .., setGrmEvt_frame .., declareFailed_frame ..]) | split)

theorem stepOpen_memWf (i : StartInputs) (s : State) (h : Memory.wf s.mem = true) : Memory.wf (stepOpen i s).1.mem =
    true := by
  simp only [stepOpen, State.ite_parts .., ite_self, implies_true, releaseDoorbells_memWf, tryPower_frame .., setPort_frame ..,
    checkHours_frame .., setLcEvt_frame .., h]

theorem stepDetectors_memWf (i : StartInputs) (s : State) (h : Memory.wf s.mem = true) : Memory.wf (stepDetectors i
    s).1.mem = true := by
  simp only [stepDetectors, State.ite_parts .., ite_self, implies_true, stimulus_memWf, h]

theorem tripLost_memWf (s : State) (h : Memory.wf s.mem = true) : Memory.wf (tripLost s).mem = true := by
  simp only [tripLost, State.ite_parts .., ite_self, implies_true, tripActs_memWf, h]

theorem stepHut_memWf (i : StartInputs) (s : State) (h : Memory.wf s.mem = true) : Memory.wf (stepHut i s).1.mem =
    true := by
  unfold stepHut
  dsimp only
  (repeat' split) <;> simp only [State.ite_parts .., ite_self, implies_true, foldl_mem, loseHut_frame .., splitLatch_frame .., tripLost_memWf,
    setHutEvt_frame .., h]

theorem initPart_memWf (v : Byte) (s : State) (h : Memory.wf s.mem = true) : Memory.wf (initPart v s).mem = true :=
    by
  unfold initPart
  (repeat' split) <;> simp only [State.ite_parts .., ite_self, implies_true, transition_frame .., assertReset_memWf, appendAll_frame .., h]

theorem startSteps_memWf (i : StartInputs) :
    ∀ x ∈ startSteps i, ∀ s, Memory.wf s.mem = true → Memory.wf (x.2 s).1.mem = true := by
  intro x hx s h
  simp only [startSteps, List.mem_cons, List.not_mem_nil, or_false] at hx
  rcases hx with rfl | rfl | rfl | rfl | rfl | rfl | rfl | rfl | rfl | rfl <;>
    simp only [stepHut_memWf, stepIntegrity_memWf, stepRaze_frame .., stepTracks_frame .., stepDetectors_memWf, stepPowder_memWf, stepSeeds_frame .., stepVectors_frame .., stepRuntime_frame .., stepOpen_memWf, h]

theorem runStart_memWf (stop : Option Nat) (l : List (Nat × (State → State × Nat)))
    (hf : ∀ x ∈ l, ∀ s, Memory.wf s.mem = true → Memory.wf (x.2 s).1.mem = true) (s : State)
    (h : Memory.wf s.mem = true) : Memory.wf (runStart stop l s).mem = true := by
  induction l generalizing s with
  | nil => exact h
  | cons x l ih =>
    have h0 := hf x (List.mem_cons_self ..) s h
    have h1 := ih (fun y hy => hf y (List.mem_cons_of_mem _ hy))
    unfold runStart
    split
    · exact h
    · dsimp only
      split
      · simp only [stopStart_frame .., h0]
      · exact h1 _ h0

theorem beginStart_memWf (i : StartInputs) (s : State) (h : Memory.wf s.mem = true) : Memory.wf (beginStart i s).mem
    = true := by
  unfold beginStart
  split
  · exact h
  · exact runStart_memWf _ _ (startSteps_memWf i) _ h

end Sys2Proof.Machine
end

