-- ==== Sys2Proof/Tests/Slice0.lean ====
section
/-!
SUPPORT. Sys2Proof/Tests/Slice0.lean: small checks of the model: operands that WellFormed refuses, single steps with
results worked out by hand from the rules, and for every statement with hypotheses a state and operands that meet them
all (the theorems named witness_…).
-/
namespace Sys2Proof.Tests
open Sys2Proof.Machine

set_option Elab.async false
set_option exponentiation.threshold 1100

/-! ### A part that runs -/

def up (u : UnitState) : UnitRec := { UnitRec.reset with state := u }

/-- Two units in service and a standby. -/
def pool : Tbl UnitRec := [(0, up .inService), (1, up .inService), (2, up .standby)]

def seededGroomer : Groomer :=
  { Groomer.reset with instantiated := true, k := List.replicate 32 1, v := List.replicate 16 2, everSeeded := true }

/-- A deployed, sealed part after its start-up, with a link of 4 lanes, a random source and an enabled card port. -/
def live : State :=
  { State.reset with
    now := 1000,
    life := { LifeCycle.reset with
      state := .deployed, serial := 7, isSealed := true, startDone := true, startStep := 10, porst := false,
      perst := false, porstSeen := false },
    link := { Link.reset with up := true, gen := 4, width := 4, mps := 1, bme := true, msixEnable := true },
    gate := { Gate.reset with isOpen := true },
    units := { Units.reset with edges := pool, blades := pool, lifts := pool, hashes := pool, groomers := pool },
    powder := { Powder.reset with
      state := .running, seeded := true, grm := [(0, seededGroomer), (1, seededGroomer), (2, seededGroomer)] },
    trk := { Tracks.reset with ready := true },
    hut := { Hut.reset with supply := .vio, time := 1000000 },
    card := { Card.reset with port := .enabled } }

/-! ### Operands out of range are not well formed -/

def someArrival : Arrival := { ring := .host 5, index := 0, desc := 0, pick := 9 }

theorem test_wf_rings : Instr.wf (.doorbell 63 0) = true ∧ Instr.wf (.doorbell 64 0) = false ∧
    Instr.wf (.ringEnable 64) = false ∧ Instr.wf (.ringDisable 64) = false ∧ Instr.wf (.ringRearm 64) = false ∧
    Instr.wf (.ringRearmFlush 64 []) = false ∧ Instr.wf (.ringPortDb 32 0) = false ∧
    Instr.wf (.ringPortEnable 32) = false ∧ Instr.wf (.ringPortDisable 32) = false ∧
    Instr.wf (.ringPortRearm 32) = false ∧ Instr.wf (.ringPortRearmFlush 32) = false := by decide

theorem test_wf_arrival : Instr.wf (.hash someArrival) = true ∧
    Instr.wf (.hash { someArrival with ring := .host 64 }) = false ∧
    Instr.wf (.unlock { someArrival with ring := .internal 32 } none) = false ∧
    Instr.wf (.opcodeAbsentDescriptor { someArrival with index := 65536 }) = false ∧
    Instr.wf (.descriptorReadFault (.host 64) 0 .ur 0 0) = false ∧
    Instr.wf (.descriptorReadFault (.host 63) 65536 .ur 0 0) = false := by decide

theorem test_wf_tags : Instr.wf (.hashJobDone 0xFFFFFF) = true ∧ Instr.wf (.hashJobDone 0x1000000) = false ∧
    Instr.wf (.gatherDataArrival 0x1000000 .source []) = false ∧
    Instr.wf (.completionEntryWrite 0x1000000) = false ∧ Instr.wf (.criticalBarrierRelease 0x1000000) = false := by
  decide

theorem test_wf_offsets : Instr.wf (.registerWrite .bar0 0x3FFC 0) = true ∧
    Instr.wf (.registerWrite .bar0 0x4000 0) = false ∧ Instr.wf (.registerWrite .bar0 0x401 0) = false ∧
    Instr.wf (.registerWrite .peripheral 0x10000 0) = false ∧
    Instr.wf (.registerWrite .peripheral 0x2002 0) = false := by decide

theorem test_wf_units : Instr.wf (.preemptionPoint { kind := .edge, num := 67 }) = true ∧
    Instr.wf (.preemptionPoint { kind := .edge, num := 68 }) = false ∧
    Instr.wf (.unitVectorsDone { kind := .blade, num := 18 } true) = false ∧
    Instr.wf (.unitWatchdogStall { kind := .lift, num := 8 } 0 false []) = false ∧
    Instr.wf (.unitWatchdogStall { kind := .hash, num := 8 } 0 false []) = false ∧
    Instr.wf (.unitWatchdogStall { kind := .groomer, num := 4 } 0 false []) = false ∧
    Instr.wf (.unitWatchdogStall { kind := .blade, num := 0 } 8 false []) = false ∧
    Instr.wf (.edgeEnable 68) = false ∧ Instr.wf (.bladeDisable 18) = false ∧ Instr.wf (.paceSlip 68 []) = false ∧
    Instr.wf (.edgeSlotCopyDone 68) = false ∧ Instr.wf (.groomerDrawDone 4) = false ∧
    Instr.wf (.maskingRefresh 86) = false ∧ Instr.wf (.slotLenWrite 64) = false := by decide

theorem test_wf_slots : Instr.wf (.vaultRetiringErase (.root 31) 1) = true ∧
    Instr.wf (.vaultRetiringErase (.root 32) 1) = false ∧
    Instr.wf (.vaultRetiringErase (.priv 256) 1) = false := by decide

theorem test_wf_sensors : Instr.wf (.splitMonitorMeasurement [90]) = false ∧
    Instr.wf (.splitMonitorMeasurement (List.replicate 16 256)) = false ∧
    Instr.wf (.splitMonitorMeasurement (List.replicate 16 255)) = true ∧
    Instr.wf (.alarmInputSample [0, 0, 0] 1500) = false ∧ Instr.wf (.alarmInputStateChange 4) = false ∧
    Instr.wf (.telemetryRecord [256]) = false ∧ Instr.wf (.aptWindowComplete [1] [2]) = false ∧
    Instr.wf (.conditioningDone [0]) = false ∧ Instr.wf (.healthFailure 8 .startup) = false ∧
    Instr.wf (.trimServoStep 8 2048) = false ∧ Instr.wf (.trimServoStep 7 4097) = false ∧
    Instr.wf (.trimLimit 8) = false := by decide

theorem test_wf_patrol : Instr.wf (.detectorTrip 128 true false) = true ∧
    Instr.wf (.detectorTrip 127 true false) = false ∧ Instr.wf (.detectorTrip 248 true false) = false ∧
    Instr.wf (.disagreement 248 true false) = false ∧ Instr.wf (.sourceClearExpiry 127) = false ∧
    Instr.wf (.detectorStimulus [127]) = false ∧ Instr.wf (.hutTrip 127 true false 0 3000 3000) = false := by decide

theorem test_wf_cores : Instr.wf (.add 7 1 2 3) = true ∧ Instr.wf (.add 8 1 2 3) = false ∧
    Instr.wf (.yield 8) = false ∧ Instr.wf (.coreDispatch 8) = false ∧ Instr.wf (.randomRefillArrival 8) = false ∧
    Instr.wf (.appletTimerExpiry 32) = false ∧ Instr.wf (.appletStartComplete 32 true) = false ∧
    Instr.wf (.appletRingDisabled 32) = false ∧ Instr.wf (.puTagCountWrite 8 1 false) = false ∧
    Instr.wf (.protectionEntryWrite 8 true 0 0 0 0 false) = false ∧
    Instr.wf (.protectionEntryWrite 0 true 32 0 0 0 false) = false ∧
    Instr.wf (.protectionEntryWrite 0 true 0 8 0 0 false) = false ∧
    Instr.wf (.protectionEntryWrite 0 false 12 0 0 0 false) = false ∧
    Instr.wf (.protectionEntryWrite 0 false 11 16 0 0 false) = false ∧
    Instr.wf (.protectionEntryWrite 0 false 11 15 0 0 false) = true := by decide

theorem test_wf_link_card_and_storage : Instr.wf (.linkUp 4 4) = true ∧ Instr.wf (.linkUp 0 4) = false ∧
    Instr.wf (.linkUp 5 4) = false ∧ Instr.wf (.linkChange 1 3) = false ∧
    Instr.wf (.deviceControlWrite 6 2 true true) = false ∧ Instr.wf (.deviceControlWrite 1 6 true true) = false ∧
    Instr.wf (.msixUnmask (.unmaskVector 128)) = false ∧ Instr.wf (.coalesceIntervalEnd 128) = false ∧
    Instr.wf (.eventHoldExpiry 1024) = false ∧ Instr.wf (.evtRingEnable 32) = false ∧
    Instr.wf (.telRingEnable 32) = false ∧ Instr.wf (.scrubWord 102 0 .good) = false ∧
    Instr.wf (.correctionWriteBack 102 0) = false ∧ Instr.wf (.retirementComplete 102 0) = false ∧
    Instr.wf (.clearQueueOverwrite 102) = false ∧
    Instr.wf (.cardCommandResponse (.response 16 true false 0)) = false ∧
    Instr.wf (.cardCommandResponse (.block [0])) = false := by decide

def cleanStart : StartInputs :=
  { hutAnswers := true, splitLatches := [], tornWords := [], badWords := [], recordLost := false,
    mapsDisagree := false, razeReadBackFails := false, tornEntries := 0, damagedHut := [], detectorsFailing := [],
    katFails := [], conditionerFails := false, healthFailures := [], blocks := [], provisioningKey := [],
    romMatches := true, tenMicros := 100, interrupted := none }

theorem test_wf_start_inputs : cleanStart.wf = true ∧ StartInputs.wf { cleanStart with splitLatches := [4] } = false ∧
    StartInputs.wf { cleanStart with tornWords := [(102, 0)] } = false ∧
    StartInputs.wf { cleanStart with badWords := [(102, 0)] } = false ∧
    StartInputs.wf { cleanStart with detectorsFailing := [127] } = false ∧
    StartInputs.wf { cleanStart with katFails := [{ kind := .hash, num := 8 }] } = false ∧
    StartInputs.wf { cleanStart with healthFailures := [(8, .startup)] } = false ∧
    StartInputs.wf { cleanStart with blocks := [[0]] } = false ∧
    StartInputs.wf { cleanStart with interrupted := some 11 } = false ∧
    Instr.wf (.resetDeassert { cleanStart with tenMicros := 2 ^ 32 }) = false := by decide

/-- The table gives no row bits, so no word spells a command. -/
theorem test_no_row_has_bits : decodeTableWord 32 0 = none ∧ (live.withFetchWord 32 0).pending = [] := by decide

/-! ### The step -/

theorem witness_StepRunsTheFrontCommand : ∃ (s : State) (c : Instr) (rest : List Instr), s.pending = c :: rest :=
  ⟨{ live with pending := [.crystalStop, .d3hotEntry] }, .crystalStop, [.d3hotEntry], rfl⟩

theorem witness_IdleStepIsOneTick : ∃ s : State, s.pending = [] ∧ s.hut.frac < 390625 := ⟨live, rfl, by decide⟩

/-- R445: 128 / 390625 of a count every 10 ns; the last part of a count carries. -/
theorem test_tick_carries :
    (match step { live with hut := { live.hut with frac := 390624 } } with
      | .next t => decide (t.now = 1001 ∧ t.hut.time = 1000001 ∧ t.hut.frac = 127) | _ => false) = true := by decide

theorem witness_StepsKeepMemoryCanonical : ∃ s t : State, s.memOk ∧ step s = .next t :=
  ⟨{ live with mem := [(0x10000000, 5)], pending := [.d3hotEntry] },
    { live with mem := [(0x10000000, 5)], link := { live.link with d3hot := true } },
    (by decide : Memory.wf [(0x10000000, 5)] = true), rfl⟩

theorem witness_NoStepLowersALevelOrDisablesRaze : ∃ s t : State, step s = .next t ∧ s.patrol.razeEnabled = true :=
  ⟨{ live with patrol := { live.patrol with razeEnabled := true }, pending := [.d3hotEntry] },
    { live with patrol := { live.patrol with razeEnabled := true }, link := { live.link with d3hot := true } },
    rfl, rfl⟩

/-! ### Rink cores -/

/-- The window of applet 3 for its user code, and for the supervisor: read, write and execute. -/
def windowEntry : PuEntry := { w0 := 0x10060220, w1 := 0xB0007000 }

/-- Core 0 in supervisor mode in ROM; core 1 in applet 3, whose window it may use. -/
def running : State :=
  { live with
    merya := {
      apps := [(3, { Applet.reset with state := .running, deadline := 0x500000002, slices := 2, timer := some 5 })],
      cores := [
        (0, { Rink.reset with
          idle := false, pc := 0x100, epc := 0x200, estat := 0, buffer := [0x80, 1, 2, 3, 4, 5, 6, 7],
          regs := [(1, 7), (2, 0xFFFFFFFD), (3, 5), (4, 0x10060200), (5, 0x40000000), (6, 0x40020000),
                   (7, 0x50003000), (8, 0x50002600)] }),
        (1, { Rink.reset with
          idle := false, supervisor := false, applet := some 3, pc := 0x10060100,
          regs := [(1, 20), (2, 0xFFFFFFFE), (4, 0x10060204)] })] },
    prot := { live.prot with grants := [(24, windowEntry)], isOpen := true, arm := 8 },
    ctrs := { live.ctrs with table := [(20, { Counter.reset with owner := 0x23, value := 0x1FFFFFFFF })] },
    mem := [(0x10060200, 0x80), (0x10060201, 0xFF), (0x10060203, 1), (0x10060207, 9)] }

/-- A register of a core after a command. -/
def regAfter (i : Instr) (s : State) (c : Nat) (r : Fin 16) : Option Word :=
  match exec i s with
  | .next t => some (reg (rinkOf t c) r)
  | _ => none

/-- PC of a core after a command. -/
def pcAfter (i : Instr) (s : State) (c : Nat) : Option Word :=
  match exec i s with
  | .next t => some (rinkOf t c).pc
  | _ => none

/-- Cause and address of a core after a command. -/
def causeAfter (i : Instr) (s : State) (c : Nat) : Option (Word × Word × Word) :=
  match exec i s with
  | .next t => let k := rinkOf t c; some (k.ecause, k.epc, k.eaddr)
  | _ => none

/-- R328 with w1 = 7, w2 = −3, w3 = 5. -/
theorem test_add_sub : regAfter (.add 0 9 1 2) running 0 9 = some 4 ∧ regAfter (.sub 0 9 3 1) running 0 9 = some 0xFFFFFFFE := by
  decide
theorem test_logic : regAfter (.and 0 9 1 3) running 0 9 = some 5 ∧ regAfter (.or 0 9 1 2) running 0 9 = some 0xFFFFFFFF ∧
    regAfter (.xor 0 9 1 3) running 0 9 = some 2 := by decide
theorem test_shifts : regAfter (.sll 0 9 1 3) running 0 9 = some 224 ∧ regAfter (.srl 0 9 2 3) running 0 9 = some 0x07FFFFFF ∧
    regAfter (.sra 0 9 2 3) running 0 9 = some 0xFFFFFFFF := by decide
theorem test_multiply : regAfter (.mul 0 9 2 3) running 0 9 = some 0xFFFFFFF1 ∧
    regAfter (.mulhu 0 9 2 3) running 0 9 = some 4 := by decide
theorem test_divide : regAfter (.divu 0 9 1 3) running 0 9 = some 1 ∧ regAfter (.remu 0 9 1 3) running 0 9 = some 2 := by decide
theorem test_divide_by_zero : regAfter (.divu 0 9 1 0) running 0 9 = some 0xFFFFFFFF ∧
    regAfter (.remu 0 9 1 0) running 0 9 = some 7 := by decide
theorem test_compare : regAfter (.slt 0 9 2 1) running 0 9 = some 1 ∧ regAfter (.sltu 0 9 2 1) running 0 9 = some 0 := by decide
theorem test_csel_mask : regAfter (.csel 0 9 1 2 0) running 0 9 = some 0xFFFFFFFD ∧
    regAfter (.csel 0 9 1 2 3) running 0 9 = some 7 ∧ regAfter (.mask 0 9 0) running 0 9 = some 0 ∧
    regAfter (.mask 0 9 1) running 0 9 = some 0xFFFFFFFF := by decide
theorem test_immediates : regAfter (.addi 0 9 1 0xFFFF) running 0 9 = some 6 ∧
    regAfter (.andi 0 9 2 0x8001) running 0 9 = some 0x8001 ∧ regAfter (.ori 0 9 0 0x8000) running 0 9 = some 0x8000 ∧
    regAfter (.xori 0 9 2 0xFFFF) running 0 9 = some 0xFFFF0002 := by decide
theorem test_immediate_shifts : regAfter (.slli 0 9 1 31) running 0 9 = some 0x80000000 ∧
    regAfter (.srli 0 9 2 31) running 0 9 = some 1 ∧ regAfter (.srai 0 9 2 31) running 0 9 = some 0xFFFFFFFF := by decide
theorem test_immediate_compare : regAfter (.slti 0 9 2 0xFFFE) running 0 9 = some 1 ∧
    regAfter (.sltiu 0 9 1 0xFFFF) running 0 9 = some 1 ∧ regAfter (.lui 0 9 0x8001) running 0 9 = some 0x80010000 := by decide
/-- R324. -/
theorem test_w0_discards : regAfter (.add 0 0 1 1) running 0 0 = some 0 ∧ pcAfter (.add 0 0 1 1) running 0 = some 0x104 := by
  decide

theorem test_branches : pcAfter (.beq 0 1 1 0x3FFFF) running 0 = some 0xFC ∧ pcAfter (.bne 0 1 1 4) running 0 = some 0x104 ∧
    pcAfter (.blt 0 2 1 4) running 0 = some 0x110 ∧ pcAfter (.bge 0 2 1 4) running 0 = some 0x104 ∧
    pcAfter (.bltu 0 2 1 4) running 0 = some 0x104 ∧ pcAfter (.bgeu 0 2 1 4) running 0 = some 0x110 := by decide
theorem test_jumps : pcAfter (.jal 0 0x3FFFFFF) running 0 = some 0xFC ∧ regAfter (.jal 0 0x3FFFFFF) running 0 15 = some 0x104 ∧
    pcAfter (.jalr 0 4 4 4) running 0 = some 0x10060204 ∧ regAfter (.jalr 0 4 4 4) running 0 4 = some 0x104 := by decide
theorem test_fence : pcAfter (.fence 0) running 0 = some 0x104 := by decide

theorem test_byte_loads : regAfter (.lb 0 9 4 0) running 0 9 = some 0xFFFFFF80 ∧
    regAfter (.lbu 0 9 4 0) running 0 9 = some 0x80 := by decide
theorem test_half_loads : regAfter (.lh 0 9 4 0) running 0 9 = some 0xFFFFFF80 ∧
    regAfter (.lhu 0 9 4 0) running 0 9 = some 0xFF80 := by decide
theorem test_word_loads : regAfter (.lw 0 9 4 0) running 0 9 = some 0x0100FF80 ∧
    regAfter (.ldd 0 10 4 0) running 0 10 = some 0x0100FF80 ∧ regAfter (.ldd 0 10 4 0) running 0 11 = some 0x09000000 := by
  decide

/-- Bytes of applet 3's window after a store by its own code, where w4 points. -/
def bytesAfter (i : Instr) : Option Bytes :=
  match exec i running with
  | .next t => some (mapBytes t 0x10060200 8)
  | _ => none

theorem test_byte_and_half_stores : bytesAfter (.sb 1 2 4 0xFFFF) = some [0x80, 0xFF, 0, 0xFE, 0, 0, 0, 9] ∧
    bytesAfter (.sh 1 2 4 0) = some [0x80, 0xFF, 0, 1, 0xFE, 0xFF, 0, 9] := by decide
theorem test_word_stores : bytesAfter (.sw 1 2 4 0xFFFC) = some [0xFE, 0xFF, 0xFF, 0xFF, 0, 0, 0, 9] ∧
    bytesAfter (.sdd 1 2 4 0xFFFC) = some [0xFE, 0xFF, 0xFF, 0xFF, 0, 0, 0, 0] := by decide

/-- R333: causes 1, 2, 3, 4, 5, 7 and 9, each with PC in EPC. -/
theorem test_causes : causeAfter (.slli 0 1 1 32) running 0 = some (1, 0x100, 0) ∧
    causeAfter (.jalr 0 1 1 0) running 0 = some (2, 0x100, 7) ∧ causeAfter (.lw 0 1 4 2) running 0 = some (3, 0x100, 0x10060202) ∧
    causeAfter (.lb 1 1 0 0) running 1 = some (4, 0x10060100, 0) ∧
    causeAfter (.lb 0 1 2 0) running 0 = some (5, 0x100, 0xFFFFFFFD) ∧
    causeAfter (.brk 0 1) running 0 = some (7, 0x100, 0) ∧ causeAfter (.ctrRead 0) running 0 = some (9, 0x100, 0) := by decide

theorem witness_RegisterResultsOfRinkInstructions :
    ∃ (i : Instr) (s : State) (c : Nat) (rd : Fin 16) (v : Word), aluResult s i = some (c, rd, v) ∧ fetches s c :=
  ⟨.add 1 9 1 2, running, 1, 9, 18, by decide, by unfold fetches; decide⟩

theorem witness_RegisterResults_w0_and_shift :
    (aluResult running (.slli 0 0 1 31) = some (0, 0, 0x80000000)) ∧ fetches running 0 :=
  ⟨by decide, by unfold fetches; decide⟩

theorem witness_BranchesJumpsAndFence : ∃ (i : Instr) (s : State) (c : Nat) (pc : Word) (rd : Fin 16) (v : Word),
    jumpResult s i = some (c, pc, rd, v) ∧ fetches s c :=
  ⟨.jalr 0 4 4 4, running, 0, 0x10060204, 4, 0x104, by decide, by unfold fetches; decide⟩

theorem witness_LoadsReadTheirBytes_memory :
    ∃ (i : Instr) (s : State) (c : Nat) (rd : Fin 16) (a : Word) (n : Nat) (signed : Bool),
      loadForm s i = some (c, rd, a, n, signed) ∧ fetches s c ∧ accTrap (fetched s c) c .read a n = none ∧
      regionOf a.toNat ≠ some .randomPort ∧ regionOf a.toNat ≠ some .ringPorts ∧ regionOf a.toNat ≠ some .peripherals :=
  ⟨.ldd 0 10 4 0, running, 0, 10, 0x10060200, 8, false, by decide, by unfold fetches; decide, by unfold fetched; decide, by decide⟩

theorem witness_LoadsReadTheirBytes_ringPort :
    ∃ (i : Instr) (s : State) (c : Nat) (rd : Fin 16) (a : Word) (n : Nat) (signed : Bool),
      loadForm s i = some (c, rd, a, n, signed) ∧ fetches s c ∧ accTrap (fetched s c) c .read a n = none ∧
      regionOf a.toNat = some .ringPorts :=
  ⟨.lb 0 10 5 0xB, running, 0, 10, 0x4000000B, 1, true, by decide, by unfold fetches; decide, by unfold fetched; decide, by decide⟩

theorem witness_LoadsReadTheirBytes_peripheral :
    ∃ (i : Instr) (s : State) (c : Nat) (rd : Fin 16) (a : Word) (n : Nat) (signed : Bool),
      loadForm s i = some (c, rd, a, n, signed) ∧ fetches s c ∧ accTrap (fetched s c) c .read a n = none ∧
      regionOf a.toNat = some .peripherals :=
  ⟨.lw 0 10 7 0, running, 0, 10, 0x50003000, 4, false, by decide, by unfold fetches; decide, by unfold fetched; decide, by decide⟩

theorem witness_LoadsReadTheirBytes_randomPort :
    ∃ (i : Instr) (s : State) (c : Nat) (rd : Fin 16) (a : Word) (n : Nat) (signed : Bool),
      loadForm s i = some (c, rd, a, n, signed) ∧ fetches s c ∧ accTrap (fetched s c) c .read a n = none ∧
      regionOf a.toNat = some .randomPort ∧ rngDegraded s = false ∧ ¬ (portStalls s = true ∨ (rinkOf s c).buffer.length < n) :=
  ⟨.ldd 0 10 6 0, running, 0, 10, 0x40020000, 8, false, by decide, by unfold fetches; decide, by unfold fetched; decide, by decide⟩

theorem witness_LoadsReadTheirBytes_stall :
    ∃ (i : Instr) (s : State) (c : Nat) (rd : Fin 16) (a : Word) (n : Nat) (signed : Bool),
      loadForm s i = some (c, rd, a, n, signed) ∧ fetches s c ∧ accTrap (fetched s c) c .read a n = none ∧
      regionOf a.toNat = some .randomPort ∧ rngDegraded s = false ∧ (portStalls s = true ∨ (rinkOf s c).buffer.length < n) :=
  ⟨.lb 0 10 6 0, { running with powder := { running.powder with seeded := false } }, 0, 10, 0x40020000, 1, true,
    by decide, by unfold fetches; decide, by unfold fetched; decide, by decide⟩

theorem witness_StoresWriteTheirBytes_memory : ∃ (i : Instr) (s : State) (c : Nat) (a : Word) (n v : Nat),
    storeForm s i = some (c, a, n, v) ∧ fetches s c ∧ accTrap (fetched s c) c .write a n = none ∧
    regionOf a.toNat ≠ some .ringPorts ∧ regionOf a.toNat ≠ some .peripherals :=
  ⟨.sdd 1 2 4 0xFFFC, running, 1, 0x10060200, 8, 0xFFFFFFFE, by decide, by unfold fetches; decide, by unfold fetched; decide, by decide⟩

theorem witness_StoresWriteTheirBytes_ringPort : ∃ (i : Instr) (s : State) (c : Nat) (a : Word) (n v : Nat),
    storeForm s i = some (c, a, n, v) ∧ fetches s c ∧ accTrap (fetched s c) c .write a n = none ∧
    regionOf a.toNat = some .ringPorts :=
  ⟨.sw 0 3 5 8, running, 0, 0x40000008, 4, 5, by decide, by unfold fetches; decide, by unfold fetched; decide, by decide⟩

theorem witness_StoresWriteTheirBytes_peripheral : ∃ (i : Instr) (s : State) (c : Nat) (a : Word) (n v : Nat),
    storeForm s i = some (c, a, n, v) ∧ fetches s c ∧ accTrap (fetched s c) c .write a n = none ∧
    regionOf a.toNat = some .peripherals :=
  ⟨.sb 0 3 8 0, running, 0, 0x50002600, 1, 5, by decide, by unfold fetches; decide, by unfold fetched; decide, by decide⟩

theorem witness_ExceptionsOfRinkInstructions : ∃ (i : Instr) (s : State) (c cause : Nat) (ea : Option Word),
    raisedBy s i = some (c, cause, ea) ∧ fetches s c :=
  ⟨.eret 1, running, 1, 1, none, by decide, by unfold fetches; decide⟩

/-- R326, R328: words put together from the opcode column and the formats, and what is no instruction. -/
theorem witness_ExceptionsOfRinkInstructions_words : rinkWord true (.add 1 3 4 5) = some (1, 0x04D14000) ∧
    rinkWord false (.wait 0) = some (0, 0xD8000000) ∧ rinkWord true (.wait 0) = none ∧ rinkWord true (.slli 1 3 4 32) = none ∧
    rinkWord true (.ldd 1 3 4 0) = none ∧ (rinkWord true (.ldd 1 2 4 0)).isSome = true ∧ wordIllegal true 0 = true ∧
    wordIllegal true 0x04D14000 = false ∧ wordIllegal false 0xD8000007 = false := by decide +kernel

theorem witness_FailedAccesses_load :
    ∃ (i : Instr) (s : State) (c : Nat) (rd : Fin 16) (a : Word) (n : Nat) (signed : Bool) (x : Trap),
      loadForm s i = some (c, rd, a, n, signed) ∧ fetches s c ∧ accTrap (fetched s c) c .read a n = some x :=
  ⟨.lb 1 1 0 0, running, 1, 1, 0, 1, true, _, by decide, by unfold fetches; decide, rfl⟩

theorem witness_FailedAccesses_store : ∃ (i : Instr) (s : State) (c : Nat) (a : Word) (n v : Nat) (x : Trap),
    storeForm s i = some (c, a, n, v) ∧ fetches s c ∧ accTrap (fetched s c) c .write a n = some x :=
  ⟨.sw 0 3 0 0, running, 0, 0, 4, 5, _, by decide, by unfold fetches; decide, rfl⟩

theorem witness_FailedAccesses_fetch : ∃ (i : Instr) (s : State) (c : Nat) (x : Trap),
    rinkCore s i = some c ∧ executing s c = true ∧ accTrap s c .exec (rinkOf s c).pc 4 = some x :=
  ⟨.fence 1, { running with prot := { running.prot with grants := [] } }, 1, _, by decide, by decide, rfl⟩

theorem witness_FailedAccesses_idle : ∃ (i : Instr) (s : State) (c : Nat), rinkCore s i = some c ∧ executing s c = false :=
  ⟨.fence 2, running, 2, by decide, by decide⟩

theorem witness_SystemRegistersAndReturns_mfs : ∃ (s : State) (c : Nat) (rd : Fin 16) (imm : BitVec 16),
    fetches s c ∧ raisedBy s (.mfs c rd imm) = none :=
  ⟨running, 1, 9, 0x14, by unfold fetches; decide, by decide⟩

theorem witness_SystemRegistersAndReturns_mts : ∃ (s : State) (c : Nat) (rs : Fin 16) (imm : BitVec 16),
    fetches s c ∧ raisedBy s (.mts c rs imm) = none ∧ imm.toNat ≤ 4 :=
  ⟨running, 0, 2, 4, by unfold fetches; decide, by decide, by decide⟩

theorem witness_SystemRegistersAndReturns_return : ∃ (s : State) (c : Nat), fetches s c ∧ (rinkOf s c).supervisor = true :=
  ⟨running, 0, by unfold fetches; decide, by decide⟩

theorem witness_SystemRegistersAndReturns_brk : ∃ (s : State) (c n : Nat), fetches s c ∧ (rinkOf s c).supervisor = false ∧
    (rinkOf s c).applet = some n ∧ s.prot.isOpen = true ∧ s.prot.arm.getLsbD n = true :=
  ⟨running, 1, 3, by unfold fetches; decide, by decide⟩

theorem test_eret_and_mfs : pcAfter (.eret 0) running 0 = some 0x200 ∧ regAfter (.mfs 1 9 0x12) running 1 9 = some 2 ∧
    regAfter (.mfs 1 9 0x13) running 1 9 = some 2 ∧ regAfter (.mfs 1 9 0x10) running 1 9 = some 1000 := by decide

theorem witness_AccessesAreNaturallyAligned_load :
    ∃ (i : Instr) (s : State) (c : Nat) (rd : Fin 16) (a : Word) (n : Nat) (signed : Bool),
      loadForm s i = some (c, rd, a, n, signed) ∧ fetches s c ∧ a.toNat % n ≠ 0 :=
  ⟨.ldd 0 2 4 4, running, 0, 2, 0x10060204, 8, false, by decide, by unfold fetches; decide, by decide⟩

theorem witness_AccessesAreNaturallyAligned_store : ∃ (i : Instr) (s : State) (c : Nat) (a : Word) (n v : Nat),
    storeForm s i = some (c, a, n, v) ∧ fetches s c ∧ a.toNat % n ≠ 0 :=
  ⟨.sh 0 2 4 1, running, 0, 0x10060201, 2, 0xFFFD, by decide, by unfold fetches; decide, by decide⟩

theorem witness_AccessesAreNaturallyAligned_jalr : ∃ (s : State) (c : Nat) (r : Fin 16) (imm : BitVec 16),
    fetches s c ∧ (indexed (rinkOf s c) r imm).toNat % 4 ≠ 0 :=
  ⟨running, 0, 4, 2, by unfold fetches; decide, by decide⟩

/-! ### Service calls -/

/-- Core 1 calls with these values in w1, w2 and w3. -/
def calling (w1 w2 w3 : Word) : State :=
  let k := rinkOf running 1
  setCore 1 { k with regs := [(1, w1), (2, w2), (3, w3), (9, 77)] } running

/-- The values at which the clauses meet. -/
theorem witness_CounterEventTimerAndUnknownCalls : calls (calling 7 0 0) 1 3 ∧ calls (calling 8 0 0) 1 3 ∧
    calls (calling 20 0 0) 1 3 ∧ calls (calling 255 0 0) 1 3 ∧ calls (calling 256 0 0) 1 3 ∧
    calls (calling 10000000 0 0) 1 3 ∧ calls (calling 10000001 0 0) 1 3 := by
  unfold calls fetches; decide +kernel

/-- w1 after the call. -/
def answer (i : Instr) (s : State) : Option Word := regAfter i s 1 1

theorem test_ctr_read : answer (.ctrRead 1) (calling 256 0 0) = some 1 ∧ answer (.ctrRead 1) (calling 255 0 0) = some 2 ∧
    answer (.ctrRead 1) (calling 20 0 0) = some 0 ∧ regAfter (.ctrRead 1) (calling 20 0 0) 1 2 = some 0xFFFFFFFF ∧
    regAfter (.ctrRead 1) (calling 20 0 0) 1 3 = some 1 ∧ regAfter (.ctrRead 1) (calling 20 0 0) 1 9 = some 77 := by decide
theorem test_ctr_increment : answer (.ctrIncrement 1) (calling 20 0 0) = some 0 ∧
    regAfter (.ctrIncrement 1) (calling 20 0 0) 1 2 = some 0 ∧ regAfter (.ctrIncrement 1) (calling 20 0 0) 1 3 = some 2 ∧
    answer (.ctrIncrement 1) (calling 21 0 0) = some 2 := by decide
theorem test_ctr_increment_without_credit : answer (.ctrIncrement 1) { calling 20 0 0 with
    ctrs := { live.ctrs with table := [(20, { Counter.reset with owner := 0x23, short := 0 })] } } = some 3 := by decide
theorem test_event_signal : answer (.eventSignal 1) (calling 8 0 0) = some 1 ∧
    (match exec (.eventSignal 1) (calling 7 0 0) with
      | .next t => tblGet false t.evts.pend 799 && !(tblGet false t.evts.pend 800) | _ => false) = true := by decide
theorem test_timer_set : answer (.timerSet 1) (calling 10000001 0 0) = some 1 ∧
    (match exec (.timerSet 1) (calling 10000000 0 0) with
      | .next t => (applet t 3).timer == some 1000001000 | _ => false) = true := by decide
theorem test_unknown_call : answer (.svcUnknown 1 5) (calling 9 0 0) = some 1 := by decide

/-- Applet 3 with an image whose code ends at 0x200. -/
def configuring (w1 w2 w3 : Word) : State :=
  let s := calling w1 w2 w3
  { s with merya := { s.merya with
      apps := [(3, { applet s 3 with image := List.replicate 13 0 ++ [2] ++ List.replicate 14 0 ++ [9, 0] })] } }

theorem witness_RingConfigAndTracksAppendCalls : calls (configuring 0x200 0x400 3) 1 3 ∧
    ringConfigFits (configuring 0x200 0x400 3) 3 0x200 0x400 3 := by
  unfold calls fetches; decide +kernel

theorem test_ring_config : answer (.ringConfig 1) (configuring 0x200 0x400 3) = some 0 ∧
    answer (.ringConfig 1) (configuring 0x200 0x400 2) = some 1 ∧ answer (.ringConfig 1) (configuring 0x200 0x300 3) = some 1 ∧
    answer (.ringConfig 1) (configuring 0x1EE00 0x1EF00 3) = some 1 ∧ answer (.ringConfig 1) (configuring 0x100 0x400 3) = some 1 := by
  decide
theorem test_ring_config_not_disabled : answer (.ringConfig 1) { configuring 0x200 0x400 3 with
    rings := { live.rings with internal := [(3, { Ring.reset with state := .enabled })] } } = some 4 := by decide
theorem test_trk_append_range : answer (.trkAppend 1) (calling 0x1005FFFF 4 0) = some 1 ∧
    answer (.trkAppend 1) (calling 0x1007FFFF 2 0) = some 1 ∧ answer (.trkAppend 1) (calling 0x10060000 65 0) = some 1 := by
  decide
theorem test_trk_append : regAfter (.trkAppend 1) (calling 0x10060200 4 0) 1 2 = some 1 ∧
    (match exec (.trkAppend 1) (calling 0x10060200 4 0) with
      | .next t => t.trk.entries.map (fun e => (e.kind, e.payload)) == [(0x1003, [0x80, 0xFF, 0, 1])] | _ => false) = true := by
  decide

def mailAt (slot kind time : Nat) : MailRecord :=
  { slot := slot, kind := kind, seq := 0, lost := 0, time := time, arg0 := 0, arg1 := 0, trkSeq := 0, auth := 0, data := [] }

/-- Applet 3 with two records, of which the first has been returned. -/
def mailed : State :=
  { running with merya := { running.merya with
      apps := [(3, { applet running 3 with mail := [mailAt 4 1 10, mailAt 5 0x20 20], taken := true })] } }

theorem witness_WaitEventAndYieldCalls : calls mailed 1 3 ∧ calls running 1 3 ∧ (applet mailed 3).mail.drop 1 ≠ [] ∧
    (applet running 3).mail = [] := by unfold calls fetches; decide

theorem test_wait_event : answer (.waitEvent 1) mailed = some 0x1007F280 ∧ regAfter (.waitEvent 1) mailed 1 2 = some 0x20 ∧
    (match exec (.waitEvent 1) mailed with
      | .next t => decide ((applet t 3).deadline = 20 + 200000 ∧ (applet t 3).slices = 0) | _ => false) = true := by decide
theorem test_wait_event_empty :
    (match exec (.waitEvent 1) running with
      | .next t => decide ((applet t 3).state = .waiting ∧ (rinkOf t 1).applet = none ∧ (applet t 3).pc = 0x10060104)
      | _ => false) = true := by decide
theorem test_yield :
    (match exec (.yield 1) running with
      | .next t => decide ((applet t 3).state = .ready ∧ (rinkOf t 1).applet = none ∧ tblGet 0 (applet t 3).regs 1 = 0)
      | _ => false) = true := by decide

/-! ### Scheduling and applets -/

/-- An applet with a limit of two slices. -/
def slicedApp (st : AppState) (deadline slices : Nat) : Applet :=
  { Applet.reset with state := st, deadline := deadline, slices := slices, pc := 0x400, regs := [(1, 8)],
                      image := List.replicate 0x1C 0 ++ [2, 0] }

/-- Applets 5 and 6 are READY; core 1 runs applet 3. -/
def scheduled (slices5 slices3 deadline5 : Nat) : State :=
  { running with merya := { running.merya with
      apps := [(3, slicedApp .running 50 slices3), (5, slicedApp .ready deadline5 slices5), (6, slicedApp .ready 90 0)] } }

theorem witness_CoreDispatch : (0 < 8 ∧ (rinkOf (scheduled 1 1 40) 0).applet = none) ∧ isEarliest (scheduled 1 1 40) 5 ∧
    mayBegin (scheduled 1 1 40) 5 ∧ isEarliest (scheduled 2 1 40) 5 ∧ ¬ mayBegin (scheduled 2 1 40) 5 ∧
    ∀ m, m < 32 → (applet running m).state ≠ .ready := by
  unfold isEarliest mayBegin; decide

theorem witness_SliceEnd : (rinkOf (scheduled 1 1 40) 1).applet = some 3 ∧ (applet (scheduled 1 1 40) 3).state = .running ∧
    (applet (scheduled 1 1 40) 3).held = false ∧ isEarliest (scheduled 1 1 40) 5 ∧ mayBegin (scheduled 1 1 40) 5 ∧
    (applet (scheduled 1 1 40) 5).deadline < (applet (scheduled 1 1 40) 3).deadline := by
  unfold isEarliest mayBegin; decide

theorem witness_SliceEnd_goesOn : mayBegin (scheduled 1 1 50) 3 ∧ ¬ mayBegin (scheduled 1 2 50) 3 ∧
    (rinkOf (scheduled 1 2 50) 1).supervisor = false ∧
    ∀ m, m < 32 → (applet (scheduled 1 1 50) m).state = .ready → (applet (scheduled 1 1 50) 3).deadline ≤ (applet (scheduled 1 1 50) m).deadline := by
  unfold mayBegin; decide

/-- R339, R340. -/
theorem test_dispatch_and_slice_end :
    (match exec (.coreDispatch 0) (scheduled 1 1 40) with
      | .next t => decide ((rinkOf t 0).applet = some 5 ∧ (rinkOf t 0).pc = 0x400 ∧ (applet t 5).slices = 2) | _ => false) = true ∧
    (match exec (.sliceEnd 1) (scheduled 1 1 40) with
      | .next t => decide ((rinkOf t 1).applet = some 5 ∧ (applet t 3).state = .ready) | _ => false) = true ∧
    (match exec (.sliceEnd 1) (scheduled 1 2 60) with
      | .next t => decide ((rinkOf t 1).applet = none ∧ (applet t 3).state = .stopping) | _ => false) = true := by decide

/-- Applet 2 is STARTING from a short image. -/
def startingApp (sha : Bytes) : State :=
  { running with merya := { running.merya with
      apps := [(2, { Applet.reset with state := .starting, image := [1, 2, 3], sha := sha })] } }

theorem witness_AppletStart_badSha : (2 < 32 ∧ (applet (startingApp []) 2).state = .starting) ∧
    sha256 (applet (startingApp []) 2).image ≠ (applet (startingApp []) 2).sha := by decide +kernel

theorem startingApp_image (x : Bytes) : (applet (startingApp x) 2).image = [1, 2, 3] := rfl
theorem startingApp_sha (x : Bytes) : (applet (startingApp x) 2).sha = x := rfl
theorem startingApp_mail (x : Bytes) : (applet (startingApp x) 2).mail = [] := rfl

theorem witness_AppletStart_good : ∃ (s : State) (n : Nat), n < 32 ∧ (applet s n).state = .starting ∧
    sha256 (applet s n).image = (applet s n).sha ∧ (applet s n).image.length ≤ 0x1F000 ∧ (applet s n).mailSlot < 32 ∧
    ∀ m ∈ (applet s n).mail, m.slot < 32 := by
  refine ⟨startingApp (sha256 [1, 2, 3]), 2, by decide, rfl, ?_, ?_, ?_, ?_⟩
  · rw [startingApp_image, startingApp_sha]
  · rw [startingApp_image]; decide
  · exact Nat.zero_lt_succ 31
  · rw [startingApp_mail]; exact fun m h => nomatch h

/-- Applet 2 is in a state, after some restarts, of an image with RESTART 1. -/
def endingApp (st : AppState) (forced : Bool) (restarts : Nat) : State :=
  { running with merya := { running.merya with
      apps := [(2, { Applet.reset with state := st, forced := forced, restarts := restarts, timer := some 9, mailSlot := 31,
                                       image := List.replicate 6 0 ++ [1, 0] })] } }

theorem witness_AppletRingDisabled : 2 < 32 ∧ (getRing (endingApp .stopping false 7) (.internal 2)).state = .disabled ∧
    (applet (endingApp .stopping false 7) 2).state = .stopping ∧ (applet (endingApp .removing false 7) 2).state = .removing := by
  decide

theorem test_applet_restarts :
    (match exec (.appletRingDisabled 2) (endingApp .stopping false 7) with
      | .next t => decide ((applet t 2).state = .starting ∧ (applet t 2).restarts = 8) | _ => false) = true ∧
    (match exec (.appletRingDisabled 2) (endingApp .stopping false 8) with
      | .next t => decide ((applet t 2).state = .faulted) | _ => false) = true ∧
    (match exec (.appletRingDisabled 2) (endingApp .stopping true 8) with
      | .next t => decide ((applet t 2).state = .starting ∧ (applet t 2).restarts = 8) | _ => false) = true := by decide

theorem witness_AppletTimerExpiry : (2 < 32 ∧ (applet (endingApp .waiting false 0) 2).timer = some 9) ∧
    (applet (endingApp .waiting false 0) 2).mail.any (fun m => m.kind == 0x20) = false ∧
    (applet (endingApp .waiting false 0) 2).mail.length < 32 := by decide

theorem test_applet_timer :
    (match exec (.appletTimerExpiry 2) (endingApp .waiting false 0) with
      | .next t => decide ((applet t 2).state = .ready ∧ (applet t 2).mail.map (fun m => (m.kind, m.slot)) = [(0x20, 31)] ∧
          (applet t 2).mailSlot = 0 ∧ memRead t.mem 0x1005FF80 = 0x20) | _ => false) = true := by decide +kernel

/-- Core 0 stalls at a load of 8 bytes with 4 in its buffer and 60 on their way. -/
def refilling : State :=
  setCore 0 { rinkOf running 0 with buffer := [1, 2, 3, 4], arriving := List.replicate 60 5,
                                    stalled := some (10, 8, false, 0x40020000) } running

theorem witness_RandomRefillReachesTheCore : ∃ (s : State) (c : Nat), c < 8 ∧ wantsRefill s c = false ∧
    (rinkOf s c).stalled.isSome = true ∧ portStalls s = false := ⟨refilling, 0, by decide⟩

theorem test_random_refill : regAfter (.randomRefillArrival 0) refilling 0 10 = some 0x04030201 ∧
    regAfter (.randomRefillArrival 0) refilling 0 11 = some 0x05050505 ∧ pcAfter (.randomRefillArrival 0) refilling 0 = some 0x104 := by
  decide

/-! ### Descriptors -/

/-- A descriptor with a destination of `dst` bytes at 0x2000 and a source of `src` bytes at 0x1000. -/
def descOf (opcode cls chain slot aux src aad dst : Nat) (xparam : Nat := 0) : Descriptor :=
  BitVec.ofNat 512 (opcode + cls * 2 ^ 8 + chain * 2 ^ 20 + slot * 2 ^ 32 + aux * 2 ^ 48 + 0x1000 * 2 ^ 64 +
    src * 2 ^ 128 + aad * 2 ^ 160 + 0x2000 * 2 ^ 192 + dst * 2 ^ 256 + 0x3000 * 2 ^ 320 + xparam * 2 ^ 384 +
    0xC00C1E * 2 ^ 448)

def bytes (n : Nat) : Bytes := List.replicate n 1

def freshSlot (index t0 : Nat) : Slot :=
  { index := index, phase := true, t0 := t0, arrived := false, tag := none, written := false, doomed := false, quiet := false }

/-- Host ring 5 of a class with one descriptor on its way. -/
def ringOf (c : Cls) : Ring :=
  { Ring.reset with state := .enabled, cls := c, tail := 1, fetch := 1, slots := [freshSlot 0 1000] }

def mat (kek : Bool) (key : Bytes) : KeyMat := { gen := 1, key := key, kek := kek, kind := 0, digest := [] }

def slotWith (m : KeyMat) : VSlot := { VSlot.reset with number := m.gen, cur := some m }

/-- Session 1: GCM, 128 bits, root slot 5. -/
def gcmSession : Session := { Session.reset with rootSlot := 5, isSet := true, gen := 1, txCtr := 9 }

/-- The part with keys, a session and a ready card, and a descriptor on its way on host ring 5. -/
def staged (c : Cls) : State :=
  { live with
    rings := { live.rings with host := [(5, ringOf c)] },
    vault := { live.vault with
      root := [(0, slotWith (mat true [])), (5, slotWith (mat false [])), (24, slotWith (mat false [])),
               (25, slotWith (mat false [])), (26, slotWith (mat false [])), (27, slotWith (mat false [])),
               (28, slotWith (mat false []))],
      priv := [(4, slotWith { mat false [] with kind := 0x3000 }), (6, slotWith { mat false [] with kind := 0x2000 }),
               (8, slotWith { mat false [] with kind := 0x4080 })] },
    ctrs := { live.ctrs with enabled := 0x1F },
    sess := { live.sess with table := [(1, gcmSession), (2, { gcmSession with mode := 1 })] },
    card := { live.card with state := .ready, present := true, power := true, hc := true, terja := true, capacity := 1000000 } }

def arrivalOf (d : Descriptor) : Arrival := { ring := .host 5, index := 0, desc := d, pick := 9 }

/-- The descriptor reaches the Gate, which admits it as the operation. -/
def admits (s : State) (a : Arrival) (o : Op) : Bool :=
  match openSlot s a.ring a.index with
  | some q => (descDenied s a).isNone && !(cancelledOnArrival s a.ring a.index) && opOf (stagedDesc s a) == some o &&
      (match decision s a q with
       | .admitJob o' _ => o' == o
       | _ => false)
  | none => false

theorem admits_meets {s : State} {a : Arrival} {o : Op} (h : admits s a o = true) :
    ∃ q p, reachesGate s a q ∧ opOf (stagedDesc s a) = some o ∧ decision s a q = .admitJob o p := by
  unfold admits at h
  split at h
  · rename_i q hq
    split at h
    · rename_i o' p hd
      simp only [Bool.and_eq_true, Option.isNone_iff_eq_none, Bool.not_eq_true', beq_iff_eq] at h
      obtain ⟨⟨⟨h1, h2⟩, h3⟩, rfl⟩ := h
      exact ⟨q, p, ⟨hq, h1, h2⟩, h3, hd⟩
    · simp at h
  · simp at h

theorem admits_sessions : admits (staged .L) (arrivalOf (descOf 0x10 0 0 1 0 64 0 80)) .sesEncrypt = true ∧
    admits (staged .L) (arrivalOf (descOf 0x11 0 0 1 0 80 0 64)) .sesDecrypt = true ∧
    admits (staged .L) (arrivalOf (descOf 0x12 0 0 2 0 64 0 16)) .sesMacGen = true ∧
    admits (staged .L) (arrivalOf (descOf 0x13 0 0 2 0 80 0 0)) .sesMacVerify = true := by decide +kernel

theorem admits_hash_and_random : admits (staged .L) (arrivalOf (descOf 0x20 0 0 0 0x400 64 0 32)) .hash = true ∧
    admits (staged .L) (arrivalOf (descOf 0x28 0 0 0 0 0 0 100)) .rngOut = true := by decide +kernel

theorem admits_public_keys : admits (staged .B) (arrivalOf (descOf 0x31 3 0 0 0x100 200 0 0)) .ecdsaVerify = true ∧
    admits (staged .B) (arrivalOf (descOf 0x32 3 0 9 0x3000 0 0 64)) .ecKeygen = true ∧
    admits (staged .B) (arrivalOf (descOf 0x34 3 0 6 0 64 0 64)) .eddsaSign = true ∧
    admits (staged .B) (arrivalOf (descOf 0x35 3 0 0 0 100 0 0)) .eddsaVerify = true ∧
    admits (staged .B) (arrivalOf (descOf 0x36 3 0 4 0 32 0 32)) .xdh = true ∧
    admits (staged .B) (arrivalOf (descOf 0x38 3 0 0 0x100 300 0 0 128)) .rsaVerify = true ∧
    admits (staged .B) (arrivalOf (descOf 0x39 3 0 8 0x100 64 0 128)) .rsaSign = true := by decide +kernel

/-- The part with a private key of curve entry 0 in K10. -/
def curveKey : State :=
  { staged .B with vault := { (staged .B).vault with
      priv := [(10, slotWith { mat false [] with kind := 0x1000, digest := sha256 (curveImage curveP256) })] } }

theorem admits_curve_keys : admits curveKey (arrivalOf (descOf 0x30 3 0 10 0x100 64 0 64)) .ecdsaSign = true ∧
    admits curveKey (arrivalOf (descOf 0x33 3 0 10 0 65 0 32)) .ecdh = true := by decide +kernel

theorem admits_cards_and_export : admits (staged .B) (arrivalOf (descOf 0x50 3 0 0 0 0 0 1024 5)) .cardRead = true ∧
    admits (staged .B) (arrivalOf (descOf 0x50 3 0 0 1 512 0 0 5)) .cardWrite = true ∧
    admits (staged .B) (arrivalOf (descOf 0x50 3 0 0 2 10 0 480 7)) .cardMailbox = true ∧
    admits (staged .B) (arrivalOf (descOf 0x50 3 0 0 3 0 0 64)) .cardInfo = true ∧
    admits (staged .B) (arrivalOf (descOf 0x51 3 0 0 0 0 0 4096)) .trkExport = true := by decide +kernel

/-! ### Critical commands -/

/-- A command of an authority on host ring 5, with a source of `src` bytes. -/
def cmdDesc (auth code src : Nat) : Descriptor := descOf 0x40 3 0 0 (auth * 0x1000 + code) src 0 0

/-- A command block of COUNTER 100 with its seal under a key. -/
def sealed (key : Bytes) (auth code src : Nat) (body : Bytes) : CmdBlock :=
  let b : CmdBlock := BitVec.ofNat 1024
    (1 + auth * 2 ^ 8 + code * 2 ^ 16 + body.length * 2 ^ 32 + 100 * 2 ^ 64 + natLE body * 2 ^ 192)
  b ||| BitVec.ofNat 1024 (natLE (cmac key (sealedMessage (cmdDesc auth code src) b)) * 2 ^ 896)

/-- A command whose seal is good under an empty key. -/
def cmdOf (auth code : Nat) (body : Bytes) (src : Bytes := []) : Arrival × CritData :=
  (arrivalOf (cmdDesc auth code src.length), { block := sealed [] auth code src.length body, source := src })

/-- Stages 1 to 3 of a command: the state and the command at its barrier. -/
def reachStage4 (c : CmdCode) (s : State) (x : Arrival × CritData) : Option (State × Job) :=
  match openSlot s x.1.ring x.1.index with
  | none => none
  | some q =>
    if (descDenied s x.1).isNone && !(cancelledOnArrival s x.1.ring x.1.index) &&
        opOf (stagedDesc s x.1) == some (.critical c) then
      match decision s x.1 q with
      | .admitJob o p =>
        let w := gatherWhole x.2 (tagFor s x.1)
          (admitted x.1.ring (getRing s x.1.ring) q (stagedDesc s x.1) (tagFor s x.1) (.critical c) p (atGate s x.1))
        match findJob w (tagFor s x.1) with
        | some k => if o == .critical c && k.stage == .barrier && !(directBad k) && barrierMet w k then some (w, k) else none
        | none => none
      | _ => none
    else none

theorem reachStage4_meets {c : CmdCode} {s : State} {x : Arrival × CritData} {w : State} {k : Job}
    (h : reachStage4 c s x = some (w, k)) : atStage4 c x.1 x.2 s w k := by
  unfold reachStage4 at h
  split at h
  · simp at h
  · rename_i q hq
    split at h
    · rename_i h0
      simp only [Bool.and_eq_true, Option.isNone_iff_eq_none, Bool.not_eq_true', beq_iff_eq] at h0
      obtain ⟨⟨h1, h2⟩, h3⟩ := h0
      split at h
      · rename_i o p hd
        simp only at h
        split at h
        · rename_i j hj
          split at h
          · rename_i h4
            simp only [Bool.and_eq_true, Bool.not_eq_true', beq_iff_eq] at h4
            obtain ⟨⟨⟨h5, hb⟩, h6⟩, h7⟩ := h4
            subst h5
            simp only [Option.some.injEq, Prod.mk.injEq] at h
            obtain ⟨h8, h9⟩ := h
            subst h9
            exact ⟨q, p, ⟨hq, h1, h2⟩, h3, hd, h8.symm, h8 ▸ hj, hb, h6, h8 ▸ h7⟩
          · simp at h
        · simp at h
      · simp at h
    · simp at h

/-- The command is prepared after stage 10. -/
def commits (c : CmdCode) (s : State) (x : Arrival × CritData) : Bool :=
  match reachStage4 c s x with
  | some (w, _) =>
    (match findJob (releaseBarrier (tagFor s x.1) w) (tagFor s x.1) with
     | some j => j.stage == .prepared
     | none => false)
  | none => false

theorem commits_meets {c : CmdCode} {s : State} {x : Arrival × CritData} (h : commits c s x = true) :
    ∃ u j, readyToCommit c x.1 x.2 s u j := by
  unfold commits at h
  split at h
  · rename_i w k hk
    split at h
    · rename_i j hj
      exact ⟨_, j, w, k, reachStage4_meets hk, rfl, hj, by simpa using h⟩
    · simp at h
  · simp at h

/-- A key of 32 zero bytes wrapped under the empty key, whose cipher is the identity. -/
def wrapped : Bytes := List.replicate 7 0xA6 ++ [0xBE] ++ List.replicate 32 0

/-- An image of 256 bytes: code from 0x40 on, STACK_TOP 0x1000, one slice, no flags. -/
def image : Bytes :=
  bytesLE 4 0x4159524D ++ bytesLE 2 1 ++ bytesLE 2 0 ++ bytesLE 4 256 ++ bytesLE 4 256 ++ bytesLE 4 0x40 ++ bytesLE 4 0 ++
    bytesLE 4 0x1000 ++ bytesLE 2 1 ++ [0, 0] ++ List.replicate 224 0

/-- The part in Whiteout. -/
def whiteout : State := { staged .B with hut := { live.hut with whiteout := true } }

/-- The part with an export of entries up to 6 that no receipt has answered. -/
def exported : State :=
  { staged .B with trk := { live.trk with pending := some { id := 3, first := 1, last := 6, chain := List.replicate 32 9 } } }

/-- The part with applet 2, which handles EVACUATE and ALERT. -/
def handling : State :=
  { staged .B with merya := { live.merya with
      apps := [(2, { Applet.reset with state := .waiting, image := List.replicate 6 0 ++ [6, 0] })] } }

/-- A part that has been LOCKED once: its raise entry has SEQ 7. -/
def onceLocked : State := { staged .B with patrol := { live.patrol with lockSeq := 7 } }

/-- A locked part, purged or not, with or without the first half of A4. -/
def lockedPart (purged half : Bool) : State :=
  { onceLocked with hut := { live.hut with locked := true, purged := purged },
                    ctrs := { (staged .B).ctrs with half := if half then some (4, 999999) else none } }

theorem commits_alarm : commits .whiteoutEnter (staged .B) (cmdOf 1 0x001 (bytesLE 8 5)) = true ∧
    commits .evacuate handling (cmdOf 1 0x002 (bytesLE 12 0x20001)) = true ∧
    commits .alert handling (cmdOf 1 0x003 (bytesLE 8 7)) = true ∧
    commits .whiteoutExit whiteout (cmdOf 1 0x010 (bytesLE 4 0)) = true := by decide +kernel

theorem commits_other_unlocks : commits .unlock onceLocked (cmdOf 4 0x020 (bytesLE 8 7)) = true ∧
    commits .unlock (lockedPart true true) (cmdOf 4 0x020 (bytesLE 8 7)) = true := by decide +kernel

theorem commits_unlock : commits .unlock (lockedPart false false) (cmdOf 4 0x020 (bytesLE 8 7)) = true ∧
    commits .unlock (lockedPart true false) (cmdOf 4 0x020 (bytesLE 8 7)) = true ∧
    commits .unlock (lockedPart true true) (cmdOf 0 0x020 (bytesLE 8 7)) = true := by decide +kernel

theorem commits_authorities : commits .authSet (staged .B) (cmdOf 0 0x030 (bytesLE 8 0x100000007 ++ wrapped)) = true ∧
    commits .authDisable (staged .B) (cmdOf 0 0x031 (bytesLE 4 3)) = true := by decide +kernel

theorem commits_root_keys : commits .rootImport (staged .B) (cmdOf 2 0x040 (bytesLE 8 0x30007 ++ wrapped)) = true ∧
    commits .rootErase (staged .B) (cmdOf 2 0x041 (bytesLE 4 0x10005)) = true := by decide +kernel

theorem commits_private_keys : commits .privImport (staged .B)
      (cmdOf 2 0x042 (bytesLE 8 0x200000000009 ++ sha256 wrapped) wrapped) = true ∧
    commits .privErase (staged .B) (cmdOf 2 0x043 (bytesLE 4 4)) = true := by decide +kernel

theorem commits_applets : commits .appletLoad (staged .B) (cmdOf 0 0x060 (bytesLE 8 0x102 ++ sha256 image) image) = true ∧
    commits .appletRemove handling (cmdOf 0 0x061 (bytesLE 4 2)) = true := by decide +kernel

theorem commits_policy : commits .levelRaise (staged .B) (cmdOf 0 0x070 (bytesLE 4 (228 + 3 * 2 ^ 16))) = true ∧
    commits .razeEnable (staged .B) (cmdOf 0 0x071 (bytesLE 4 1)) = true ∧
    commits .alarmConfig (staged .B) (cmdOf 0 0x072 (bytesLE 4 0x04030201)) = true ∧
    commits .ctrAssign (staged .B) (cmdOf 0 0x073 (bytesLE 4 0x314)) = true ∧
    commits .debugUnlock (staged .B) (cmdOf 0 0x080 (bytesLE 4 1440)) = true := by decide +kernel

/-- The part in PROVISIONED. -/
def provisionedPart : State := { staged .B with life := { live.life with state := .provisioned } }

theorem commits_from_provisioned : commits .lcAdvance provisionedPart (cmdOf 0 0x090 (bytesLE 4 3)) = true ∧
    commits .lcAdvance provisionedPart (cmdOf 0 0x090 (bytesLE 4 4)) = true := by decide +kernel

theorem commits_life_cycle_and_receipt : commits .lcAdvance (staged .B) (cmdOf 0 0x090 (bytesLE 4 4)) = true ∧
    commits .trkReceipt exported (cmdOf 3 0x0A0 (bytesLE 8 3 ++ bytesLE 8 6 ++ List.replicate 32 9)) = true := by
  decide +kernel

theorem commits_sessions : commits .sesSet (staged .B) (cmdOf 2 0x0B0 (bytesLE 48 (2 + 5 * 2 ^ 16 + 2 ^ 40))) = true ∧
    commits .sesClear (staged .B) (cmdOf 2 0x0B1 (bytesLE 4 4095)) = true := by decide +kernel

/-- The curve P-192, which satisfies the nine checks. -/
def p192 : WCurve :=
  { pBits := 192, nBits := 192, h := 1, p := 0xFFFFFFFFFFFFFFFFFFFFFFFFFFFFFFFEFFFFFFFFFFFFFFFF,
    a := 0xFFFFFFFFFFFFFFFFFFFFFFFFFFFFFFFEFFFFFFFFFFFFFFFC, b := 0x64210519E59C80E70FA7E9AB72243049FEB8DEECC146B9B1,
    gx := 0x188DA80EB03090F67CBF20EB43A18800F4FF0AFD82FF1012, gy := 0x07192B95FFC8DA78631011ED6B24CDD573F977A11E794811,
    n := 0xFFFFFFFFFFFFFFFFFFFFFFFF99DEF836146BC9B1B4D22831 }

/-- The part with a Groomer whose block cipher is the identity. -/
def plainDraws : State :=
  { staged .B with powder := { live.powder with grm := [(0, { seededGroomer with k := [] })] } }

def curveCommand : Arrival × CritData :=
  cmdOf 0 0x050 (bytesLE 8 8 ++ sha256 (curveImage p192)) (curveImage p192)

/-- The command has passed its stages 4 to 8 and its format, and draws the bases of its checks, which its Edge then runs. -/
def curveRunning : State :=
  (runs [.curveLoad curveCommand.1 (some curveCommand.2), .groomerDrawDone 0] plainDraws).getD live

/-- Its nine checks have passed. -/
def curveChecked : State := (runs [.edgeJobDone 9] curveRunning).getD live

/-- A scalar, and what it makes of the base point and of a partner's. -/
def provScalar : Bytes := List.replicate 32 0x40
def partner : Bytes := 9 :: List.replicate 31 0

/-- A FACTORY part with a provisioning key. -/
def factoryPart : State :=
  { live with
    rings := { live.rings with host := [(5, ringOf .B)] },
    life := { live.life with state := .factory, provValid := true, provPub := bytes 32 },
    vault := { live.vault with priv := [(255, slotWith (mat false provScalar))] } }

/-- 64 zero bytes wrapped (SP 800-38F) under the key that R509 derives for this part and this partner. -/
def provSource : Bytes := partner ++ bytesLE 72 28531306628702338164368531270271147303219214683425123283163478134830266425480623310094795332434075816673504864670732321860219583797458421192354622210002929989054106391064264
/-- LC_ADVANCE to PROVISIONED, sealed with the first half of what was wrapped. -/
def provision : Arrival × CritData :=
  (arrivalOf (cmdDesc 0 0x090 104),
   { block := BitVec.ofNat 1024 (1 + 0x090 * 2 ^ 16 + 4 * 2 ^ 32 + 100 * 2 ^ 64 + 2 * 2 ^ 192 +
       307137749279009620772185020107482542441 * 2 ^ 896), source := provSource })

theorem commits_provisioning : commits .lcAdvance factoryPart provision = true := by decide +kernel

theorem witness_AdmittedDescriptorIsInFlight : ∃ (o : Op) (s : State) (a : Arrival) (q : Slot) (p : Plan),
    reachesGate s a q ∧ opOf (stagedDesc s a) = some o ∧ decision s a q = .admitJob o p :=
  ⟨_, _, _, admits_meets admits_sessions.1⟩

/-- The critical clause of the admission, and a session in a nonce mode, are met as well. -/
theorem witness_AdmittedDescriptor_critical : ∃ (s : State) (a : Arrival) (q : Slot) (p : Plan),
    reachesGate s a q ∧ opOf (stagedDesc s a) = some (.critical .rootErase) ∧
      decision s a q = .admitJob (.critical .rootErase) p := by
  have h : admits (staged .B) (cmdOf 2 0x041 (bytesLE 4 5)).1 (.critical .rootErase) = true := by decide +kernel
  exact ⟨_, _, admits_meets h⟩

/-- R54: with RD_LAT 6 µs and 5900 bytes per µs, the release is 10 + 2 · 6 + 9 + 64 / 5900 µs, rounded up. -/
theorem test_release : (match openSlot (staged .L) (.host 5) 0 with
    | some q => (match decision (staged .L) (arrivalOf (descOf 0x10 0 0 1 0 64 0 80)) q with
        | .admitJob _ p => p.places.map (fun p => p.release) == [31010848, 31010848, 10000000, 31010848]
        | _ => false)
    | none => false) = true := by decide +kernel

/-- R187, R213: the frame counter and the session's TX_CTR after the admission of a GCM frame. -/
theorem test_frame_counter : (match exec (.sesEncrypt (arrivalOf (descOf 0x10 0 0 1 0 64 0 80))) (staged .L) with
    | .next t => (tblGet Session.reset t.sess.table 1).txCtr == 10 &&
        t.rings.jobs.map (fun j => (j.tag, j.result)) == [(9, 9)]
    | _ => false) = true := by decide +kernel

/-! ### Refusals -/

/-- The Gate's answer to a descriptor that reaches it. -/
def gateSays (s : State) (a : Arrival) : Option Decision :=
  match openSlot s a.ring a.index with
  | some q => if (descDenied s a).isNone && !(cancelledOnArrival s a.ring a.index) then some (decision s a q) else none
  | none => none

theorem gateSays_meets {s : State} {a : Arrival} {d : Decision} (h : gateSays s a = some d) :
    ∃ q, reachesGate s a q ∧ decision s a q = d := by
  unfold gateSays at h
  split at h
  · rename_i q hq
    split at h
    · rename_i h0
      simp only [Bool.and_eq_true, Option.isNone_iff_eq_none, Bool.not_eq_true'] at h0
      exact ⟨q, ⟨hq, h0.1, h0.2⟩, by simpa using h⟩
    · simp at h
  · simp at h

def hashArrival : Arrival := arrivalOf (descOf 0x20 0 0 0 0x400 64 0 32)
def absentArrival : Arrival := arrivalOf (descOf 0x2F 0 0 0 0 0 0 0)

/-- R52, in its order: the class, LOCKED, the envelope, random numbers, and a deadline that has passed. -/
theorem test_refusals : gateSays (staged .P) hashArrival = some (.refuse .refusedClass) ∧
    gateSays { staged .L with hut := { live.hut with locked := true } } hashArrival = some (.refuse .refusedLocked) ∧
    gateSays { staged .L with gate := { live.gate with tj := 2001 } } hashArrival = some (.refuse .refusedEnvelope) ∧
    gateSays { staged .L with powder := Powder.reset } (arrivalOf (descOf 0x28 0 0 0 0 0 0 100)) = some (.refuse .notReady) ∧
    gateSays { staged .L with now := 200900 } hashArrival = some (.refuse .refusedCapacity) ∧
    gateSays (staged .L) absentArrival = some (.refuse .refusedClass) := by decide +kernel

theorem witness_RefusedDescriptorGetsItsEntry :
    ∃ (i : Instr) (s : State) (a : Arrival) (q : Slot) (st : Status), reachesGate s a q ∧ decision s a q = .refuse st ∧
      ((∃ o, opOf (stagedDesc s a) = some o ∧ i = arrivalRow o a) ∨
       (opOf (stagedDesc s a) = none ∧ i = .opcodeAbsentDescriptor a)) := by
  obtain ⟨q, h⟩ := gateSays_meets test_refusals.2.2.1
  exact ⟨.hash hashArrival, _, _, q, _, h.1, h.2, .inl ⟨.hash, by decide, rfl⟩⟩

theorem witness_RefusedDescriptor_noOperation : ∃ (i : Instr) (s : State) (a : Arrival) (q : Slot) (st : Status),
    reachesGate s a q ∧ decision s a q = .refuse st ∧ opOf (stagedDesc s a) = none ∧ i = .opcodeAbsentDescriptor a := by
  obtain ⟨q, h⟩ := gateSays_meets test_refusals.2.2.2.2.2
  exact ⟨_, _, absentArrival, q, _, h.1, h.2, by decide, rfl⟩

/-- The entry the part has issued last, read by R121. -/
def lastEntry (r : Host.Outcome State Fault Refusal) : Option EntryFields :=
  match r with
  | .next t => (t.link.posted.filterMap (fun p => match p with
      | .entry _ _ raw => some (readEntryFields raw)
      | _ => none)).getLast?
  | _ => none

/-- R122: an entry of a refusal has no unit, no bytes and no result. -/
theorem test_refusal_entry : lastEntry (exec (.opcodeAbsentDescriptor absentArrival) (staged .L)) =
    some { cookie := 0xC00C1E, result := 0, bytes := 0, jobTag := 9, tagValid := true, ring := 5, inner := false,
           status := 0x11, unitNum := 0, unitKind := 0, retried := false, planBand := 1, unverified := false,
           sqIndex := 0, phase := true } := by decide +kernel

theorem witness_LockedPart : ∃ (s : State) (a : Arrival) (o : Op), isLocked s = true ∧
    opOf (stagedDesc s a) = some o ∧ o ≠ .critical .unlock ∧ inWhiteout s = false :=
  ⟨{ staged .L with hut := { live.hut with locked := true } }, hashArrival, .hash, by decide⟩

theorem witness_OutsideTheEnvelope : ∃ s : State, envelopeOk s = false :=
  ⟨{ staged .L with gate := { live.gate with tj := -641 } }, by decide⟩

/-- R421: in Whiteout a locked part admits a class L job of a life-safety session. -/
theorem test_carve_out : admits { staged .L with
      hut := { live.hut with locked := true, whiteout := true },
      sess := { live.sess with table := [(1, { gcmSession with flags := 1 })] } }
    (arrivalOf (descOf 0x10 0 0 1 0 64 0 80)) .sesEncrypt = true := by decide +kernel

theorem witness_CompletionEntryLayout : ∃ (bytes : Nat) (r : RingId) (kind num index : Nat), bytes < 2 ^ 32 ∧
    (match r with | .host n => n < 64 | .internal n => n < 32) ∧ kind < 8 ∧ num < 128 ∧ index < 65536 :=
  ⟨0xFFFFFFFF, .internal 31, 7, 127, 65535, by decide, show 31 < 32 by decide, by decide⟩

theorem test_entry_layout : readEntryFields (entryRaw 1 2 0xFFFFFFFF 2047 (.internal 31) .late 7 127 true .s2 true 65535 true) =
    { cookie := 1, result := 2, bytes := 0xFFFFFFFF, jobTag := 2047, tagValid := true, ring := 31, inner := true,
      status := statusCode .late, unitNum := 127, unitKind := 7, retried := true, planBand := 2, unverified := true,
      sqIndex := 65535, phase := true } := by decide +kernel

/-- The state after commands that all complete. -/
def after (cs : List Instr) (s : State) : State := (runs cs s).getD s

theorem job_any {s : State} {tag : Nat} {p : Job → Bool} (h : (findJob s tag).any p = true) :
    ∃ j, findJob s tag = some j ∧ p j = true := by
  cases hj : findJob s tag with
  | none => rw [hj] at h; exact nomatch h
  | some j => rw [hj] at h; exact ⟨j, rfl, h⟩

/-! ### Critical commands: their stages and bodies -/

/-- Status and RESULT[7:0] with which a row ends. -/
def rowAnswers (c : CmdCode) (s : State) (x : Arrival × CritData) : Option (Nat × Nat) :=
  (lastEntry (exec (criticalRow c x.1 (some x.2)) s)).map (fun f => (f.status, f.result.toNat % 256))

/-- ROOT_ERASE under other bytes of the block: its header's low 64 bits, COUNTER and TARGET are replaced. -/
def eraseWith (head counter target : Nat) : Arrival × CritData :=
  let d := cmdDesc 2 0x041 0
  let b : CmdBlock := BitVec.ofNat 1024 (head + counter * 2 ^ 64 + target * 2 ^ 128 + 5 * 2 ^ 192)
  (arrivalOf d, { block := b ||| BitVec.ofNat 1024 (natLE (cmac [] (sealedMessage d b)) * 2 ^ 896), source := [] })

/-- R154 stages 4 to 8 and R169: version 2; AUTH 1 in the block; another part's TARGET; a counter not above the last. -/
theorem test_early_stages : rowAnswers .rootErase (staged .B) (eraseWith 0x400410202 100 0) = some (statusCode .inputInvalid, 1) ∧
    rowAnswers .rootErase (staged .B) (eraseWith 0x400410101 100 0) = some (statusCode .inputInvalid, 3) ∧
    rowAnswers .rootErase (staged .B) (eraseWith 0x400410201 100 8) = some (statusCode .inputInvalid, 2) ∧
    rowAnswers .rootErase (staged .B) (eraseWith 0x400410201 0 7) = some (statusCode .counterStale, 0) ∧
    rowAnswers .rootErase (staged .B) (eraseWith 0x400410201 1 7) = some (0, 1) := by decide +kernel

/-- A wrong seal, and an authority without a key. -/
theorem test_seal_stages : rowAnswers .rootErase (staged .B)
      ((eraseWith 0x400410201 1 7).1, { (eraseWith 0x400410201 1 7).2 with block := BitVec.ofNat 1024 (0x400410201 + 2 ^ 64 + 5 * 2 ^ 192) }) =
      some (statusCode .authFail, 0) ∧
    rowAnswers .rootErase { staged .B with ctrs := { live.ctrs with enabled := 0x1B } } (eraseWith 0x400410201 1 7) =
      some (statusCode .keyEmpty, 0) := by decide +kernel

theorem witness_StagesOfACriticalCommand : ∃ (c : CmdCode) (s : State) (a : Arrival) (g : CritData) (w : State) (k : Job),
    atStage4 c a g s w k := by
  have h : (reachStage4 .rootErase (staged .B) (eraseWith 0x400410201 1 7)).isSome = true := by decide +kernel
  obtain ⟨⟨w, k⟩, hk⟩ := Option.isSome_iff_exists.mp h
  exact ⟨.rootErase, _, _, _, w, k, reachStage4_meets hk⟩

theorem witness_CommittedCommandIsRecordedAndAnswered : ∃ (c : CmdCode) (s : State) (a : Arrival) (g : CritData) (u : State) (j : Job),
    readyToCommit c a g s u j := ⟨_, _, _, _, commits_meets commits_alarm.1⟩

theorem witness_KeyCommandsCommit :
    (∃ s x u j, readyToCommit .authSet (Prod.fst x) x.2 s u j) ∧ (∃ s x u j, readyToCommit .authDisable (Prod.fst x) x.2 s u j) ∧
    (∃ s x u j, readyToCommit .rootImport (Prod.fst x) x.2 s u j) ∧ (∃ s x u j, readyToCommit .rootErase (Prod.fst x) x.2 s u j) ∧
    (∃ s x u j, readyToCommit .privImport (Prod.fst x) x.2 s u j) ∧ (∃ s x u j, readyToCommit .privErase (Prod.fst x) x.2 s u j)  :=
  ⟨⟨_, _, commits_meets commits_authorities.1⟩, ⟨_, _, commits_meets commits_authorities.2⟩,
   ⟨_, _, commits_meets commits_root_keys.1⟩, ⟨_, _, commits_meets commits_root_keys.2⟩,
   ⟨_, _, commits_meets commits_private_keys.1⟩, ⟨_, _, commits_meets commits_private_keys.2⟩⟩

theorem witness_KeyCommandsCommit_checks : ∃ (s : State) (tag : Nat) (j : Job) (b : CmdBlock), tagsDistinct s ∧ tag < 2048 ∧
    findJob s tag = some j ∧ curveWork j = true ∧ j.block = some b ∧ j.stage = .running ∧ j.status = none ∧ overlaps j = false := by
  obtain ⟨j, hj, hp⟩ := job_any (s := curveRunning) (tag := 9)
    (p := fun j => curveWork j && j.block.isSome && decide (j.stage = .running ∧ j.status = none ∧ overlaps j = false))
    (by decide +kernel)
  obtain ⟨hp, hd⟩ := (Bool.and_eq_true _ _).mp hp
  obtain ⟨hw, hb⟩ := (Bool.and_eq_true _ _).mp hp
  obtain ⟨b, hb⟩ := Option.isSome_iff_exists.mp hb
  obtain ⟨x, y, z⟩ := of_decide_eq_true hd
  exact ⟨curveRunning, 9, j, b, by unfold tagsDistinct; decide +kernel, by decide, hj, hw, hb, x, y, z⟩

/-- A prepared CURVE_LOAD whose commit nothing has overtaken. -/
def committable (s : State) (j : Job) : Bool :=
  decide (j.op = .critical .curveLoad) && decide (j.stage = .prepared) &&
    j.block.any (fun b => (overtaken s .curveLoad b).isNone)

theorem awaitsCommit_meets {s : State} (h1 : (s.rings.jobs.map (fun j => j.tag)).Nodup)
    (h2 : (findJob s 9).any (committable s) = true) : ∃ j b, awaitsCommit .curveLoad s 9 j b := by
  obtain ⟨j, hj, hp⟩ := job_any h2
  obtain ⟨hd, hb⟩ := (Bool.and_eq_true _ _).mp hp
  obtain ⟨x, y⟩ := (Bool.and_eq_true _ _).mp hd
  cases hk : j.block with
  | none => rw [hk] at hb; exact nomatch hb
  | some b =>
    rw [hk] at hb
    exact ⟨j, b, h1, hj, of_decide_eq_true x, hk, of_decide_eq_true y, Option.isNone_iff_eq_none.mp hb⟩

theorem witness_KeyCommandsCommit_curve : ∃ (s : State) (tag : Nat) (j : Job) (b : CmdBlock), awaitsCommit .curveLoad s tag j b :=
  ⟨curveChecked, 9, awaitsCommit_meets (by decide +kernel) (by decide +kernel)⟩

/-- R288, R289: the entry is LOADED once the command has committed, not before. -/
theorem test_curve_load : (tblGet Curve.reset curveChecked.curves.table 8).loaded = false ∧
    (tblGet Curve.reset (after [.completionEntryWrite 9] curveChecked).curves.table 8).loaded = true ∧
    curveChecked.curves.lastFailed = 0 := by decide +kernel

theorem witness_PolicyAndSessionCommandsCommit :
    (∃ s x u j, readyToCommit .sesSet (Prod.fst x) x.2 s u j) ∧ (∃ s x u j, readyToCommit .sesClear (Prod.fst x) x.2 s u j) ∧
    (∃ s x u j, readyToCommit .appletLoad (Prod.fst x) x.2 s u j) ∧ (∃ s x u j, readyToCommit .appletRemove (Prod.fst x) x.2 s u j) ∧
    (∃ s x u j, readyToCommit .levelRaise (Prod.fst x) x.2 s u j) ∧ (∃ s x u j, readyToCommit .razeEnable (Prod.fst x) x.2 s u j) ∧
    (∃ s x u j, readyToCommit .alarmConfig (Prod.fst x) x.2 s u j) ∧ (∃ s x u j, readyToCommit .ctrAssign (Prod.fst x) x.2 s u j) ∧
    (∃ s x u j, readyToCommit .debugUnlock (Prod.fst x) x.2 s u j) :=
  ⟨⟨_, _, commits_meets commits_sessions.1⟩, ⟨_, _, commits_meets commits_sessions.2⟩,
   ⟨_, _, commits_meets commits_applets.1⟩, ⟨_, _, commits_meets commits_applets.2⟩,
   ⟨_, _, commits_meets commits_policy.1⟩, ⟨_, _, commits_meets commits_policy.2.1⟩,
   ⟨_, _, commits_meets commits_policy.2.2.1⟩, ⟨_, _, commits_meets commits_policy.2.2.2.1⟩,
   ⟨_, _, commits_meets commits_policy.2.2.2.2⟩⟩

theorem witness_AlarmAndUnlockCommandsCommit :
    (∃ s x u j, readyToCommit .whiteoutEnter (Prod.fst x) x.2 s u j) ∧ (∃ s x u j, readyToCommit .whiteoutExit (Prod.fst x) x.2 s u j) ∧
    (∃ s x u j, readyToCommit .evacuate (Prod.fst x) x.2 s u j) ∧ (∃ s x u j, readyToCommit .alert (Prod.fst x) x.2 s u j) ∧
    (∃ s x u j, readyToCommit .unlock (Prod.fst x) x.2 s u j) :=
  ⟨⟨_, _, commits_meets commits_alarm.1⟩, ⟨_, _, commits_meets commits_alarm.2.2.2⟩,
   ⟨_, _, commits_meets commits_alarm.2.1⟩, ⟨_, _, commits_meets commits_alarm.2.2.1⟩,
   ⟨_, _, commits_meets commits_unlock.2.2⟩⟩

theorem witness_LifeCycleAdvance_provisions :
    ∃ s x u j, readyToCommit .lcAdvance (Prod.fst x) x.2 s u j ∧ s.life.state = .factory := by
  obtain ⟨u, j, h⟩ := commits_meets commits_provisioning
  exact ⟨factoryPart, provision, u, j, h, rfl⟩

theorem witness_LifeCycleAdvanceAndReceiptCommit :
    (∃ s x u j, readyToCommit .lcAdvance (Prod.fst x) x.2 s u j) ∧ (∃ s x u j, readyToCommit .trkReceipt (Prod.fst x) x.2 s u j) :=
  ⟨⟨_, _, commits_meets commits_life_cycle_and_receipt.1⟩, ⟨_, _, commits_meets commits_life_cycle_and_receipt.2⟩⟩

/-- R168: RESULT[63:48] of the three unlocks, each with the SEQ of its entry. -/
theorem test_unlock_results :
    (lastEntry (exec (criticalRow .unlock (cmdOf 4 0x020 (bytesLE 8 7)).1 (some (cmdOf 4 0x020 (bytesLE 8 7)).2)) (lockedPart false false))).map
      (fun f => f.result.toNat / 2 ^ 48) = some 1 ∧
    (lastEntry (exec (criticalRow .unlock (cmdOf 4 0x020 (bytesLE 8 7)).1 (some (cmdOf 4 0x020 (bytesLE 8 7)).2)) (lockedPart true false))).map
      (fun f => f.result.toNat / 2 ^ 48) = some 2 ∧
    (lastEntry (exec (criticalRow .unlock (cmdOf 0 0x020 (bytesLE 8 7)).1 (some (cmdOf 0 0x020 (bytesLE 8 7)).2)) (lockedPart true true))).map
      (fun f => f.result.toNat / 2 ^ 48) = some 1 := by decide +kernel

/-! ### Rings -/

theorem witness_Doorbells : doorbellRow (.doorbell 63 0x1FFFF) = some (.host 63, 0x1FFFF) ∧ live.link.d3hot = false ∧
    doorbellRow (.ringPortDb 31 7) = some (.internal 31, 7) ∧ live.gate.isOpen = true ∧ State.reset.gate.isOpen = false := by
  decide

/-- An enabled ring of depth 64 with TAIL at 63 and two descriptors without an entry. -/
def busyRing : State :=
  { live with rings := { live.rings with host := [(5, { Ring.reset with
      state := .enabled, tail := 63, fetch := 63, slots := [freshSlot 61 900, freshSlot 62 900] })] } }

def ringAfter (i : Instr) (s : State) : Ring := getRing (after [i] s) (.host 5)

/-- R109 to R111: 61 more are the most that fit; bits 31 to 16 and a TAIL of 64 are ignored. -/
theorem test_doorbells : (ringAfter (.doorbell 5 60) busyRing).tail = 60 ∧ (ringAfter (.doorbell 5 61) busyRing).dbOverflow = true ∧
    (ringAfter (.doorbell 5 64) busyRing).dbIgnored = true ∧ (ringAfter (.doorbell 5 0x10000) busyRing).dbIgnored = true ∧
    ringAfter (.doorbell 5 63) busyRing = getRing busyRing (.host 5) := by decide +kernel

/-- A halted ring with one fetched descriptor, settled or not, and one that is only visible. -/
def haltedRing (settled : Bool) : State :=
  { live with rings := { live.rings with host := [(5, { Ring.reset with
      state := .halted, haltMode := true, tail := 4, fetch := 3, visible := [some 950],
      slots := [{ freshSlot 2 900 with arrived := true, written := settled }] })] } }

theorem witness_RingCommands_flush : ringNum (.host 5) < 64 ∧ (getRing (haltedRing true) (.host 5)).fetch < 2 ^ (getRing (haltedRing true) (.host 5)).depthLog2 ∧
    (getRing (haltedRing true) (.host 5)).depthLog2 ≤ 16 := by decide

theorem test_ring_commands : (ringAfter (.ringRearm 5) (haltedRing true)).state = .enabled ∧
    (ringAfter (.ringRearm 5) (haltedRing false)).rearmPending = true ∧
    (ringAfter (.ringDisable 5) (haltedRing false)).state = .draining ∧
    (ringAfter (.ringDisable 5) (haltedRing true)).state = .disabled ∧
    (ringAfter (.ringEnable 5) live).state = .enabled ∧
    (ringAfter (.ringEnable 5) { live with life := { live.life with isSealed := false } }).enableIgnored = true := by
  decide +kernel

/-- R136: a flushed descriptor gets CANCELLED with its COOKIE, in its own slot. -/
theorem test_flush_entry : (lastEntry (exec (.ringRearmFlush 5 [.cookie 0x77 false]) (haltedRing true))).map
    (fun f => (f.cookie, f.status, f.sqIndex, f.tagValid)) = some (0x77, statusCode .cancelled, 3, false) := by decide +kernel

theorem witness_DescriptorReadFault : ∃ (s : State) (n index pick tag : Nat) (q : Slot), n < 64 ∧ index < 65536 ∧
    openSlot s (.host n) index = some q ∧ takeTag s pick = some tag :=
  ⟨staged .L, 5, 0, 2048, 0, freshSlot 0 1000, by decide +kernel⟩

theorem test_descriptor_read_fault : (lastEntry (exec (.descriptorReadFault (.host 5) 0 .ur 0x40 2048) (staged .L))).map
    (fun f => (f.cookie, f.status, f.jobTag, f.tagValid)) = some (0, statusCode .hostReadFault, 0, true) ∧
    (after [.descriptorReadFault (.host 5) 0 .ur 0x40 2048] (staged .L)).link.err = 4 := by decide +kernel

/-! ### Jobs -/

/-- A host job of tag 9 without a status that waits for reads. -/
def gathersJob (j : Job) : Bool :=
  decide (j.ring = .host 5 ∧ j.admitted = true ∧ j.status = none ∧ j.stage = .gathering)

theorem gathers_meets {s : State} (h : ((findJob s 9).any gathersJob && decide (tagsHeld s).Nodup) = true) :
    ∃ j, gathers s 9 j 5 := by
  obtain ⟨h1, h2⟩ := (Bool.and_eq_true _ _).mp h
  obtain ⟨j, hj, hp⟩ := job_any h1
  obtain ⟨a, b, c, d⟩ := of_decide_eq_true hp
  exact ⟨j, (of_decide_eq_true h2 : (tagsHeld s).Nodup), by decide, hj, a, b, c, d⟩

/-- A running host job of tag 9 whose output may leave. -/
def runsJob (p : Job → Bool) (j : Job) : Bool :=
  decide (isHost j.ring = true ∧ j.stage = .running ∧ j.status = none ∧ j.noOutput = false ∧ j.out = [] ∧ overlaps j = false) && p j

theorem runsFreely_meets {s : State} {p : Job → Bool}
    (h : ((findJob s 9).any (runsJob p) && decide ((tagsHeld s).Nodup ∧ s.link.bme = true ∧ s.link.creditStalled = false)) = true) :
    ∃ j, runsFreely s 9 j ∧ p j = true := by
  obtain ⟨h1, h2⟩ := (Bool.and_eq_true _ _).mp h
  obtain ⟨j, hj, hp⟩ := job_any h1
  obtain ⟨hp, hq⟩ := (Bool.and_eq_true _ _).mp hp
  obtain ⟨a, b, c, d, e, f⟩ := of_decide_eq_true hp
  obtain ⟨x, y, z⟩ := of_decide_eq_true h2
  exact ⟨j, ⟨x, by decide, hj, a, b, c, d, e, f, y, z⟩, hq⟩

/-- A HASH job that gathers, and the same job running. -/
def hashing : State := after [.hash hashArrival] (staged .L)
def hashed : State := after [.gatherDataArrival 9 .source (bytes 64)] hashing

/-- A HASH job with a source list and a destination list of one entry each. -/
def listing : State :=
  after [.hash (arrivalOf (descOf 0x20 0 0 0 0x400 64 0 32 ||| BitVec.ofNat 512 (0x30000 + 2 ^ 288 + 2 ^ 296)))] (staged .L)

/-- One list entry: 64 bytes at 0x5000. -/
def oneEntry (n : Nat) : Bytes := bytesLE 8 0x5000 ++ bytesLE 8 n

/-- A critical command that gathers. -/
def commanded : State := after [.rootErase (eraseWith 0x400410201 1 7).1 none] (staged .B)

theorem witness_GatheredData_source : ∃ (s : State) (j : Job), gathers s 9 j 5 := ⟨hashing, gathers_meets (by decide +kernel)⟩
theorem witness_GatheredData_lists : ∃ (s : State) (j : Job), gathers s 9 j 5 := ⟨listing, gathers_meets (by decide +kernel)⟩
theorem witness_GatheredData_block : ∃ (s : State) (j : Job), gathers s 9 j 5 := ⟨commanded, gathers_meets (by decide +kernel)⟩

/-- Stage and status of the job of tag 9. -/
def jobAfter (cs : List Instr) (s : State) : Option (Stage × Option Status) := (findJob (after cs s) 9).map (fun j => (j.stage, j.status))

/-- R119: a list whose lengths do not sum to SRC_LEN is bad. -/
theorem test_gathering : jobAfter [.gatherDataArrival 9 .source (bytes 64)] hashing = some (.running, none) ∧
    jobAfter [.gatherDataArrival 9 .srcList (oneEntry 64)] listing = some (.gathering, none) ∧
    jobAfter [.gatherDataArrival 9 .dstList (oneEntry 31)] listing = some (.finished, some .inputInvalid) ∧
    jobAfter [.gatherDataArrival 9 .srcList (oneEntry 64), .gatherDataArrival 9 .dstList (oneEntry 32),
      .gatherDataArrival 9 .source (bytes 64)] listing = some (.running, none) ∧
    jobAfter [.gatherDataArrival 9 .block (vecBytes 1024 (eraseWith 0x400410201 1 7).2.block)] commanded = some (.barrier, none) := by
  decide +kernel

theorem witness_FailedRequests_read : ∃ (s : State) (tag n req : Nat) (k : ReadFault) (addr : DWord) (j : Job) (i : Instr),
    gathers s tag j n ∧ s.card.job ≠ some tag ∧
      (i = .readFailed tag k addr ∨ (i = .readCompletionTimeout tag req addr ∧ k = .timeout)) := by
  obtain ⟨j, h⟩ := gathers_meets (s := hashing) (by decide +kernel)
  exact ⟨hashing, 9, 5, 3, .timeout, 0, j, _, h, by decide +kernel, .inr ⟨rfl, rfl⟩⟩

theorem witness_FailedRequests_write : ∃ (s : State) (tag n : Nat) (j : Job), tagsDistinct s ∧ tag < 2048 ∧
    findJob s tag = some j ∧ j.ring = .host n ∧ dDstLen j.desc ≠ 0 ∧ j.stage = .running := by
  obtain ⟨j, hj, hp⟩ := job_any (s := hashed) (tag := 9)
    (p := fun j => decide (j.ring = .host 5 ∧ dDstLen j.desc ≠ 0 ∧ j.stage = .running)) (by decide +kernel)
  exact ⟨hashed, 9, 5, j, by unfold tagsDistinct; decide +kernel, by decide, hj, of_decide_eq_true hp⟩

theorem test_failed_requests : jobAfter [.readCompletionTimeout 9 3 0] hashing = some (.finished, some .hostReadFault) ∧
    (after [.readCompletionTimeout 9 3 0] hashing).link.heldTags = [(3, 9)] ∧
    jobAfter [.writeCreditTimeout 9 0] hashed = some (.running, some .hostWriteFault) := by decide +kernel

/-- A request of a job that has ended has timed out in PCI Express too, and its data still comes (R87). -/
def expired : State := after [.readCompletionTimeout 9 3 0, .completionEntryWrite 9, .pcieCompletionTimeout 3] { hashing with
  link := { hashing.link with devctl2 := 0 } }

theorem witness_FailedRequests_expired : findJob expired 9 = none ∧ 9 ∈ expired.link.expired ∧ expired.link.heldTags = [] ∧
    expired.link.aer.getLsbD 14 = true ∧ (after [.gatherDataArrival 9 .source (bytes 64)] expired).link.err.getLsbD 1 = true := by
  decide +kernel

theorem witness_FailedRequests_creditReturn : (after [.writeCreditTimeout 9 0] hashed).link.creditStalled = true ∧
    (after [.writeCreditTimeout 9 0, .postedWriteCreditReturn] hashed).link.creditStalled = false := by decide +kernel

/-- A GCM job of 64 bytes, before and after its derivation. -/
def framing : State := after [.sesEncrypt (arrivalOf (descOf 0x10 0 0 1 0 64 0 80)), .gatherDataArrival 9 .source (bytes 64)] (staged .L)
def framed : State := after [.liftDerivationDone 9] framing

theorem witness_SessionJobs_derive : ∃ (s : State) (tag : Nat) (j : Job) (c : SessionCopy) (m : KeyMat),
    tagsDistinct s ∧ tag < 2048 ∧ findJob s tag = some j ∧ j.sess = some c ∧ isSession j.op = true ∧ j.sideOn = true ∧
      c.chainBad = false ∧ dChain j.desc = 0 ∧ matOf (rootSlot s c.rootSlot) c.gen = some m := by
  obtain ⟨j, hj, hp⟩ := job_any (s := framing) (tag := 9)
    (p := fun j => decide (isSession j.op = true ∧ j.sideOn = true ∧ dChain j.desc = 0) &&
      j.sess.any (fun c => c.rootSlot == 5 && c.gen == 1 && !c.chainBad)) (by decide +kernel)
  obtain ⟨hp, hc⟩ := (Bool.and_eq_true _ _).mp hp
  obtain ⟨a, b, d⟩ := of_decide_eq_true hp
  cases hs : j.sess with
  | none => rw [hs] at hc; exact nomatch hc
  | some c =>
    rw [hs] at hc
    obtain ⟨hc, h3⟩ := (Bool.and_eq_true _ _).mp hc
    obtain ⟨h1, h2⟩ := (Bool.and_eq_true _ _).mp hc
    refine ⟨framing, 9, j, c, mat false [], by unfold tagsDistinct; decide +kernel, by decide, hj, hs, a, b, by simpa using h3, d, ?_⟩
    rw [beq_iff_eq.mp h1, beq_iff_eq.mp h2]
    decide +kernel

theorem witness_SessionJobs_run : ∃ (s : State) (tag : Nat) (j : Job) (c : SessionCopy), runsFreely s tag j ∧
    isSession j.op = true ∧ j.sess = some c ∧ dChain j.desc = 0 ∧ isStreamed j = false ∧ isTwoPass j = false := by
  obtain ⟨j, h, hp⟩ := runsFreely_meets (s := framed)
    (p := fun j => decide (isSession j.op = true ∧ dChain j.desc = 0 ∧ isStreamed j = false ∧ isTwoPass j = false) && j.sess.isSome)
    (by decide +kernel)
  obtain ⟨hp, hc⟩ := (Bool.and_eq_true _ _).mp hp
  obtain ⟨a, b, d, e⟩ := of_decide_eq_true hp
  obtain ⟨c, hs⟩ := Option.isSome_iff_exists.mp hc
  exact ⟨framed, 9, j, c, h, a, hs, b, d, e⟩

theorem test_session_job : jobAfter [.bladeJobDone 9] framed = some (.finished, some .ok) := by decide +kernel

/-- A frame of n bytes on its Blade, with its key, before its source. -/
def unsealing (flags n : Nat) : State :=
  after [.sesDecrypt (arrivalOf (descOf (0x11 + flags) 3 0 1 0 (n + 16) 0 n)), .liftDerivationDone 9] (staged .B)

/-- R142, R141: 70,000 bytes are released as they are decrypted, 40,000 read twice, 64 given at the end. -/
theorem witness_SessionJobs_passes :
    (findJob (unsealing 0x40000 70000) 9).map (fun j => (isStreamed j, lastPiece j.desc, j.sess.isSome)) = some (true, true, true) ∧
    (findJob (unsealing 0 40000) 9).map (fun j => (isStreamed j, isTwoPass j, j.secondPass)) = some (false, true, false) ∧
    (findJob (unsealing 0 64) 9).map (fun j => (isStreamed j, isTwoPass j)) = some (false, false) := by decide +kernel

theorem witness_SessionJobs_good : (findJob framed 9).map (fun j =>
    (decide (dSrcLen j.desc ≤ (j.source.getD []).length), (bladeRun j (laidSource j)).tagBad, (bladeRun j (laidSource j)).padBad,
      makesReplayCheck j)) = some (true, false, false, false) := by decide +kernel

/-- A signature over 100 bytes whose key must be loaded and whose message must be hashed. -/
def signing : State := after [.eddsaSign (arrivalOf (descOf 0x34 3 0 6 0 100 0 64)), .gatherDataArrival 9 .source (bytes 100)] (staged .B)
def signable : State := after [.hashJobDone 9] signing

theorem witness_VaultGrant : ∃ (s : State) (tag : Nat) (j : Job) (h : VaultHold) (l : List VaultHold) (m : KeyMat),
    tagsDistinct s ∧ tag < 2048 ∧ findJob s tag = some j ∧ j.stage = .waitingKey ∧ j.holds = h :: l ∧ j.sess = none ∧
      isSession j.op = false ∧ matOf (slotOf s h.slot) h.gen = some m := by
  obtain ⟨j, hj, hp⟩ := job_any (s := signable) (tag := 9)
    (p := fun j => decide (j.stage = .waitingKey ∧ j.holds = [{ slot := .priv 6, gen := 1 }] ∧ j.sess = none ∧
      isSession j.op = false)) (by decide +kernel)
  obtain ⟨a, b, c, d⟩ := of_decide_eq_true hp
  exact ⟨signable, 9, j, _, _, { mat false [] with kind := 0x2000 }, by unfold tagsDistinct; decide +kernel, by decide, hj, a, b, c, d,
    by decide +kernel⟩

/-- The same signature with its key, and with the message read again for the challenge. -/
def signStarted : State := after [.vaultArbiterGrant 9] signable
def signAgain : State := after [.gatherDataArrival 9 .source (bytes 100)] signStarted

theorem witness_VaultGrant_oldest : signable.rings.jobs.all (fun k => k.tag == 9) = true ∧ tblGet 0 signable.units.arbSince 9 = 1001 := by
  decide +kernel

/-- R276: both hashes of the message run on a hash unit, each over the whole message. -/
theorem witness_MessageDigest_again : (findJob signing 9).map (fun j => (j.sideOn, sourceWhole j, j.digest.isNone)) = some (true, true, true) ∧
    (findJob signStarted 9).map (fun j => (challengeDue j, j.source.isNone)) = some (true, true) ∧
    (findJob signAgain 9).map (fun j => (j.sideOn, sourceWhole j, j.digest.isSome, j.digest2.isNone)) = some (true, true, true, true) ∧
    (findJob (after [.hashJobDone 9] signAgain) 9).map (fun j => challengeDue j) = some false := by decide +kernel

theorem witness_HashJob : ∃ (s : State) (tag : Nat) (j : Job), runsFreely s tag j ∧ j.op = .hash ∧
    sourceWhole j = true := by
  obtain ⟨j, h, hp⟩ := runsFreely_meets (s := hashed) (p := fun j => decide (j.op = .hash ∧ sourceWhole j = true)) (by decide +kernel)
  exact ⟨hashed, 9, j, h, of_decide_eq_true hp⟩

theorem witness_MessageDigest : ∃ (s : State) (tag : Nat) (j : Job) (src : Bytes), tagsDistinct s ∧ tag < 2048 ∧
    findJob s tag = some j ∧ isEdge j.op = true ∧ digestDue j = true ∧ j.source = some src ∧ j.stage ≠ .finished ∧ j.stage ≠ .built := by
  obtain ⟨j, hj, hp⟩ := job_any (s := signing) (tag := 9)
    (p := fun j => decide (isEdge j.op = true ∧ digestDue j = true ∧ j.source = some (bytes 100) ∧ j.stage ≠ .finished ∧ j.stage ≠ .built))
    (by decide +kernel)
  obtain ⟨a, b, c, d, e⟩ := of_decide_eq_true hp
  exact ⟨signing, 9, j, _, by unfold tagsDistinct; decide +kernel, by decide, hj, a, b, c, d, e⟩

/-- A key generation before and after its draw, and a signature check. -/
def generating : State := after [.ecKeygen (arrivalOf (descOf 0x32 3 0 9 0x3000 0 0 64))] (staged .B)
def generatedKey : State := after [.groomerDrawDone 0] { generating with
  powder := { generating.powder with grm := [(0, { seededGroomer with k := [] })] } }
def checking : State := after [.rsaVerify (arrivalOf (descOf 0x38 3 0 0 0x1100 292 0 0 128)), .gatherDataArrival 9 .source (bytes 292)] (staged .B)

theorem witness_EdgeJob_keygen : ∃ (s : State) (tag : Nat) (j : Job), runsFreely s tag j ∧ isEdge j.op = true ∧ j.op = .ecKeygen := by
  obtain ⟨j, h, hp⟩ := runsFreely_meets (s := generatedKey) (p := fun j => decide (j.op = .ecKeygen)) (by decide +kernel)
  have h1 := of_decide_eq_true hp
  exact ⟨_, 9, j, h, by rw [h1]; rfl, h1⟩

theorem witness_EdgeJob_verify : ∃ (s : State) (tag : Nat) (j : Job), runsFreely s tag j ∧ isEdge j.op = true ∧ j.op ≠ .ecKeygen := by
  obtain ⟨j, h, hp⟩ := runsFreely_meets (s := checking) (p := fun j => decide (j.op = .rsaVerify)) (by decide +kernel)
  have h1 := of_decide_eq_true hp
  exact ⟨_, 9, j, h, by rw [h1]; rfl, by rw [h1]; exact fun e => nomatch e⟩

theorem witness_EdgeJob_good : (findJob generatedKey 9).map (fun j => (challengeDue j, (edgeRun generatedKey j).status)) = some (false, .ok) ∧
    guardUp generatedKey = false ∧ inWhiteout generatedKey = false := by decide +kernel

theorem witness_EdgeJob_bad : (findJob checking 9).map (fun j => (challengeDue j, (edgeRun checking j).status)) = some (false, .inputInvalid) := by
  decide +kernel

/-- 64 bytes as the session seals them, and a frame of them on its Blade, whose context is as written, or lost (R389). -/
def sealedBytes (s : State) : Bytes :=
  (findJob s 9).elim [] (fun j =>
    let r := bladeRun { j with op := .sesEncrypt, desc := descOf 0x10 3 0 1 0 64 0 80 } (bytes 64)
    r.text ++ r.tag)
def unsealed : State := after [.gatherDataArrival 9 .source (sealedBytes (unsealing 0 64))] (unsealing 0 64)

/-- A signature check on the curve of entry 8. -/
def onCurve8 : State :=
  after [.ecdsaVerify (arrivalOf (descOf 0x31 3 0 0 0x108 144 0 0)), .gatherDataArrival 9 .source (bytes 144)] { staged .B with
    curves := { (staged .B).curves with table := [(8, { loaded := true, image := curveImage p192, digest := [] })] } }

theorem witness_SessionJobs_context : unsealed.stored.marks = [] ∧
    (findJob unsealed 9).map (fun j => (makesReplayCheck j, j.sess.map (fun c => (c.session, c.passed)))) =
      some (true, some (1, false)) ∧ jobAfter [.bladeJobDone 9] unsealed = some (.finished, some .ok) ∧
    jobAfter [.bladeJobDone 9] (setCond 4 16 .uncorrectable unsealed) = some (.finished, some .memUncorrectable) := by
  decide +kernel

/-- R390: a word of the key, or of the curve entry, is lost in both copies. -/
theorem witness_LostKeys :
    jobAfter [.liftDerivationDone 9] (setCond 3 (cellWord { slot := .root 5, gen := 1 }) .uncorrectable framing) =
      some (.finished, some .memUncorrectable) ∧
    jobAfter [.vaultArbiterGrant 9] (setCond 3 (cellWord { slot := .priv 6, gen := 1 }) .uncorrectable signable) =
      some (.finished, some .memUncorrectable) ∧
    jobAfter [.edgeJobDone 9] (setCond 2 (curveWord 8) .poisoned onCurve8) = some (.finished, some .memUncorrectable) := by
  decide +kernel

/-- A request of 20,000 random bytes. -/
def drawing : State := after [.rngOut (arrivalOf (descOf 0x28 3 0 0 0 0 0 20000))] (staged .B)

theorem witness_GroomerDraw : ∃ (s : State) (g : Nat) (j : Job), tagsDistinct s ∧ j.tag < 2048 ∧ groomerServes s g = true ∧
    firstToRun { kind := .groomer, num := g } (drawsOn s g) = some j ∧ overlaps j = false ∧ isHost j.ring = true ∧ j.op = .rngOut := by
  have h : (firstToRun { kind := .groomer, num := 0 } (drawsOn drawing 0)).any (fun j =>
      decide (j.tag < 2048 ∧ overlaps j = false ∧ isHost j.ring = true ∧ j.op = .rngOut)) = true := by decide +kernel
  cases hj : firstToRun { kind := .groomer, num := 0 } (drawsOn drawing 0) with
  | none => rw [hj] at h; exact nomatch h
  | some j =>
    rw [hj] at h
    obtain ⟨a, b, c, d⟩ := of_decide_eq_true h
    exact ⟨drawing, 0, j, by unfold tagsDistinct; decide +kernel, a, by decide +kernel, hj, b, c, d⟩

/-- Core 1 runs an applet with an empty random buffer: its refill is placed on Groomer 0, which has nothing else to draw. -/
def wanting : State := placeRefills { running with powder := plainDraws.powder }

theorem witness_GroomerDraw_refill : (List.range 8).all (fun d => !(wantsRefill wanting d)) = true ∧
    (firstRefill wanting 0).map Prod.snd = some 1 ∧ drawsOn wanting 0 = [] ∧ groomerServes wanting 0 = true ∧
    wanting.powder.seeded = true ∧ (rinkOf (after [.groomerDrawDone 0] wanting) 1).arriving.length = 64 := by decide +kernel

theorem witness_GroomerDraw_norefill : (List.range 8).all (fun c => !(wantsRefill drawing c) && (rinkOf drawing c).refill.isNone) = true := by
  decide +kernel

theorem witness_GroomerDraw_key : ((drawsOn generating 0).map (fun j => (j.op, j.drawBytes))) = [(.ecKeygen, 32)] := by decide +kernel

theorem witness_PreemptionPoint : let u : UnitRef := { kind := .hash, num := 0 }
    u.kind ≠ .blade ∧ (tagsHeld hashed).Nodup ∧ (∀ j ∈ hashed.rings.jobs, j.tag < 2048) ∧
      (∀ j ∈ jobsOn hashed u, isSession j.op = false) ∧ (jobsOn hashed u).length = 1 := by decide +kernel

/-- A command at its barrier. -/
def barred : State := after [.gatherDataArrival 9 .block (vecBytes 1024 (eraseWith 0x400410201 1 7).2.block)] commanded

theorem witness_Barrier : ∃ (s : State) (tag : Nat) (j : Job) (c : CmdCode) (b : CmdBlock), tagsDistinct s ∧ tag < 2048 ∧
    findJob s tag = some j ∧ j.op = .critical c ∧ j.block = some b ∧ j.stage = .barrier ∧ j.status = none ∧ j.unit = none ∧
      barrierMet s j = true := by
  obtain ⟨j, hj, hp⟩ := job_any (s := barred) (tag := 9)
    (p := fun j => decide (j.op = .critical .rootErase ∧ j.stage = .barrier ∧ j.status = none ∧ j.unit = none ∧ barrierMet barred j = true) &&
      j.block.isSome) (by decide +kernel)
  obtain ⟨hp, hb⟩ := (Bool.and_eq_true _ _).mp hp
  obtain ⟨a, d, e, f, g⟩ := of_decide_eq_true hp
  obtain ⟨b, hb⟩ := Option.isSome_iff_exists.mp hb
  exact ⟨barred, 9, j, _, b, by unfold tagsDistinct; decide +kernel, by decide, hj, a, hb, d, e, f, g⟩

theorem test_barrier_release : (findJob (after [.criticalBarrierRelease 9] barred) 9).map (fun j => j.stage) = some .prepared ∧
    (counter (after [.criticalBarrierRelease 9] barred) 2).value = 1 := by decide +kernel

/-- One unit of a kind in service and a standby. -/
def lone : Tbl UnitRec := [(0, up .inService), (1, up .standby)]

/-- Host rings 5, of class B, and 6, of another class, each with a descriptor on its way to the same units. -/
def twoRings (c : Cls) (s : State) : State :=
  { s with rings := { s.rings with host := [(5, ringOf .B), (6, ringOf c)] },
           units := { s.units with edges := lone, hashes := lone, blades := lone } }

def on6 (d : Descriptor) : Arrival := { ring := .host 6, index := 0, desc := d, pick := 10 }

/-- A HASH of 40,000 bytes that has one segment, behind which a shorter one of class L waits. -/
def twoHashes : State :=
  after [.hash (arrivalOf (descOf 0x20 3 0 0 0x400 40000 0 32)), .gatherDataArrival 9 .source (List.replicate 16384 1),
    .hash (on6 (descOf 0x20 0 0 0 0x400 64 0 32)), .gatherDataArrival 10 .source (bytes 64)] (twoRings .L (staged .B))

/-- The job that the unit runs, at a step boundary, and whether an earlier one waits behind it. -/
def stepsAside (u : UnitRef) (s : State) : Option (Nat × Bool × Bool) :=
  ((jobsOn s u).find? (fun j => j.stage == .running)).map (fun j => (j.tag, atPoint u j, comesFirst s u j))

theorem witness_PreemptionPoint_hash : let u : UnitRef := { kind := .hash, num := 0 }
    stepsAside u twoHashes = some (9, true, true) ∧ (tagsHeld twoHashes).Nodup ∧
    (twoHashes.rings.jobs.all (fun j => decide (j.tag < 2048) && j.sess.isNone && j.status.isNone && !(isSession j.op))) = true ∧
    unitServes twoHashes u = true ∧
    (findJob twoHashes 9).any (fun _ =>
      let v := modJob 9 (fun j => { j with stage := .suspended, steps := j.steps + 1 }) twoHashes
      !(unitBusy v u) && (firstToRun u (unitChoices v u)).any (fun x => x.tag == 10 && onUnit x u && !(isPrivate x.op))) = true ∧
    jobAfter [.preemptionPoint u] twoHashes = some (.suspended, none) := by decide +kernel

/-- A P-256 signature that runs (272 steps), behind which a verification of class P waits. -/
def twoSigns : State :=
  after [.ecdsaSign (arrivalOf (descOf 0x30 3 0 10 0x100 64 0 64)), .gatherDataArrival 9 .source (bytes 64), .groomerDrawDone 0,
    .vaultArbiterGrant 9, .ecdsaVerify (on6 (descOf 0x31 1 0 0 0x100 200 0 0)), .gatherDataArrival 10 .source (bytes 200), .hashJobDone 10]
    { twoRings .P curveKey with powder := plainDraws.powder }

theorem witness_PreemptionPoint_edge : let u : UnitRef := { kind := .edge, num := 0 }
    stepsAside u twoSigns = some (9, true, true) ∧ (tagsHeld twoSigns).Nodup ∧
    (findJob twoSigns 9).map (fun j => (edgeSteps j, j.slots.length)) = some (272, 20) ∧
    (findJob twoSigns 9).any (fun _ =>
      let v := modJob 9 (fun j => { j with stage := .suspended, steps := j.steps + 1 }) twoSigns
      !(unitBusy v u) && (firstToRun u (unitChoices v u)).any (fun x => x.tag == 10 && onUnit x u && !(isPrivate x.op))) = true ∧
    jobAfter [.preemptionPoint u] twoSigns = some (.suspended, none) := by decide +kernel

/-- A frame of 40,000 bytes with one segment on its Blade, behind which a shorter one of class L has its source. -/
def twoFrames : State :=
  after [.sesEncrypt (arrivalOf (descOf 0x10 3 0 1 0 40000 0 40016)), .liftDerivationDone 9,
    .gatherDataArrival 9 .source (List.replicate 16384 1),
    .sesEncrypt (on6 (descOf 0x10 0 0 1 0 64 0 80)), .gatherDataArrival 10 .source (bytes 64)] (twoRings .L (staged .B))
theorem witness_PreemptionPoint_blade : stepsAside { kind := .blade, num := 0 } twoFrames = some (9, true, true) ∧
    (findJob twoFrames 9).map (fun j => (atBoundary j, isStreamed j, fillsSegments j)) = some (true, false, true) := by decide +kernel

/-- A hash unit hashes a message of 40,000 bytes for a signature, behind which one of 200 bytes waits. -/
def twoMessages : State :=
  after [.eddsaSign (arrivalOf (descOf 0x34 3 0 6 0 40000 0 64)), .gatherDataArrival 9 .source (List.replicate 16384 1),
    .ecdsaVerify (on6 (descOf 0x31 1 0 0 0x100 200 0 0)), .gatherDataArrival 10 .source (bytes 200)] (twoRings .P (staged .B))
theorem witness_PreemptionPoint_message : let u : UnitRef := { kind := .hash, num := 0 }
    (jobsOn twoMessages u).all (fun k => k.stage != .running) = true ∧
    (twoMessages.rings.jobs.find? (fun j => j.sideOn && sideUnit j == some u)).any (fun j =>
      decide (j.tag = 9 ∧ 16384 < messageLen j.op j.desc j.facts) &&
      (firstToRun u (unitChoices twoMessages u)).any (fun y => runsBefore u y j)) = true ∧
    unitServes twoMessages u = true ∧
    (let v := modJob 9 (fun j => { j with sideOn := false }) twoMessages
     unitBusy v u = false ∧ (firstToRun u (unitChoices v u)).any (fun x => x.tag == 10 && sideUnit x == some u) = true) ∧
    (findJob (after [.preemptionPoint u] twoMessages) 10).map (fun j => j.sideOn) = some true := by decide +kernel

/-- Nothing to preempt: a Lift, an idle unit, and a job not at a point. -/
theorem witness_PreemptionPoint_none : jobsOn live { kind := .edge, num := 0 } = [] ∧
    stepsAside { kind := .hash, num := 0 } hashed = some (9, false, false) := by decide +kernel

theorem witness_Barrier_prepares : (findJob barred 9).any (fun j => match j.block with
    | some b =>
      (earlyStages barred j .rootErase b).isNone && (match findJob (spendCounter j b barred) 9 with
        | some j1 => (prepare (spendCounter j b barred) j1 .rootErase b).status == .ok
        | none => false)
    | none => false) = true := by decide +kernel
/-- R258: the Edge of a suspended signature faults; the job and its slots are being copied to the reserve. -/
def copying : State := after [.preemptionPoint { kind := .edge, num := 0 }, .paceSlip 0 []] twoSigns
theorem witness_SlotCopy : (findJob copying 9).map (fun j => (j.stage, j.unit, j.slots.length)) =
      some (.copying, some { kind := .edge, num := 1 }, 20) ∧
    (findJob (after [.edgeSlotCopyDone 1] copying) 9).map (fun j => (j.stage, j.slots.length)) = some (.running, 20) := by decide +kernel

/-- A HASH job that has ended. -/
def ended : State := after [.hashJobDone 9] hashed

theorem witness_CompletionEntries : ∃ (s : State) (tag n : Nat) (j : Job), tagsDistinct s ∧ tag < 2048 ∧ findJob s tag = some j ∧
    j.ring = .host n ∧ n < 64 ∧ j.stage = .finished ∧ j.admitted = true ∧ j.out = [] ∧ j.index < 65536 ∧ j.bytes < 2 ^ 32 ∧
    (∀ u, j.unit = some u → u.num < 128) ∧ s.card.job ≠ some tag := by
  obtain ⟨j, hj, hp⟩ := job_any (s := ended) (tag := 9)
    (p := fun j => decide (j.ring = .host 5 ∧ j.stage = .finished ∧ j.admitted = true ∧ j.out = [] ∧ j.index < 65536 ∧ j.bytes < 2 ^ 32 ∧
      j.unit = some { kind := .hash, num := 0 })) (by decide +kernel)
  obtain ⟨a, b, c, d, e, f, g⟩ := of_decide_eq_true hp
  exact ⟨ended, 9, 5, j, by unfold tagsDistinct; decide +kernel, by decide, hj, a, by decide, b, c, d, e, f,
    fun u hu => by rw [g] at hu; cases hu; decide, by decide +kernel⟩

/-- Word 7 of the staging slot of tag 9, which holds the COOKIE, is poisoned. -/
def unread : State := { ended with stored := { ended.stored with marks := [(0x0D * 0x40000 + 9 * 32 + 7, .poisoned)] } }

theorem witness_CompletionEntries_unread : stagedBad unread 9 7 1 ≠ [] ∧ stagedBad unread 9 24 8 = [] ∧ stagedBad ended 9 0 32 = [] ∧
    (lastEntry (exec (.completionEntryWrite 9) unread)).map (fun f => (f.status, f.cookie, f.bytes)) =
      some (statusCode .memUncorrectable, 0, 32) := by decide +kernel

/-- FIPS 202: SHA3-256 of the empty string, through a HASH job without a source. -/
theorem test_hash_job : (match (after [.hash (arrivalOf (descOf 0x20 0 0 0 0x400 0 0 32)), .hashJobDone 9] (staged .L)).link.posted with
    | [.data a bs _] => a == 0x2000 && bs == [
        0xA7, 0xFF, 0xC6, 0xF8, 0xBF, 0x1E, 0xD7, 0x66, 0x51, 0xC1, 0x47, 0x56, 0xA0, 0x61, 0xD6, 0x62,
        0xF5, 0x80, 0xFF, 0x4D, 0xE4, 0x3B, 0x49, 0xFA, 0x82, 0xD8, 0x0A, 0x4B, 0x80, 0xF8, 0x43, 0x4A]
    | _ => false) = true := by decide +kernel

/-- R122, R125: 32 bytes written, and LATE once the deadline less 3 µs has passed (t0 10 µs, 2 ms, class L). -/
theorem test_completion : (lastEntry (exec (.completionEntryWrite 9) ended)).map (fun f => (f.status, f.bytes, f.unitKind, f.jobTag)) =
      some (0, 32, 3, 9) ∧
    (lastEntry (exec (.completionEntryWrite 9) { ended with now := 200700 })).map (fun f => f.status) = some 0 ∧
    (lastEntry (exec (.completionEntryWrite 9) { ended with now := 200701 })).map (fun f => f.status) = some (statusCode .late) := by
  decide +kernel

/-- Round keys of zeros; an encrypting and a decrypting whole frame of one byte of additional data. -/
theorem witness_SealedFramesOpen : ∃ (rk : List Bytes) (e d : Job) (ce cd : SessionCopy) (aad : Bytes),
    (∀ k ∈ rk, k.length = 16) ∧ dChain e.desc = 0 ∧ dChain d.desc = 0 ∧ dAadLen e.desc = aad.length ∧ dAadLen d.desc = aad.length ∧
      ce.salt = cd.salt ∧ frameOf e ce = frameOf d cd ∧ e.op = .sesEncrypt ∧ d.op = .sesDecrypt ∧ dXparam e.desc = dXparam d.desc := by
  let base := newJob live (.host 5) (ringOf .L) (freshSlot 0 1000) 9
  let c (o : Op) := sessionCopy (staged .L) o (descOf 0x10 0 0 1 0 8 1 32 9) 1
  refine ⟨[bytes 16], base .sesEncrypt (descOf 0x10 0 0 1 0 8 1 32 9), base .sesDecrypt (descOf 0x11 0 0 1 0 24 1 8 9),
    c .sesEncrypt, c .sesDecrypt, [7], ?_, ?_⟩
  · decide
  · decide +kernel

/-- Small primes, a key over them, and a point. -/
theorem witness_SealedFramesOpen_blinding : primeNat 5 ∧ primeNat 7 ∧ primeNat 3 ∧ (0 < 2 ∧ 2 < 5 ∧ 3 < 5 ∧ 4 < 5) ∧
    (let k : RsaKey := { k := 2, p := 5, q := 7, dp := 1, dq := 5, qinv := 3, e := 5 }
     k.e * k.dp % (k.p - 1) = 1 ∧ k.e * k.dq % (k.q - 1) = 1 ∧ k.q * k.qinv % k.p = 1 ∧ rsaCrtOn [11, 4, 3] k 12 = rsaCrt k 12 ∧
       Nat.gcd (max 1 ((([11, 4, 3] : List DWord).getD 2 0).toNat)) (k.p * k.q) = 1) := by
  refine ⟨⟨by decide, fun d h => ?_⟩, ⟨by decide, fun d h => ?_⟩, ⟨by decide, fun d h => ?_⟩, by decide, by decide +kernel⟩
  · rcases d with _ | _ | _ | _ | _ | _ | d <;> simp at h ⊢
    rw [Nat.mod_eq_of_lt (show 5 < d + 6 by omega)] at h; omega
  · rcases d with _ | _ | _ | _ | _ | _ | _ | _ | d <;> simp at h ⊢
    rw [Nat.mod_eq_of_lt (show 7 < d + 8 by omega)] at h; omega
  · rcases d with _ | _ | _ | _ | d <;> simp at h ⊢
    rw [Nat.mod_eq_of_lt (show 3 < d + 4 by omega)] at h; omega

/-! ### Units, environment and link -/

theorem witness_UnitFaultsLoseNoJob : jobsDistinct framed ∧
    (unitState framed { kind := .blade, num := 0 } ≠ .off ∧ unitState framed { kind := .blade, num := 0 } ≠ .faulted) ∧
    (jobsOn framed { kind := .blade, num := 0 }).length = 1 ∧ jobsDistinct checking ∧
    (jobsOn checking { kind := .edge, num := 0 }).length = 1 := by unfold jobsDistinct; decide +kernel

theorem witness_UnitFaultsLoseNoJob_reserve : let u : UnitRef := { kind := .edge, num := 0 }
    let v : UnitRef := { kind := .edge, num := 2 }
    reserveOf checking .edge = some v ∧ jobsOn checking v = [] ∧
    (jobsOn checking u).map (fun j => (j.tag, j.stage, j.status, j.again)) = [(9, .running, none, false)] ∧
    (findJob (after [.paceSlip 0 []] checking) 9).map (fun j => (j.unit, j.stage, j.blinded, j.steps)) = some (some v, .gathering, true, 0) := by decide +kernel

theorem witness_UnitFaultsLoseNoJob_reruns : let u : UnitRef := { kind := .edge, num := 0 }
    let v : UnitRef := { kind := .edge, num := 2 }
    reserveOf generatedKey .edge = some v ∧ jobsOn generatedKey v = [] ∧
    (jobsOn generatedKey u).map (fun j => (j.tag, j.stage, j.status, j.again)) = [(9, .running, none, false)] ∧
    (findJob (after [.paceSlip 0 []] generatedKey) 9).map (fun j => (j.unit, j.stage, j.blinded, j.blinds.length)) = some (some v, .running, true, 1) := by
  decide +kernel

/-- R64, R67: the job runs again on the standby; the codes of the table of faults. -/
theorem test_unit_faults : let t := after [.unitWatchdogStall { kind := .blade, num := 0 } 3 false []] framed
    let u := after [.paceSlip 0 []] checking
    (unitRec t { kind := .blade, num := 0 }).state = .faulted ∧ (unitRec t { kind := .blade, num := 0 }).faultCode = 1 ∧
    t.rings.jobs.map (fun j => (j.unit, j.retried)) = [(some { kind := .blade, num := 2 }, true)] ∧
    (unitRec u { kind := .edge, num := 0 }).faultCode = 4 ∧ u.units.slipCnt = 1 ∧
    (unitRec (after [.unitWatchdogStall { kind := .edge, num := 1 } 3 true []] checking) { kind := .edge, num := 1 }).faultCode = 5 := by
  decide +kernel

/-- R234, R235: DISABLE, ENABLE and the vectors of a Blade; the only one in service is not disabled. -/
theorem test_unit_control : let u : UnitRef := { kind := .blade, num := 1 }
    unitState (after [.bladeDisable 1] live) u = .disabled ∧ unitState (after [.bladeDisable 1, .bladeEnable 1] live) u = .testing ∧
    unitRec (after [.bladeDisable 1, .bladeEnable 1, .unitVectorsDone u false] live) u =
      { UnitRec.reset with state := .faulted, faultCode := 3 } ∧
    unitState (after [.bladeDisable 1, .bladeEnable 1, .unitVectorsDone u true] live) u = .inService ∧
    (after [.bladeDisable 1, .bladeDisable 0] live).units.bladeEvt = 8 := by decide +kernel

/-- Blade 1 drains with a job, and tests with one other in service, no spare and no standby. -/
def drainingBlade : State := after [.bladeDisable 0] framed
def testingBlade : State := { live with units := { live.units with blades := [(0, up .inService), (1, up .testing)] } }

theorem witness_Units : unitState drainingBlade { kind := .blade, num := 0 } = .draining ∧
    (after [.bladeEnable 0] drainingBlade).units.blades.map (fun p => p.2.restartPending) = [true, false, false] ∧
    unitState testingBlade { kind := .blade, num := 1 } = .testing ∧
    (after [.unitVectorsDone { kind := .blade, num := 1 } true] testingBlade).units.blades.map (fun p => p.2.state) = [.inService, .standby] ∧
    (List.range 18).all (fun n => let st := unitState testingBlade { kind := .blade, num := n }; st != .spare && st != .standby) = true ∧
    plannedCount live .blade = 2 ∧ plannedCount testingBlade .blade = 1 ∧ inWhiteout live = false ∧
    (after [.slotLenWrite 3] { checking with life := { checking.life with isSealed := false } }).units.edgeEvt = 16 ∧
    slotsHeld checking { kind := .edge, num := 0 } ≠ [] := by decide +kernel

theorem test_slot_len : (after [.slotLenWrite 32] { live with life := { live.life with isSealed := false } }).units.slotLen = 32 ∧
    (after [.slotLenWrite 33] { live with life := { live.life with isSealed := false } }).units.slotLen = 3 ∧
    (after [.slotLenWrite 32] live).units.slotLen = 3 := by decide +kernel

/-- R46, R69: 85 °C is S0, a sixteenth more S1, and a sixteenth above 125 °C closes admission. -/
theorem test_bands : (after [.tjEvaluation (85 * 16) 0] live).gate.band = .s0 ∧ (after [.tjEvaluation (85 * 16 + 1) 0] live).gate.band = .s1 ∧
    (after [.tjEvaluation (125 * 16) 0] live).gate.band = .s1 ∧ envelopeOk (after [.tjEvaluation (125 * 16) 0] live) = true ∧
    envelopeOk (after [.tjEvaluation (125 * 16 + 1) 0] live) = false ∧ envelopeOk (after [.tjEvaluation 0 161] live) = false ∧
    (after [.tjEvaluation (85 * 16 + 1) 0, .tjEvaluation (80 * 16) 0, .bandDownHoldExpiry] live).gate.band = .s0 := by decide +kernel

theorem test_rails : envelopeOk (after [.railEnvelopeChange .vpe false] live) = false ∧
    (after [.railEnvelopeChange .vpe false, .railEnvelopeChange .vpe true] live).gate.railsOut = [] := by decide +kernel

/-- R48, R50: SI 95 asks for 64 · 96 / 95 = 64.67…, so 65; SI 48 for 128. -/
theorem test_derate : (after [.splitMonitorMeasurement (List.replicate 16 96)] live).gate.derate = 64 ∧
    (after [.splitMonitorMeasurement (95 :: List.replicate 15 100)] live).gate.derate = 65 ∧
    (after [.splitMonitorMeasurement (List.replicate 15 100 ++ [48])] live).gate.derate = 128 ∧
    (after [.splitMonitorMeasurement (List.replicate 15 100 ++ [48])] live).gate.siMinMon = 15 := by decide +kernel

/-- R46, R69, R71: the holds of the band and of the slew run, and the hours are used up. -/
def holding : State := { live with
  gate := { live.gate with band := .s1, downSince := some 900, slewClosed := true, slewLowSince := some 900 },
  hut := { live.hut with hotMin := 30000 } }

theorem witness_TemperatureRailsAndTheEnvelope : holding.gate.downSince ≠ none ∧ holding.gate.band ≠ .s0 ∧
    holding.gate.slewLowSince ≠ none ∧ inReset live = false ∧ inReset State.reset = true ∧ rowOf (125 * 16) = 1 ∧
    30000 ≤ holding.hut.hotMin ∧ holding.gate.hoursExceeded = false ∧
    (after [.hoursExceeded] holding).gate.hoursExceeded = true ∧ envelopeOk holding = false ∧
    envelopeOk (after [.slewReopenExpiry] holding) = true := by decide +kernel

theorem witness_SpeedIndexAndDerate : inReset live = false ∧
    (after [.splitMonitorMeasurement (List.replicate 16 48), .splitMonitorMeasurement (List.replicate 16 96)] live).gate.derateHold = none ∧
    (after [.derateHoldExpiry] { live with gate := { live.gate with derate := 128, derateHold := some (5, 70) } }).gate.derate = 70 := by
  decide +kernel

theorem witness_FunctionResets : functionResetOf hashed .functionLevelReset = some (3, hashed) ∧ inReset hashed = false ∧
    (functionResetOf hashed (.hotReset true)).isSome = true ∧
    (functionResetOf { hashed with link := { hashed.link with d3hot := true } } .d3hotToD0).isSome = true ∧
    inReset State.reset = true ∧ hashed.rings.jobs.length = 1 := ⟨rfl, by decide +kernel⟩

theorem witness_BmeClear : hashed.link.bme = true ∧ (hashed.rings.host.map (fun p => p.2.state)) = [.enabled] ∧
    live.link.bme = true ∧ live.rings.host = [] := by decide +kernel

theorem test_function_resets : (after [.functionLevelReset] hashed).rings.jobs = [] ∧ (after [.functionLevelReset] hashed).link.err = 0x80 ∧
    (after [.functionLevelReset] hashed).life.isSealed = false ∧ (after [.bmeClear] hashed).rings.jobs = [] ∧
    (after [.bmeClear] hashed).link.err = 0x40 ∧ (after [.bmeClear] live).link.err = 0 := by decide +kernel

theorem witness_LinkAndInterruptMessages : ∃ (i : Instr) (op : MsixOp), i = .busMasterEnableSet ∨ i = .msixUnmask op :=
  ⟨.msixUnmask (.unmaskVector 3), .unmaskVector 3, .inr rfl⟩

/-- R90: a pending message leaves when its vector is unmasked. -/
theorem test_unmask : (after [.msixUnmask (.unmaskVector 3)] { live with link := { live.link with pba := [(3, true)] } }).link.posted =
      [msixOf live.link 3] ∧
    (after [.msixUnmask (.unmaskVector 3)] { live with link := { live.link with pba := [(3, true)], functionMask := true } }).link.posted =
      [] := by decide +kernel

/-- 300 bytes from 0x0FC0: 64 up to the boundary of 4 KiB, then 128 at a time. -/
def pieces : List (Nat × Nat) := [(0x0FC0, 64), (0x1000, 128), (0x1080, 108)]

theorem witness_LinkAndInterruptMessages_pieces : splitsInto 128 0x0FC0 300 pieces := by unfold splitsInto; decide +kernel

/-- R83, R86: the posted writes of those bytes, and the read requests of at most 128. -/
theorem test_splitting : (dataWrites Link.reset 0x0FC0 (bytes 300)).map (fun p => match p with
      | .data a bs ro => (a.toNat, bs.length, ro)
      | _ => (0, 0, false)) = pieces.map (fun p => (p.1, p.2, false)) ∧
    ((requestReads [(0x0FC0, 300)] { live with link := { live.link with mrrs := 0 } }).link.requests.map
      (fun r => (r.addr.toNat, r.bytes))) = pieces := by decide +kernel

/-- R80, R81: the base addresses keep the bits of their sizes, and AER status bits are cleared by ones. -/
theorem test_config_space : configWord (after [.registerWrite .config 0x10 0xFFFFFFFF] live) 0x10 = 0xFFFFC004 ∧
    configWord (after [.registerWrite .config 0x18 0xFFFFFFFF] live) 0x18 = 0xFFFC0004 ∧
    configWord live 0x00 = 0x40961F6E ∧ (after [.registerWrite .config 0x04 2] live).link.mse = true ∧
    (after [.registerWrite .config 0x104 0x4000] { live with link := { live.link with aer := 0x14000 } }).link.aer = 0x10000 := by
  decide +kernel

/-! ### Registers -/

theorem witness_RegisterWrites : live.life.isSealed = true ∧ 0x108 ∈ w1cOffsets ∧ 0x101 % 4 ≠ 0 := by decide

theorem witness_RegisterWrites_clear : w1cOffsets.all (fun o => decide (o % 4 = 0)) = true ∧ live.life.isSealed = true := by decide +kernel

theorem test_register_writes : (after [.lcSeal 0x5EA10001] { live with life := { live.life with isSealed := false } }).life.isSealed = true ∧
    (after [.lcSeal 0x5EA10002] { live with life := { live.life with isSealed := false } }).life.isSealed = false ∧
    bar0Read (after [.registerWrite .bar0 0x108 4] { live with link := { live.link with err := 0xC } }) 0x108 = 8 ∧
    (after [.registerWrite .bar0 0x101 4] live).link.err = 1 ∧ (after [.bar0BadAccess] live).link.err = 1 ∧
    (after [.bar2BadAccess true] live).link.err = 1 := by decide +kernel

theorem witness_LatchingReads : vltSlot { live with vault := { live.vault with selPriv := true, selSlot := 255 } } = some (.priv 255) ∧
    live.trk.headSeq < 2 ^ 64 ∧ live.trk.relSeq < 2 ^ 64 ∧ live.hut.time < 2 ^ 64 ∧ live.hut.woTime < 2 ^ 64 ∧
    exported.trk.pending = some { id := 3, first := 1, last := 6, chain := List.replicate 32 9 } := by decide

/-- R174: the upper half is that of the read. -/
theorem test_latching_reads : let s := { live with ctrs := { live.ctrs with sel := 20, table := [(20, { Counter.reset with value := 0x500000007 })] } }
    (after [.ctrValueRead] s).link.readData = 7 ∧ bar0Read (after [.ctrValueRead] s) 0xC08 = 5 ∧
    (after [.hiHalfLatchRead .hutTime] { live with hut := { live.hut with time := 0x300000002 } }).link.readData = 2 ∧
    (after [.hiHalfLatchRead .hutTime] { live with hut := { live.hut with time := 0x300000002 } }).hut.timeHi = 3 := by decide +kernel

/-! ### Resets, start-up and debug -/

/-- A new part outside PORST_N. -/
def blankPart : State := { State.reset with life := { LifeCycle.reset with porst := false, perst := false } }

theorem witness_ResetsClearAndKeep : blankPart.life.state = .blank ∧ blankPart.life.porst = false ∧ blankPart.trk.queue = [] ∧
    blankPart.trk.entries = [] ∧ live.card.power = false ∧ (staged .B).card.power = true := by decide

/-- R500, R508: a pulse of 0 µs is too short; LC_INIT takes 0xA5 alone. -/
theorem test_resets : after [.porstNAssert 0] live = live ∧ (after [.perstNAssert 1] live).life.perst = true ∧
    (after [.porstNAssert 1] hashed).rings.jobs = [] ∧ (after [.porstNAssert 1] hashed).hut.time = hashed.hut.time ∧
    (after [.lcInit 0xA5] blankPart).life.state = .factory ∧ (counter (after [.lcInit 0xA5] blankPart) 9).value = 1 := by decide +kernel

theorem witness_ResetsClearAndKeep_pulses : (after [.porstNAssert 1] (staged .B)).card.offRunning = true ∧
    (after [.perstNAssert 1] (staged .B)).card.offSince = 1000 ∧ (after [.lcInit 0xA5] blankPart).trk.entries.length = 1 := by decide +kernel

theorem test_lc_init_other_value : exec (.lcInit 0xA4) blankPart = .next blankPart := rfl

theorem kinds_pass (k : UnitKind) : kindPasses cleanStart k := ⟨0, by cases k <;> decide, fun h => nomatch h⟩

/-- Vectors of all Blades, Edges, Lifts or hash units fail. -/
def failingStart (k : UnitKind) : StartInputs :=
  { cleanStart with katFails := (List.range (unitCount k)).map (fun n => { kind := k, num := n }) }

theorem kind_fails (k : UnitKind) : ¬ kindPasses (failingStart k) k :=
  fun ⟨n, hn, h⟩ => h (List.mem_map.mpr ⟨n, List.mem_range.mpr hn, rfl⟩)

theorem other_kind_passes {k l : UnitKind} (h : l ≠ k) : kindPasses (failingStart k) l :=
  ⟨0, by cases l <;> decide, fun hm => by
    obtain ⟨n, _, e⟩ := List.mem_map.mp hm
    exact h (congrArg UnitRef.kind e).symm⟩

/-- A deployed part that PORST_N holds. -/
def held : State := { live with
  life := { live.life with porst := true, startDone := false }, gate := Gate.reset,
  hut := { live.hut with razePending := true } }

theorem witness_StartUp : inReset live = false ∧ inReset held = true ∧ held.gate.isOpen = false ∧ held.life.startDone = false := by decide

theorem witness_StartEnds_hut : StartEnds { cleanStart with hutAnswers := false } held 0x01 0 := .hut rfl
theorem witness_StartEnds_maps : StartEnds { cleanStart with mapsDisagree := true } held 0x22 1 := .maps rfl rfl
theorem witness_StartEnds_record : StartEnds { cleanStart with recordLost := true } held 0x21 1 := .record rfl rfl rfl
theorem witness_StartEnds_raze :
    StartEnds { cleanStart with razeReadBackFails := true } { held with life := { held.life with porstSeen := false } } 0x31 2 :=
  .raze rfl rfl rfl rfl rfl rfl (by decide)
theorem witness_StartEnds_blades : StartEnds (failingStart .blade) held 0x81 7 :=
  .later 7 0x81 rfl rfl rfl rfl (.inl ⟨kind_fails .blade, rfl, rfl⟩)
theorem witness_StartEnds_edges : StartEnds (failingStart .edge) held 0x82 7 :=
  .later 7 0x82 rfl rfl rfl rfl (.inr (.inl ⟨other_kind_passes (by decide), kind_fails .edge, rfl, rfl⟩))
theorem witness_StartEnds_lifts : StartEnds (failingStart .lift) held 0x83 7 :=
  .later 7 0x83 rfl rfl rfl rfl (.inr (.inr (.inl
    ⟨other_kind_passes (by decide), other_kind_passes (by decide), kind_fails .lift, rfl, rfl⟩)))
theorem witness_StartEnds_hashes : StartEnds (failingStart .hash) held 0x84 7 :=
  .later 7 0x84 rfl rfl rfl rfl (.inr (.inr (.inr (.inl
    ⟨other_kind_passes (by decide), other_kind_passes (by decide), other_kind_passes (by decide), kind_fails .hash, rfl, rfl⟩))))
theorem witness_StartEnds_rom : StartEnds { cleanStart with romMatches := false } held 0x91 8 :=
  .later 8 0x91 rfl rfl rfl rfl (.inr (.inr (.inr (.inr (.inl
    ⟨kinds_pass .blade, kinds_pass .edge, kinds_pass .lift, kinds_pass .hash, by decide, rfl, rfl, rfl⟩)))))
theorem witness_StartEnds_done : StartEnds cleanStart held 0 10 :=
  .later 10 0 rfl rfl rfl rfl (.inr (.inr (.inr (.inr (.inr
    ⟨kinds_pass .blade, kinds_pass .edge, kinds_pass .lift, kinds_pass .hash, .inr rfl, rfl, rfl⟩)))))

/-- R503: a Hut that does not answer, and a reset after step 0. -/
theorem test_start_up : (after [.resetDeassert { cleanStart with hutAnswers := false }] held).life.startCode = 1 ∧
    (after [.resetDeassert { cleanStart with hutAnswers := false }] held).life.startFail = true ∧
    (after [.resetDeassert { cleanStart with hutAnswers := false, interrupted := some 0 }] held).life.startFail = false := by decide +kernel

/-- The debug port is open and core 0 runs in supervisor mode. -/
theorem witness_DebugPort : running.prot.isOpen = true ∧ checkAcc running (debugAcc true 0x50003000) = .pass ∧
    checkAcc running (debugAcc true 0x50003004) = .pass ∧ checkAcc running (debugAcc false 0x10060200) = .pass ∧
    badAt running 0x10060200 = none ∧ supervisorOn running 0 = true ∧ supervisorOn running 1 = false ∧
    (rinkOf running 1).applet = some 3 := by decide +kernel

theorem witness_ProtectionEntries : legalEntry windowEntry.w0 ∧ ¬ legalEntry 0x10060140 ∧
    (tblGet PuEntry.reset running.prot.units (16 * 8 + 0)).w1.getLsbD 30 = false := by unfold legalEntry; decide +kernel

/-- The same with an access that waits, a word that cannot be corrected, and a port whose time has run out. -/
def debugging : State := { running with
  prot := { running.prot with dbg := { running.prot.dbg with pending := true }, openUntil := some 1 },
  stored := { running.stored with marks := [(5 * 0x40000 + 49216, .poisoned)] } }
theorem witness_DebugPort_unread : badAt debugging 0x10060200 ≠ none ∧ checkAcc debugging (debugAcc false 0x10060200) = .pass ∧
    debugging.prot.openUntil ≠ none ∧ (after [.debugAccess false 0x10060200 0] debugging).prot.dbg.error = true := by decide +kernel

theorem test_debug_time : (after [.debugAccessTimeout] debugging).prot.dbg.error = true ∧
    (after [.debugUnlockExpiry] debugging).prot.isOpen = false ∧ (after [.debugUnlockExpiry] debugging).prot.arm = 0 ∧
    (after [.ruleChangeDrainComplete 9] { live with prot := { live.prot with draining := [3, 4] } }).prot.draining = [4] ∧
    (after [.ruleChangeDrainComplete 9] { live with prot := { live.prot with draining := [3, 4] } }).prot.drainMax = 9 := by decide +kernel

theorem witness_RuleChanges : legalEntry windowEntry.w0 ∧ ¬ legalEntry 0x140 ∧
    (rinkOf running 1).applet = some 3 ∧ (rinkOf running 0).applet = none ∧
    (tblGet PuEntry.reset (after [.protectionEntryWrite 0 false 10 0 windowEntry.w0 0x40000000 false] running).prot.units 160).w1.getLsbD 30 = true := by
  unfold legalEntry; decide +kernel

theorem test_debug_access : (after [.debugAccess false 0x10060200 0] running).prot.dbg.data = 0x0100FF80 ∧
    (after [.debugAccess true 0x10060200 0x55] running).mem = [(0x10060200, 0x55), (0x10060207, 9)] ∧
    (after [.debugAccess false 0x10060201 0] running).prot.dbg.error = true ∧
    (after [.debugAccess false 0x10060200 0] live).prot.denyCnt = 1 := by decide +kernel

theorem test_debug_arm_and_resume : (after [.puDbgArmWrite 8] running).prot.arm = 8 ∧
    (applet (after [.brk 1 0] running) 3).held = true ∧ (applet (after [.brk 1 0, .puDbgResumeWrite 8] running) 3).held = false ∧
    (rinkOf (after [.brk 1 0, .puDbgResumeWrite 8] running) 1).pc = 0x10060104 := by decide +kernel

/-- R354, R368, R369: a locked entry, an illegal one, a legal one, and tags. -/
theorem test_rule_changes : (after [.protectionEntryWrite 0 false 10 0 windowEntry.w0 0x40000000 true] running).prot.draining = [1000] ∧
    (after [.protectionEntryWrite 0 false 10 0 windowEntry.w0 0x40000000 false, .protectionEntryWrite 0 false 10 0 windowEntry.w0 0 false]
      running).prot.evt = 0x2000 ∧
    (after [.protectionEntryWrite 0 true 4 0 0x140 0 false] running).prot.evt = 0x20000 ∧
    tagOf (after [.puTagCountWrite 0 1 false] { running with prot := { running.prot with puTag := 0x10060005 } }).prot 0x100600FF = 5 ∧
    (after [.puTagCountWrite 0 2049 false] running).prot.evt = 0x20000 := by decide +kernel

/-! ### Patrol and the Hut -/

/-- Raze is enabled, slot V5 has a key and an older one that retires. -/
def guarded : State :=
  { staged .L with
    patrol := { live.patrol with razeEnabled := true, levels := [(130, .raze), (229, .guard), (230, .lock)] },
    vault := { (staged .L).vault with
      root := [(5, { number := 2, cur := some { mat false [] with gen := 2 }, old := [{ mat := mat false [], revoked := false }],
                     reserved := false })] } }

theorem witness_Trips : jobsDistinct guarded ∧ freshTrip guarded 130 true false ∧ effLevel guarded 130 = .raze ∧
    effLevel guarded 128 = .purge ∧ effLevel guarded 230 = .lock ∧ effLevel guarded 229 = .guard ∧
    inWhiteout guarded = false ∧ inReset guarded = false ∧ levelsAct guarded = true ∧
    levelNum (standingLevel guarded) < 3 ∧ (psource guarded 130).disagree = false ∧
    freshTrip guarded 246 false true ∧ freshTrip guarded 238 true true := by
  unfold jobsDistinct freshTrip; decide +kernel

/-- R409 to R417: sources that are active, a pair that disagrees, an erasure that runs. -/
def tripped : State := after [.detectorTrip 130 true false, .detectorTrip 130 false false, .disagreement 228 true false] guarded

theorem witness_Trips_later : (psource tripped 130).active = true ∧ (psource tripped 130).detA = false ∧
    (psource tripped 130).detB = false ∧ tripped.patrol.erasing = true ∧ (slotOf tripped (.root 5)).old.length = 2 ∧
    (slotOf tripped (.root 5)).old.all (fun x => (holders tripped (.root 5) x.mat.gen).isEmpty) = true ∧
    quantitySource 228 = some 242 ∧ (psource guarded 228).disagree = false ∧ (psource tripped 228).disagree = true ∧
    (psource tripped 229).disagree = false := by decide +kernel

/-- R408 to R418 at Guard, Lock, Purge and Raze. -/
theorem test_trips : (after [.detectorTrip 229 true false] guarded).hut.locked = false ∧
    (psource (after [.detectorTrip 229 true false] guarded) 229).trips = 1 ∧
    (after [.detectorTrip 230 true false] guarded).hut.locked = true ∧
    (after [.detectorTrip 230 true false] guarded).hut.purged = false ∧
    (after [.detectorTrip 128 true false] guarded).hut.purged = true ∧
    (after [.detectorTrip 128 true false] guarded).hut.razePending = false ∧
    (after [.detectorTrip 130 true false] guarded).hut.razePending = true ∧
    (slotOf (after [.detectorTrip 130 true false] guarded) (.root 5)).cur = none ∧
    (after [.detectorTrip 127 true false] guarded).patrol.sources = [] := by decide +kernel

/-- R406: a pair that disagrees activates the disagreement source of its quantity. -/
theorem test_disagreement : (psource (after [.disagreement 228 true false] guarded) 242).active = true ∧
    (psource (after [.disagreement 228 true false] guarded) 228).disagree = true ∧
    (psource (after [.detectorStimulus [229]] guarded) 229).disagree = true := by decide +kernel

theorem test_source_clears : (psource (after [.detectorTrip 229 true false, .detectorTrip 229 false false, .sourceClearExpiry 229] guarded) 229).active = false ∧
    (psource (after [.detectorTrip 229 true false, .sourceClearExpiry 229] guarded) 229).active = true := by decide +kernel

/-- R195, R417: an erasure takes the retiring generations; a single one is erased without a holder. -/
theorem test_erasures : (slotOf (after [.vaultRetiringErase (.root 5) 1] guarded) (.root 5)).old = [] ∧
    (slotOf (after [.vaultRetiringErase (.root 5) 2] guarded) (.root 5)).old.length = 1 ∧
    (slotOf (after [.detectorTrip 130 true false, .razeComplete] guarded) (.root 5)).old = [] ∧
    (after [.detectorTrip 130 true false, .razeComplete] guarded).hut.razePending = false := by decide +kernel

/-- The part in reset, on its cells. -/
def onCells : State := { guarded with life := { guarded.life with porst := true }, hut := { live.hut with supply := .cell1 } }

theorem witness_HutOnBackup : inReset onCells = true ∧ hutWatches 128 = true ∧ hutWatches 216 = false ∧
    onCells.hut.supply ≠ .none ∧ onCells.hut.hotMin < 0xFFFFF ∧ onCells.hut.hotRem < 60000 ∧ onCells.hut.buffer = [] ∧
    (after [.hutTrip 128 true false 0 3000 3000] onCells).hut.buffer.map (fun e => e.source) = [0] := by decide +kernel

/-- The buffer of the Hut holds an entry of this source, or 63 others. -/
def buffered (n : Nat) : State :=
  let full := (after [.hutTrip 128 true false 0 3000 3000] onCells).hut.buffer.flatMap (fun e =>
    (List.range n).map (fun i => { e with source := 20 + i }))
  after [.hutTrip 128 true false 0 3000 3000] { onCells with hut := { onCells.hut with buffer := full } }

theorem witness_HutOnBackup_entries : (buffered 0).hut.buffer.map (fun e => (e.kind, e.source, e.count)) = [(1, 0, 1)] ∧
    ((buffered 63).hut.buffer.drop 63).map (fun e => (e.kind, e.source, e.count)) = [(5, 0, 1)] ∧
    (after [.hutTrip 129 true false 0 3000 3000] (buffered 63)).hut.buffer.length = 64 ∧
    effLevel onCells 128 = .purge ∧ effLevel onCells 130 = .raze ∧ levelsAct onCells = true := by decide +kernel

theorem witness_HutSupply : (after [.hutSupplySwitch true 3000 3000] onCells).hut.supply = .cell1 ∧
    (after [.hutSupplySwitch true 3000 3000] { live with hut := { live.hut with supply := .cell2 } }).hut.supply = .vio ∧
    (after [.hutSupplySwitch false 3000 3000] { onCells with hut := { onCells.hut with supply := .none } }).hut.supply = .none ∧
    bestCell 2000 1999 = .cell1 := by decide +kernel

theorem test_hut_trips : (after [.hutTrip 128 true false 0 3000 3000] onCells).hut.purged = true ∧
    ((after [.hutTrip 128 true false 0 3000 3000, .hutTrip 128 true true 0 3000 3000] onCells).hut.buffer.map (fun e => (e.seq, e.count))) = [(1, 2)] ∧
    (after [.hutTrip 128 true false 0 3000 3000] guarded).hut.buffer = [] := by decide +kernel

/-- R444: the cell in use stays until the other is 100 mV above it. -/
theorem test_supply : (after [.hutSupplySwitch false 2500 2599] onCells).hut.supply = .cell1 ∧
    (after [.hutSupplySwitch false 2500 2600] onCells).hut.supply = .cell2 ∧
    (after [.hutSupplySwitch false 1999 2000] onCells).hut.supply = .cell2 ∧
    (after [.hutSupplySwitch false 1999 1999] onCells).hut.supply = .none ∧
    (after [.hutSupplySwitch false 2399 3000] onCells).hut.evt = 2 := by decide +kernel

theorem test_crystal_and_backup_temperature : (after [.crystalStop] live).hut.xtalStop = true ∧
    (after [.crystalStop, .crystalResume] live).hut.xtalStop = false ∧
    (after [.backupTemperatureRead (125 * 16 + 1)] onCells).hut.hotRem = 1000 ∧
    (after [.backupTemperatureRead (125 * 16)] onCells).hut.hotRem = 0 := by decide +kernel

/-! ### Alarm lines and credits -/

theorem witness_AlarmInputsAndTimedCredits : tblWf Counter.reset [(2, { Counter.reset with short := 999, long := 691199 })] = true ∧
    live.life.porst = false := by decide

/-- Input 2 triggers Whiteout and has counted 20 samples in the active band. -/
def alarmed : State :=
  { live with alarm := { live.alarm with inputs := [(2, { AlmInput.reset with func := 1, cand := .active, count := 20 })] } }

theorem witness_AlarmInputs_change : 20 ≤ (almInput alarmed 2).count ∧ (almInput alarmed 2).cand = .active ∧
    (almInput alarmed 2).state ≠ .active ∧ (almInput alarmed 2).func = 1 ∧ levelsAct alarmed = true ∧ inWhiteout alarmed = false ∧
    ratioBand 205 = some .active ∧ ratioBand 204 = none ∧ (almInput live 0).count < 20 := by decide +kernel

/-- R455, R460: 205 and 410 are the ends of the active band. -/
theorem test_alarm_inputs : (almInput (after [.alarmInputSample [205, 410, 204, 411] 1500] live) 0).cand = .active ∧
    (almInput (after [.alarmInputSample [205, 410, 204, 411] 1500] live) 1).cand = .active ∧
    (almInput (after [.alarmInputSample [205, 410, 204, 411] 1500] live) 2).count = 0 ∧
    (almInput (after [.alarmInputSample [205, 410, 204, 411] 1399] live) 0).cand = .opened ∧
    inWhiteout (after [.alarmInputStateChange 2] alarmed) = true ∧ (after [.alarmInputStateChange 2] alarmed).hut.input = 2 ∧
    (after [.alarmInputStateChange 2] alarmed).hut.cause = 1 ∧
    (almInput (after [.alarmInputStateChange 2] { live with alarm := { live.alarm with
      inputs := [(2, { AlmInput.reset with cand := .active, count := 19 })] } }) 2).state = .normal := by decide +kernel

theorem test_refills : let s := { live with ctrs := { live.ctrs with table := [(2, { Counter.reset with short := 998, long := 691199 })] } }
    (counter (after [.shortCreditRefill] s) 2).short = 999 ∧ (counter (after [.longCreditRefill] s) 2).long = 691200 ∧
    (counter (after [.longCreditRefill, .longCreditRefill] s) 2).long = 691200 ∧
    (counter (after [.shortCreditRefill] s) 3).short = 1000 := by decide +kernel

/-- The first half of A4 at Hut time 1000. -/
def halfAt (time : Nat) : State :=
  { live with hut := { live.hut with time := time }, ctrs := { live.ctrs with half := some (4, 1000) } }

/-- R168: 60 s are 60 · 32768 counts. -/
theorem test_unlock_half : (after [.unlockHalfExpiry] (halfAt (1000 + 1966080))).ctrs.half = some (4, 1000) ∧
    (after [.unlockHalfExpiry] (halfAt (1000 + 1966081))).ctrs.half = none := by decide +kernel

/-! ### Powder and the Groomers -/

/-- Powder at SEEDING with three blocks ready and one pending. -/
def seeding : State :=
  { live with powder := { Powder.reset with state := .seeding, ready := [bytes 32, bytes 32, bytes 32], pending := [bytes 32] } }

theorem witness_Blocks : (0 < 4 ∧ seeding.powder.state = .seeding ∧ unitState seeding { kind := .groomer, num := 0 } ≠ .faulted ∧
      (groomerOf seeding 0).instantiated = false ∧ 2 ≤ seeding.powder.ready.length) ∧
    cellsSample seeding ∧ (groomerOf live 1).instantiated = true := by
  unfold cellsSample powderRuns; decide

theorem test_powder_start : (after [.powderStartupPass] { live with powder := { Powder.reset with state := .startup } }).powder.state = .seeding ∧
    (after [.powderStartupPass] live).powder.state = .running := by decide +kernel
theorem test_window : (after [.aptWindowComplete (List.replicate 8 2048) (List.replicate 8 9)] seeding).powder.ready.length = 4 ∧
    (tblGet Cell.reset (after [.aptWindowComplete (List.replicate 8 2048) (List.replicate 8 9)] seeding).powder.cells 7).ones = 2047 := by
  decide +kernel
/-- Groomer 1 has served 2^24 requests. -/
def worn : State :=
  { live with powder := { live.powder with
      ready := [bytes 32, bytes 32, bytes 32, bytes 32, bytes 32],
      grm := [(0, seededGroomer), (1, { seededGroomer with count := 2 ^ 24, due := true, hardStall := true }), (2, seededGroomer)] } }

/-- Powder under PATTERN, `lack` dwords before the end of the window and with as many of host samples; each cell has had 40
zeros in a row. -/
def patterned (st : PowderState) (lack : Nat) (w : Word) : State :=
  let cell : Cell := { Cell.reset with seen := 1024 - 4 * lack, run := 40, last := false }
  { live with powder := { Powder.reset with
      state := st, pattern := true, patternBits := List.replicate lack w, cells := (List.range 8).map (fun c => (c, cell)) } }

/-- Alternating samples pass both tests, one more zero fails the repetition test. -/
theorem witness_Blocks_pattern : windowLack (patterned .startup 2 0).powder = 2 ∧ windowFed (patterned .startup 2 0) ∧
    samplesPass (patterned .startup 2 0x00FF00FF) 2 ∧ samplesPass (patterned .seeding 2 0x00FF00FF) 2 ∧
    (feedPattern 2 (patterned .startup 2 0)).2 = some (0, .repetition) ∧
    cellsSample (patterned .seeding 2 0) ∧ (patterned .seeding 64 0).powder.pending.length < 4 ∧
    samplesPass (patterned .seeding 64 0x00FF00FF) 64 ∧ (feedPattern 64 (patterned .seeding 64 0)).2 = some (0, .repetition) := by
  unfold windowFed samplesPass cellsSample powderRuns; decide +kernel

theorem test_pattern : (after [.powderStartupPass] (patterned .startup 2 0x00FF00FF)).powder.state = .seeding ∧
    (after [.powderStartupPass] (patterned .startup 2 0)).powder.cellFail = 1 ∧
    (after [.conditioningDone []] (patterned .seeding 64 0)).powder.cellFail = 0x10000 ∧
    (after [.aptWindowComplete [] []] (patterned .seeding 2 0)).powder.cellFail = 0x10000 := by decide +kernel

/-- 41 equal samples fail the repetition test, 40 do not; 795 of the first value in a window fail the proportion test. -/
theorem test_cell_tests : cellTestFails (List.replicate 41 true) Cell.reset = true ∧
    cellTestFails (List.replicate 40 true ++ List.replicate 40 false) Cell.reset = false ∧
    cellTestFails ((List.range 1024).map (fun i => decide (i % 40 < 32))) Cell.reset = true ∧
    cellTestFails ((List.range 1024).map (fun i => decide (i % 40 < 30))) Cell.reset = false := by decide +kernel

/-- Groomer 2 is the last that is not instantiated, and Groomer 3 has failed. -/
def lastSeed : State := { seeding with
  units := { seeding.units with groomers := [(3, up .faulted)] },
  powder := { seeding.powder with grm := [(0, seededGroomer), (1, seededGroomer)] } }

theorem witness_Blocks_last : (groomerOf lastSeed 2).instantiated = false ∧ unitState lastSeed { kind := .groomer, num := 2 } ≠ .faulted ∧
    unitState lastSeed { kind := .groomer, num := 3 } = .faulted ∧ 2 ≤ lastSeed.powder.ready.length ∧
    (after [.groomerInstantiated 2] lastSeed).powder.state = .running ∧ (after [.groomerInstantiated 2] lastSeed).powder.seeded = true := by
  decide +kernel

theorem witness_Blocks_reseed : (groomerOf worn 1).due = true ∧ groomerWanted worn 1 = false ∧ blocksForStates worn = 2 ∧
    (groomerOf worn 1).count = 2 ^ 24 ∧ (groomerOf (after [.reseedDone 1] worn) 1).count = 0 := by decide +kernel

theorem witness_Blocks_masking : let s := { worn with powder := { worn.powder with maskTurn := 85 } }
    blocksForStates s + blocksForReseeds s < s.powder.ready.length ∧ s.powder.state = .running := by decide +kernel

theorem test_reseeds : (groomerOf (after [.reseedDue 1] live) 1).due = true ∧ (groomerOf (after [.forcedReseed 1] live) 1).hardStall = false ∧
    (groomerOf (after [.forcedReseed 1] worn) 1).hardStall = true ∧ (groomerOf (after [.reseedDue 3] live) 3).due = false := by decide +kernel
theorem test_masking : let s := { live with powder := { live.powder with ready := [bytes 32, bytes 32, bytes 32], maskTurn := 85 } }
    tblGet MaskGen.reset (after [.maskingRefresh 85] s).units.mask 85 = { seeded := true, seed := bytes 32, drawn := 0, at_ := 1000 } ∧
    (after [.maskingRefresh 85] s).powder.ready.length = 2 ∧ (after [.maskingRefresh 85] s).powder.maskTurn = 0 ∧
    (after [.maskingRefresh 4] s).powder.ready.length = 3 := by decide +kernel

theorem witness_HealthFailures : (0 < 8 ∧ cellsSample drawing) ∧ jobsDistinct drawing ∧ (drawing.rings.jobs.all (fun j => needsDraw j)) = true ∧
    drawing.rings.jobs.length = 1 := by unfold cellsSample powderRuns jobsDistinct; decide +kernel

/-- R312, R315: every draw ends, and the third restart that fails is the last. -/
theorem test_health_failures : jobAfter [.healthFailure 2 .repetition] drawing = some (.finished, some .rngFault) ∧
    (after [.healthFailure 2 .repetition] drawing).powder.cellFail = 0x40000 ∧
    (after [.healthFailure 2 .repetition] drawing).powder.state = .startup ∧
    (after [.healthFailure 2 .repetition] { live with powder := { live.powder with confirming := true, failedRestarts := 2 } }).powder.state =
      .failed := by decide +kernel

theorem witness_HealthFailures_pattern : cellsSample (patterned .running 2 0) ∧
    (feedPattern (windowLack (patterned .running 2 0).powder) (patterned .running 2 0)).2 = some (0, .repetition) ∧
    samplesPass (patterned .running 2 0x00FF00FF) 2 ∧
    (after [.healthFailure 5 .proportion] (patterned .running 2 0)).powder.cellFail = 0x10000 := by
  unfold cellsSample powderRuns samplesPass; decide +kernel

theorem witness_Confirmation : let s := { live with powder := { live.powder with confirming := true, failedRestarts := 2 } }
    s.powder.seeded = true ∧ (after [.restartConfirmed] s).powder.failedRestarts = 0 := by decide +kernel

theorem witness_PwdTest : let s := { live with life := { live.life with state := .factory } }
    powderRuns s ∧ (after [.pwdTestWrite 1] s).powder.state = .startup ∧ (after [.pwdTestDataWrite 7] s).powder.patternBits = [] ∧
    (after [.pwdTestWrite 1, .pwdTestDataWrite 7] s).powder.patternBits = [7] := by unfold powderRuns; decide +kernel

theorem test_pwd_test : let s := { live with life := { live.life with state := .factory, provValid := true } }
    (after [.pwdTestWrite 2] s).powder.raw = true ∧ (after [.pwdTestWrite 2] s).life.provValid = false ∧
    (after [.pwdTestWrite 2] live).powder.raw = false ∧ (after [.pwdRawRead 5] live).link.readData = 0 ∧
    (after [.pwdTestWrite 2, .pwdRawRead 5] s).link.readData = 5 := by decide +kernel

theorem test_trim : (after [.trimLimit 3] { live with powder := { live.powder with cells := [(3, { Cell.reset with trim := 63 })] } }).powder.evt = 2 ∧
    (after [.trimLimit 3] live).powder.evt = 0 ∧ (after [.trimServoStep 3 2016] live).powder.cells = [] := by decide +kernel

/-! ### Stored words and Tracks -/

/-- Word 70 of bank 5 was corrected and has been written since; a row retires. -/
def corrected : State :=
  { live with stored := { live.stored with
      corrected := [{ bank := 5, word := 70, count := 1, written := true }], writeBacks := [(5, 71)], retiring := [(1, 4)],
      marks := [(5 * 0x40000 + 71, .correctable)], rowWrites := [(2 * 0x10000 + 3, 50000000)] } }

theorem witness_StoredWords : wordExists 5 70 ∧ wordExists 0x65 0 ∧ wordCond corrected 5 70 ≠ .poisoned ∧
    corrected.stored.weak.find? (sameWord 5 70) = none ∧ (corrected.stored.corrected.find? (sameWord 5 70)).isSome = true ∧
    (5, 71) ∈ corrected.stored.writeBacks ∧ (1, 4) ∈ corrected.stored.retiring ∧
    tblGet 0 corrected.stored.saved (2 * 0x10000 + 3) < 50000000 := by unfold wordExists; decide +kernel

/-- R383: a word that is corrected again after a write is weak. -/
theorem test_scrub : (after [.scrubWord 5 70 .correctable] corrected).stored.weak = [{ bank := 5, word := 70, count := 2, written := false }] ∧
    (after [.scrubWord 5 70 .correctable] corrected).stored.ceCnt = 1 ∧
    wordCond (after [.scrubWord 5 70 .uncorrectable] corrected) 5 70 = .poisoned ∧
    (after [.scrubWord 5 70 .uncorrectable] corrected).stored.ueCnt = 1 ∧
    wordCond (after [.correctionWriteBack 5 71] corrected) 5 71 = .good ∧
    (after [.retirementComplete 1 4] corrected).stored.retired = [(1, 4)] := by decide +kernel

/-- Word 70 of bank 5 is weak and has been written since; another has its three marks; 64 are weak. -/
def weakened (n count : Nat) (written : Bool) : State :=
  { live with stored := { live.stored with
      weak := { bank := 5, word := 70, count := count, written := written } ::
        (List.range n).map (fun i => { bank := 6, word := i, count := 2, written := false }),
      corrected := [{ bank := 5, word := 71, count := 1, written := true }] } }

theorem witness_StoredWords_weak : (after [.scrubWord 5 70 .correctable] (weakened 0 2 true)).stored.retiring.length = 1 ∧
    (weakened 0 2 true).stored.weak.find? (sameWord 5 70) = some { bank := 5, word := 70, count := 2, written := true } ∧
    0 < sparesLeft live 5 ∧ (weakened 63 2 true).stored.weak.length = 64 ∧
    (after [.scrubWord 5 71 .correctable] (weakened 63 2 true)).stored.retiring.length = 1 ∧
    (after [.scrubWord 5 70 .correctable] (weakened 0 2 false)).stored.retiring = [] ∧
    (after [.scrubWord 6 0 .good] live).stored.passBegun = [(6, 1000)] ∧ after [.scrubWord 3 0 .good] live = live := by decide +kernel

theorem test_clear_queue_and_wear : (after [.clearQueueOverwrite 6] { live with stored := { live.stored with
      clears := [(6, [(0, 8), (8, 8)])] } }).stored.clears = [(6, [(8, 8)])] ∧
    (after [.wearCountSave] corrected).stored.saved = corrected.stored.rowWrites ∧
    (after [.wearCountSave] corrected).stored.retiring = [(1, 4), (2, 3)] := by decide +kernel

/-- R398's table: AF is 2.50 at 105 °C, so a minute there adds 2.500 minutes (R399). -/
theorem test_retention_age : (after [.retentionAgeTick] { live with gate := { live.gate with tj := 105 * 16 } }).stored.retAge = 2500 ∧
    (after [.retentionAgeHourly] { live with stored := { live.stored with retAge := 119999 } }).stored.retAgeReg = 1 := by decide +kernel

/-- Tracks with one request, and with lost entries before it. -/
def tracking (reserve : Bool) (lost : Nat) : State :=
  { live with trk := { live.trk with
      lostGeneral := lost,
      queue := [{ kind := 0x0500, origin := 3, payload := bytes 9, reserve := reserve, aggregated := false, hold := 0, raise := false }] } }

theorem witness_Tracks : ∃ (s : State) (r : TrkReq) (q : List TrkReq), s.trk.ready = true ∧
    takeReady s.hut.time s.trk.queue = some (r, q) ∧ r.payload.length ≤ 200 ∧ r.kind < 2 ^ 16 ∧ r.origin < 2 ^ 16 ∧
    s.trk.headSeq + 2 < 2 ^ 48 ∧ s.hut.time < 2 ^ 64 ∧ r.hold < 2 ^ 64 ∧ 0 < s.trk.lostGeneral ∧ s.trk.lostGeneral < 2 ^ 32 ∧
    s.trk.lostReserve < 2 ^ 32 :=
  ⟨tracking false 2, _, _, rfl, rfl, by decide +kernel⟩

/-- R429: 9 bytes of payload and 56 more are two units; 8 would be one. -/
theorem test_tracks : (after [.tracksAppend] (tracking false 0)).trk.entries.map (fun e => (e.seq, e.kind, e.units)) = [(1, 0x0500, 2)] ∧
    (after [.tracksAppend] (tracking false 2)).trk.entries.map (fun e => (e.seq, e.kind, e.payload)) =
      [(1, 0x0902, [2, 0, 0, 0, 0, 0, 0, 0]), (2, 0x0500, bytes 9)] ∧
    (after [.tracksAppend] live).trk.entries = [] := by decide +kernel

/-! ### The card port -/

/-- An enabled port without work, in a phase of the identification. -/
def identifying (p : CardPhase) : State :=
  { live with card := { live.card with state := .ident, present := true, power := true, phase := p, rca := 0x1234 } }

theorem witness_CardPower : (live.card.restartPending = false ∨ live.card.port ≠ .enabled) ∧ portJobs live = [] ∧
    noPortWork live := by unfold noPortWork; decide

theorem witness_CardIdentification : noPortWork (identifying (.ident 2 1)) ∧ (identifying (.ident 2 1)).card.retriedCmd = false ∧
    noPortWork (identifying (.ident 3 0)) ∧ noPortWork (identifying (.ident 6 2)) ∧ noPortWork (identifying (.ident 8 1)) ∧
    noPortWork (identifying (.probe 1)) ∧ awaitsResponse (identifying (.ident 2 1)) = true := by unfold noPortWork; decide

/-- A LOCKED part with a seated Terja card and the unlock flow enabled. -/
def cardUnlocking : State := { onceLocked with
  hut := { live.hut with locked := true }, card := { (staged .B).card with use := { (staged .B).card.use with unlockEn := true } } }

theorem witness_CardUnlockFlow : cardUnlocking.card.terja = true ∧ cardUnlocking.card.state = .ready ∧ isLocked cardUnlocking = true ∧
    cardUnlocking.card.use.unlockEn = true ∧ cardUnlocking.card.job = none ∧ cardUnlocking.card.flow = .idle ∧
    cardUnlocking.card.served = false ∧ (after [.cardUnlockFlow] cardUnlocking).card.phase = .mbxIdent 0 ∧
    (after [.cardUnlockFlow] cardUnlocking).card.flowReq.take 8 = [7, 0, 0, 0, 0, 0, 0, 0] := by decide +kernel

/-- R472: power on insertion, off time after a removal. -/
theorem test_card_power : (after [.cardInsertion] live).card.power = true ∧ (after [.cardInsertion] live).card.state = .powerUp ∧
    (after [.cardInsertion, .cardPowerRampEnd] live).card.phase = .ident 1 0 ∧
    (after [.cardInsertion, .cardRemoval] live).card.offRunning = true ∧
    (after [.cardInsertion, .cardRemoval, .cardInsertion] live).card.power = false ∧
    (after [.cardInsertion, .cardRemoval, .cardInsertion, .cardOffTimeEnd] live).card.power = true := by decide +kernel

theorem test_card_enable_and_disable : (after [.cardDisable] live).card.port = .disabled ∧ (after [.cardDisable, .cardEnable] live).card.port = .enabled ∧
    (after [.cardPortFault, .cardEnable] live).card.port = .disabled ∧ (after [.cardPortFault] live).card.reason = 0x0F := by decide +kernel

/-- R473: step 1 echoes 0x1AA; ACMD41 is repeated while the card is busy, for 1 s. -/
theorem test_identification :
    (after [.cardCommandResponse (.response 0 true false 0x1AA)] (identifying (.ident 1 0))).card.phase = .ident 2 0 ∧
    (after [.cardCommandResponse (.response 0 true false 0x1AB)] (identifying (.ident 1 0))).card.state = .rejected ∧
    (after [.cardCommandResponse (.response 0 true false 0)] (identifying (.ident 2 1))).card.phase = .ident 2 2 ∧
    (after [.cardCommandResponse (.response 0 true false 0x80000000)] (identifying (.ident 2 1))).card.phase = .ident 3 0 ∧
    (after [.acmd41RepeatInterval] (identifying (.ident 2 2))).card.phase = .ident 2 0 ∧
    (after [.acmd41RepeatInterval] { identifying (.ident 2 2) with now := 100000000 }).card.reason = 9 := by decide +kernel

theorem test_response_timeout : (after [.cardResponseTimeout] (identifying (.ident 2 0))).card.retriedCmd = true ∧
    (after [.cardResponseTimeout, .cardResponseTimeout] (identifying (.ident 2 0))).card.state = .rejected := by decide +kernel

/-- A job of 1,024 bytes read from the card, one written, and one through the mailbox, each on the port. -/
def cardReading : State := after [.cardRead (arrivalOf (descOf 0x50 3 0 0 0 0 0 1024 5))] (staged .B)
def cardWriting : State :=
  after [.cardWrite (arrivalOf (descOf 0x50 3 0 0 1 512 0 0 5)), .gatherDataArrival 9 .source (bytes 512)] (staged .B)
def cardMailing : State :=
  after [.cardMailbox (arrivalOf (descOf 0x50 3 0 0 2 10 0 480 7)), .gatherDataArrival 9 .source (bytes 10)] (staged .B)

/-- Another phase of the port. -/
def inPhase (p : CardPhase) (s : State) : State := { s with card := { s.card with phase := p } }

theorem onPort_meets {s : State} {o : Op}
    (h : ((findJob s 9).any (fun j => decide (j.stage = .running ∧ j.status = none ∧ j.op = o)) &&
      decide ((tagsHeld s).Nodup ∧ s.card.job = some 9 ∧ s.card.flow = .idle ∧ s.card.port = .enabled ∧ waitingExports s = [])) = true) :
    ∃ j, onPort s 9 j ∧ j.op = o := by
  obtain ⟨h1, h2⟩ := (Bool.and_eq_true _ _).mp h
  obtain ⟨j, hj, hp⟩ := job_any h1
  obtain ⟨a, b, c⟩ := of_decide_eq_true hp
  obtain ⟨u, v, w, x, y⟩ := of_decide_eq_true h2
  exact ⟨j, ⟨u, by decide, hj, v, w, a, b, x, y⟩, c⟩

/-- A DRAINING port, a card whose power ramps, and a port with a job. -/
theorem witness_CardPower_states : (after [.cardDisable] cardReading).card.port = .draining ∧ portJobs cardReading ≠ [] ∧
    (after [.cardDisable, .cardEnable] cardReading).card.restartPending = true ∧
    (after [.cardInsertion] live).card.state = .powerUp ∧ (after [.cardInsertion] live).card.phase = .idle ∧
    (after [.cardInsertion, .cardRemoval] live).card.offRunning = true ∧ live.card.fault = false := by decide +kernel

theorem witness_CardPortFault : jobsDistinct cardReading ∧ cardReading.card.port = .enabled ∧
    (portJobs cardReading).any (fun j => decide (j.stage ≠ .finished)) = true := by unfold jobsDistinct; decide +kernel

theorem witness_CardReadData : ∃ (s : State) (j : Job), onPort s 9 j ∧ runsFreely s 9 j ∧ j.op = .cardRead ∧
    s.card.phase = .readData ∧ 1 < s.card.total := by
  obtain ⟨j, h, ho⟩ := onPort_meets (s := inPhase .readData cardReading) (o := .cardRead) (by decide +kernel)
  obtain ⟨k, hk, _⟩ := runsFreely_meets (s := inPhase .readData cardReading) (p := fun _ => true) (by decide +kernel)
  have e : k = j := Option.some.inj (hk.2.2.1.symm.trans h.2.2.1)
  exact ⟨_, j, h, e ▸ hk, ho, rfl, by decide +kernel⟩

theorem witness_CardReadStop : ∃ (s : State) (j : Job), onPort s 9 j ∧ j.op = .cardRead ∧ s.card.phase = .readStop ∧ s.card.failReason = 0 := by
  obtain ⟨j, h, ho⟩ := onPort_meets (s := inPhase .readStop cardReading) (o := .cardRead) (by decide +kernel)
  exact ⟨_, j, h, ho, rfl, by decide +kernel⟩

theorem witness_CardWrite : ∃ (s : State) (j : Job), onPort s 9 j ∧ j.op = .cardWrite ∧ s.card.phase = .writeBusy ∧
    s.card.blocks < s.card.total ∧ s.card.failReason = 0 := by
  obtain ⟨j, h, ho⟩ := onPort_meets (s := inPhase .writeBusy cardWriting) (o := .cardWrite) (by decide +kernel)
  exact ⟨_, j, h, ho, rfl, by decide +kernel⟩

theorem witness_CardConfirm : ∃ (s : State) (j : Job), onPort s 9 j ∧ j.op = .cardWrite ∧ s.card.phase = .confirm 3 ∧ s.card.failReason = 0 := by
  obtain ⟨j, h, ho⟩ := onPort_meets (s := inPhase (.confirm 3) cardWriting) (o := .cardWrite) (by decide +kernel)
  exact ⟨_, j, h, ho, rfl, by decide +kernel⟩

theorem witness_CardMailbox : ∃ (s : State) (j : Job), onPort s 9 j ∧ j.op = .cardMailbox ∧ s.card.phase = .mbxWait ∧ s.card.hc = true := by
  obtain ⟨j, h, ho⟩ := onPort_meets (s := inPhase .mbxWait cardMailing) (o := .cardMailbox) (by decide +kernel)
  exact ⟨_, j, h, ho, rfl, by decide +kernel⟩

theorem witness_CardMailboxAnswer : ∃ (s : State) (j : Job) (b : Bytes), onPort s 9 j ∧ runsFreely s 9 j ∧ j.op = .cardMailbox ∧
    s.card.phase = .mbxResp 1 ∧ natLE (slice b 4 4) = s.card.jobSeq ∧ b.getD 8 0 = 0 ∧
    ∀ k ∈ s.rings.jobs, k.tag ≠ 9 → isCard k.op = false ∧ k.op ≠ .trkExport := by
  let s : State := inPhase (.mbxResp 1) { cardMailing with card := { cardMailing.card with jobSeq := 0x101 } }
  obtain ⟨j, h, ho⟩ := onPort_meets (s := s) (o := .cardMailbox) (by decide +kernel)
  obtain ⟨k, hk, _⟩ := runsFreely_meets (s := s) (p := fun _ => true) (by decide +kernel)
  have e : k = j := Option.some.inj (hk.2.2.1.symm.trans h.2.2.1)
  exact ⟨s, j, [0, 0, 0, 0, 1, 1, 0, 0, 0], h, e ▸ hk, ho, rfl, by decide +kernel⟩

/-- R477, R483: two blocks, CMD12, and the end of the read. -/
theorem test_card_read : let s := after [.cardCommandResponse (.block (bytes 512)), .cardCommandResponse (.block (bytes 512)),
      .cardCommandResponse (.response 4 true false 0)] (inPhase .readData cardReading)
    (findJob s 9).map (fun j => (j.stage, j.status, j.bytes, j.result)) = some (.finished, some .ok, 1024, 0x200000400) := by
  decide +kernel

/-- R487: ACMD22 confirms the one block, or none of it. -/
theorem test_card_confirm : (findJob (after [.cardCommandResponse (.wellWritten 1)] (inPhase (.confirm 3) cardWriting)) 9).map
      (fun j => (j.status, j.bytes)) = some (some .ok, 512) ∧
    (findJob (after [.cardCommandResponse (.wellWritten 0)] (inPhase (.confirm 3) cardWriting)) 9).map
      (fun j => (j.status, j.bytes)) = some (some .cancelled, 0) := by decide +kernel

/-! ### Events and telemetry -/

/-- The event ring and the telemetry ring are on; source 70 has a record waiting. -/
def reporting : State :=
  { live with
    evts := { live.evts with enabled := true, tail := 63, head := 5, queue := [{
      time := 900, source := 70, count := 2, detail0 := 7, detail1 := 8, seq := 3, held := false, msg := none, told := true }] },
    tel := { live.tel with enabled := true, head := 4 } }

theorem witness_EventRecords : (nextRecord reporting).isSome = true ∧ (∀ r ∈ reporting.evts.queue, recordFits r) ∧ 31 < 32 ∧
    (reporting.hut.time < 2 ^ 64 ∧ reporting.tel.seq + 1 < 2 ^ 32 ∧ reporting.hut.hotMin < 2 ^ 20 ∧ reporting.evts.lost < 2 ^ 32 ∧
      reporting.gate.derate < 2 ^ 16 ∧ reporting.gate.siMin < 256) := by unfold recordFits; decide +kernel

theorem witness_EventRecords_raise : (mapEntry live.evts 3).getLsbD 8 = false ∧ nextRecord live = none ∧
    (raiseEvent 70 1 2 reporting).evts.queue.map (fun r => (r.count, r.detail0)) = [(3, 1)] ∧
    (raiseEvent 71 1 2 reporting).evts.queue.length = 2 ∧ (raiseEvent 3 1 2 live).evts.queue = [] ∧
    (raiseEvent 70 1 2 { live with evts := { live.evts with queue := List.replicate 64 { (reporting.evts.queue.headD
      { time := 0, source := 0, count := 0, detail0 := 0, detail1 := 0, seq := 0, held := false, msg := none, told := false }) with source := 80 } } }).evts.lost = 1 := by
  decide +kernel

/-- R351: protection unit 9 lets the telemetry DMA through, or denies it. -/
theorem witness_Telemetry : checkAcc reporting telemetryAcc = .pass ∧
    (after [.telemetryRecord []] { reporting with prot := { reporting.prot with units := [(144, { w0 := 0x50000220, w1 := 0xA0000000 })] } }).tel.tail = 0 := by
  decide +kernel

/-- R516, R517: the record goes to entry 63, the tail wraps and the phase turns. -/
theorem test_event_record : let t := after [.eventRecordWrite] reporting
    t.evts.tail = 0 ∧ t.evts.phase = false ∧ t.evts.queue = [] ∧
    (t.link.posted.filterMap (fun p => match p with
      | .event slot raw => some (slot, (raw.extractLsb' 0 64).toNat, (raw.extractLsb' 64 10).toNat, (raw.extractLsb' 80 8).toNat, raw.getLsbD 255)
      | _ => none)) = [(63, 900, 70, 2, true)] := by decide +kernel

theorem test_event_rings : (after [.evtRingEnable 16] { live with life := { live.life with isSealed := false } }).evts.depthLog2 = 16 ∧
    (after [.evtRingEnable 17] { live with life := { live.life with isSealed := false } }).evts.depthLog2 = 6 ∧
    (after [.telRingEnable 12] { live with life := { live.life with isSealed := false } }).tel.depthLog2 = 12 ∧
    (after [.evtRingEnable 16] live).evts.enabled = false ∧ (after [.evtRingHeadWrite 63] reporting).evts.head = 63 ∧
    (after [.evtRingHeadWrite 64] reporting).evts.head = 5 ∧ (after [.telHeadWrite 7] reporting).tel.head = 7 := by decide +kernel

/-- R520: a message withheld in an interval leaves at its end. -/
theorem test_coalescing : (after [.coalesceIntervalEnd 2] { live with evts := { live.evts with
        coalLow := 5, intervals := [(2, { isOpen := true, withheld := true })] } }).link.pba = [(2, true)] ∧
    (after [.coalesceIntervalEnd 2] { live with
        evts := { live.evts with coalLow := 5, intervals := [(2, { isOpen := true, withheld := true })] },
        link := { live.link with msix := [(2, { addr := 0, data := 0, control := 0 })] } }).link.posted = [.msix 2 0 0] := by decide +kernel

/-- R521, R522: a record of 256 bytes, with SEQ 1 and the Hut's time. -/
theorem test_telemetry : (match (after [.telemetryRecord []] reporting).link.posted with
    | [.telemetry slot raw] => slot == 0 && raw.length == 256 && telField raw 0 8 == 1000000 && telField raw 8 4 == 1
    | _ => false) = true ∧ (after [.telemetryRecord []] live).tel.lost = 1 := by decide +kernel

end Sys2Proof.Tests
end

section
/-!
PROOFS. The completion entry of R121: its 32 bytes as one number, and the fields that are read back from it.
-/
namespace Sys2Proof.Machine

/-! ### Bits of a number that a vector holds -/

/-- Bits lo to lo + w - 1 of a number that is cut to n bits and holds them whole. -/
theorem toNat_extract_ofNat (n x lo w : Nat) (h : lo + w ≤ n) :
    ((BitVec.ofNat n x).extractLsb' lo w).toNat = x / 2 ^ lo % 2 ^ w := by
  obtain ⟨m, rfl⟩ : ∃ m, n = lo + (w + m) := ⟨n - lo - w, by omega⟩
  rw [BitVec.extractLsb'_toNat, BitVec.toNat_ofNat, Nat.shiftRight_eq_div_pow, Nat.pow_add,
    Nat.mod_mul_right_div_self, Nat.pow_add, Nat.mod_mul_right_mod]

/-- Bit i of a number that is cut to more than i bits. -/
theorem getLsbD_ofNat_eq (n x i : Nat) (h : i < n) : (BitVec.ofNat n x).getLsbD i = decide (x / 2 ^ i % 2 = 1) := by
  rw [BitVec.getLsbD_ofNat, Nat.testBit_eq_decide_div_mod_eq, decide_eq_true h, Bool.true_and]

theorem fbit_eq (b : Bool) (i : Nat) : fbit b i = b.toNat * 2 ^ i := by cases b <;> simp [fbit]

theorem statusCode_lt (st : Status) : statusCode st < 256 := by cases st <;> decide

theorem bandCode_lt (b : Band) : bandCode b < 4 := by cases b <;> decide

/-- A truth value as the bit that is 1 for it. -/
theorem decide_eq_of_bit {p : Prop} [Decidable p] {b : Bool} (h : p ↔ b.toNat = 1) : decide p = b := by
  cases b <;> simpa using h

/-! ### The table of R121 -/

/-- The fields of an entry are each in the range of its place in the table. -/
def EntryFields.fits (f : EntryFields) : Prop :=
  f.bytes < 2 ^ 32 ∧ f.jobTag < 2 ^ 11 ∧ f.ring < 2 ^ 6 ∧ f.status < 2 ^ 8 ∧ f.unitNum < 2 ^ 7 ∧ f.unitKind < 2 ^ 3 ∧
    f.planBand < 2 ^ 2 ∧ f.sqIndex < 2 ^ 16

/-- The 32 bytes of an entry as a number, every field at its place in the table. -/
def EntryFields.packed (f : EntryFields) : Nat :=
  f.cookie.toNat + f.result.toNat * 2 ^ 64 + f.bytes * 2 ^ 128 +
    (f.jobTag + f.tagValid.toNat * 2 ^ 11 + f.ring * 2 ^ 16 + f.inner.toNat * 2 ^ 22 + f.status * 2 ^ 24) * 2 ^ 160 +
    (f.unitNum + f.unitKind * 2 ^ 8 + f.retried.toNat * 2 ^ 11 + f.planBand * 2 ^ 12 + f.unverified.toNat * 2 ^ 14 +
      f.sqIndex * 2 ^ 16) * 2 ^ 192 + f.phase.toNat * 2 ^ 255

/-- Fields in their ranges do not run into one another: each is read back from its place. -/
theorem readEntryFields_packed (f : EntryFields) (h : f.fits) : readEntryFields (BitVec.ofNat 256 f.packed) = f := by
  obtain ⟨cookie, result, bytes, jobTag, tagValid, ring, inner, status, unitNum, unitKind, retried, planBand, unverified,
    sqIndex, phase⟩ := f
  simp only [EntryFields.fits] at h
  have hcookie := cookie.isLt
  have hresult := result.isLt
  have hvalid := tagValid.toNat_le
  have hinner := inner.toNat_le
  have hretried := retried.toNat_le
  have hunverified := unverified.toNat_le
  have hphase := phase.toNat_le
  simp (disch := decide) only [readEntryFields, EntryFields.packed, toNat_extract_ofNat, getLsbD_ofNat_eq]
  rw [EntryFields.mk.injEq]
  refine ⟨BitVec.eq_of_toNat_eq ?_, BitVec.eq_of_toNat_eq ?_, by omega, by omega, decide_eq_of_bit (by omega),
    by omega, decide_eq_of_bit (by omega), by omega, by omega, by omega, decide_eq_of_bit (by omega), by omega,
    decide_eq_of_bit (by omega), by omega, decide_eq_of_bit (by omega)⟩
  all_goals
    rw [toNat_extract_ofNat _ _ _ _ (by decide)]
    omega

/-- The fields that an entry is built from, as R121 shows them: a tag of 2,048 or more is none. -/
def builtFields (cookie result : DWord) (bytes tag : Nat) (r : RingId) (st : Status) (kind num : Nat) (retried : Bool)
    (band : Band) (unverified : Bool) (index : Nat) (phase : Bool) : EntryFields :=
  { cookie := cookie, result := result, bytes := bytes, jobTag := if tag < 2048 then tag else 0,
    tagValid := decide (tag < 2048), ring := ringNum r, inner := !(isHost r), status := statusCode st, unitNum := num,
    unitKind := kind, retried := retried, planBand := bandCode band, unverified := unverified, sqIndex := index,
    phase := phase }

/-- An entry is the packed number of the fields it is built from. -/
theorem entryRaw_eq_packed (cookie result : DWord) (bytes tag : Nat) (r : RingId) (st : Status) (kind num : Nat)
    (retried : Bool) (band : Band) (unverified : Bool) (index : Nat) (phase : Bool) :
    entryRaw cookie result bytes tag r st kind num retried band unverified index phase =
      BitVec.ofNat 256
        (builtFields cookie result bytes tag r st kind num retried band unverified index phase).packed := by
  have htag : (if tag < 2048 then tag + 2 ^ 11 else 0) =
      (if tag < 2048 then tag else 0) + (decide (tag < 2048)).toNat * 2 ^ 11 := by
    by_cases h : tag < 2048 <;> simp [h]
  simp only [entryRaw, EntryFields.packed, builtFields, fbit_eq, htag]

/-- Settles O22: the entry is the packed number of its fields, and fields in their ranges are read back from it. -/
theorem completionEntryLayout : Obligations.CompletionEntryLayout := by
  unfold Obligations.CompletionEntryLayout
  intro cookie result bytes tag r st kind num retried band unverified index phase hbytes hring hkind hnum hindex
  have htag : (if tag < 2048 then tag else 0) < 2 ^ 11 := by split <;> omega
  have hr : ringNum r < 2 ^ 6 := by
    cases r with
    | host n => exact hring
    | internal n => exact Nat.lt_trans hring (by decide)
  rw [entryRaw_eq_packed, readEntryFields_packed _
    ⟨hbytes, htag, hr, statusCode_lt st, hnum, hkind, bandCode_lt band, hindex⟩]
  cases r <;> cases band <;> rfl

end Sys2Proof.Machine
end

section
/-!
PROOFS. A Rink core's instructions from the fetch on: what a step of one core leaves as it is, the values that loads read
(R10, R35, R328) and the registers they write (R324).
-/
namespace Sys2Proof.Machine

/-! ### The fetch -/

@[simp] theorem rinkOf_correctAt (a : Nat) (s : State) (c : Nat) : rinkOf (correctAt a s) c = rinkOf s c := by
  simp only [rinkOf, correctAt_frame]

@[simp] theorem rinkOf_fetched (s : State) (c d : Nat) : rinkOf (fetched s c) d = rinkOf s d := rinkOf_correctAt ..

@[simp] theorem applet_fetched (s : State) (c n : Nat) : applet (fetched s c) n = applet s n := by
  simp only [fetched, applet, correctAt_frame]

@[simp] theorem getRing_fetched (s : State) (c : Nat) (r : RingId) : getRing (fetched s c) r = getRing s r := by
  simp only [fetched, getRing, correctAt_frame]

@[simp] theorem portRead_fetched (s : State) (c n off : Nat) : portRead (fetched s c) n off = portRead s n off := by
  unfold portRead
  rw [getRing_fetched]

@[simp] theorem prot_fetched (s : State) (c : Nat) : (fetched s c).prot = s.prot := by simp only [fetched, correctAt_frame]

@[simp] theorem periRead_fetched (s : State) (c a : Nat) : periRead (fetched s c) a = periRead s a := by
  simp only [periRead, protRead, rinkOf_fetched, applet_fetched, prot_fetched]

/-- After a fetch that passes, an instruction acts on the state that the fetch leaves. -/
theorem runOn_of_fetches {s : State} {c : Nat} (h : fetches s c) (f : State → State) : runOn c f s = f (fetched s c) := by
  obtain ⟨hruns, hpass⟩ := h
  simp only [runOn, hruns, hpass, if_true, fetched]

/-- An access that passes every check is naturally aligned (R329). -/
theorem aligned_of_accTrap_none {s : State} {c n : Nat} {k : AccKind} {a : Word} (h : accTrap s c k a n = none) :
    a.toNat % n = 0 := by
  unfold accTrap at h
  split at h
  · cases h
  · omega

/-! ### One core changes -/

theorem onlyCore_modCore (c : Nat) (f : Rink → Rink) (s : State) : onlyCore c s (modCore c f s) :=
  ⟨rfl, rfl, fun d hd => rinkOf_modCore_ne c d f s hd⟩

theorem onlyCore.trans {c : Nat} {s t u : State} (h : onlyCore c s t) (h' : onlyCore c t u) : onlyCore c s u := by
  obtain ⟨ht, happs, hcores⟩ := h
  obtain ⟨hu, happs', hcores'⟩ := h'
  refine ⟨?_, happs'.trans happs, fun d hd => (hcores' d hd).trans (hcores d hd)⟩
  rw [hu, ht]

/-- Changing a core's PC and registers is a step of that core. -/
theorem coreGoes_modCore {c : Nat} {f : Rink → Rink} {s : State} {pc : Word} {val : Fin 16 → Word}
    (hcore : f (rinkOf s c) = { rinkOf s c with pc := pc, regs := (f (rinkOf s c)).regs })
    (hval : ∀ r, reg (f (rinkOf s c)) r = val r) : coreGoes c pc val s (modCore c f s) :=
  ⟨onlyCore_modCore c f s, by rw [rinkOf_modCore_self]; exact hcore, by rw [rinkOf_modCore_self]; exact hval⟩

theorem onlyCore_placeRefill (c : Nat) (s : State) : onlyCore c s (placeRefill c s) := by
  unfold placeRefill
  split
  · exact onlyCore_modCore ..
  · exact ⟨rfl, rfl, fun _ _ => rfl⟩

/-- Asking for a refill changes that of the core alone. -/
theorem rinkOf_placeRefill (c : Nat) (s : State) :
    rinkOf (placeRefill c s) c = { rinkOf s c with refill := (rinkOf (placeRefill c s) c).refill } := by
  unfold placeRefill
  split
  · simp only [rinkOf_modCore_self]
  · rfl

/-! ### Registers -/

@[simp] theorem reg_nextPc (k : Rink) (r : Fin 16) : reg (nextPc k) r = reg k r := rfl

theorem reg_withReg (rd : Fin 16) (v : Word) (k : Rink) (r : Fin 16) : reg (withReg rd v k) r = wrote k rd v r := by
  unfold reg withReg wrote
  by_cases hr : r = 0
  · simp [hr]
  · have h0 : r.val ≠ 0 := fun h => hr (Fin.ext h)
    by_cases hd : r = rd
    · subst hd; simp [hr, h0]
    · have hne : r.val ≠ rd.val := fun h => hd (Fin.ext h)
      simp only [hr, h0, hd, if_false]
      split
      · rw [reg, if_neg h0]
      · rw [reg, if_neg h0, tblGet_set_ne _ _ _ _ _ hne]

/-- The address of a load or a store, as R328 computes it. -/
theorem indexed_eq (k : Rink) (rs1 : Fin 16) (imm : BitVec 16) : indexed k rs1 imm = reg k rs1 + sext16 imm := by
  rw [indexed, BitVec.ofInt_add, sext16, BitVec.signExtend, BitVec.ofInt_natCast, BitVec.ofNat_toNat, BitVec.setWidth_eq]

/-- The sizes of loads and stores, and the even pair of the 8-byte ones. -/
def accessSize (n : Nat) (rd : Fin 16) : Prop := n = 1 ∨ n = 2 ∨ n = 4 ∨ n = 8 ∧ rd.val % 2 = 0

/-- A sign- or zero-extended value as R328 writes it. -/
theorem extend_eq {n v : Nat} (signed : Bool) (hn : n = 1 ∨ n = 2 ∨ n = 4) :
    extend signed n v =
      if signed && decide (2 ^ (8 * n - 1) ≤ v) then BitVec.ofInt 32 ((v : Int) - 2 ^ (8 * n)) else word v := by
  unfold extend
  congr 1
  have hle : 2 ^ (8 * n) ≤ 2 ^ 32 := Nat.pow_le_pow_right (by decide) (by omega)
  have hcast : ((v : Int) - 2 ^ (8 * n)) = ((v + 2 ^ 32 - 2 ^ (8 * n) : Nat) : Int) - 2 ^ 32 := by
    rcases hn with rfl | rfl | rfl <;> omega
  apply BitVec.eq_of_toNat_eq
  rw [hcast, word, BitVec.toNat_ofInt, BitVec.toNat_ofNat]
  omega

/-- A load of n bytes leaves rd, or the pair from rd on, with the value extended. -/
theorem reg_loadInto {n v : Nat} {rd : Fin 16} (signed : Bool) (k : Rink) (hn : accessSize n rd) (r : Fin 16) :
    reg (loadInto rd n signed v k) r = loaded k rd n signed v r := by
  unfold loadInto loaded
  by_cases h8 : n = 8
  · have heven : rd.val % 2 = 0 := by unfold accessSize at hn; omega
    have hsucc : rd + 1 ≠ rd := by omega
    simp only [h8, if_true, reg_withReg, wrote]
    by_cases h0 : r = 0
    · rw [if_pos h0, if_pos h0]
    · by_cases hr : r = rd
      · subst hr
        simp only [h0, hsucc.symm, if_true, if_false]
      · simp only [h0, hr, if_false]
  · have hn' : n = 1 ∨ n = 2 ∨ n = 4 := by unfold accessSize at hn; omega
    rw [if_neg h8, if_neg h8, reg_withReg, extend_eq signed hn']

theorem loadInto_eq (rd : Fin 16) (n v : Nat) (signed : Bool) (k : Rink) :
    loadInto rd n signed v k = { k with regs := (loadInto rd n signed v k).regs } := by
  unfold loadInto
  split <;> rfl

/-! ### The bytes that a load reads -/

theorem natLE_append (xs ys : Bytes) : natLE (xs ++ ys) = natLE xs + 256 ^ xs.length * natLE ys := by
  induction xs with
  | nil => simp [natLE]
  | cons x xs ih =>
    rw [List.cons_append, natLE, ih, natLE, List.length_cons, Nat.pow_succ, Nat.mul_add, Nat.mul_comm (256 ^ _) 256,
      Nat.mul_assoc, Nat.add_assoc]

theorem natLE_lt (bs : Bytes) : natLE bs < 256 ^ bs.length := by
  induction bs with
  | nil => simp [natLE]
  | cons b bs ih =>
    have hb := b.isLt
    simp only [natLE, List.length_cons, Nat.pow_succ]
    omega

@[simp] theorem mapBytes_length (s : State) (a n : Nat) : (mapBytes s a n).length = n := by simp [mapBytes]

theorem mapBytes_add (s : State) (a m n : Nat) : mapBytes s a (m + n) = mapBytes s a m ++ mapBytes s (a + m) n := by
  simp only [mapBytes, List.range_add, List.map_append, List.map_map, Function.comp_def, Nat.add_assoc]

theorem storedNat_add (s : State) (a m n : Nat) :
    storedNat s a (m + n) = storedNat s a m + 256 ^ m * storedNat s (a + m) n := by
  rw [storedNat, mapBytes_add, natLE_append, mapBytes_length]; rfl

theorem storedNat_lt (s : State) (a n : Nat) : storedNat s a n < 256 ^ n := by
  have h := natLE_lt (mapBytes s a n)
  rwa [mapBytes_length] at h

/-- n of the bytes in a row, k bytes on, cut out of the number that they all hold. -/
theorem storedNat_within (s : State) (a k n m : Nat) :
    storedNat s a (k + (n + m)) / 256 ^ k % 256 ^ n = storedNat s (a + k) n := by
  rw [storedNat_add, Nat.add_mul_div_left _ _ (Nat.pow_pos (show 0 < 256 by decide)), Nat.div_eq_of_lt (storedNat_lt s a k), Nat.zero_add,
    storedNat_add, Nat.add_mul_mod_self_left, Nat.mod_eq_of_lt (storedNat_lt ..)]

/-- Both dwords of an 8-byte access stand in one region: every bound of the map is a multiple of 8 (R35, R36). -/
theorem regionOf_add_four {a : Nat} (h : a % 8 = 0) : regionOf (a + 4) = regionOf a := by
  have hlt : ∀ x, x % 8 = 0 → (a + 4 < x ↔ a < x) := fun x hx => by omega
  have hle : ∀ x, x % 8 = 0 → (x ≤ a + 4 ↔ x ≤ a) := fun x hx => by omega
  unfold regionOf
  refine ite_congr (propext (hlt _ rfl)) (fun _ => rfl) fun _ => ?_
  iterate 12 refine ite_congr (propext (and_congr (hle _ rfl) (hlt _ rfl))) (fun _ => rfl) fun _ => ?_
  rfl

/-- Outside ring ports and registers a dword is what its four bytes hold. -/
theorem wordAt_of_memory {s : State} {a : Nat} (hp : regionOf a ≠ some .ringPorts) (hr : regionOf a ≠ some .peripherals) :
    wordAt s a = storedNat s (a / 4 * 4) 4 := by
  unfold wordAt
  split
  · exact absurd ‹_› hp
  · exact absurd ‹_› hr
  · rfl

theorem wordAt_of_ringPorts {s : State} {a : Nat} (h : regionOf a = some .ringPorts) :
    wordAt s a = (portRead s ((a - 0x40000000) / 0x1000) (a % 0x1000 / 4 * 4)).toNat := by
  rw [wordAt, h]

theorem wordAt_of_peripherals {s : State} {a : Nat} (h : regionOf a = some .peripherals) :
    wordAt s a = (periRead s (a / 4 * 4)).toNat := by
  rw [wordAt, h]

theorem wordAt_lt (s : State) (a : Nat) : wordAt s a < 2 ^ 32 := by
  unfold wordAt
  split
  · exact BitVec.isLt _
  · exact BitVec.isLt _
  · exact storedNat_lt s (a / 4 * 4) 4

theorem loadValue_lt {s : State} {a n : Nat} : loadValue s a n < 2 ^ (8 * n) := by
  unfold loadValue
  split
  · have h := wordAt_lt s a
    have h' := wordAt_lt s (a + 4)
    subst n
    omega
  · exact Nat.mod_lt _ (Nat.two_pow_pos _)

/-- What a load of applet SRAM, MRAM, ROM or the session table reads: the little-endian value of its bytes (R10). -/
theorem loadValue_of_memory {s : State} {a n : Nat} (hn : n = 1 ∨ n = 2 ∨ n = 4 ∨ n = 8) (ha : a % n = 0)
    (hp : regionOf a ≠ some .ringPorts) (hr : regionOf a ≠ some .peripherals) : loadValue s a n = storedNat s a n := by
  unfold loadValue
  by_cases h8 : n = 8
  · subst h8
    have hreg := regionOf_add_four ha
    rw [if_pos rfl, wordAt_of_memory hp hr, wordAt_of_memory (hreg ▸ hp) (hreg ▸ hr), show (8 : Nat) = 4 + 4 from rfl,
      storedNat_add, show a / 4 * 4 = a by omega, show (a + 4) / 4 * 4 = a + 4 by omega, show 2 ^ 32 = 256 ^ 4 from rfl]
  · obtain ⟨m, hm⟩ : ∃ m, 4 = a % 4 + (n + m) := ⟨4 - n - a % 4, by rcases hn with rfl | rfl | rfl | rfl <;> omega⟩
    have h := storedNat_within s (a / 4 * 4) (a % 4) n m
    rw [← hm, show a / 4 * 4 + a % 4 = a by omega] at h
    rw [if_neg h8, wordAt_of_memory hp hr, Nat.pow_mul, Nat.pow_mul, ← h]

/-- What a load of a ring port reads. -/
theorem loadValue_of_ringPorts {s : State} {a n : Nat} (ha : a % n = 0) (h : regionOf a = some .ringPorts) :
    loadValue s a n =
      if n = 8 then (portRead s ((a - 0x40000000) / 0x1000) (a % 0x1000)).toNat +
          2 ^ 32 * (portRead s ((a - 0x40000000) / 0x1000) (a % 0x1000 + 4)).toNat
      else (portRead s ((a - 0x40000000) / 0x1000) (a % 0x1000 / 4 * 4)).toNat / 2 ^ (8 * (a % 0x1000 % 4)) % 2 ^ (8 * n) := by
  unfold loadValue
  split
  · subst n
    have hport : (a + 4 - 0x40000000) / 0x1000 = (a - 0x40000000) / 0x1000 := by omega
    rw [wordAt_of_ringPorts h, wordAt_of_ringPorts ((regionOf_add_four ha).trans h), hport,
      show a % 0x1000 / 4 * 4 = a % 0x1000 by omega, show (a + 4) % 0x1000 / 4 * 4 = a % 0x1000 + 4 by omega]
  · rw [wordAt_of_ringPorts h, show a % 0x1000 % 4 = a % 4 by omega]

/-- What a load of a peripheral register reads. -/
theorem loadValue_of_peripherals {s : State} {a n : Nat} (ha : a % n = 0) (h : regionOf a = some .peripherals) :
    loadValue s a n =
      if n = 8 then (periRead s a).toNat + 2 ^ 32 * (periRead s (a + 4)).toNat
      else (periRead s (a / 4 * 4)).toNat / 2 ^ (8 * (a % 4)) % 2 ^ (8 * n) := by
  unfold loadValue
  split
  · subst n
    rw [wordAt_of_peripherals h, wordAt_of_peripherals ((regionOf_add_four ha).trans h),
      show a / 4 * 4 = a by omega, show (a + 4) / 4 * 4 = a + 4 by omega]
  · rw [wordAt_of_peripherals h]

end Sys2Proof.Machine
end

section
/-!
PROOFS. The loads of R328: what a load that passes its checks reads and writes, from memory, from registers and from the
random port (R309).
-/
namespace Sys2Proof.Machine

/-- The rows of the loads are the one load operation, at the address, size and extension of their form. -/
theorem exec_of_loadForm {s : State} {i : Instr} {c : Nat} {rd : Fin 16} {a : Word} {n : Nat} {signed : Bool}
    (h : loadForm s i = some (c, rd, a, n, signed)) :
    accessSize n rd ∧ ∃ rs1 imm, a = reg (rinkOf s c) rs1 + sext16 imm ∧ exec i s = .next (load c rd rs1 imm n signed s) := by
  unfold loadForm at h
  split at h
  case h_6 c' rd' rs1 imm =>
    split at h
    · next heven =>
      cases h
      exact ⟨.inr (.inr (.inr ⟨rfl, heven⟩)), rs1, imm, indexed_eq .., rfl⟩
    · cases h
  case h_7 => cases h
  all_goals
    next c' rd' rs1 imm =>
    cases h
    exact ⟨by simp [accessSize], rs1, imm, indexed_eq .., rfl⟩

/-- A load whose fetch and access pass every check reads from the random port, or writes the value at its address. -/
theorem load_of_passes {s : State} {c : Nat} {rd rs1 : Fin 16} {imm : BitVec 16} {n : Nat} {signed : Bool} {a : Word}
    (ha : a = reg (rinkOf s c) rs1 + sext16 imm) (hn : accessSize n rd) (hf : fetches s c)
    (hacc : accTrap (fetched s c) c .read a n = none) :
    load c rd rs1 imm n signed s =
      if regionOf a.toNat = some .randomPort then randomLoad c rd n signed a (fetched s c)
      else modCore c (fun k => nextPc (loadInto rd n signed (loadValue (fetched s c) a.toNat n) k))
        (correctAt a.toNat (fetched s c)) := by
  have hpair : ¬(n = 8 ∧ rd.val % 2 = 1) := by unfold accessSize at hn; omega
  rw [load, if_neg hpair, runOn_of_fetches hf]
  simp only [rinkOf_fetched, ← ha, hacc, beq_iff_eq]

/-- Writing a value that was loaded moves PC on and changes the registers that the load names. -/
theorem coreGoes_loadInto {c n v : Nat} {rd : Fin 16} (signed : Bool) (s : State) (hn : accessSize n rd) :
    coreGoes c ((rinkOf s c).pc + 4) (loaded (rinkOf s c) rd n signed v) s
      (modCore c (fun k => nextPc (loadInto rd n signed v k)) s) :=
  coreGoes_modCore (by rw [loadInto_eq]; rfl) (reg_loadInto signed _ hn)

@[simp] theorem portStalls_fetched (s : State) (c : Nat) : portStalls (fetched s c) = portStalls s := by
  simp only [portStalls, groomerOf, unitState, unitRec, unitTbl, fetched, correctAt_frame]

@[simp] theorem rngDegraded_fetched (s : State) (c : Nat) : rngDegraded (fetched s c) = rngDegraded s := by
  simp only [rngDegraded, fetched, correctAt_frame]

/-- A change of core c and the refill that follows it leave the rest of the part as it is. -/
theorem onlyCore_refilled (c : Nat) (f : Rink → Rink) (s : State) : onlyCore c s (placeRefill c (modCore c f s)) :=
  (onlyCore_modCore c f s).trans (onlyCore_placeRefill c _)

/-- Without the bytes at hand, or while the port stalls, the core stalls at the load. -/
theorem randomLoad_stalls {c : Nat} {rd : Fin 16} {n : Nat} {signed : Bool} {a : Word} {s : State}
    (hd : rngDegraded s = false) (h : portStalls s = true ∨ (rinkOf s c).buffer.length < n) :
    randomLoad c rd n signed a s =
      placeRefill c (modCore c (fun k => { k with stalled := some (rd, n, signed, a) }) s) := by
  have hb : (portStalls s || decide ((rinkOf s c).buffer.length < n)) = true := by simpa using h
  simp only [randomLoad, hd, hb, Bool.false_eq_true, if_false, if_true]

/-- With the bytes at hand the load takes them from the front of the core's buffer. -/
theorem randomLoad_takes {c : Nat} {rd : Fin 16} {n : Nat} {signed : Bool} {a : Word} {s : State}
    (hd : rngDegraded s = false) (h : ¬(portStalls s = true ∨ (rinkOf s c).buffer.length < n)) :
    randomLoad c rd n signed a s =
      placeRefill c (modCore c (fun k => nextPc (loadInto rd n signed (natLE ((rinkOf s c).buffer.take n))
        { k with buffer := k.buffer.drop n })) s) := by
  have hb : ¬(portStalls s || decide ((rinkOf s c).buffer.length < n)) = true := by simpa using h
  simp only [randomLoad, hd, hb, Bool.false_eq_true, if_false]
  rfl

/-- Settles O8: a load's row is the one load operation, which reads through the map or from the random port. -/
theorem loadsReadTheirBytes : Obligations.LoadsReadTheirBytes := by
  unfold Obligations.LoadsReadTheirBytes
  intro i s c rd a n signed hform hf hacc
  obtain ⟨hn, rs1, imm, ha, hexec⟩ := exec_of_loadForm hform
  have halign := aligned_of_accTrap_none hacc
  have hload := load_of_passes (signed := signed) ha hn hf hacc
  constructor
  · intro hport
    rw [if_neg hport] at hload
    have hsize : n = 1 ∨ n = 2 ∨ n = 4 ∨ n = 8 := by unfold accessSize at hn; omega
    refine ⟨_, loadValue (fetched s c) a.toNat n, hexec, loadValue_lt, loadValue_of_memory hsize halign, fun h => ?_,
      fun h => ?_, ?_⟩
    · simpa only [portRead_fetched] using loadValue_of_ringPorts (s := fetched s c) halign h
    · simpa only [periRead_fetched] using loadValue_of_peripherals (s := fetched s c) halign h
    · rw [hload]
      simpa only [rinkOf_correctAt, rinkOf_fetched] using
        coreGoes_loadInto (c := c) (v := loadValue (fetched s c) a.toNat n) signed (correctAt a.toNat (fetched s c)) hn
  · intro hport hdeg
    rw [if_pos hport] at hload
    rw [hload] at hexec
    have hdeg' : rngDegraded (fetched s c) = false := by rw [rngDegraded_fetched, hdeg]
    by_cases hstall : portStalls s = true ∨ (rinkOf s c).buffer.length < n
    · have hr := randomLoad_stalls (rd := rd) (signed := signed) (a := a) (c := c) (n := n) hdeg' (by simpa using hstall)
      refine ⟨_, hexec, ?_, ?_⟩
      · rw [hr]; exact onlyCore_refilled ..
      · rw [if_pos hstall, hr, rinkOf_placeRefill]
        simp only [rinkOf_modCore_self, rinkOf_fetched]
    · have hr := randomLoad_takes (rd := rd) (signed := signed) (a := a) (c := c) (n := n) hdeg' (by simpa using hstall)
      refine ⟨_, hexec, ?_, ?_⟩
      · rw [hr]; exact onlyCore_refilled ..
      · rw [if_neg hstall, hr, rinkOf_placeRefill]
        simp only [rinkOf_modCore_self, rinkOf_fetched]
        refine ⟨by rw [loadInto_eq]; rfl, fun r => reg_loadInto signed _ hn r⟩

end Sys2Proof.Machine
end

section
/-!
PROOFS. The stores of R328: what a store that passes its checks writes, in memory, in a ring port (R349) and in the
protection block (R353).
-/
namespace Sys2Proof.Machine

/-! ### The value that is stored -/

theorem bytesLE_length (n v : Nat) : (bytesLE n v).length = n := by
  induction n generalizing v with
  | zero => rfl
  | succ n ih => simp only [bytesLE, List.length_cons, ih]

/-- Byte i of a little-endian value (R10). -/
theorem bytesLE_getD {n i : Nat} (v : Nat) (h : i < n) : (bytesLE n v).getD i 0 = BitVec.ofNat 8 (v / 2 ^ (8 * i)) := by
  induction n generalizing v i with
  | zero => cases h
  | succ n ih =>
    cases i with
    | zero => simp [bytesLE]
    | succ i =>
      rw [bytesLE, List.getD_cons_succ, ih _ (by omega), Nat.div_div_eq_div_mul, show 8 * (i + 1) = 8 + 8 * i by omega,
        Nat.pow_add]

/-- The low n bytes of a value are those of its remainder. -/
theorem bytesLE_mod (n v : Nat) : bytesLE n (v % 2 ^ (8 * n)) = bytesLE n v := by
  induction n generalizing v with
  | zero => rfl
  | succ n ih =>
    have hdiv : v % 2 ^ (8 * (n + 1)) / 256 = v / 256 % 2 ^ (8 * n) := by
      rw [show 8 * (n + 1) = 8 + 8 * n by omega, Nat.pow_add, Nat.mod_mul_right_div_self]
    have hlow : v % 2 ^ (8 * (n + 1)) % 256 = v % 256 := by
      rw [show 8 * (n + 1) = 8 + 8 * n by omega, Nat.pow_add, Nat.mod_mul_right_mod]
    have hbyte : BitVec.ofNat 8 (v % 2 ^ (8 * (n + 1))) = BitVec.ofNat 8 v :=
      BitVec.eq_of_toNat_eq (by rw [BitVec.toNat_ofNat, BitVec.toNat_ofNat]; exact hlow)
    rw [bytesLE, bytesLE, hdiv, ih, hbyte]

/-- A store takes the low bytes of its value alone. -/
theorem storeValue_mod {n v : Nat} (a : Nat) (s : State) (hn : n = 1 ∨ n = 2 ∨ n = 4 ∨ n = 8) (hv : v < 2 ^ 64) :
    storeValue a n (v % 2 ^ (8 * n)) s = storeValue a n v s := by
  by_cases h8 : n = 8
  · rw [h8, Nat.mod_eq_of_lt hv]
  · have hmin : min n 4 = n := by omega
    simp only [storeValue, hmin, h8, if_false, Nat.mod_mod, bytesLE_mod]

/-- The rows of the stores are the one store operation, at the address, size and value of their form. -/
theorem exec_of_storeForm {s : State} {i : Instr} {c : Nat} {a : Word} {n v : Nat} (h : storeForm s i = some (c, a, n, v)) :
    ∃ rt rs1 imm, accessSize n rt ∧ a = reg (rinkOf s c) rs1 + sext16 imm ∧
      v = ((reg (rinkOf s c) rt).toNat + if n = 8 then (reg (rinkOf s c) (rt + 1)).toNat * 2 ^ 32 else 0) % 2 ^ (8 * n) ∧
      exec i s = .next (store c rt rs1 imm n s) := by
  unfold storeForm at h
  split at h
  case h_1 c' rt rs1 imm => cases h; exact ⟨rt, rs1, imm, .inl rfl, indexed_eq .., rfl, rfl⟩
  case h_2 c' rt rs1 imm => cases h; exact ⟨rt, rs1, imm, .inr (.inl rfl), indexed_eq .., rfl, rfl⟩
  case h_3 c' rt rs1 imm =>
    cases h
    exact ⟨rt, rs1, imm, .inr (.inr (.inl rfl)), indexed_eq .., (Nat.mod_eq_of_lt (BitVec.isLt _)).symm, rfl⟩
  case h_4 c' rt rs1 imm =>
    split at h
    · next heven =>
      cases h
      have hlo := (reg (rinkOf s c) rt).isLt
      have hhi := (reg (rinkOf s c) (rt + 1)).isLt
      refine ⟨rt, rs1, imm, .inr (.inr (.inr ⟨rfl, heven⟩)), indexed_eq .., ?_, rfl⟩
      rw [if_pos rfl, Nat.mod_eq_of_lt (by omega), Nat.mul_comm]
    · cases h
  case h_5 => cases h

/-- A store whose fetch and access pass every check moves PC on and writes its value. -/
theorem exec_store_of_passes {s : State} {i : Instr} {c : Nat} {a : Word} {n v : Nat}
    (h : storeForm s i = some (c, a, n, v)) (hf : fetches s c) (hacc : accTrap (fetched s c) c .write a n = none) :
    (n = 1 ∨ n = 2 ∨ n = 4 ∨ n = 8) ∧ v < 2 ^ (8 * n) ∧
      exec i s = .next (storeValue a.toNat n v (modCore c nextPc (fetched s c))) := by
  obtain ⟨rt, rs1, imm, hsize, ha, rfl, hexec⟩ := exec_of_storeForm h
  have hn : n = 1 ∨ n = 2 ∨ n = 4 ∨ n = 8 := by unfold accessSize at hsize; omega
  have hpair : ¬(n = 8 ∧ rt.val % 2 = 1) := by unfold accessSize at hsize; omega
  have hlo := (reg (rinkOf s c) rt).isLt
  have hhi := (reg (rinkOf s c) (rt + 1)).isLt
  refine ⟨hn, Nat.mod_lt _ (Nat.two_pow_pos _), ?_⟩
  rw [hexec, store, if_neg hpair, runOn_of_fetches hf, storeValue_mod _ _ hn (by split <;> omega)]
  simp only [rinkOf_fetched, ← ha, hacc]

/-! ### Where it is stored -/

/-- A store to applet SRAM or MRAM changes the bytes of memory and the records of the stored words. -/
theorem storeBytes_eq (a : Nat) (bs : Bytes) (s : State) :
    storeBytes a bs s = { s with mem := (storeBytes a bs s).mem, stored := (storeBytes a bs s).stored,
                                 trk := (storeBytes a bs s).trk, link := (storeBytes a bs s).link,
                                 evts := (storeBytes a bs s).evts } := by
  have h := storeBytes_frame a bs s
  generalize storeBytes a bs s = t at h ⊢
  cases t
  simp_all only

/-- The bytes that a store leaves: its own at their addresses, every other as before. -/
theorem memRead_storeBytes (a n v : Nat) (s : State) (x : Nat) :
    memRead (storeBytes a (bytesLE n v) s).mem x =
      if a ≤ x ∧ x < a + n then BitVec.ofNat 8 (v / 2 ^ (8 * (x - a))) else memRead s.mem x := by
  have hmem : (storeBytes a (bytesLE n v) s).mem = memWriteBytes s.mem a (bytesLE n v) := by
    simp only [storeBytes]
    rw [foldl_mem _ (fun s x => by simp only [storeWord_frame])]
  rw [hmem]
  split
  · next h =>
    obtain ⟨i, rfl⟩ := Nat.exists_eq_add_of_le h.1
    rw [memRead_writeBytes_in _ _ _ _ (by rw [bytesLE_length]; omega), bytesLE_getD v (by omega), Nat.add_sub_cancel_left]
  · next h => rw [memRead_writeBytes_out _ _ _ _ (by rw [bytesLE_length]; omega)]

theorem storeValue_of_memory {a n v : Nat} {s : State} (hp : regionOf a ≠ some .ringPorts)
    (hr : regionOf a ≠ some .peripherals) : storeValue a n v s = storeBytes a (bytesLE n v) s := by
  unfold storeValue
  split
  · exact absurd ‹_› hp
  · exact absurd ‹_› hr
  · rfl

/-- A dword of which the low n bytes are given, at their place in it. -/
theorem word_mod (v : Nat) : word (v % 2 ^ 32) = word v := BitVec.eq_of_toNat_eq (by simp [word])

/-- A store to a ring port writes the register at the address, or both of an 8-byte store. -/
theorem storeValue_of_ringPorts {a n v : Nat} {s : State} (hn : n = 1 ∨ n = 2 ∨ n = 4 ∨ n = 8) (ha : a % n = 0)
    (hv : v < 2 ^ (8 * n)) (h : regionOf a = some .ringPorts) :
    storeValue a n v s =
      let port := (a - 0x40000000) / 0x1000
      let off := a % 0x1000
      if n = 8 then portWrite port (off + 4) (word (v / 2 ^ 32)) (portWrite port off (word v) s)
      else portWrite port (off / 4 * 4) (word (v * 2 ^ (8 * (off % 4)))) s := by
  simp only [storeValue, h]
  by_cases h8 : n = 8
  · subst h8
    simp only [if_true, show a % 4 = 0 by omega, show a % 0x1000 / 4 * 4 = a % 0x1000 by omega, Nat.mul_zero, Nat.pow_zero,
      Nat.mul_one, show 8 * min 8 4 = 32 from rfl, word_mod]
  · simp only [h8, if_false, show min n 4 = n by omega, Nat.mod_eq_of_lt hv, show a % 0x1000 % 4 = a % 4 by omega]

/-- A store to a peripheral register writes the protection block, a dword or both of an 8-byte store, and nothing else. -/
theorem storeValue_of_peripherals {a n v : Nat} {s : State} (hn : n = 1 ∨ n = 2 ∨ n = 4 ∨ n = 8) (ha : a % n = 0)
    (hv : v < 2 ^ (8 * n)) (h : regionOf a = some .peripherals) :
    storeValue a n v s =
      let off := a - 0x50002000
      if a < 0x50002000 ∨ 0x50002900 ≤ a then s
      else if n = 8 then protWrite (off + 4) (word (v / 2 ^ 32)) (protWrite off (word v) s)
      else protWrite (off / 4 * 4) (word (v * 2 ^ (8 * (off % 4)))) s := by
  simp only [storeValue, h]
  by_cases hblock : 0x50002000 ≤ a ∧ a < 0x50002900
  · obtain ⟨hge, hlt⟩ := hblock
    have hin : ¬(a < 0x50002000 ∨ 0x50002900 ≤ a) := by omega
    rw [if_pos ⟨hge, hlt⟩, if_neg hin]
    by_cases h8 : n = 8
    · subst h8
      simp only [if_true, show a % 4 = 0 by omega, show a / 4 * 4 - 0x50002000 = a - 0x50002000 by omega, Nat.mul_zero,
        Nat.pow_zero, Nat.mul_one, show 8 * min 8 4 = 32 from rfl, word_mod,
        show a + 4 - 0x50002000 = a - 0x50002000 + 4 by omega]
    · simp only [h8, if_false, show min n 4 = n by omega, Nat.mod_eq_of_lt hv,
        show (a - 0x50002000) % 4 = a % 4 by omega, show (a - 0x50002000) / 4 * 4 = a / 4 * 4 - 0x50002000 by omega]
  · have hout : a < 0x50002000 ∨ 0x50002900 ≤ a := by omega
    rw [if_neg hblock, if_pos hout]

/-- Moving PC on is a step of the core that keeps its registers. -/
theorem coreGoes_nextPc (c : Nat) (s : State) :
    coreGoes c ((rinkOf s c).pc + 4) (reg (rinkOf s c)) s (modCore c nextPc s) :=
  coreGoes_modCore rfl (fun _ => rfl)

/-- Settles O9: a store's row is the one store operation, which writes memory, a ring port or the protection block. -/
theorem storesWriteTheirBytes : Obligations.StoresWriteTheirBytes := by
  unfold Obligations.StoresWriteTheirBytes
  intro i s c a n v hform hf hacc
  have ha := aligned_of_accTrap_none hacc
  obtain ⟨hn, hv, hexec⟩ := exec_store_of_passes hform hf hacc
  have hgoes := coreGoes_nextPc c (fetched s c)
  rw [rinkOf_fetched] at hgoes
  refine ⟨_, hexec, fun hp hr => ?_, fun h => ⟨_, hgoes, ?_⟩, fun h => ⟨_, hgoes, ?_⟩⟩
  · obtain ⟨⟨-, -, hothers⟩, hcore, -⟩ := hgoes
    rw [storeValue_of_memory hp hr]
    generalize hu : modCore c nextPc (fetched s c) = u
    have hmerya : (storeBytes a.toNat (bytesLE n v) u).merya = u.merya := by simp only [storeBytes_frame]
    have hrink : ∀ d, rinkOf (storeBytes a.toNat (bytesLE n v) u) d = rinkOf u d := fun d => by
      rw [rinkOf, hmerya]; rfl
    refine ⟨?_, ?_, fun d hd => ?_, ?_, fun x => ?_⟩
    · rw [storeBytes_eq, ← hu]; rfl
    · rw [hmerya, ← hu]; simp only [modCore, setCore, fetched, correctAt_frame]
    · rw [hrink, ← hu, hothers d hd, rinkOf_fetched]
    · rw [hrink, ← hu, rinkOf_modCore_self, rinkOf_fetched]; rfl
    · rw [memRead_storeBytes, ← hu]; simp only [modCore, setCore, fetched, correctAt_frame]
  · exact storeValue_of_ringPorts hn ha hv h
  · exact storeValue_of_peripherals hn ha hv h

end Sys2Proof.Machine
end

section
/-!
PROOFS. What the work inside a step leaves as it is: events, stored words, the mailbox and the operations on rings issue on the
link what they have to issue, admit and refuse no job, and touch neither the seal nor an RWS field (R12, R95, R116, R122).
-/
namespace Sys2Proof.Machine

/-! ### What stays -/

/-- The RWS fields of a ring (R146). -/
def ringFields (x : Ring) : DWord × DWord × Bool × Cls × Nat := (x.sqBase, x.cqBase, x.haltMode, x.cls, x.depthLog2)

/-- The RWS settings of the card port (R494). -/
def cardFields (c : Card) : Bool × Bool × Bool × Nat × Nat × Nat × Nat :=
  (c.unlockEn, c.hsEn, c.wideEn, c.readAcc, c.busyBlk, c.final, c.mbxTmo)

/-- The seal and every RWS field of BAR0 (R12, R95). -/
def rwsFields (s : State) :=
  (s.life.isSealed, (fun n => ringFields (getRing s (.host n))), s.link.dataRo, s.gate.rdLat, s.units.slotLen,
    cardFields s.card, (s.evts.base, s.evts.enabled, s.evts.depthLog2, s.evts.map),
    (s.tel.base, s.tel.enabled, s.tel.depthLog2))

/-- The Gate and the link go on from s to t: what was issued stays issued, no refusal is counted and no job comes in. -/
structure Steady (s t : State) : Prop where
  posted : s.link.posted <+: t.link.posted
  stalled : t.link.creditStalled = s.link.creditStalled
  refused : t.gate.refused = s.gate.refused
  band : t.gate.band = s.gate.band
  jobs : ∀ x ∈ jobsHeld t, x ∈ jobsHeld s

/-- The part goes on from s to t, and no RWS field changes. -/
structure Quiet (s t : State) : Prop extends Steady s t where
  rws : rwsFields t = rwsFields s

/-- All that `Quiet` speaks of: where it is the same, nothing has happened. -/
def quietView (s : State) :=
  (rwsFields s, s.link.posted, s.link.creditStalled, s.gate.refused, s.gate.band, s.rings.jobs)

theorem Quiet.of_view {s t : State} (h : quietView t = quietView s) : Quiet s t := by
  simp only [quietView, Prod.mk.injEq] at h
  obtain ⟨hrws, hposted, hstalled, hrefused, hband, hjobs⟩ := h
  exact { posted := hposted ▸ List.prefix_rfl, stalled := hstalled, refused := hrefused, band := hband, rws := hrws,
          jobs := fun x hx => by rwa [jobsHeld, hjobs] at hx }

theorem Steady.trans {s t u : State} (h : Steady s t) (h' : Steady t u) : Steady s u :=
  { posted := h.posted.trans h'.posted, stalled := h'.stalled.trans h.stalled, refused := h'.refused.trans h.refused,
    band := h'.band.trans h.band, jobs := fun x hx => h.jobs x (h'.jobs x hx) }

theorem Quiet.trans {s t u : State} (h : Quiet s t) (h' : Quiet t u) : Quiet s u :=
  { toSteady := h.toSteady.trans h'.toSteady, rws := h'.rws.trans h.rws }

/-- `Quiet.trans` with the later part first. -/
theorem Quiet.after {s t u : State} (h' : Quiet t u) (h : Quiet s t) : Quiet s u := h.trans h'

theorem Quiet.refl (s : State) : Quiet s s := .of_view rfl

theorem Quiet.ite {c : Prop} [Decidable c] {s t u : State} (h : Quiet s t) (h' : Quiet s u) :
    Quiet s (if c then t else u) := by
  split
  · exact h
  · exact h'

theorem Quiet.foldl {α : Type} {f : State → α → State} (h : ∀ s a, Quiet s (f s a)) (l : List α) (s : State) :
    Quiet s (l.foldl f s) := by
  induction l generalizing s with
  | nil => exact .refl s
  | cons a l ih => exact (h s a).trans (ih _)

/-! ### Events and messages -/

theorem quiet_sendMsix (src v : Nat) (s : State) : Quiet s (sendMsix src v s) where
  posted := by
    simp only [sendMsix]
    split
    · exact List.prefix_rfl
    · simp only [emitMsix]
      split
      · exact List.prefix_append ..
      · exact List.prefix_rfl
  stalled := by simp only [sendMsix]; split <;> rfl
  refused := rfl
  band := rfl
  jobs := fun _ h => h
  rws := by simp only [sendMsix, rwsFields]; split <;> rfl

theorem quiet_raiseEvent (src : Nat) (d0 : Word) (d1 : DWord) (s : State) : Quiet s (raiseEvent src d0 d1 s) :=
  .ite ((quiet_sendMsix ..).after (.of_view rfl)) (.of_view rfl)

theorem quiet_raiseIf (c : Bool) (src : Nat) (d0 : Word) (d1 : DWord) (s : State) : Quiet s (raiseIf c src d0 d1 s) :=
  .ite (quiet_raiseEvent ..) (.refl s)

theorem quiet_setGateEvt (bits : Nat) (s : State) : Quiet s (setGateEvt bits s) :=
  (quiet_raiseIf ..).after (.of_view rfl)

theorem quiet_setPuEvt (bits : Nat) (s : State) : Quiet s (setPuEvt bits s) :=
  (quiet_raiseIf ..).after (.of_view rfl)

theorem quiet_setPcieErr (bits : Nat) (s : State) : Quiet s (setPcieErr bits s) :=
  (quiet_raiseIf ..).after (.of_view rfl)

theorem quiet_setRsfEvt (bits bank w : Nat) (s : State) : Quiet s (setRsfEvt bits bank w s) :=
  (quiet_raiseIf ..).after ((quiet_raiseIf ..).after ((quiet_raiseIf ..).after (.of_view rfl)))

/-! ### Stored words -/

theorem quiet_trkRequest (r : TrkReq) (s : State) : Quiet s (trkRequest r s) :=
  .of_view (by simp only [quietView, rwsFields, getRing, trkRequest_frame])

theorem quiet_retireRow (bank row : Nat) (s : State) : Quiet s (retireRow bank row s) :=
  .ite (.refl s) (.ite ((quiet_trkRequest ..).after (quiet_setRsfEvt ..)) (.of_view rfl))

theorem quiet_weakRule (bank w : Nat) (s : State) : Quiet s (weakRule bank w s) := by
  unfold weakRule
  split
  · exact .ite (.refl s) (.ite (.of_view rfl) (.ite ((quiet_retireRow ..).after (.of_view rfl))
      ((quiet_retireRow ..).after (.of_view rfl))))
  · split
    · exact .of_view rfl
    · have hweak : Quiet s (setRsfEvt 0x04 bank w { s with stored := { s.stored with
          corrected := s.stored.corrected.filter (fun c => !(sameWord bank w c)) } }) :=
        (quiet_setRsfEvt ..).after (.of_view rfl)
      refine .ite (.refl s) (.ite (hweak.trans (.of_view rfl)) (.ite ?_ ?_))
      · exact (quiet_retireRow ..).after hweak
      · exact (quiet_setRsfEvt ..).after hweak

theorem quiet_noteCorrected (bank w : Nat) (s : State) : Quiet s (noteCorrected bank w s) := by
  have hrule : Quiet s (weakRule bank w { s with stored := { s.stored with
      ceCnt := sat32 s.stored.ceCnt, ce := tblMod 0 s.stored.ce bank sat16 } }) :=
    (quiet_weakRule ..).after (.of_view rfl)
  exact hrule.trans (.of_view rfl)

theorem quiet_setCond (bank w : Nat) (c : WordCond) (s : State) : Quiet s (setCond bank w c s) := .of_view rfl

theorem quiet_noteUe (bank w : Nat) (part : Bool) (s : State) : Quiet s (noteUe bank w part s) :=
  (quiet_setCond ..).after ((quiet_setRsfEvt ..).after (.of_view rfl))

theorem quiet_readAt (bank w : Nat) (s : State) : Quiet s (readAt bank w s) :=
  .ite (quiet_noteCorrected ..) (.ite (quiet_noteUe ..) (.refl s))

theorem quiet_readContext (n : Nat) (s : State) : Quiet s (readContext n s) :=
  Quiet.foldl (fun s i => quiet_readAt 4 (16 * n + i) s) _ s

theorem quiet_noteWritten (bank w : Nat) (s : State) : Quiet s (noteWritten bank w s) :=
  .of_view (by simp only [quietView, rwsFields, getRing, noteWritten_frame])

theorem quiet_writtenWords (bank first n : Nat) (s : State) : Quiet s (writtenWords bank first n s) :=
  Quiet.foldl (fun _ _ => (quiet_noteWritten ..).after (quiet_setCond ..)) _ s

theorem quiet_stageWords (tag first n : Nat) (s : State) : Quiet s (stageWords tag first n s) :=
  .ite (quiet_writtenWords ..) (.refl s)

theorem quiet_storeWord (a n x : Nat) (s : State) : Quiet s (storeWord a n x s) := by
  unfold storeWord
  split
  · exact (quiet_noteWritten ..).after ((quiet_setCond ..).after (.ite (quiet_noteCorrected ..) (.refl s)))
  · exact .refl s

theorem quiet_storeBytes (a : Nat) (bs : Bytes) (s : State) : Quiet s (storeBytes a bs s) :=
  (Quiet.foldl (fun s x => quiet_storeWord a bs.length x s) (wordsTouched a bs.length) s).trans (.of_view rfl)

/-! ### Applets and protection -/

theorem quiet_modApplet (n : Nat) (f : Applet → Applet) (s : State) : Quiet s (modApplet n f s) := .of_view rfl

theorem quiet_moveApplet (n : Nat) (st : AppState) (s : State) : Quiet s (moveApplet n st s) :=
  .ite (.refl s) ((quiet_raiseEvent ..).after (quiet_modApplet ..))

theorem quiet_wakeApplet (n : Nat) (s : State) : Quiet s (wakeApplet n s) := by
  unfold wakeApplet
  dsimp only
  split
  · exact (quiet_moveApplet ..).after (quiet_modApplet ..)
  · exact .refl s

theorem quiet_postMail (n kind : Nat) (arg0 arg1 : Word) (seq : DWord) (auth : Nat) (data : Bytes) (s : State) :
    Quiet s (postMail n kind arg0 arg1 seq auth data s) := by
  unfold postMail
  refine .ite (.refl s) (.ite ?_ (.ite ?_ ?_))
  · exact (quiet_storeBytes ..).after (quiet_modApplet ..)
  · exact (quiet_raiseEvent ..).after (quiet_modApplet ..)
  · exact (quiet_wakeApplet ..).after ((quiet_storeBytes ..).after (quiet_modApplet ..))

theorem quiet_captureFault (x : Acc) (reason entry tag colour : Nat) (s : State) :
    Quiet s (captureFault x reason entry tag colour s) :=
  (quiet_setPuEvt ..).after (.of_view rfl)

theorem quiet_faultDma (n tag : Nat) (x : Acc) (v : Verdict) (s : State) : Quiet s (faultDma n tag x v s) := by
  unfold faultDma
  dsimp only
  split
  · exact (quiet_raiseEvent ..).after (quiet_captureFault ..)
  · exact quiet_raiseEvent ..

/-! ### Rings -/

/-- The state with a ring changed reads back the ring. -/
theorem getRing_setRing (r q : RingId) (x : Ring) (s : State) :
    getRing (setRing r x s) q = if q = r then x else getRing s q := by
  unfold getRing setRing
  cases r <;> cases q <;> simp only [RingId.host.injEq, RingId.internal.injEq, reduceCtorEq, if_false]
  all_goals
    split
    · next h => subst h; exact tblGet_set_self ..
    · next h => exact tblGet_set_ne _ _ _ _ _ h

/-- A ring that keeps its RWS fields may change. -/
theorem quiet_setRing {r : RingId} {x : Ring} {s : State} (h : ringFields x = ringFields (getRing s r)) :
    Quiet s (setRing r x s) := by
  have hfields : ∀ n, ringFields (getRing (setRing r x s) (.host n)) = ringFields (getRing s (.host n)) := fun n => by
    rw [getRing_setRing]
    split
    · next hn => rw [hn, h]
    · rfl
  apply Quiet.of_view
  simp only [quietView, rwsFields, hfields]
  rfl

theorem quiet_modRing {r : RingId} {f : Ring → Ring} {s : State} (h : ∀ x, ringFields (f x) = ringFields x) :
    Quiet s (modRing r f s) := quiet_setRing (h _)

theorem quiet_raiseRing (r : RingId) (s : State) : Quiet s (raiseRing r s) := by
  unfold raiseRing
  split
  · exact quiet_raiseEvent ..
  · exact (quiet_postMail ..).after (quiet_raiseEvent ..)

theorem quiet_requestReads (segs : List (Nat × Nat)) (s : State) : Quiet s (requestReads segs s) := .of_view rfl

theorem quiet_charge (n : Nat) (s : State) : Quiet s (charge n s) := .of_view rfl

theorem quiet_fetchOne (r : RingId) (s : State) : Quiet s (fetchOne r s) := by
  unfold fetchOne
  dsimp only
  split
  · exact .refl s
  · exact (quiet_requestReads ..).after ((quiet_charge ..).after (quiet_setRing rfl))

theorem quiet_fetchFuel (n : Nat) (r : RingId) (s : State) : Quiet s (fetchFuel n r s) := by
  induction n generalizing s with
  | zero => exact .refl s
  | succ n ih => exact .ite ((ih _).after (quiet_fetchOne ..)) (.refl s)

theorem quiet_noteOverrun (s : State) : Quiet s (noteOverrun s) :=
  .ite ((quiet_setGateEvt ..).after (.of_view rfl)) (.of_view rfl)

theorem quiet_fetchRing (r : RingId) (s : State) : Quiet s (fetchRing r s) :=
  (quiet_noteOverrun ..).after (quiet_fetchFuel ..)

theorem quiet_hostReadFailed (n tag : Nat) (k : ReadFault) (addr : DWord) (s : State) :
    Quiet s (hostReadFailed n tag k addr s) :=
  (quiet_raiseRing ..).after ((quiet_setPcieErr ..).after (.of_view rfl))

theorem quiet_putEntry (r : RingId) (index : Nat) (raw : BitVec 256) (s : State) : Quiet s (putEntry r index raw s) := by
  unfold putEntry
  split
  · exact { Quiet.refl s with posted := List.prefix_append .. }
  · dsimp only
    split
    · exact quiet_storeBytes ..
    · exact quiet_faultDma ..

theorem quiet_flushReadFails (r : RingId) (read : FlushRead) (addr : DWord) (s : State) :
    Quiet s (flushReadFails r read addr s) := by
  unfold flushReadFails
  split
  · exact quiet_hostReadFailed ..
  · split
    · exact quiet_faultDma ..
    · exact .refl s
  · exact .refl s

theorem quiet_cancelCnt (n : Nat) (s : State) : Quiet s { s with rings := { s.rings with cancelCnt := n } } := .of_view rfl

theorem quiet_flushOne (r : RingId) (read : FlushRead) (s : State) : Quiet s (flushOne r read s) := by
  unfold flushOne
  dsimp only
  exact (quiet_modRing (by intro; rfl)).after ((quiet_cancelCnt ..).after ((quiet_putEntry ..).after (quiet_flushReadFails ..)))

theorem quiet_flushRing (r : RingId) (reads : List FlushRead) (s : State) : Quiet s (flushRing r reads s) := by
  unfold flushRing
  dsimp only
  have hitems : ∀ (l : List FlushRead) (u : State), Quiet s u → Quiet s (l.foldl (fun s q => flushOne r q s) u) :=
    fun l u hu => (Quiet.foldl (fun s q => quiet_flushOne r q s) l u).after hu
  have hreads : ∀ segs u, Quiet s u → Quiet s (if isHost r then requestReads segs u else s) := fun segs u hu =>
    .ite ((quiet_requestReads ..).after hu) (.refl s)
  split
  · exact (quiet_raiseIf ..).after (hitems _ _ (hreads _ _ (.of_view rfl)))
  · exact .ite ((quiet_postMail ..).after (hitems _ _ (hreads _ _ (.of_view rfl)))) (hitems _ _ (hreads _ _ (.of_view rfl)))

theorem quiet_rearmRing (r : RingId) (s : State) : Quiet s (rearmRing r s) := by
  unfold rearmRing
  dsimp only
  split
  · exact (quiet_fetchRing ..).after ((quiet_modRing (by intro; rfl)).after (quiet_flushRing ..))
  · exact (quiet_fetchRing ..).after (quiet_modRing (by intro; rfl))

theorem quiet_settleRing (r : RingId) (s : State) : Quiet s (settleRing r s) := by
  unfold settleRing
  refine .ite (quiet_setRing ?_) (.ite (quiet_rearmRing ..) (.refl s))
  split <;> rfl

/-! ### Ring commands (R143 to R147) -/

theorem quiet_enableRing (r : RingId) (s : State) : Quiet s (enableRing r s) := by
  unfold enableRing
  dsimp only
  split
  · exact .ite (quiet_setRing rfl) ((quiet_raiseRing ..).after (quiet_modRing (by intro; rfl)))
  · exact .ite (quiet_setRing rfl) (.refl s)
  · exact .refl s

theorem quiet_disableRing (r : RingId) (s : State) : Quiet s (disableRing r s) := by
  unfold disableRing
  dsimp only
  split
  · exact (quiet_settleRing ..).after (quiet_setRing rfl)
  · exact (quiet_settleRing ..).after (quiet_setRing rfl)
  · exact quiet_setRing rfl
  · exact .refl s

theorem quiet_rearmCommand (r : RingId) (flush : Option (List FlushRead)) (s : State) : Quiet s (rearmCommand r flush s) :=
  .ite (.refl s) ((quiet_settleRing ..).after (quiet_setRing rfl))

theorem quiet_ringCtrl (r : RingId) (v : Word) (reads : List FlushRead) (s : State) : Quiet s (ringCtrl r v reads s) :=
  .ite (quiet_disableRing ..) (.ite (quiet_enableRing ..) (.ite (quiet_rearmCommand ..) (.refl s)))

theorem quiet_ringStatusClear (r : RingId) (v : Word) (s : State) : Quiet s (ringStatusClear r v s) :=
  quiet_modRing fun _ => rfl

end Sys2Proof.Machine
end

section
/-!
PROOFS. Writes of registers (R12 to R14, R89, R95, R109): after the seal no write changes an RWS field, an event register loses the
bits that are written as 1, and an access that no register takes shows in RING_PCIE_ERR.
-/
namespace Sys2Proof.Machine

/-! ### RWS fields after the seal -/

theorem keepsRws_of_rwsFields {s t : State} (h : rwsFields t = rwsFields s) : keepsRws s t := by
  simp only [rwsFields, cardFields, Prod.mk.injEq] at h
  obtain ⟨-, hrings, hro, hlat, hslot, ⟨hu, hhs, hwide, hread, hbusy, hfinal, htmo⟩, ⟨heb, hee, hed, hem⟩, htb, hte, htd⟩ := h
  refine ⟨fun n _ => ?_, hro, hlat, hslot, hu, hhs, hwide, hread, hbusy, hfinal, htmo, heb, hee, hed, fun n => ?_, htb, hte, htd⟩
  · have hn := congrFun hrings n
    simp only [ringFields, Prod.mk.injEq] at hn
    exact hn
  · rw [mapEntry, mapEntry, hem]

theorem isSealed_of_rwsFields {s t : State} (h : rwsFields t = rwsFields s) : t.life.isSealed = s.life.isSealed :=
  congrArg Prod.fst h

/-- A write to RWS fields acts only before the seal. -/
theorem rwsFields_rws {s : State} (f : State → State) (h : s.life.isSealed = true) : rwsFields (rws f s) = rwsFields s := by
  rw [rws, if_pos h]

/-- One of two outcomes that both keep the RWS fields. -/
theorem rwsFields_ite {c : Prop} [Decidable c] {s t u : State} (h : rwsFields t = rwsFields s) (h' : rwsFields u = rwsFields s) :
    rwsFields (if c then t else u) = rwsFields s := by
  split
  · exact h
  · exact h'

/-! ### Units (R235, R248, R267) -/

theorem rwsFields_setEdgeEvt (bit n : Nat) (s : State) : rwsFields (setEdgeEvt bit n s) = rwsFields s :=
  rwsFields_ite ((quiet_raiseEvent ..).rws.trans rfl) ((quiet_raiseEvent ..).rws.trans rfl)

theorem rwsFields_setBladeEvt (bit n : Nat) (s : State) : rwsFields (setBladeEvt bit n s) = rwsFields s :=
  rwsFields_ite ((quiet_raiseEvent ..).rws.trans rfl) ((quiet_raiseEvent ..).rws.trans rfl)

theorem rwsFields_unitCmdIgnored (k : UnitKind) (n : Nat) (s : State) : rwsFields (unitCmdIgnored k n s) = rwsFields s :=
  rwsFields_ite (rwsFields_setEdgeEvt ..) (rwsFields_setBladeEvt ..)

theorem rwsFields_setUnitRec (u : UnitRef) (r : UnitRec) (s : State) : rwsFields (setUnitRec u r s) = rwsFields s := rfl

theorem rwsFields_rebalance (k : UnitKind) (s : State) : rwsFields (rebalance k s) = rwsFields s := by
  unfold rebalance
  dsimp only
  split
  · exact rwsFields_ite (rwsFields_setUnitRec ..) rfl
  · refine rwsFields_ite ?_ rfl
    split
    · exact rwsFields_setUnitRec ..
    · rfl

theorem rwsFields_renameReserves (k : UnitKind) (s : State) : rwsFields (renameReserves k s) = rwsFields s := rfl

theorem rwsFields_noteShrink (before : List Nat) (s : State) : rwsFields (noteShrink before s) = rwsFields s :=
  rwsFields_ite (quiet_setGateEvt ..).rws rfl

theorem rwsFields_settleUnit (u : UnitRef) (s : State) : rwsFields (settleUnit u s) = rwsFields s :=
  rwsFields_ite (rwsFields_setUnitRec ..) rfl

theorem rwsFields_disableUnit (k : UnitKind) (n : Nat) (s : State) : rwsFields (disableUnit k n s) = rwsFields s := by
  refine rwsFields_ite (rwsFields_unitCmdIgnored ..) (rwsFields_ite (rwsFields_setUnitRec ..)
    (rwsFields_ite (rwsFields_unitCmdIgnored ..) ?_))
  rw [rwsFields_noteShrink, rwsFields_renameReserves, rwsFields_rebalance, rwsFields_settleUnit, rwsFields_setUnitRec]

theorem rwsFields_enableUnit (k : UnitKind) (n : Nat) (s : State) : rwsFields (enableUnit k n s) = rwsFields s :=
  rwsFields_ite (rwsFields_unitCmdIgnored ..) (rwsFields_ite (rwsFields_setUnitRec ..)
    (rwsFields_ite (rwsFields_setUnitRec ..) (rwsFields_unitCmdIgnored ..)))

theorem rwsFields_unitCtrl (k : UnitKind) (n : Nat) (v : Word) (s : State) : rwsFields (unitCtrl k n v s) = rwsFields s :=
  rwsFields_ite (rwsFields_unitCmdIgnored ..) (rwsFields_ite (rwsFields_disableUnit ..)
    (rwsFields_ite (rwsFields_enableUnit ..) rfl))

theorem rwsFields_writeSlotLen {s : State} (v : Nat) (h : s.life.isSealed = true) :
    rwsFields (writeSlotLen v s) = rwsFields s := by
  simp only [writeSlotLen, h, Bool.true_or, if_true, rwsFields_setEdgeEvt]

/-! ### Powder (R317) -/

theorem rwsFields_restartPowder (s : State) : rwsFields (restartPowder s) = rwsFields s :=
  rwsFields_ite ((quiet_raiseEvent ..).rws.trans rfl) rfl

theorem rwsFields_dropProvisioningKey (s : State) : rwsFields (dropProvisioningKey s) = rwsFields s := rfl

theorem rwsFields_writeTest (v : Word) (s : State) : rwsFields (writeTest v s) = rwsFields s := by
  have hrestart : ∀ p, rwsFields (restartPowder { s with powder := p }) = rwsFields s := fun p =>
    (rwsFields_restartPowder _).trans rfl
  exact rwsFields_ite rfl (rwsFields_ite ((rwsFields_dropProvisioningKey _).trans (hrestart _)) (hrestart _))

theorem rwsFields_writeTestData (v : Word) (s : State) : rwsFields (writeTestData v s) = rwsFields s :=
  rwsFields_ite rfl rfl

/-! ### The card port (R474) -/

theorem rwsFields_setPort (p : PortState) (s : State) : rwsFields (setPort p s) = rwsFields s :=
  (quiet_raiseEvent ..).rws.trans rfl

theorem rwsFields_tryPower (s : State) : rwsFields (tryPower s) = rwsFields s := rwsFields_ite rfl rfl

theorem rwsFields_settlePort (s : State) : rwsFields (settlePort s) = rwsFields s := by
  have hoff : rwsFields (if s.card.power then cutPower .offWait s else forgetCard s) = rwsFields s := rwsFields_ite rfl rfl
  refine rwsFields_ite (rwsFields_ite ?_ ?_) rfl
  · rw [rwsFields_tryPower, rwsFields_setPort]; exact hoff
  · rw [rwsFields_setPort]; exact hoff

theorem rwsFields_disablePort (s : State) : rwsFields (disablePort s) = rwsFields s := by
  unfold disablePort
  split
  · rw [rwsFields_settlePort, rwsFields_setPort]
  · rfl
  · rfl

theorem rwsFields_enablePort (s : State) : rwsFields (enablePort s) = rwsFields s := by
  unfold enablePort
  refine rwsFields_ite rfl ?_
  split
  · rw [rwsFields_tryPower, rwsFields_setPort]
  · rfl
  · rfl

theorem rwsFields_cardCtrl (v : Word) (s : State) : rwsFields (cardCtrl v s) = rwsFields s :=
  rwsFields_ite (rwsFields_disablePort s) (rwsFields_ite (rwsFields_enablePort s) rfl)

/-! ### The protection block (R353, R368) -/

theorem rwsFields_badEntry (s : State) : rwsFields (badEntry s) = rwsFields s := (quiet_setPuEvt ..).rws

theorem rwsFields_abandonLoads (hit : Nat → Rink → Bool) (s : State) : rwsFields (abandonLoads hit s) = rwsFields s := rfl

theorem rwsFields_writeEntryWords (grant : Bool) (set e : Nat) (w0 w1 : Word) (s : State) :
    rwsFields (writeEntryWords grant set e w0 w1 s) = rwsFields s := by
  unfold writeEntryWords
  split
  · refine rwsFields_ite (rwsFields_badEntry s) ?_
    rw [rwsFields_abandonLoads]; rfl
  · refine rwsFields_ite (quiet_setPuEvt ..).rws (rwsFields_ite (rwsFields_badEntry s) ?_)
    rw [rwsFields_abandonLoads]; rfl

theorem rwsFields_writeTags (first count tag : Nat) (s : State) :
    rwsFields (writeTags first count tag s) = rwsFields s := by
  unfold writeTags
  refine rwsFields_ite (rwsFields_badEntry s) ?_
  rw [rwsFields_abandonLoads]; rfl

theorem rwsFields_protWrite (off : Nat) (v : Word) (s : State) : rwsFields (protWrite off v s) = rwsFields s := by
  unfold protWrite
  refine rwsFields_ite ?_ (rwsFields_ite rfl (rwsFields_ite (rwsFields_writeEntryWords ..) ?_))
  · dsimp only
    split
    · exact rwsFields_writeEntryWords ..
    · exact rwsFields_ite rfl (rwsFields_writeEntryWords ..)
  · split
    · rfl
    · exact rwsFields_writeTags ..
    · rfl

/-! ### Every register -/

theorem rwsFields_writeSeal {s : State} (v : Word) (h : s.life.isSealed = true) :
    rwsFields (writeSeal v s) = rwsFields s := by
  simp only [writeSeal, rwsFields, h, Bool.true_or]
  rfl

/-- A write of 0x0000 to 0x0CFF after the seal: of these registers the unit, Powder and card controls do more than change a field
of their own chapter. -/
theorem rwsFields_writeBlock {s : State} (off : Nat) (v : Word) (h : s.life.isSealed = true) :
    rwsFields (writeBlock off v s) = rwsFields s := by
  unfold writeBlock
  split
  case h_1 => exact rwsFields_writeSeal v h
  case h_3 => exact rwsFields_rws _ h
  case h_9 => exact rwsFields_writeSlotLen _ h
  case h_10 => exact rwsFields_unitCtrl ..
  case h_14 => exact rwsFields_unitCtrl ..
  case h_18 => exact rwsFields_writeTest ..
  case h_19 => exact rwsFields_writeTestData ..
  case h_21 => exact rwsFields_rws _ h
  case h_31 => exact rwsFields_rws _ h
  case h_32 => exact rwsFields_cardCtrl ..
  case h_33 => exact rwsFields_rws _ h
  all_goals rfl

theorem rwsFields_writeEvents {s : State} (off : Nat) (v : Word) (h : s.life.isSealed = true) :
    rwsFields (writeEvents off v s) = rwsFields s := by
  unfold writeEvents
  split
  case h_4 => rfl
  case h_8 => rfl
  case h_9 => rfl
  case h_10 => exact rwsFields_ite rfl (rwsFields_ite rfl rfl)
  all_goals exact rwsFields_rws _ h

theorem rwsFields_writeRing {s : State} (off : Nat) (v : Word) (h : s.life.isSealed = true) :
    rwsFields (writeRing off v s) = rwsFields s := by
  unfold writeRing
  dsimp only
  split
  case h_6 => exact (quiet_ringCtrl ..).rws
  case h_7 => exact (quiet_ringStatusClear ..).rws
  case h_8 => rfl
  all_goals exact rwsFields_rws _ h

/-- Messages that leave change no RWS field of the link. -/
theorem releaseMsix_dataRo (l : Link) : (releaseMsix l).dataRo = l.dataRo := by
  unfold releaseMsix
  generalize l.pba.map Prod.fst = vs
  induction vs generalizing l with
  | nil => rfl
  | cons v vs ih =>
    rw [List.foldl_cons, ih]
    split <;> rfl

theorem rwsFields_writeMsix (off : Nat) (v : Word) (s : State) : rwsFields (writeMsix off v s) = rwsFields s := by
  simp only [rwsFields, writeMsix, releaseMsix_dataRo]
  rfl

theorem rwsFields_bar0Write {s : State} (off : Nat) (v : Word) (h : s.life.isSealed = true) :
    rwsFields (bar0Write off v s) = rwsFields s := by
  unfold bar0Write
  refine rwsFields_ite (rwsFields_writeBlock off v h) (rwsFields_ite (rwsFields_writeEvents off v h)
    (rwsFields_ite (rwsFields_writeRing off v h) (rwsFields_ite rfl (rwsFields_ite rfl
      (rwsFields_ite (rwsFields_rws _ h) (rwsFields_ite (rwsFields_writeMsix ..) rfl))))))

theorem configWrite_dataRo (off : Nat) (v : Word) (s : State) : (configWrite off v s).link.dataRo = s.link.dataRo := by
  unfold configWrite
  dsimp only
  split <;> rfl

theorem rwsFields_configWrite (off : Nat) (v : Word) (s : State) : rwsFields (configWrite off v s) = rwsFields s := by
  simp only [rwsFields, configWrite_dataRo]
  rfl

/-- After the seal a write of any register keeps the seal and every RWS field (R12, R95). -/
theorem rwsFields_writeRegister {s : State} (space : RegSpace) (off : Nat) (v : Word) (h : s.life.isSealed = true) :
    rwsFields (writeRegister space off v s) = rwsFields s := by
  unfold writeRegister
  split
  · exact rwsFields_ite (rwsFields_bar0Write off v h) (quiet_setPcieErr ..).rws
  · exact rwsFields_ite (rwsFields_ite (rwsFields_protWrite ..) rfl) rfl
  · exact rwsFields_ite (rwsFields_configWrite ..) rfl

/-! ### Event registers of the W1C type -/

/-- The register of an event field after a write: the bits written as 1 are clear (R12). -/
theorem zeroExtend_w1c {w : Nat} (e : BitVec w) (v : Word) :
    (w1c e v.toNat).zeroExtend 32 = e.zeroExtend 32 &&& ~~~v := by
  apply BitVec.eq_of_getLsbD_eq
  intro i hi
  simp only [w1c, BitVec.getLsbD_setWidth, BitVec.getLsbD_and, BitVec.getLsbD_not, BitVec.getLsbD_ofNat, hi, decide_true,
    Bool.true_and, BitVec.testBit_toNat]
  by_cases hw : i < w
  · simp [hw]
  · simp [BitVec.getLsbD_of_ge e i (by omega)]

/-- LIFT_EVT, which is a single flag. -/
theorem flag_w1c (b : Bool) (v : Word) : word (bitNat (b && !v.getLsbD 0)) = word (bitNat b) &&& ~~~v := by
  have hword : ∀ x : Bool, word (bitNat x) = (BitVec.ofBool x).zeroExtend 32 := by decide
  have hclear : BitVec.ofBool (b && !v.getLsbD 0) = w1c (BitVec.ofBool b) v.toNat := by
    apply BitVec.eq_of_getLsbD_eq
    intro i hi
    obtain rfl : i = 0 := by omega
    simp [w1c]
  rw [hword, hword, hclear, zeroExtend_w1c]

theorem bar0Read_bar0Write_w1c {off : Nat} (v : Word) (s : State) (h : off ∈ w1cOffsets) :
    bar0Read (bar0Write off v s) off = bar0Read s off &&& ~~~v := by
  simp only [w1cOffsets, List.mem_cons, List.not_mem_nil, or_false] at h
  rcases h with rfl | rfl | rfl | rfl | rfl | rfl | rfl | rfl | rfl | rfl | rfl | rfl | rfl | rfl | rfl | rfl | rfl
  · exact zeroExtend_w1c s.life.evt v
  · exact zeroExtend_w1c s.link.err v
  · exact zeroExtend_w1c s.vault.evt v
  · exact flag_w1c s.units.liftEvt v
  · exact zeroExtend_w1c s.units.edgeEvt v
  · exact zeroExtend_w1c s.units.bladeEvt v
  · exact zeroExtend_w1c s.powder.evt v
  · exact zeroExtend_w1c s.powder.grmEvt v
  · exact zeroExtend_w1c s.gate.evt v
  · exact zeroExtend_w1c s.patrol.evt v
  · exact zeroExtend_w1c s.hut.evt v
  · exact zeroExtend_w1c s.alarm.evt v
  · exact zeroExtend_w1c s.card.evt v
  · exact zeroExtend_w1c s.ctrs.evt v
  · exact zeroExtend_w1c s.trk.evt v
  · exact zeroExtend_w1c s.stored.evt v
  · exact zeroExtend_w1c s.prot.evt v

/-! ### Accesses that no register takes (R89, R109) -/

/-- A message leaves RING_PCIE_ERR as it is, and so does the event that it tells of. -/
theorem sendMsix_err (src v : Nat) (s : State) : (sendMsix src v s).link.err = s.link.err := by
  simp only [sendMsix]
  split <;> rfl

theorem raiseEvent_err (src : Nat) (d0 : Word) (d1 : DWord) (s : State) :
    (raiseEvent src d0 d1 s).link.err = s.link.err := by
  simp only [raiseEvent]
  split
  · exact sendMsix_err ..
  · rfl

theorem raiseIf_err (c : Bool) (src : Nat) (d0 : Word) (d1 : DWord) (s : State) :
    (raiseIf c src d0 d1 s).link.err = s.link.err := by
  unfold raiseIf
  split
  · exact raiseEvent_err ..
  · rfl

theorem badAccess_err (s : State) : (badAccess s).link.err = s.link.err ||| 1 := by
  unfold badAccess setPcieErr
  rw [raiseIf_err]
  rfl

theorem badAccess_eq (s : State) : badAccess s = { s with link := (badAccess s).link, evts := (badAccess s).evts } := by
  have h := badAccess_frame s
  generalize badAccess s = t at h ⊢
  cases t
  simp_all only

/-- Settles O46: the writes of every register keep the seal and the RWS fields once the part is sealed, and a W1C register
loses the bits written; an access that no register takes sets BAD_ACCESS. -/
theorem registerWritesAndTheSeal : Obligations.RegisterWritesAndTheSeal := by
  unfold Obligations.RegisterWritesAndTheSeal
  refine ⟨fun s v => rfl, fun s space off v => ⟨_, rfl, fun hseal => ?_, ?_⟩, fun s i hi => ?_, fun s => rfl⟩
  · have hrws := rwsFields_writeRegister space off v hseal
    exact ⟨(isSealed_of_rwsFields hrws).trans hseal, keepsRws_of_rwsFields hrws⟩
  · rintro rfl hoff
    have haligned : off % 4 = 0 := (show ∀ o ∈ w1cOffsets, o % 4 = 0 by decide) off hoff
    rw [writeRegister, if_pos haligned]
    exact bar0Read_bar0Write_w1c v s hoff
  · rcases hi with rfl | rfl | ⟨off, v, hoff, rfl⟩
    · refine ⟨_, rfl, badAccess_err _, ?_⟩
      rw [badAccess_eq]
    · exact ⟨_, rfl, badAccess_err s, badAccess_eq s⟩
    · refine ⟨badAccess s, ?_, badAccess_err s, badAccess_eq s⟩
      exact congrArg Host.Outcome.next (if_neg hoff)

end Sys2Proof.Machine
end

section
/-!
PROOFS. Refusals of the Gate (R116, R122): the arrival row of a refused descriptor, what the work on its ring leaves as it is, and
the entry of its slot.
-/
namespace Sys2Proof.Machine

/-! ### The work on a ring admits no job and takes nothing back -/

theorem Steady.refl (s : State) : Steady s s := (Quiet.refl s).toSteady

/-- `Steady.trans` with the later part first. -/
theorem Steady.after {s t u : State} (h' : Steady t u) (h : Steady s t) : Steady s u := h.trans h'

/-- Where the link, the Gate and the identities of the jobs stay, nothing is issued, refused or admitted. -/
theorem Steady.of_ids {s t : State} (hlink : t.link = s.link) (hgate : t.gate = s.gate)
    (hids : t.rings.jobs.map jobId = s.rings.jobs.map jobId) : Steady s t where
  posted := hlink ▸ List.prefix_rfl
  stalled := by rw [hlink]
  refused := by rw [hgate]
  band := by rw [hgate]
  jobs := fun x hx => by
    have hx : x ∈ t.rings.jobs.map jobId := hx
    rw [hids] at hx
    exact hx

theorem steady_modRing {r : RingId} {f : Ring → Ring} {s : State} (h : ∀ x, ringFields (f x) = ringFields x) :
    Steady s (modRing r f s) := (quiet_modRing h).toSteady

theorem steady_markArrived (r : RingId) (index : Nat) (tag : Option Nat) (quiet : Bool) (s : State) :
    Steady s (markArrived r index tag quiet s) := steady_modRing (by intro; rfl)

theorem steady_markWritten (r : RingId) (index : Nat) (s : State) : Steady s (markWritten r index s) :=
  steady_modRing (by intro; rfl)

theorem steady_releaseStaging (tag : Nat) (s : State) : Steady s (releaseStaging tag s) :=
  .of_ids (releaseStaging_frame ..).2.2.2.1 (by simp only [releaseStaging_frame]) (by simp only [releaseStaging_frame])

/-- Jobs may leave. -/
theorem steady_filterJobs (p : Job → Bool) (s : State) :
    Steady s { s with rings := { s.rings with jobs := s.rings.jobs.filter p } } :=
  { Steady.refl s with jobs := fun _ hx => List.map_subset _ List.filter_sublist.subset hx }

theorem steady_advanceFuel (n : Nat) (r : RingId) (s : State) : Steady s (advanceFuel n r s) := by
  induction n generalizing s with
  | zero => exact .refl s
  | succ n ih =>
    unfold advanceFuel
    split
    · exact .refl s
    · split
      · exact (ih _).after (steady_modRing (by intro; rfl))
      · split
        · exact .refl s
        · split
          · exact (ih _).after ((steady_markWritten ..).after ((steady_releaseStaging ..).after
              ((quiet_putEntry ..).toSteady.after (steady_filterJobs ..))))
          · exact .refl s

theorem steady_advanceRing (r : RingId) (s : State) : Steady s (advanceRing r s) := by
  have hgone := steady_advanceFuel (2 * (getRing s r).slots.length) r s
  unfold advanceRing
  dsimp only
  split
  · exact hgone.trans ((quiet_settleRing ..).after (quiet_raiseIf ..)).toSteady
  · exact hgone.trans ((quiet_settleRing ..).after (.ite (quiet_postMail ..) (.refl _))).toSteady

theorem cancelJob_id (j : Job) : jobId (cancelJob j) = jobId j := by
  unfold cancelJob
  split
  · rfl
  · split <;> rfl

theorem settleUnits_ids (us : List UnitRef) (s : State) :
    (settleUnits us s).rings.jobs.map jobId = s.rings.jobs.map jobId :=
  (foldl_ids _ (fun s u => leaveUnit_ids u s) us _).trans (feedSides_ids s)

theorem cancelLater_ids (r : RingId) (s : State) : (cancelLater r s).rings.jobs.map jobId = s.rings.jobs.map jobId := by
  unfold cancelLater
  dsimp only
  rw [settleUnits_ids]
  simp only [releaseKeygen_frame]
  rw [foldl_ids _ (fun s (j : Job) => freeMemory_ids j.tag s), List.map_map]
  refine List.map_congr_left fun j _ => ?_
  dsimp only [Function.comp]
  split
  · exact cancelJob_id j
  · rfl

theorem steady_cancelLater (r : RingId) (s : State) : Steady s (cancelLater r s) :=
  .of_ids (by simp only [cancelLater_frame]) (by simp only [cancelLater_frame]) (cancelLater_ids r s)

theorem steady_noteStatus (r : RingId) (index : Nat) (st : Status) (s : State) : Steady s (noteStatus r index st s) := by
  have hhalt {x : Ring} (h : ringFields x = ringFields (getRing s r)) (c : Prop) [Decidable c] :
      Quiet s (if c then raiseRing r (setRing r x s) else setRing r x s) :=
    .ite ((quiet_raiseRing ..).after (quiet_setRing h)) (quiet_setRing h)
  unfold noteStatus
  dsimp only
  split
  · exact .refl s
  · exact (steady_cancelLater ..).after (hhalt (by rfl) _).toSteady

/-! ### An entry ahead of its turn (R63, R138) -/

theorem steady_entryNow (r : RingId) (index : Nat) (raw : BitVec 256) (s : State) : Steady s (entryNow r index raw s) := by
  unfold entryNow
  split
  · exact (Quiet.of_view (by rfl)).toSteady
  · exact (steady_advanceRing ..).after ((steady_markWritten ..).after (quiet_putEntry ..).toSteady)

/-- What is issued after a steady part has been issued since its start. -/
theorem posts_of_steady {s t u : State} {p : Posted} (h : Steady s t) (hp : posts t u p) : posts s u p := by
  obtain ⟨l, hl⟩ := h.posted
  obtain ⟨m, hm, hmem⟩ := hp
  exact ⟨l ++ m, by rw [hm, ← hl, List.append_assoc], List.mem_append_right l hmem⟩

/-- What has been issued stays issued. -/
theorem Steady.posts {s t u : State} {p : Posted} (h : Steady t u) (hp : posts s t p) : posts s u p := by
  obtain ⟨l, hl⟩ := h.posted
  obtain ⟨m, hm, hmem⟩ := hp
  exact ⟨m ++ l, by rw [← hl, hm, List.append_assoc], List.mem_append_left l hmem⟩

/-- The entry goes out on the link, or is kept where the link gives no posted-write credit. -/
theorem entryNow_host (n index : Nat) (raw : BitVec 256) (s : State) :
    if s.link.creditStalled = true then (n, index, raw) ∈ (entryNow (.host n) index raw s).link.heldEntries
    else posts s (entryNow (.host n) index raw s) (.entry n index raw) := by
  unfold entryNow
  by_cases h : s.link.creditStalled = true
  · rw [if_pos h, if_pos (by simp [h, isHost])]
    exact List.mem_append_right _ (List.mem_singleton_self _)
  · rw [if_neg h, if_neg (by simp [h])]
    exact ((steady_advanceRing ..).after (steady_markWritten ..)).posts ⟨_, rfl, List.mem_singleton_self _⟩

/-! ### A refusal (R116, R122, R125) -/

/-- The counts of a refusal. -/
def countRefusal (x : Ring) (tag : Nat) (s : State) : State :=
  { s with
    gate := { s.gate with refused := tblMod 0 s.gate.refused (clsCode x.cls) sat32 },
    rings := { s.rings with noTagCnt := if 2048 ≤ tag then sat32 s.rings.noTagCnt else s.rings.noTagCnt } }

/-- A refusal before its entry: counted, its slot arrived, the halt of R132 made. -/
def refusalNoted (r : RingId) (x : Ring) (q : Slot) (d : Descriptor) (tag : Nat) (st : Status) (s : State) : State :=
  noteStatus r q.index st (markArrived r q.index none (dNoIrq d) (countRefusal x tag s))

/-- The entry of a refusal. -/
def refusalRaw (r : RingId) (q : Slot) (d : Descriptor) (tag : Nat) (st : Status) (s : State) : BitVec 256 :=
  bareEntry (dCookie d) 0 tag r st (planBand s.gate.band) q

theorem refuseDesc_eq (r : RingId) (x : Ring) (q : Slot) (d : Descriptor) (tag : Nat) (st : Status) (s : State) :
    refuseDesc r x q d tag st s = entryNow r q.index (refusalRaw r q d tag st s) (refusalNoted r x q d tag st s) := rfl

theorem steady_refusalNoted (r : RingId) (x : Ring) (q : Slot) (d : Descriptor) (tag : Nat) (st : Status) (s : State) :
    Steady (countRefusal x tag s) (refusalNoted r x q d tag st s) :=
  (steady_noteStatus ..).after (steady_markArrived ..)

theorem steady_refuseDesc (r : RingId) (x : Ring) (q : Slot) (d : Descriptor) (tag : Nat) (st : Status) (s : State) :
    Steady (countRefusal x tag s) (refuseDesc r x q d tag st s) :=
  (steady_entryNow ..).after (steady_refusalNoted ..)

/-- The entry of a refusal on a host ring is issued, or kept for credit. -/
theorem refuseDesc_host (n : Nat) (x : Ring) (q : Slot) (d : Descriptor) (tag : Nat) (st : Status) (s : State) :
    let e := refusalRaw (.host n) q d tag st s
    let t := refuseDesc (.host n) x q d tag st s
    if s.link.creditStalled = true then (n, q.index, e) ∈ t.link.heldEntries else posts s t (.entry n q.index e) := by
  have hnoted := steady_refusalNoted (.host n) x q d tag st s
  have hentry := entryNow_host n q.index (refusalRaw (.host n) q d tag st s) (refusalNoted (.host n) x q d tag st s)
  rw [hnoted.stalled] at hentry
  dsimp only
  rw [refuseDesc_eq]
  split at hentry
  · next h => rwa [if_pos (show s.link.creditStalled = true from h)]
  · next h =>
    rw [if_neg (show ¬ s.link.creditStalled = true from h)]
    have hissued : posts (countRefusal x tag s) _ _ := posts_of_steady hnoted hentry
    exact hissued

/-- The refusals of one class grow by one. -/
theorem refused_countRefusal (x : Ring) (tag c : Nat) (s : State) :
    tblGet 0 (countRefusal x tag s).gate.refused c =
      if c = clsCode x.cls then min 0xFFFFFFFF (tblGet 0 s.gate.refused c + 1) else tblGet 0 s.gate.refused c := by
  by_cases h : c = clsCode x.cls
  · rw [if_pos h, h]
    exact tblGet_mod_self ..
  · rw [if_neg h]
    exact tblGet_mod_ne _ _ _ _ _ h

/-- The fields of the entry of a refusal in range. -/
theorem readEntryFields_refusalRaw {r : RingId} {q : Slot} (d : Descriptor) (tag : Nat) (st : Status) (s : State)
    (hr : match r with | .host n => n < 64 | .internal n => n < 32) (hq : q.index < 65536) :
    readEntryFields (refusalRaw r q d tag st s) =
      builtFields (dCookie d) 0 0 tag r st 0 0 false (planBand s.gate.band) false q.index q.phase := by
  unfold refusalRaw bareEntry
  rw [completionEntryLayout (dCookie d) 0 0 tag r st 0 0 false (planBand s.gate.band) false q.index q.phase (by decide) hr
    (by decide) (by decide) hq]
  unfold builtFields
  cases r <;> cases planBand s.gate.band <;> rfl

/-! ### The rows that bring a descriptor (R114, R115, R165) -/

/-- The arrival row of an operation is an arrival that takes the descriptors of that operation. -/
theorem exec_arrivalRow (o : Op) (a : Arrival) (s : State) :
    ∃ go mine, mine (some o) = true ∧ exec (arrivalRow o a) s = .next (arrive go mine a s) := by
  cases o
  case critical c =>
    refine ⟨goCritical none, (· == some (.critical c)), beq_self_eq_true _, ?_⟩
    cases c <;> rfl
  all_goals exact ⟨go, (· == some _), beq_self_eq_true _, rfl⟩

/-- Before its decision the Gate keeps the counts that a refusal shows. -/
theorem steady_atGate (s : State) (a : Arrival) : Steady s (atGate s a) := by
  have hstaged : Quiet s (stageWords (tagFor s a) 0 32
      (charge (if dOpcode (stagedDesc s a) == 0x40 && isHost a.ring then 2 else 0) s)) :=
    (quiet_stageWords ..).after (quiet_charge ..)
  unfold atGate gateReads
  split
  · exact (Quiet.ite (quiet_readContext ..) (.refl _)).toSteady.after hstaged.toSteady
  · exact hstaged.toSteady

/-- CTR_REFUSE_CNT counts a refusal for credit (R173). -/
def countForCredit (s : State) (a : Arrival) (q : Slot) : State :=
  let credit := refusedForCredit (atGate s a) a.ring (getRing s a.ring) q.t0 (stagedDesc s a) (decide (tagFor s a < 2048))
  { atGate s a with ctrs := { (atGate s a).ctrs with
      refuseCnt := if credit then sat32 (atGate s a).ctrs.refuseCnt else (atGate s a).ctrs.refuseCnt } }

/-- The state a refused descriptor leaves. -/
def afterRefusal (s : State) (a : Arrival) (q : Slot) (st : Status) : State :=
  placeRefills (refuseDesc a.ring (getRing s a.ring) q (stagedDesc s a) (tagFor s a) st (countForCredit s a q))

/-- A descriptor of the row that the Gate refuses takes the way of a refusal. -/
theorem arrive_of_refuse {go : Nat → State → State} {mine : Option Op → Bool} {a : Arrival} {s : State} {q : Slot}
    {st : Status} (hreach : reachesGate s a q) (hmine : mine (opOf (stagedDesc s a)) = true)
    (hrefuse : decision s a q = .refuse st) : arrive go mine a s = afterRefusal s a q st := by
  obtain ⟨hopen, hdenied, hcancelled⟩ := hreach
  unfold decision atGate at hrefuse
  unfold arrive
  dsimp only
  rw [hopen]
  dsimp only
  rw [hmine, hdenied, hcancelled, hrefuse]
  rfl

theorem steady_countForCredit (s : State) (a : Arrival) (q : Slot) : Steady s (countForCredit s a q) :=
  (steady_atGate s a).trans (.of_ids rfl rfl rfl)

theorem steady_placeRefills (s : State) : Steady s (placeRefills s) :=
  .of_ids (by simp only [placeRefills_frame]) (by simp only [placeRefills_frame]) (by simp only [placeRefills_frame])

theorem afterRefusal_frame (s : State) (a : Arrival) (q : Slot) (st : Status) :
    arrivalFrame s (afterRefusal s a q st) := by
  simp only [arrivalFrame, afterRefusal, placeRefills_frame, refuseDesc_frame, countForCredit, atGate, gateReads_frame,
    stageWords_frame, charge_frame, and_self]

theorem steady_afterRefusal (s : State) (a : Arrival) (q : Slot) (st : Status) :
    Steady (countRefusal (getRing s a.ring) (tagFor s a) (countForCredit s a q)) (afterRefusal s a q st) :=
  (steady_placeRefills _).after (steady_refuseDesc ..)

theorem afterRefusal_jobs (s : State) (a : Arrival) (q : Slot) (st : Status) :
    ∀ x ∈ jobsHeld (afterRefusal s a q st), x ∈ jobsHeld s :=
  fun x hx => (steady_countForCredit s a q).jobs x ((steady_afterRefusal s a q st).jobs x hx)

theorem afterRefusal_refused (s : State) (a : Arrival) (q : Slot) (st : Status) (c : Nat) :
    tblGet 0 (afterRefusal s a q st).gate.refused c =
      if c = clsCode (getRing s a.ring).cls then min 0xFFFFFFFF (tblGet 0 s.gate.refused c + 1)
      else tblGet 0 s.gate.refused c := by
  rw [(steady_afterRefusal s a q st).refused, refused_countRefusal, (steady_countForCredit s a q).refused]

/-- On a host ring the entry is issued, or kept for credit. -/
theorem afterRefusal_issues {s : State} {a : Arrival} {n : Nat} (hring : a.ring = .host n) (q : Slot) (st : Status) :
    let e := refusalRaw a.ring q (stagedDesc s a) (tagFor s a) st (countForCredit s a q)
    if s.link.creditStalled = true then (n, q.index, e) ∈ (afterRefusal s a q st).link.heldEntries
    else posts s (afterRefusal s a q st) (.entry n q.index e) := by
  have hentry := refuseDesc_host n (getRing s a.ring) q (stagedDesc s a) (tagFor s a) st (countForCredit s a q)
  have hcredit := steady_countForCredit s a q
  rw [hcredit.stalled, ← hring] at hentry
  dsimp only
  split at hentry
  · next h => simpa only [if_pos h, afterRefusal, placeRefills_frame] using hentry
  · next h =>
    rw [if_neg h]
    exact (steady_placeRefills _).posts (posts_of_steady hcredit hentry)

/-- The entry shows the fields of R122. -/
theorem readEntryFields_afterRefusal {s : State} {a : Arrival} {q : Slot} {n : Nat} (st : Status) (hring : a.ring = .host n)
    (hn : n < 64) (hq : q.index < 65536) :
    readEntryFields (refusalRaw a.ring q (stagedDesc s a) (tagFor s a) st (countForCredit s a q)) =
      refusalEntry s a q st := by
  rw [readEntryFields_refusalRaw _ _ _ _ (by rw [hring]; exact hn) hq, (steady_countForCredit s a q).band]
  rfl

/-- A row that brings the descriptor is an arrival that takes it. -/
theorem exec_bringing {i : Instr} {s : State} {a : Arrival}
    (h : (∃ o, opOf (stagedDesc s a) = some o ∧ i = arrivalRow o a) ∨
      (opOf (stagedDesc s a) = none ∧ i = .opcodeAbsentDescriptor a)) :
    ∃ go mine, mine (opOf (stagedDesc s a)) = true ∧ exec i s = .next (arrive go mine a s) := by
  obtain ⟨o, hop, rfl⟩ | ⟨hop, rfl⟩ := h
  · rw [hop]
    exact exec_arrivalRow o a s
  · rw [hop]
    exact ⟨go, (·.isNone), rfl, rfl⟩

/-- A descriptor of no operation is refused with REFUSED_CLASS (R114). -/
theorem decision_of_no_operation {s : State} {a : Arrival} (q : Slot) (h : opOf (stagedDesc s a) = none) :
    decision s a q = .refuse .refusedClass := by
  simp only [decision, decideOn, earlyRefusal, h]

/-- Settles O21: the row takes the way of a refusal; what the part does before and after the entry admits nothing and takes
nothing back, so the entry that it issues or keeps is there at the end. -/
theorem refusedDescriptorGetsItsEntry : Obligations.RefusedDescriptorGetsItsEntry := by
  unfold Obligations.RefusedDescriptorGetsItsEntry
  refine ⟨fun i s a q st hreach hrefuse hrow => ?_, fun s a q h => decision_of_no_operation q h⟩
  obtain ⟨go, mine, hmine, hexec⟩ := exec_bringing hrow
  rw [arrive_of_refuse hreach hmine hrefuse] at hexec
  exact ⟨_, hexec, afterRefusal_frame s a q st, afterRefusal_jobs s a q st, afterRefusal_refused s a q st,
    fun n hring hn hq => ⟨_, readEntryFields_afterRefusal st hring hn hq, afterRefusal_issues hring q st⟩⟩

end Sys2Proof.Machine
end
